-- ==== Sys2Proof/Word.lean ====
section
/-! DEFINITION. The words the manual speaks of: bytes, 32-bit words, lane masks, virtual and physical addresses
(R10, R21, R379, R391). -/

namespace Sys2Proof

/-- A byte of memory or scratch (R10). -/
abbrev Byte := BitVec 8
/-- A register or instruction word of 32 bits (R34, R72). -/
abbrev Word := BitVec 32
/-- A lane mask: bit `l` stands for lane `l` (R21, R28). -/
abbrev Mask := BitVec 64
/-- A virtual address, 57 bits (R391). -/
abbrev VAddr := BitVec 57

end Sys2Proof
end

