-- ==== Sys2Proof/Machine/Bits.lean ====
section
/-! DEFINITION. Bit patterns as natural numbers: the fields, the signed reading, wrapping and saturation (R10, R44, R45),
and the byte lists that memory holds. -/

namespace Sys2Proof.Machine

/-- Bits [lo+n-1 : lo] of `x` (R10). -/
def bits (x lo n : Nat) : Nat := x / 2 ^ lo % 2 ^ n

/-- Bit `i` of `x`. -/
def bit (x i : Nat) : Bool := x.testBit i

/-- A pattern of `w` bits read in two's complement (R44). -/
def toSigned (w x : Nat) : Int := if 2 * x < 2 ^ w then x else (x : Int) - 2 ^ w

/-- The value of a pattern of `w` bits, by signedness (R44). -/
def valueOf (signed : Bool) (w x : Nat) : Int := if signed then toSigned w x else x

/-- The pattern of an exact integer modulo 2^w (R45). -/
def wrap (w : Nat) (x : Int) : Nat := (x % 2 ^ w).toNat

/-- The least value of an integer type (R44). -/
def leastOf (signed : Bool) (w : Nat) : Int := if signed then -(2 ^ (w - 1)) else 0

/-- The greatest value of an integer type (R44). -/
def greatestOf (signed : Bool) (w : Nat) : Int := if signed then 2 ^ (w - 1) - 1 else 2 ^ w - 1

/-- How many bits `x` takes: 0 for 0, else 1 + floor(log2 x). -/
def bitLen (x : Nat) : Nat := if x = 0 then 0 else Nat.log2 x + 1

/-- The number of 1 bits among the low `w` bits. -/
def popCount : Nat → Nat → Nat
  | 0, _ => 0
  | w + 1, x => (if bit x w then 1 else 0) + popCount w x

/-- Sign extension of the low `w` bits to an integer. -/
def sext (w x : Nat) : Int := toSigned w (x % 2 ^ w)

/-- Little-endian bytes of `x`, `n` of them (R10). -/
def toBytes : Nat → Nat → List Byte
  | 0, _ => []
  | n + 1, x => BitVec.ofNat 8 x :: toBytes n (x / 256)

/-- The value of little-endian bytes (R10). -/
def ofBytes : List Byte → Nat
  | [] => 0
  | b :: bs => b.toNat + 256 * ofBytes bs

/-- A sum over 0..n-1. -/
def sumTo (n : Nat) (f : Nat → Nat) : Nat := (List.range n).foldl (fun acc i => acc + f i) 0

/-- The pattern of `n` elements of `w` bits, element 0 least significant (R44). -/
def packElems (w n : Nat) (f : Nat → Nat) : Nat := sumTo n (fun i => f i * 2 ^ (w * i))

/-- The pattern whose bit `i` is `f i`, for i below `n`. -/
def packBits (n : Nat) (f : Nat → Bool) : Nat := sumTo n (fun i => if f i then 2 ^ i else 0)

/-- The low `w` bits in reverse order: bit k moves to bit w-1-k. -/
def bitReverse (w x : Nat) : Nat := packBits w (fun i => bit x (w - 1 - i))

/-- The floor of `a * 2^e` for an integer exponent. -/
def scaleFloor (a : Int) (e : Int) : Int :=
  if 0 ≤ e then a * 2 ^ e.toNat else a / 2 ^ (-e).toNat

end Sys2Proof.Machine
end

