-- ==== Sys2Proof/Machine/Flags.lean ====
section
/-! DEFINITION. The sticky arithmetic flags of FSTAT (R38, R70) and how they meet (R71). -/

namespace Sys2Proof.Machine

/-- NV: invalid operation, FSTAT [0]. -/
def flagNV : Word := 1
/-- DZ: divide by zero, FSTAT [1]. -/
def flagDZ : Word := 2
/-- OF: overflow, FSTAT [2]. -/
def flagOF : Word := 4
/-- UF: underflow, FSTAT [3]. -/
def flagUF : Word := 8
/-- NX: inexact, FSTAT [4]. -/
def flagNX : Word := 16
/-- SAT: saturated, FSTAT [5]. -/
def flagSAT : Word := 32
/-- CLMP: clamped, FSTAT [6]. -/
def flagCLMP : Word := 64

/-- The flag word when `c` holds, else none. -/
def flagIf (c : Bool) (f : Word) : Word := if c then f else 0

/-- sat(x, type) of R45: the value in range, and SAT when it was changed. -/
def satInt (signed : Bool) (w : Nat) (x : Int) : Int × Word :=
  if x < leastOf signed w then (leastOf signed w, flagSAT)
  else if greatestOf signed w < x then (greatestOf signed w, flagSAT)
  else (x, 0)

/-- The "wrap/sat" result of R105: the pattern modulo 2^w with SAT clear, sat() with SAT set. -/
def wrapSat (sat signed : Bool) (w : Nat) (x : Int) : Nat × Word :=
  if sat then (wrap w (satInt signed w x).1, (satInt signed w x).2) else (wrap w x, 0)

end Sys2Proof.Machine
end

