-- ==== Sys2Proof/Machine/Float.lean ====
section
/-! DEFINITION. The floating-point formats, exact values and round() (R46 to R53, R55 to R57, R64, R65). A finite value is a
sign, a magnitude and a binary exponent; a value that is not a dyadic number carries a magnitude whose last bit is a
sticky bit, placed below every bit that rounding looks at. -/

namespace Sys2Proof.Machine

/-- A binary interchange format: exponent bits and fraction bits (R46). -/
structure FFmt where
  eb : Nat
  fb : Nat
  deriving DecidableEq, Repr

/-- FP16 (R46). -/
def fp16 : FFmt := ⟨5, 10⟩
/-- BF16 (R46). -/
def bf16 : FFmt := ⟨8, 7⟩
/-- FP32 (R46). -/
def fp32 : FFmt := ⟨8, 23⟩
/-- FP64 (R46). -/
def fp64 : FFmt := ⟨11, 52⟩

/-- An exact value (R50): a NaN (signalling or quiet, R47), an infinity, or (-1)^neg * m * 2^e. -/
inductive FVal where
  | nan (signalling : Bool)
  | inf (neg : Bool)
  | fin (neg : Bool) (m : Nat) (e : Int)
  deriving DecidableEq, Repr

/-- The rounding modes of R50; SR carries its 64-bit key. -/
inductive RMode where
  | rne
  | rtz
  | rdn
  | rup
  | sr (key : Nat)
  deriving DecidableEq, Repr

/-- RND of R77 and FCTL.RM of R38. -/
def rmodeOfCode : Nat → RMode
  | 0 => .rne
  | 1 => .rtz
  | 2 => .rdn
  | _ => .rup

def fmtBits (f : FFmt) : Nat := 1 + f.eb + f.fb
def fmtBias (f : FFmt) : Int := 2 ^ (f.eb - 1) - 1
/-- The exponent of the smallest normal. -/
def fmtEmin (f : FFmt) : Int := 1 - fmtBias f
/-- The exponent of the denormal grid's unit. -/
def fmtGrid (f : FFmt) : Int := fmtEmin f - f.fb
def fmtExpMax (f : FFmt) : Nat := 2 ^ f.eb - 1
/-- The pattern with a sign, a biased exponent and a fraction. -/
def fmtEncode (f : FFmt) (neg : Bool) (ex fr : Nat) : Nat :=
  (if neg then 2 ^ (f.eb + f.fb) else 0) + ex * 2 ^ f.fb + fr
def fmtInf (f : FFmt) (neg : Bool) : Nat := fmtEncode f neg (fmtExpMax f) 0
def fmtMax (f : FFmt) (neg : Bool) : Nat := fmtEncode f neg (fmtExpMax f - 1) (2 ^ f.fb - 1)
def fmtZero (f : FFmt) (neg : Bool) : Nat := fmtEncode f neg 0 0
/-- The canonical NaN (R46, R47). -/
def fmtNan (f : FFmt) : Nat := fmtEncode f false (fmtExpMax f) (2 ^ (f.fb - 1))

def fmtNeg (f : FFmt) (x : Nat) : Bool := bit x (f.eb + f.fb)
def fmtExp (f : FFmt) (x : Nat) : Nat := bits x f.fb f.eb
def fmtFrac (f : FFmt) (x : Nat) : Nat := bits x 0 f.fb

/-- The value an encoding stands for (R46, R47). -/
def fDecode (f : FFmt) (x : Nat) : FVal :=
  if fmtExp f x = fmtExpMax f then
    if fmtFrac f x = 0 then .inf (fmtNeg f x) else .nan (!bit x (f.fb - 1))
  else if fmtExp f x = 0 then .fin (fmtNeg f x) (fmtFrac f x) (fmtGrid f)
  else .fin (fmtNeg f x) (2 ^ f.fb + fmtFrac f x) (fmtGrid f + (fmtExp f x - 1 : Nat))

/-- An operand of a lane float instruction: under FTZ a denormal is a zero of its own sign (R51). -/
def fOperand (ftz : Bool) (f : FFmt) (x : Nat) : FVal :=
  if ftz && fmtExp f x == 0 then .fin (fmtNeg f x) 0 0 else fDecode f x

/-- Negation inverts the sign bit (R79). -/
def fNegBits (f : FFmt) (x : Nat) : Nat := if fmtNeg f x then x - 2 ^ (f.eb + f.fb) else x + 2 ^ (f.eb + f.fb)

/-- Whether a discarded part rounds the kept magnitude up: `r` of `2^k` is discarded from a value of sign `neg` whose
kept magnitude is `q` (R50, R65). -/
def roundsUp (mode : RMode) (neg : Bool) (q r k : Nat) : Bool :=
  match mode with
  | .rne => decide (2 ^ k < 2 * r) || (decide (2 * r = 2 ^ k) && q % 2 == 1)
  | .rtz => false
  | .rdn => neg && decide (0 < r)
  | .rup => !neg && decide (0 < r)
  | .sr key => decide (2 ^ 24 ≤ r * 2 ^ 24 / 2 ^ k + bits key 40 24)

/-- The magnitude `m * 2^e` on the grid of unit `2^g`: units kept, and whether a bit was discarded. -/
def roundGrid (mode : RMode) (neg : Bool) (m : Nat) (e g : Int) : Nat × Bool :=
  if g ≤ e then (m * 2 ^ (e - g).toNat, false)
  else
    let k := (g - e).toNat
    let q := m / 2 ^ k
    let r := m % 2 ^ k
    (if roundsUp mode neg q r k then q + 1 else q, decide (r ≠ 0))

/-- What an overflow becomes: the table of R50, or the largest finite value with the saturate bit (R52). -/
def fOverflow (f : FFmt) (mode : RMode) (sat neg : Bool) : Nat × Word :=
  if sat then (fmtMax f neg, flagOF ||| flagNX ||| flagSAT)
  else
    (match mode with
      | .rne | .sr _ => fmtInf f neg
      | .rtz => fmtMax f neg
      | .rdn => if neg then fmtInf f neg else fmtMax f neg
      | .rup => if neg then fmtMax f neg else fmtInf f neg, flagOF ||| flagNX)

/-- How a lane instruction rounds: its mode, FTZ of FCTL and the saturate bit. -/
structure RoundCtl where
  mode : RMode
  ftz : Bool
  sat : Bool
  deriving DecidableEq, Repr

/-- round() of a non-zero magnitude (R50, R51, R52). Tininess is found after rounding with an unbounded exponent. -/
def roundMag (f : FFmt) (c : RoundCtl) (neg : Bool) (m : Nat) (e : Int) : Nat × Word :=
  let p := f.fb + 1
  let top : Int := e + bitLen m
  let free := roundGrid c.mode neg m e (top - p)
  let freeTop : Int := (top - p) + bitLen free.1
  let tiny := decide (freeTop ≤ fmtEmin f)
  if tiny && c.ftz then (fmtZero f neg, flagUF ||| flagNX)
  else
    let g := if top - p < fmtGrid f then fmtGrid f else top - p
    let r := roundGrid c.mode neg m e g
    let q := if r.1 = 2 ^ p then 2 ^ f.fb else r.1
    let g := if r.1 = 2 ^ p then g + 1 else g
    let ex : Int := g - fmtGrid f + 1
    if (fmtExpMax f : Int) ≤ ex ∧ 2 ^ f.fb ≤ q then fOverflow f c.mode c.sat neg
    else
      let pat := if q < 2 ^ f.fb then fmtEncode f neg 0 q else fmtEncode f neg ex.toNat (q - 2 ^ f.fb)
      (pat, flagIf r.2 flagNX ||| flagIf (tiny && r.2) flagUF)

/-- round(x, fmt, mode, key) of R50; a NaN gives the canonical NaN, and NV when it is signalling (R48). -/
def fRound (f : FFmt) (c : RoundCtl) (x : FVal) : Nat × Word :=
  match x with
  | .nan s => (fmtNan f, flagIf s flagNV)
  | .inf neg => (fmtInf f neg, 0)
  | .fin neg m e => if m = 0 then (fmtZero f neg, 0) else roundMag f c neg m e

/-- The canonical NaN with NV (R48, R70). -/
def fInvalid (f : FFmt) : Nat × Word := (fmtNan f, flagNV)

/-- Whether a value is a signalling NaN. -/
def fIsSnan : FVal → Bool
  | .nan s => s
  | _ => false

def fIsNan : FVal → Bool
  | .nan _ => true
  | _ => false

/-- The signed integer of a magnitude. -/
def signedMag (neg : Bool) (m : Nat) : Int := if neg then -(m : Int) else m

/-- The exact sum of two finite values; an exact zero sum of opposite signs is -0 in RDN and +0 else (R53). -/
def fAddFin (mode : RMode) (na : Bool) (ma : Nat) (ea : Int) (nb : Bool) (mb : Nat) (eb : Int) : FVal :=
  let e := if ea < eb then ea else eb
  let s : Int := signedMag na ma * 2 ^ (ea - e).toNat + signedMag nb mb * 2 ^ (eb - e).toNat
  if s = 0 then .fin (if na = nb then na else decide (mode = .rdn)) 0 0
  else .fin (decide (s < 0)) s.natAbs e

/-- The exact a + b with the invalid cases of R48 and R53. -/
def fAddVal (f : FFmt) (c : RoundCtl) (a b : FVal) : Nat × Word :=
  match a, b with
  | .nan s, .nan t => (fmtNan f, flagIf (s || t) flagNV)
  | .nan s, _ => (fmtNan f, flagIf s flagNV)
  | _, .nan t => (fmtNan f, flagIf t flagNV)
  | .inf x, .inf y => if x = y then (fmtInf f x, 0) else fInvalid f
  | .inf x, .fin _ _ _ => (fmtInf f x, 0)
  | .fin _ _ _, .inf y => (fmtInf f y, 0)
  | .fin na ma ea, .fin nb mb eb => fRound f c (fAddFin c.mode na ma ea nb mb eb)

/-- The negation of a value. -/
def fNegVal : FVal → FVal
  | .nan s => .nan s
  | .inf n => .inf (!n)
  | .fin n m e => .fin (!n) m e

/-- The exact product, `none` for 0 times infinity (R48). NaN operands are handled by the callers. -/
def fMulVal (a b : FVal) : Option FVal :=
  match a, b with
  | .nan s, .nan t => some (.nan (s || t))
  | .nan s, _ => some (.nan s)
  | _, .nan t => some (.nan t)
  | .inf x, .inf y => some (.inf (x != y))
  | .inf x, .fin y m _ => if m = 0 then none else some (.inf (x != y))
  | .fin x m _, .inf y => if m = 0 then none else some (.inf (x != y))
  | .fin x m e, .fin y n g => some (.fin (x != y) (m * n) (e + g))

/-- FMUL and DMUL (R53). -/
def fMul (f : FFmt) (c : RoundCtl) (a b : FVal) : Nat × Word :=
  match fMulVal a b with
  | none => fInvalid f
  | some p => fRound f c p

/-- FFMA and DFMA: one rounding; a product 0 times infinity sets NV whatever c is (R48, R53). -/
def fFma (f : FFmt) (c : RoundCtl) (a b d : FVal) : Nat × Word :=
  match fMulVal a b with
  | none => fInvalid f
  | some p => fAddVal f c p d

/-- The quotient of two non-zero magnitudes with a sticky last bit: at least `k` bits. -/
def quotSticky (ma mb k : Nat) : Nat :=
  let n := ma * 2 ^ k
  2 * (n / mb) + (if n % mb = 0 then 0 else 1)

/-- FDIV (R53, R54). -/
def fDiv (f : FFmt) (c : RoundCtl) (a b : FVal) : Nat × Word :=
  match a, b with
  | .nan s, .nan t => (fmtNan f, flagIf (s || t) flagNV)
  | .nan s, _ => (fmtNan f, flagIf s flagNV)
  | _, .nan t => (fmtNan f, flagIf t flagNV)
  | .inf _, .inf _ => fInvalid f
  | .inf x, .fin y _ _ => (fmtInf f (x != y), 0)
  | .fin x _ _, .inf y => (fmtZero f (x != y), 0)
  | .fin x ma ea, .fin y mb eb =>
    if mb = 0 then (if ma = 0 then fInvalid f else (fmtInf f (x != y), flagDZ))
    else if ma = 0 then (fmtZero f (x != y), 0)
    else
      let k := 2 * f.fb + 8 + bitLen mb
      roundMag f c (x != y) (quotSticky ma mb k) (ea - eb - k - 1)

/-- One step of the bitwise integer square root: `r` is the root so far, `i` the next bit. -/
def isqrtGo (n : Nat) : Nat → Nat → Nat
  | 0, r => r
  | i + 1, r => let t := r + 2 ^ i; isqrtGo n i (if t * t ≤ n then t else r)

/-- floor(√n). -/
def isqrt (n : Nat) : Nat := isqrtGo n (bitLen n / 2 + 1) 0

/-- √(m * 2^e) with a sticky last bit: the magnitude and its exponent. -/
def sqrtSticky (m : Nat) (e : Int) (k : Nat) : Nat × Int :=
  let odd := e % 2 = 1
  let n := m * 2 ^ (2 * k + (if odd then 1 else 0))
  let r := isqrt n
  (2 * r + (if r * r = n then 0 else 1), (e - (if odd then 1 else 0)) / 2 - k - 1)

/-- FSQRT (R53, R54). -/
def fSqrt (f : FFmt) (c : RoundCtl) (a : FVal) : Nat × Word :=
  match a with
  | .nan s => (fmtNan f, flagIf s flagNV)
  | .inf neg => if neg then fInvalid f else (fmtInf f false, 0)
  | .fin neg m e =>
    if m = 0 then (fmtZero f neg, 0)
    else if neg then fInvalid f
    else let r := sqrtSticky m e (f.fb + 4); roundMag f c false r.1 r.2

/-- FRCP (R54). -/
def fRcp (f : FFmt) (c : RoundCtl) (a : FVal) : Nat × Word := fDiv f c (.fin false 1 0) a

/-- FRSQ (R54): 1/√(m 2^e), exact when the quotient is a square. -/
def fRsq (f : FFmt) (c : RoundCtl) (a : FVal) : Nat × Word :=
  match a with
  | .nan s => (fmtNan f, flagIf s flagNV)
  | .inf neg => if neg then fInvalid f else (fmtZero f false, 0)
  | .fin neg m e =>
    if m = 0 then (fmtInf f neg, flagDZ)
    else if neg then fInvalid f
    else
      let odd := e % 2 = 1
      let m := if odd then 2 * m else m
      let e := if odd then e - 1 else e
      let k := 2 * (f.fb + 4) + 2 * (bitLen m)
      let n := 2 ^ (2 * k)
      let r := isqrt (n / m)
      roundMag f c false (2 * r + (if r * r * m = n then 0 else 1)) (-(e / 2) - k - 1)

/-- The order of two values that are no NaN: whether a < b as real numbers, zeros equal. -/
def fLt (a b : FVal) : Bool :=
  match a, b with
  | .inf x, .inf y => x && !y
  | .inf x, .fin _ _ _ => x
  | .fin _ _ _, .inf y => !y
  | .fin na ma ea, .fin nb mb eb =>
    let e := if ea < eb then ea else eb
    decide (signedMag na ma * 2 ^ (ea - e).toNat < signedMag nb mb * 2 ^ (eb - e).toNat)
  | _, _ => false

/-- Equality as real numbers, -0 equal to +0 (R108). -/
def fEq (a b : FVal) : Bool := !fIsNan a && !fIsNan b && !fLt a b && !fLt b a

def fIsNeg : FVal → Bool
  | .nan _ => false
  | .inf n => n
  | .fin n _ _ => n

/-- FMIN (`max = false`) and FMAX (R49): the operand unchanged, -0 less than +0. `x` and `y` are the operands' own
encodings after the flush of FTZ. R48 takes both out of its rule of NV, and R49 names no flag: none is set (DEDUCED, log 25). -/
def fMinMax (f : FFmt) (max : Bool) (x y : Nat) : Nat × Word :=
  let a := fDecode f x
  let b := fDecode f y
  if fIsNan a || fIsNan b then (fmtNan f, 0)
  else
    let aLess := fLt a b || (fEq a b && fIsNeg a && !fIsNeg b)
    (if aLess != max then x else y, 0)

/-- The encoding of an operand after the flush of FTZ (R51). -/
def fFlush (ftz : Bool) (f : FFmt) (x : Nat) : Nat :=
  if ftz && fmtExp f x == 0 then fmtZero f (fmtNeg f x) else x

/-- FCMP and DCMP by sub (R108): the truth and the flags. -/
def fCmp (sub : Nat) (a b : FVal) : Bool × Word :=
  let un := fIsNan a || fIsNan b
  let ordered := sub == 2 || sub == 3 || sub == 4 || sub == 5
  let fl := flagIf (if ordered then un else fIsSnan a || fIsSnan b) flagNV
  (match sub with
    | 0 => fEq a b
    | 1 => un || !fEq a b
    | 2 => !un && fLt a b
    | 3 => !un && !fLt b a
    | 4 => !un && fLt b a
    | 5 => !un && !fLt a b
    | 6 => un
    | _ => !un, fl)

/-- FCLASS (R108). -/
def fClass (f : FFmt) (x : Nat) : Nat :=
  let neg := fmtNeg f x
  match fDecode f x with
  | .nan s => if s then 2 ^ 8 else 2 ^ 9
  | .inf _ => if neg then 1 else 2 ^ 7
  | .fin _ m _ =>
    if m = 0 then (if neg then 2 ^ 3 else 2 ^ 4)
    else if fmtExp f x = 0 then (if neg then 2 ^ 2 else 2 ^ 5)
    else if neg then 2 else 2 ^ 6

/-- FRND (R108): the integral value, NX only with `exact`. -/
def fRnd (f : FFmt) (c : RoundCtl) (exact : Bool) (a : FVal) : Nat × Word :=
  match a with
  | .fin neg m e =>
    let r := roundGrid c.mode neg m e 0
    let out := fRound f ⟨.rne, c.ftz, false⟩ (.fin neg r.1 0)
    (out.1, flagIf (exact && r.2) flagNX)
  | v => fRound f c v

/-- FSCALE (R107): a times 2^b exactly, then one rounding. A |b| of 1 024 already takes every non-zero .f32 past both
ends of the format, where a greater |b| rounds to the same result with the same flags. -/
def fScale (f : FFmt) (c : RoundCtl) (a : FVal) (b : Int) : Nat × Word :=
  match a with
  | .fin neg m e => fRound f c (.fin neg m (e + (if b < -1024 then -1024 else if 1024 < b then 1024 else b)))
  | v => fRound f c v

/-- The magnitude of a float rounded to an integer in the mode, and whether it changed (R56, R65). -/
def fToIntExact (mode : RMode) (neg : Bool) (m : Nat) (e : Int) : Int × Bool :=
  let r := roundGrid mode neg m e 0
  (signedMag neg r.1, r.2)

/-- Float to integer conversion (R56). -/
def fToInt (mode : RMode) (signed : Bool) (w : Nat) (a : FVal) : Nat × Word :=
  match a with
  | .nan _ => (0, flagNV)
  | .inf neg => (wrap w (if neg then leastOf signed w else greatestOf signed w), flagNV ||| flagSAT)
  | .fin neg m e =>
    let r := fToIntExact mode neg m e
    if r.1 < leastOf signed w then (wrap w (leastOf signed w), flagNV ||| flagSAT)
    else if greatestOf signed w < r.1 then (wrap w (greatestOf signed w), flagNV ||| flagSAT)
    else (wrap w r.1, flagIf r.2 flagNX)

/-- Integer to float conversion (R57). -/
def intToF (f : FFmt) (c : RoundCtl) (x : Int) : Nat × Word :=
  fRound f c (.fin (decide (x < 0)) x.natAbs 0)

/-- sr_key(rank, step, index) of R64. -/
def srKey (rank stp index : Nat) : Nat :=
  let m := 2 ^ 64
  let x := (index % m + rank % 2 ^ 32 * 0x8F3D61A52C97E4B1) % m
  let x := (x ^^^ (stp % 2 ^ 32 * 0xE4C71D39A65B08F7 % m)) % m
  let x := (x ^^^ (x / 2 ^ 31)) * 0x9B217C4ED3F56A85 % m
  let x := (x ^^^ (x / 2 ^ 29)) * 0xC6A3F05D2B891E6D % m
  x ^^^ (x / 2 ^ 32)

end Sys2Proof.Machine
end

