-- ==== Sys2Proof/Machine/Elementary.lean ====
section
/-! DEFINITION. The elementary functions of R54: exact results first, then an irrational value as a fixed-point number of
`fixBits` fraction bits with a sticky last bit (DEDUCED, log 13: no .f32 input lies so near a rounding boundary that
2^-256 decides). -/

namespace Sys2Proof.Machine

/-- Fraction bits of the fixed-point values. -/
def fixBits : Nat := 288

/-- 1 in fixed point. -/
def fixOne : Nat := 2 ^ fixBits

def fixMul (a b : Nat) : Nat := a * b / fixOne

/-- atan or atanh of z by its series: the terms z^(2k+1)/(2k+1) from k, with alternating sign for atan. `pw` is
z^(2k+1), `z2` is z². -/
def atanSeries (alt : Bool) (z2 : Nat) : Nat → Nat → Nat → Int → Int
  | 0, _, _, acc => acc
  | n + 1, k, pw, acc =>
    let t : Int := pw / (2 * k + 1)
    atanSeries alt z2 n (k + 1) (fixMul pw z2) (if alt && k % 2 == 1 then acc - t else acc + t)

/-- ln y for y in [1, 2] in fixed point: 2 atanh((y-1)/(y+1)). -/
def fixLn (y : Nat) : Nat :=
  let z := (y - fixOne) * fixOne / (y + fixOne)
  (2 * atanSeries false (fixMul z z) 96 0 z 0).toNat

/-- ln 2. -/
def fixLn2 : Nat := fixLn (2 * fixOne)

/-- π = 16 atan(1/5) - 4 atan(1/239). -/
def fixPi : Nat :=
  let a := fixOne / 5
  let b := fixOne / 239
  (16 * atanSeries true (fixMul a a) 66 0 a 0 - 4 * atanSeries true (fixMul b b) 24 0 b 0).toNat

/-- The exponential series from term k: `t` is x^k/k!. -/
def expSeries (x : Nat) : Nat → Nat → Nat → Nat → Nat
  | 0, _, _, acc => acc
  | n + 1, k, t, acc => expSeries x n (k + 1) (fixMul t x / (k + 1)) (acc + t)

/-- 2^f for f in [0, 1) in fixed point. -/
def fixExp2 (f : Nat) : Nat := expSeries (fixMul f fixLn2) 70 0 fixOne 0

/-- The series of sin(t)/t from term k in t²; `p` is t^(2k)/(2k+1)!. -/
def sincSeries (t2 : Nat) : Nat → Nat → Nat → Int → Int
  | 0, _, _, acc => acc
  | n + 1, k, p, acc =>
    sincSeries t2 n (k + 1) (fixMul p t2 / ((2 * k + 2) * (2 * k + 3))) (if k % 2 == 1 then acc - p else acc + p)

/-- A finite value as a fixed-point magnitude (floor). -/
def fixOf (m : Nat) (e : Int) : Nat :=
  let s := e + fixBits
  if 0 ≤ s then m * 2 ^ s.toNat else m / 2 ^ (-s).toNat

/-- Rounds an irrational magnitude known as `x * 2^e` from below: a sticky bit is appended. -/
def roundSticky (f : FFmt) (c : RoundCtl) (neg : Bool) (x : Nat) (e : Int) : Nat × Word :=
  roundMag f c neg (2 * x + 1) (e - 1)

/-- The magnitude just below `m * 2^e` (a value between it and its neighbour 64 bits further down). -/
def roundJustBelow (f : FFmt) (c : RoundCtl) (neg : Bool) (m : Nat) (e : Int) : Nat × Word :=
  roundSticky f c neg (m * 2 ^ 64 - 1) (e - 64)

/-- The magnitude just above `m * 2^e`. -/
def roundJustAbove (f : FFmt) (c : RoundCtl) (neg : Bool) (m : Nat) (e : Int) : Nat × Word :=
  roundSticky f c neg (m * 2 ^ 64) (e - 64)

/-- Whether m * 2^e is an integer. -/
def finIsInt (m : Nat) (e : Int) : Bool := decide (0 ≤ e) || m % 2 ^ (-e).toNat == 0

/-- The integer m * 2^e, floored. -/
def finFloor (m : Nat) (e : Int) : Nat := if 0 ≤ e then m * 2 ^ e.toNat else m / 2 ^ (-e).toNat

/-- 2^(n + f) for an integer n and a fixed-point f in (0, 1). -/
def roundExp2 (f : FFmt) (c : RoundCtl) (n : Int) (fr : Nat) : Nat × Word :=
  roundSticky f c false (fixExp2 fr) (n - fixBits)

/-- FEXP2 (R54). -/
def fExp2 (f : FFmt) (c : RoundCtl) (a : FVal) : Nat × Word :=
  match a with
  | .nan s => (fmtNan f, flagIf s flagNV)
  | .inf neg => (if neg then fmtZero f false else fmtInf f false, 0)
  | .fin neg m e =>
    if m = 0 then roundMag f c false 1 0
    else if (11 : Int) < e + bitLen m then roundMag f c false 1 (if neg then -1024 else 1024)
    else if finIsInt m e then roundMag f c false 1 (signedMag neg (finFloor m e))
    else if e + bitLen m < -60 then (if neg then roundJustBelow f c false 1 0 else roundJustAbove f c false 1 0)
    else
      let x := fixOf m e
      let n := x / fixOne
      let fr := x % fixOne
      if neg then roundExp2 f c (-(n : Int) - 1) (fixOne - fr) else roundExp2 f c n fr

/-- FLOG2 (R54): exact for powers of two. -/
def fLog2 (f : FFmt) (c : RoundCtl) (a : FVal) : Nat × Word :=
  match a with
  | .nan s => (fmtNan f, flagIf s flagNV)
  | .inf neg => if neg then fInvalid f else (fmtInf f false, 0)
  | .fin neg m e =>
    if m = 0 then (fmtInf f true, flagDZ)
    else if neg then fInvalid f
    else
      let n : Int := e + bitLen m - 1
      if m = 2 ^ (bitLen m - 1) then fRound f c (.fin (decide (n < 0)) n.natAbs 0)
      else
        let y := m * 2 ^ (fixBits + 1 - bitLen m)
        let l := fixLn y * fixOne / fixLn2
        let v : Int := n * fixOne + l
        if v < 0 then roundSticky f c true (v.natAbs - 1) (-fixBits) else roundSticky f c false v.natAbs (-fixBits)

/-- sin(π m 2^e) for 0 < m 2^e ≤ 1/2, not exact unless it is 1/2: π m 2^e times the series of sin(t)/t. -/
def roundSinPi (f : FFmt) (c : RoundCtl) (neg : Bool) (m : Nat) (e : Int) : Nat × Word :=
  if m * 2 = 2 ^ (-e).toNat then roundMag f c neg 1 0
  else if e + bitLen m < -60 then roundSticky f c neg (m * fixPi) (e - fixBits)
  else
    let t := fixMul fixPi (fixOf m e)
    let s := (sincSeries (fixMul t t) 48 0 fixOne 0).toNat
    roundSticky f c neg (m * fixMul fixPi s) (e - fixBits)

/-- 1/2 - m 2^e, for 0 < m 2^e < 1/2, over the exponent e ≤ -2. -/
def halfMinus (m : Nat) (e : Int) : Nat := 2 ^ (-e - 1).toNat - m

/-- FSINPI (R54): x is reduced exactly modulo 2. -/
def fSinPi (f : FFmt) (c : RoundCtl) (a : FVal) : Nat × Word :=
  match a with
  | .nan s => (fmtNan f, flagIf s flagNV)
  | .inf _ => fInvalid f
  | .fin neg m e =>
    if finIsInt m e then (fmtZero f neg, 0)
    else
      let k := (-e).toNat
      let odd := finFloor m e % 2 == 1
      let r := m % 2 ^ k
      roundSinPi f c (neg != odd) (if 2 * r ≤ 2 ^ k then r else 2 ^ k - r) e

/-- FCOSPI (R54): cos(πr) = sin(π(1/2 - r)). -/
def fCosPi (f : FFmt) (c : RoundCtl) (a : FVal) : Nat × Word :=
  match a with
  | .nan s => (fmtNan f, flagIf s flagNV)
  | .inf _ => fInvalid f
  | .fin _ m e =>
    if finIsInt m e then roundMag f c (finFloor m e % 2 == 1) 1 0
    else
      let k := (-e).toNat
      let odd := finFloor m e % 2 == 1
      let r := m % 2 ^ k
      if 2 * r = 2 ^ k then (fmtZero f false, 0)
      else
        let far := decide (2 ^ k < 2 * r)
        let r := if far then 2 ^ k - r else r
        if e + bitLen r < -60 then roundJustBelow f c (odd != far) 1 0
        else roundSinPi f c (odd != far) (halfMinus r e) e

/-- FTANH (R54). -/
def fTanh (f : FFmt) (c : RoundCtl) (a : FVal) : Nat × Word :=
  match a with
  | .nan s => (fmtNan f, flagIf s flagNV)
  | .inf neg => roundMag f c neg 1 0
  | .fin neg m e =>
    if m = 0 then (fmtZero f neg, 0)
    else if (6 : Int) < e + bitLen m then roundJustBelow f c neg 1 0
    else if e + bitLen m < -60 then roundJustBelow f c neg m e
    else
      let y := 2 * fixOf m e * fixOne / fixLn2
      let x := fixExp2 (y % fixOne) * 2 ^ (y / fixOne)
      roundSticky f c neg ((x - fixOne) * fixOne * 2 ^ 64 / (x + fixOne)) (-fixBits - 64)

end Sys2Proof.Machine
end

