-- ==== Sys2Proof/Machine/Planes.lean ====
section
/-! DEFINITION. Nested bit-plane integers, quantisation to them, and the plane array's summation (R58, R59, R63, R66 to
R69). -/

namespace Sys2Proof.Machine

/-- plane_value(bits, k) of R58, `bits[0]` being the sign plane. -/
def planeValue (b : Nat → Bool) (k : Nat) : Int :=
  (if b 0 then -(2 ^ (k - 1)) else 0) + (sumTo (k - 1) (fun j => if b (j + 1) then 2 ^ (k - 2 - j) else 0) : Nat)

/-- Whether `lo ≤ (±m 2^e) / 2^s ≤ hi` for lo = -2^(P-1), hi = 2^(P-1) - 1 (R63). -/
def quantFits (p : Nat) (neg : Bool) (m : Nat) (e s : Int) : Bool :=
  let bound : Nat := if neg then 2 ^ (p - 1) else 2 ^ (p - 1) - 1
  let k := e - s
  if 0 ≤ k then decide (m * 2 ^ k.toNat ≤ bound) else decide (m ≤ bound * 2 ^ (-k).toNat)

/-- Whether a value is a NaN or an infinity. -/
def fIsSpecial : FVal → Bool
  | .fin _ _ _ => false
  | _ => true

/-- Whether scale byte `e` keeps every element of a K-block in range (R63). -/
def quantScaleFits (p : Nat) (xs : List FVal) (e : Nat) : Bool :=
  xs.all fun
    | .fin neg m ex => quantFits p neg m ex ((e : Int) - 127)
    | _ => false

/-- The least scale byte of R63, 254 when none fits. -/
def quantScale (p : Nat) (xs : List FVal) : Nat :=
  ((List.range 255).find? (quantScaleFits p xs)).getD 254

/-- One element of R63: q, and the flags of its rounding. -/
def quantElem (p : Nat) (e : Nat) (mode : RMode) (x : FVal) : Int × Word :=
  match x with
  | .fin neg m ex =>
    let r := fToIntExact mode neg m (ex - ((e : Int) - 127))
    let s := satInt true p r.1
    (s.1, s.2 ||| flagIf r.2 flagNX)
  | _ => (0, 0)

/-- quantise() of R63: the scale byte, the elements and the flags. `mode i` is element i's rounding. -/
def quantise (p : Nat) (mode : Nat → RMode) (xs : List FVal) : Nat × List Int × Word :=
  if xs.any fIsSpecial then (0xFF, xs.map (fun _ => 0), flagNV)
  else
    let e := quantScale p xs
    let qs := (List.range xs.length).map (fun i => quantElem p e (mode i) (xs.getD i (.fin false 0 0)))
    (e, qs.map Prod.fst, qs.foldl (fun acc q => acc ||| q.2) 0)

/-- The register image of plane j of the elements q (R58, R60). -/
def planeImage (p j : Nat) (qs : List Int) : Nat :=
  packBits qs.length (fun i => bit (wrap p (qs.getD i 0)) (p - 1 - j))

/-- One scalar of a format as an exact value. -/
def isZeroVal : FVal → Bool
  | .fin _ m _ => m == 0
  | _ => false

/-- floor(log2 |x|) of a finite non-zero value. -/
def fLog2Floor : FVal → Int
  | .fin _ m e => e + bitLen m - 1
  | _ => 0

/-- The greatest of a list of exponents. -/
def maxExp : List Int → Int
  | [] => 0
  | [x] => x
  | x :: xs => let r := maxExp xs; if x < r then r else x

/-- floor(p / q) in units q = 2^g, and whether a non-zero bit is discarded (R67, R69). -/
def truncUnits (g : Int) : FVal → Int × Bool
  | .fin neg m e =>
    if g ≤ e then (signedMag neg m * 2 ^ (e - g).toNat, false)
    else (signedMag neg m / 2 ^ (g - e).toNat, decide (m % 2 ^ (g - e).toNat ≠ 0))
  | _ => (0, false)

/-- A sum of infinities: none, one sign, or both. -/
def infSigns (vs : List FVal) : Bool × Bool :=
  (vs.any (fun v => decide (v = .inf false)), vs.any (fun v => decide (v = .inf true)))

/-- How the plane array rounds: RNE, never flushing (R38, R51). -/
def mmaRound : RoundCtl := ⟨.rne, false, false⟩

/-- c + s for an FP32 pattern c and an exact finite s: +0 when the sum is 0, else one rounding. -/
def accAdd (c : Nat) (neg : Bool) (m : Nat) (e : Int) : Nat × Word :=
  match fDecode fp32 c with
  | .fin nc mc ec =>
    match fAddFin .rne nc mc ec neg m e with
    | .fin n k x => if k = 0 then (0, 0) else fRound fp32 mmaRound (.fin n k x)
    | _ => (0, 0)
  | _ => (c, 0)

/-- mma_step of R67 with the flags of R69: c is an FP32 pattern, a and b are element values. -/
def mmaStep (c : Nat) (a b : List FVal) : Nat × Word :=
  let cv := fDecode fp32 c
  let ps := (a.zip b).map (fun ab => fMulVal ab.1 ab.2)
  let vals := ps.map (fun p => p.getD (.nan false))
  let inf := infSigns (cv :: vals)
  let invalid := ps.any Option.isNone || (inf.1 && inf.2) || fIsSnan cv || a.any fIsSnan || b.any fIsSnan
  if fIsNan cv || vals.any fIsNan || (inf.1 && inf.2) then (fmtNan fp32, flagIf invalid flagNV)
  else if inf.1 || inf.2 then (fmtInf fp32 inf.2, 0)
  else if vals.all isZeroVal then (c, 0)
  else
    let g := maxExp ((vals.filter (fun v => !isZeroVal v)).map fLog2Floor) - 56
    let ts := vals.map (truncUnits g)
    let s : Int := ts.foldl (fun acc t => acc + t.1) 0
    let r := accAdd c (decide (s < 0)) s.natAbs g
    (r.1, r.2 ||| flagIf (ts.any Prod.snd) flagNX)

/-- mma_step_bp of R68 with the flags of R69: plane patterns (bit 0 the sign plane) of the row and the column, their
scale bytes, plane counts and precisions. -/
def mmaStepBp (c ea8 pa ka eb8 pb kb : Nat) (a b : List Nat) : Nat × Word :=
  let cv := fDecode fp32 c
  if ea8 = 0xFF ∨ eb8 = 0xFF ∨ fIsNan cv then
    (fmtNan fp32, flagIf (ea8 = 0xFF ∨ eb8 = 0xFF ∨ fIsSnan cv) flagNV)
  else if fIsSpecial cv then (c, 0)
  else
    let g : Int := (a.zip b).foldl (fun acc xy => acc + planeValue (bit xy.1) ka * planeValue (bit xy.2) kb) 0
    if g = 0 then (c, 0)
    else accAdd c (decide (g < 0)) g.natAbs
      ((ea8 : Int) - 127 + (pa - ka : Nat) + ((eb8 : Int) - 127) + (pb - kb : Nat))

end Sys2Proof.Machine
end

