-- ==== Sys2Proof/Machine/Types.lean ====
section
/-! DEFINITION. The type codes T (R78), the element codes EC (R110) and operations on the elements of a register. -/

namespace Sys2Proof.Machine

/-- A number type: an integer of a signedness and width (R44), or a float format (R46). -/
inductive Num where
  | int (signed : Bool) (w : Nat)
  | flt (f : FFmt)
  deriving DecidableEq, Repr

/-- A register type: its element type and how many elements a register (or pair) holds. -/
structure RTy where
  num : Num
  n : Nat
  deriving DecidableEq, Repr

def numWidth : Num → Nat
  | .int _ w => w
  | .flt f => fmtBits f

/-- The width of the whole register or pair. -/
def rtyWidth (t : RTy) : Nat := numWidth t.num * t.n

/-- The type codes 0 to 11 of R78; a code above them is no type (`wf` refuses it) and reads as .n32. -/
def tyOf : Nat → RTy
  | 0 => ⟨.int true 32, 1⟩
  | 1 => ⟨.int false 32, 1⟩
  | 2 => ⟨.flt fp32, 1⟩
  | 3 => ⟨.flt fp16, 2⟩
  | 4 => ⟨.flt bf16, 2⟩
  | 5 => ⟨.int true 16, 2⟩
  | 6 => ⟨.int false 16, 2⟩
  | 7 => ⟨.int true 8, 4⟩
  | 8 => ⟨.int false 8, 4⟩
  | 9 => ⟨.flt fp64, 1⟩
  | 10 => ⟨.int true 64, 1⟩
  | 11 => ⟨.int false 64, 1⟩
  | _ => ⟨.int false 32, 1⟩

/-- The element codes of R110. -/
def ecOf : Nat → RTy
  | 16 => ⟨.int true 8, 1⟩
  | 17 => ⟨.int false 8, 1⟩
  | 18 => ⟨.int true 16, 1⟩
  | 19 => ⟨.int false 16, 1⟩
  | 20 => ⟨.flt fp16, 1⟩
  | 21 => ⟨.flt bf16, 1⟩
  | n => tyOf n

/-- Whether T or EC names a 64-bit type, held in an even-odd register pair (R23). -/
def isPair (t : Nat) : Bool := t == 9 || t == 10 || t == 11

def numSigned : Num → Bool
  | .int s _ => s
  | .flt _ => true

def isFloatNum : Num → Bool
  | .int _ _ => false
  | .flt _ => true

/-- Element i of a pattern whose elements have `w` bits (R44). -/
def elem (w x i : Nat) : Nat := bits x (w * i) w

/-- Applies `f` to every element index of a register type and packs the results; the flags are ORed (R53). -/
def mapElems (t : RTy) (f : Nat → Nat × Word) : Nat × Word :=
  (packElems (numWidth t.num) t.n (fun i => (f i).1), (List.range t.n).foldl (fun acc i => acc ||| (f i).2) 0)

/-- NA and NB (R79): the sign bit of a float, 0 - x modulo 2^w of an integer, per element. -/
def negElems (t : RTy) (x : Nat) : Nat :=
  (mapElems t fun i =>
    match t.num with
    | .flt f => (fNegBits f (elem (fmtBits f) x i), 0)
    | .int _ w => (wrap w (-(elem w x i : Int)), 0)).1

/-- The immediate of R79: imm16 widened by T. -/
def widenImm (t imm : Nat) : Nat :=
  match t with
  | 0 => wrap 32 (toSigned 16 imm)
  | 10 => wrap 64 (toSigned 16 imm)
  | 1 => imm
  | 11 => imm
  | 2 => imm * 2 ^ 16
  | 9 => imm * 2 ^ 48
  | 7 | 8 => packElems 8 4 (fun _ => imm % 256)
  | _ => packElems 16 2 (fun _ => imm)

/-- Whether imm16 is one R79 widens for T: a byte type wants bits [15:8] clear. -/
def immOk (t imm : Nat) : Bool := !(t == 7 || t == 8) || decide (imm < 256)

end Sys2Proof.Machine
end

