-- ==== Sys2Proof/Machine/Alu.lean ====
section
/-! DEFINITION. What the lane arithmetic instructions compute from a lane's resolved sources (R105 to R109, R111 to R113,
R115, R117), on bit patterns. Which lanes act and where the sources come from is in Operands.lean. -/

namespace Sys2Proof.Machine

/-- The lane instructions whose result in a lane depends on that lane's sources alone. -/
inductive AluOp where
  | iadd | isub | imul | imulh | imad | imin | imax | iabs | idp4 | shl | shr | sar | shf | knit | logic | bfe | bfi
  | popc | clz | brev | ffs | icmp | sel | isad | bmix
  | fadd | fsub | fmul | ffma | fmin | fmax | fcmp | frcp | frsq | fsqrt | fdiv | fexp2 | flog2 | fsinpi | fcospi
  | ftanh | fclass | fscale | frnd | dadd | dmul | dfma | dcmp | cvt | pack | unpack | dqplane | mov
  deriving DecidableEq, Repr

/-- What a lane computes with: the sub-operation, T, the rounding, the resolved sources (NA and NB applied), the
selector's truth for SEL, and the source EC of CVT. -/
structure AluIn where
  sub : Nat
  t : Nat
  ctl : RoundCtl
  a : Nat
  b : Nat
  c : Nat
  qs : Bool
  deriving DecidableEq, Repr

/-- The signedness of T's elements. -/
def inSigned (x : AluIn) : Bool := numSigned (tyOf x.t).num
/-- The element width of T. -/
def inW (x : AluIn) : Nat := numWidth (tyOf x.t).num

/-- The exact value of element i of a source, read by T. -/
def intElem (x : AluIn) (src i : Nat) : Int := valueOf (inSigned x) (inW x) (elem (inW x) src i)

/-- An integer instruction: an exact result per element, wrapped or saturated (R105). -/
def intOp (x : AluIn) (f : Int → Int → Int → Int) : Nat × Word :=
  mapElems (tyOf x.t) fun i =>
    wrapSat x.ctl.sat (inSigned x) (inW x) (f (intElem x x.a i) (intElem x x.b i) (intElem x x.c i))

/-- The shift amount of element i (R105): packed T take b's element, 32- and 64-bit T the one 32-bit value b. -/
def shiftAmount (x : AluIn) (i : Nat) : Nat :=
  if (tyOf x.t).n = 1 then x.b % 2 ^ 32 else elem (inW x) x.b i

/-- a * 2^n with n bounded: a factor of 2^w already leaves every bit of the element and, saturating, its range. -/
def shlExact (w : Nat) (a : Int) (n : Nat) : Int := if w ≤ n then a * 2 ^ (2 * w) else a * 2 ^ n

/-- SHL (R105). -/
def shlOp (x : AluIn) : Nat × Word :=
  mapElems (tyOf x.t) fun i =>
    wrapSat x.ctl.sat (inSigned x) (inW x) (shlExact (inW x) (intElem x x.a i) (shiftAmount x i))

/-- SHR and SAR (R105): the element's bits read as natural or as signed. -/
def shrOp (x : AluIn) (signed : Bool) : Nat × Word :=
  mapElems (tyOf x.t) fun i =>
    let a := valueOf signed (inW x) (elem (inW x) x.a i)
    (wrap (inW x) (a / 2 ^ (min (shiftAmount x i) (inW x))), 0)

/-- The bitwise operations of LOGIC and SLOGIC on w bits (R105). -/
def logicBits (sub w a b : Nat) : Nat :=
  let inv := fun y => 2 ^ w - 1 - y
  match sub with
  | 0 => a &&& b
  | 1 => a ||| b
  | 2 => a ^^^ b
  | 3 => a &&& inv b
  | 4 => a ||| inv b
  | 5 => inv (a ^^^ b)
  | _ => inv a

/-- Funnel shift (R106). -/
def shfBits (sub a b c : Nat) : Nat :=
  let f := c % 2 ^ 32 * 2 ^ 32 + a % 2 ^ 32
  let n := if bit sub 1 then b % 32 else min b 32
  if bit sub 0 then bits (f / 2 ^ n) 0 32 else bits (f * 2 ^ n) 32 32

/-- Bit field extract (R106) with a width w and signedness. -/
def bfeBits (signed : Bool) (w a b : Nat) : Nat :=
  let pos := bits b 0 8
  let len := min (bits b 8 8) w
  let f := valueOf signed w a / 2 ^ pos % 2 ^ len
  wrap w (if signed ∧ 0 < len ∧ 2 ^ (len - 1) ≤ f then f - 2 ^ len else f)

/-- Bit field insert (R106). -/
def bfiBits (w a b c : Nat) : Nat :=
  let pos := bits b 0 8
  let len := min (bits b 8 8) w
  packBits w (fun i => if pos ≤ i ∧ i < pos + len then bit a (i - pos) else bit c i)

/-- The bitwise function of three sources given by an 8-bit table (R105, R106, R122). -/
def tableBits (table w a b c : Nat) : Nat :=
  packBits w (fun k => bit table ((bit a k).toNat + 2 * (bit b k).toNat + 4 * (bit c k).toNat))

/-- One byte of BMIX: a pool byte and what its control byte makes of it (R106). -/
def bmixByte (v ctl : Nat) : Nat :=
  let src := elem 8 v (bits ctl 0 3)
  match bits ctl 3 2 with
  | 0 => src
  | 1 => 0
  | 2 => if bit src 7 then 0xFF else 0
  | _ => bitReverse 8 src

/-- Count of leading bits (R105): zeros for a natural type, copies of the sign after it for a signed one. -/
def clzBits (signed : Bool) (w a : Nat) : Nat :=
  if signed then (if bit a (w - 1) then w - 1 - bitLen (2 ^ w - 1 - a) else w - 1 - bitLen a)
  else w - bitLen a

/-- The least (`hi = false`) or greatest index of a 1 bit, all ones for none (R105). -/
def ffsBits (hi : Bool) (w a : Nat) : Nat :=
  if a = 0 then 0xFFFFFFFF
  else if hi then bitLen a - 1 else ((List.range w).find? (fun i => bit a i)).getD 0

/-- The relations .eq .ne .lt .le .gt .ge of ICMP (R105). -/
def cmpInt (sub : Nat) (a b : Int) : Bool :=
  match sub with
  | 0 => decide (a = b)
  | 1 => decide (a ≠ b)
  | 2 => decide (a < b)
  | 3 => decide (a ≤ b)
  | 4 => decide (b < a)
  | _ => decide (b ≤ a)

/-- The float format of T. -/
def inFmt (x : AluIn) : FFmt :=
  match (tyOf x.t).num with
  | .flt f => f
  | .int _ _ => fp32

/-- Element i of a float source as an exact value, flushed under FTZ (R51). -/
def fltElem (x : AluIn) (src i : Nat) : FVal :=
  fOperand x.ctl.ftz (inFmt x) (elem (inW x) src i)

/-- A float instruction of up to three sources, per element in the element's own format (R107). -/
def fltOp (x : AluIn) (f : FFmt → RoundCtl → FVal → FVal → FVal → Nat × Word) : Nat × Word :=
  mapElems (tyOf x.t) fun i => f (inFmt x) x.ctl (fltElem x x.a i) (fltElem x x.b i) (fltElem x x.c i)

/-- FMIN and FMAX per element (R49): the operand itself, flushed under FTZ. -/
def minMaxOp (x : AluIn) (max : Bool) : Nat × Word :=
  mapElems (tyOf x.t) fun i =>
    fMinMax (inFmt x) max (fFlush x.ctl.ftz (inFmt x) (elem (inW x) x.a i))
      (fFlush x.ctl.ftz (inFmt x) (elem (inW x) x.b i))

/-- A predicate result: 1 for true. -/
def predOut (p : Bool × Word) : Nat × Word := (p.1.toNat, p.2)

/-- One element of CVT, PACK and UNPACK: from one number type to another (R55, R56, R57, R111). The result is the
destination's own bits. -/
def convElem (src dst : Num) (ctl : RoundCtl) (x : Nat) : Nat × Word :=
  match src, dst with
  | .flt f, .flt g => fRound g ctl (fOperand ctl.ftz f x)
  | .flt f, .int s w => fToInt ctl.mode s w (fOperand ctl.ftz f x)
  | .int s w, .flt g => intToF g ctl (valueOf s w x)
  | .int s w, .int t v => wrapSat ctl.sat t v (valueOf s w x)

/-- A narrow result placed in 32 bits: integers extended by their signedness, floats zero-extended (R110). -/
def placeNarrow (n : Num) (x : Nat) : Nat :=
  match n with
  | .int true w => if w < 32 then wrap 32 (toSigned w x) else x
  | _ => x

/-- CVT (R111): `t` is the destination EC in `sub`, the source EC in `t`. -/
def cvtOp (x : AluIn) : Nat × Word :=
  let s := ecOf x.t
  let d := ecOf x.sub
  let r := mapElems d fun i => convElem s.num d.num x.ctl (elem (numWidth s.num) x.a i)
  (if d.n = 1 then placeNarrow d.num r.1 else r.1, r.2)

/-- PACK (R112): the elements of a, then those of b, narrowed. -/
def packOp (x : AluIn) : Nat × Word :=
  let s := tyOf x.t
  let d := ecOf x.sub
  mapElems d fun i =>
    convElem s.num d.num x.ctl (elem (numWidth s.num) (if i < s.n then x.a else x.b) (i % s.n))

/-- UNPACK (R113): one element widened to 32 bits. -/
def unpackOp (x : AluIn) : Nat × Word :=
  let s := tyOf x.t
  let e := elem (numWidth s.num) x.a x.sub
  match s.num with
  | .flt f => convElem (.flt f) (.flt fp32) x.ctl e
  | .int sg w => (placeNarrow (.int sg w) e, 0)

/-- DQPLANE's value (R115) from the plane value, its scale byte, P-k and the tensor scale. A zero has the sign of the
product of its factors (DEDUCED, log 14). -/
def dqValue (ctl : RoundCtl) (v : Int) (e shift : Nat) (t : FVal) : Nat × Word :=
  if e = 0xFF ∨ fIsNan t then (fmtNan fp32, flagIf (e = 0xFF ∨ fIsSnan t) flagNV)
  else fMul fp32 ctl (.fin (decide (v < 0)) v.natAbs ((e : Int) - 127 + shift)) t

/-- IDP4 (R105). -/
def idp4Op (x : AluIn) : Nat × Word :=
  let s := inSigned x
  let dot := (List.range 4).foldl (fun acc i => acc + intElem x x.a i * intElem x x.b i) 0
  wrapSat x.ctl.sat s 32 (valueOf s 32 (x.c % 2 ^ 32) + dot)

/-- ISAD (R105): c and the result are .n32. -/
def isadOp (x : AluIn) : Nat × Word :=
  let sad : Nat := sumTo (tyOf x.t).n (fun i => (intElem x x.a i - intElem x x.b i).natAbs)
  wrapSat x.ctl.sat false 32 ((x.c % 2 ^ 32 : Nat) + (sad : Int))

/-- The result of a lane: the pattern written (1 for true where the destination is a predicate) and the flags. -/
def aluEval (op : AluOp) (x : AluIn) : Nat × Word :=
  match op with
  | .iadd => intOp x (fun a b _ => a + b)
  | .isub => intOp x (fun a b _ => a - b)
  | .imul => intOp x (fun a b _ => a * b)
  | .imulh => (wrap (inW x) (intElem x x.a 0 * intElem x x.b 0 / 2 ^ inW x), 0)
  | .imad => intOp x (fun a b c => a * b + c)
  | .imin => (mapElems (tyOf x.t) fun i =>
      (elem (inW x) (if intElem x x.b i < intElem x x.a i then x.b else x.a) i, 0))
  | .imax => (mapElems (tyOf x.t) fun i =>
      (elem (inW x) (if intElem x x.a i < intElem x x.b i then x.b else x.a) i, 0))
  | .iabs => intOp x (fun a _ _ => a.natAbs)
  | .idp4 => idp4Op x
  | .shl => shlOp x
  | .shr => shrOp x false
  | .sar => shrOp x true
  | .shf => (shfBits x.sub x.a (x.b % 2 ^ 32) x.c, 0)
  | .knit => (tableBits x.sub (inW x) x.a x.b x.c, 0)
  | .logic => (mapElems (tyOf x.t) fun i =>
      (logicBits x.sub (inW x) (elem (inW x) x.a i) (elem (inW x) x.b i), 0))
  | .bfe => (bfeBits (inSigned x) (inW x) x.a (x.b % 2 ^ 32), 0)
  | .bfi => (bfiBits (inW x) x.a (x.b % 2 ^ 32) x.c, 0)
  | .popc => (popCount (inW x) x.a, 0)
  | .clz => (clzBits (inSigned x) (inW x) x.a, 0)
  | .brev => (bitReverse (inW x) x.a, 0)
  | .ffs => (ffsBits (bit x.sub 0) (inW x) x.a, 0)
  | .icmp => ((cmpInt x.sub (intElem x x.a 0) (intElem x x.b 0)).toNat, 0)
  | .sel => (if x.qs then x.a else x.b, 0)
  | .isad => isadOp x
  | .bmix => (packElems 8 4 (fun k => bmixByte (x.c % 2 ^ 32 * 2 ^ 32 + x.a % 2 ^ 32) (elem 8 x.b k)), 0)
  | .fadd => fltOp x (fun f c a b _ => fAddVal f c a b)
  | .fsub => fltOp x (fun f c a b _ => fAddVal f c a (fNegVal b))
  | .fmul => fltOp x (fun f c a b _ => fMul f c a b)
  | .ffma => fltOp x fFma
  | .fmin => minMaxOp x false
  | .fmax => minMaxOp x true
  | .fcmp => predOut (fCmp x.sub (fltElem x x.a 0) (fltElem x x.b 0))
  | .frcp => fltOp x (fun f c a _ _ => fRcp f c a)
  | .frsq => fltOp x (fun f c a _ _ => fRsq f c a)
  | .fsqrt => fltOp x (fun f c a _ _ => fSqrt f c a)
  | .fdiv => fltOp x (fun f c a b _ => fDiv f c a b)
  | .fexp2 => fltOp x (fun f c a _ _ => fExp2 f c a)
  | .flog2 => fltOp x (fun f c a _ _ => fLog2 f c a)
  | .fsinpi => fltOp x (fun f c a _ _ => fSinPi f c a)
  | .fcospi => fltOp x (fun f c a _ _ => fCosPi f c a)
  | .ftanh => fltOp x (fun f c a _ _ => fTanh f c a)
  | .fclass => (fClass fp32 (x.a % 2 ^ 32), 0)
  | .fscale => fScale fp32 x.ctl (fltElem x x.a 0) (toSigned 32 (x.b % 2 ^ 32))
  | .frnd => fltOp x (fun f c a _ _ => fRnd f c (bit x.sub 0) a)
  | .dadd => fltOp x (fun f c a b _ => fAddVal f c a b)
  | .dmul => fltOp x (fun f c a b _ => fMul f c a b)
  | .dfma => fltOp x fFma
  | .dcmp => predOut (fCmp x.sub (fltElem x x.a 0) (fltElem x x.b 0))
  | .cvt => cvtOp x
  | .pack => packOp x
  | .unpack => unpackOp x
  | .dqplane => dqValue x.ctl (planeValue (bit x.a) (bits x.sub 3 3 + 1)) (x.b % 256)
      (bits x.sub 0 3 - bits x.sub 3 3) (fOperand x.ctl.ftz fp32 (x.c % 2 ^ 32))
  | .mov => (x.a, 0)

/-- The scalar arithmetic of the uniform set (R123). -/
inductive ScalOp where
  | sadd | ssub | smul | smulh | smad | smin | smax | sshl | sshr | ssar | slogic | sbfe | sbfi | spopc | sclz | scmp
  | ssel | smov
  deriving DecidableEq, Repr

/-- The result written to sd (R123), from x, y, z, the unary operand u and the sign-extended imm14. -/
def scalEval (op : ScalOp) (sub x y z u : Nat) (imm : Int) : Nat :=
  let sg := bit sub 0
  let v := fun n => valueOf sg 32 n
  match op with
  | .sadd => wrap 32 (x + y + imm)
  | .ssub => wrap 32 (x - y)
  | .smul => wrap 32 (x * y)
  | .smulh => wrap 32 (v x * v y / 2 ^ 32)
  | .smad => wrap 32 (x * y + z)
  | .smin => if v y < v x then y else x
  | .smax => if v x < v y then y else x
  | .sshl => wrap 32 (shlExact 32 x y)
  | .sshr => x / 2 ^ min y 32
  | .ssar => wrap 32 (toSigned 32 x / 2 ^ min y 32)
  | .slogic => logicBits sub 32 (if sub = 6 then u else x) y
  | .sbfe => bfeBits sg 32 x y
  | .sbfi => bfiBits 32 x y z
  | .spopc => popCount 32 u
  | .sclz => clzBits sg 32 u
  | .scmp => (match sub with
    | 0 => decide (x = y)
    | 1 => decide (x ≠ y)
    | 2 => decide (toSigned 32 x < toSigned 32 y)
    | 3 => decide (toSigned 32 x ≤ toSigned 32 y)
    | 4 => decide (x < y)
    | _ => decide (x ≤ y)).toNat
  | .ssel => if z ≠ 0 then x else y
  | .smov => wrap 32 (u + imm)

end Sys2Proof.Machine
end

