-- ==== Sys2Proof/Syntax.lean ====
section
/-! DEFINITION. The instruction formats of R76 to R83, the operands of the table's events, and `Instr`: one constructor
for every row of spec/opcode_table.json. The first 240 rows are instructions, each with the fields of its format; the
rest are the EVENTS of the table (a run grant, a fill's arrival, a host access ...), each with what names the event. -/

namespace Sys2Proof

/-- Format LA, one word (R76): E bit, destination, first source, sub-operation. -/
structure LA where
  e : Bool
  vd : BitVec 8
  va : BitVec 8
  sub : BitVec 6
  deriving DecidableEq, Repr

/-- Format LB, two words (R77). -/
structure LB where
  e : Bool
  vd : BitVec 8
  va : BitVec 8
  sub : BitVec 6
  vb : BitVec 8
  vc : BitVec 8
  gn : Bool
  gp : BitVec 3
  q : Bool
  sb : Bool
  im : Bool
  rnd : BitVec 2
  sat : Bool
  na : Bool
  nb : Bool
  t : BitVec 4
  deriving DecidableEq, Repr

/-- Format LM of the lane memory instructions (R80). -/
structure LM where
  e : Bool
  vd : BitVec 8
  va : BitVec 8
  sub : BitVec 6
  sbase : BitVec 9
  gn : Bool
  gp : BitVec 3
  off : BitVec 19
  deriving DecidableEq, Repr

/-- Format LT of TRD and TWR (R80). -/
structure LT where
  e : Bool
  vd : BitVec 8
  va : BitVec 8
  sub : BitVec 6
  rc : Bool
  tn : BitVec 3
  sidx : BitVec 9
  imm5 : BitVec 5
  gq : BitVec 2
  rest : BitVec 12
  deriving DecidableEq, Repr

/-- Format UA, one word (R81). -/
structure UA where
  e : Bool
  sd : BitVec 9
  sa : BitVec 9
  sub : BitVec 4
  deriving DecidableEq, Repr

/-- Format UB, two words (R82). -/
structure UB where
  e : Bool
  sd : BitVec 9
  sa : BitVec 9
  sub : BitVec 4
  sb : BitVec 9
  sc : BitVec 9
  imm : BitVec 14
  deriving DecidableEq, Repr

/-- Format UI, two words (R82). -/
structure UI where
  e : Bool
  sd : BitVec 9
  sa : BitVec 9
  sub : BitVec 4
  imm : BitVec 32
  deriving DecidableEq, Repr

/-- Format UJ, one word with a word offset (R83). -/
structure UJ where
  e : Bool
  off : BitVec 22
  deriving DecidableEq, Repr

/-- A master of a request (R383): its engine class and whom it acts for (the context for classes 0-3, 6, 7 and 10,
the function for class 8, the package for class 9, 0 otherwise). -/
structure Master where
  cls : Nat
  who : Nat
  deriving DecidableEq, Repr

/-- A residue (`replay = false`) or replay mismatch of a matrix operation (R210, R211, R213): the first mismatching
element, how many mismatch, and the bits the record shows. -/
structure Mismatch where
  replay : Bool
  row : Nat
  col : Nat
  count : Nat
  expected : BitVec 32
  observed : BitVec 32
  deriving DecidableEq, Repr

/-- One PCIe request of host function `fn` (R411, R412): BAR 0, 2 or 4, or 7 for its configuration space, the offset in it, the bytes
written, or the number of bytes read. -/
structure HostReq where
  fn : Nat
  bar : Nat
  off : Nat
  write : Bool
  size : Nat
  data : List Byte
  deriving DecidableEq, Repr

/-- What a peer package's request does at this package (R417). -/
inductive PeerOp where
  | read
  | write
  /-- An atomic or REDG: AOP, AT of R164, operand and swap. -/
  | atomic (aop at' : Nat) (operand swap : BitVec 128)
  deriving DecidableEq, Repr

/-- A Lanyard request from package `pkg`, carrying the issuing master's `mid` (R383, R417), by Lanyard link `link` (R408). -/
structure PeerReq where
  pkg : Nat
  link : Nat
  mid : Nat
  addr : Nat
  size : Nat
  op : PeerOp
  data : List Byte
  deriving DecidableEq, Repr

/-- A packet of step `step` of a collective group of a context (R421, R424): what it says the operation is, its bytes from element
`offset` on, and which elements of them are poisoned. Its rank is the sender's; a result has the group's size as its rank, and a
KIND above 3 says that the members disagree (DESIGN CHOICE, log 72). -/
structure CollPart where
  ctx : Nat
  group : Nat
  step : Nat
  rank : Nat
  kind : Nat
  op : Nat
  ty : Nat
  count : Nat
  offset : Nat
  data : List Byte
  lost : List Nat
  deriving DecidableEq, Repr

/-- An inbound RoCE WRITE or READ (R427, R466). -/
structure RdmaReq where
  qp : Nat
  rkey : Nat
  write : Bool
  addr : Nat
  size : Nat
  data : List Byte
  deriving DecidableEq, Repr

/-- A unit of an event record (R436): UKIND and UIDX. -/
structure ErrUnit where
  kind : Nat
  idx : Nat
  deriving DecidableEq, Repr

/-- Where an uncorrected storage error is found (R431, R433, R443). -/
inductive ErrSite where
  /-- A 32-byte grain of HBM at a physical address (structure 1). -/
  | hbm (addr : Nat)
  /-- A grain of the second tier (structure 2). -/
  | tier2 (addr : Nat)
  /-- A grain held by an L2 slice (structure 3). -/
  | l2 (slice addr : Nat)
  /-- Tags, knot tables, splice directory or buffers of a slice (structure 4). -/
  | tags (slice : Nat)
  /-- A scratch line of a block (structure 5). -/
  | scratch (block line : Nat)
  /-- A vector register of a warp (structure 6). -/
  | vreg (warp : Nat)
  /-- A scalar register, mask or predicate of a warp (structure 7). -/
  | sreg (warp : Nat)
  /-- An accumulator slot of a core (structure 8). -/
  | acc (core slot : Nat)
  /-- An instruction cache entry of a core, by its place there (structure 9). -/
  | icache (core entry : Nat)
  /-- A translation cache entry of a core, by its place there (structure 10). -/
  | coreTlb (core entry : Nat)
  /-- A translation cache entry of a bay, by its place there (structure 10). -/
  | bayTlb (bay entry : Nat)
  /-- A crossbar, seam or hub link (structure 11). -/
  | link
  /-- A core's sequencers or scheduler (R433). -/
  | sequencer (core : Nat)
  deriving DecidableEq, Repr

/-- One constructor per row of spec/opcode_table.json. -/
inductive Instr where
  /-- IADD (R105). -/
  | iadd (f : LB)
  /-- IADD_SHORT (R101). -/
  | iaddShort (f : LA)
  /-- ISUB (R105). -/
  | isub (f : LB)
  /-- ISUB_SHORT (R101). -/
  | isubShort (f : LA)
  /-- IMUL (R105). -/
  | imul (f : LB)
  /-- IMUL_SHORT (R101). -/
  | imulShort (f : LA)
  /-- IMULH (R105). -/
  | imulh (f : LB)
  /-- IMULH_SHORT (R101). -/
  | imulhShort (f : LA)
  /-- IMAD (R105). -/
  | imad (f : LB)
  /-- IMAD_SHORT (R101). -/
  | imadShort (f : LA)
  /-- IMIN (R105). -/
  | imin (f : LB)
  /-- IMIN_SHORT (R101). -/
  | iminShort (f : LA)
  /-- IMAX (R105). -/
  | imax (f : LB)
  /-- IMAX_SHORT (R101). -/
  | imaxShort (f : LA)
  /-- IABS (R105). -/
  | iabs (f : LB)
  /-- IABS_SHORT (R101). -/
  | iabsShort (f : LA)
  /-- IDP4 (R105). -/
  | idp4 (f : LB)
  /-- IDP4_SHORT (R101). -/
  | idp4Short (f : LA)
  /-- SHL (R105). -/
  | shl (f : LB)
  /-- SHL_SHORT (R101). -/
  | shlShort (f : LA)
  /-- SHR (R105). -/
  | shr (f : LB)
  /-- SHR_SHORT (R101). -/
  | shrShort (f : LA)
  /-- SAR (R105). -/
  | sar (f : LB)
  /-- SAR_SHORT (R101). -/
  | sarShort (f : LA)
  /-- SHF (R106). -/
  | shf (f : LB)
  /-- SHF_SHORT (R101). -/
  | shfShort (f : LA)
  /-- KNIT (R106). -/
  | knit (f : LB)
  /-- LOGIC (R105). -/
  | logic (f : LB)
  /-- LOGIC_SHORT (R101). -/
  | logicShort (f : LA)
  /-- BFE (R106). -/
  | bfe (f : LB)
  /-- BFE_SHORT (R101). -/
  | bfeShort (f : LA)
  /-- BFI (R106). -/
  | bfi (f : LB)
  /-- BFI_SHORT (R101). -/
  | bfiShort (f : LA)
  /-- POPC (R105). -/
  | popc (f : LB)
  /-- POPC_SHORT (R101). -/
  | popcShort (f : LA)
  /-- CLZ (R105). -/
  | clz (f : LB)
  /-- CLZ_SHORT (R101). -/
  | clzShort (f : LA)
  /-- BREV (R105). -/
  | brev (f : LB)
  /-- BREV_SHORT (R101). -/
  | brevShort (f : LA)
  /-- FFS (R105). -/
  | ffs (f : LB)
  /-- FFS_SHORT (R101). -/
  | ffsShort (f : LA)
  /-- ICMP (R105). -/
  | icmp (f : LB)
  /-- ICMP_SHORT (R101). -/
  | icmpShort (f : LA)
  /-- SEL (R105). -/
  | sel (f : LB)
  /-- SEL_SHORT (R105). -/
  | selShort (f : LA)
  /-- ISAD (R105). -/
  | isad (f : LB)
  /-- ISAD_SHORT (R101). -/
  | isadShort (f : LA)
  /-- BMIX (R106). -/
  | bmix (f : LB)
  /-- BMIX_SHORT (R101). -/
  | bmixShort (f : LA)
  /-- FADD (R107). -/
  | fadd (f : LB)
  /-- FADD_SHORT (R101). -/
  | faddShort (f : LA)
  /-- FSUB (R107). -/
  | fsub (f : LB)
  /-- FSUB_SHORT (R101). -/
  | fsubShort (f : LA)
  /-- FMUL (R107). -/
  | fmul (f : LB)
  /-- FMUL_SHORT (R101). -/
  | fmulShort (f : LA)
  /-- FFMA (R107). -/
  | ffma (f : LB)
  /-- FFMA_SHORT (R101). -/
  | ffmaShort (f : LA)
  /-- FMIN (R49). -/
  | fmin (f : LB)
  /-- FMIN_SHORT (R101). -/
  | fminShort (f : LA)
  /-- FMAX (R49). -/
  | fmax (f : LB)
  /-- FMAX_SHORT (R101). -/
  | fmaxShort (f : LA)
  /-- FCMP (R108). -/
  | fcmp (f : LB)
  /-- FCMP_SHORT (R101). -/
  | fcmpShort (f : LA)
  /-- FRCP (R54). -/
  | frcp (f : LB)
  /-- FRCP_SHORT (R101). -/
  | frcpShort (f : LA)
  /-- FRSQ (R54). -/
  | frsq (f : LB)
  /-- FRSQ_SHORT (R101). -/
  | frsqShort (f : LA)
  /-- FSQRT (R53). -/
  | fsqrt (f : LB)
  /-- FSQRT_SHORT (R101). -/
  | fsqrtShort (f : LA)
  /-- FDIV (R53). -/
  | fdiv (f : LB)
  /-- FDIV_SHORT (R101). -/
  | fdivShort (f : LA)
  /-- FEXP2 (R54). -/
  | fexp2 (f : LB)
  /-- FEXP2_SHORT (R101). -/
  | fexp2Short (f : LA)
  /-- FLOG2 (R54). -/
  | flog2 (f : LB)
  /-- FLOG2_SHORT (R101). -/
  | flog2Short (f : LA)
  /-- FSINPI (R54). -/
  | fsinpi (f : LB)
  /-- FSINPI_SHORT (R101). -/
  | fsinpiShort (f : LA)
  /-- FCOSPI (R54). -/
  | fcospi (f : LB)
  /-- FCOSPI_SHORT (R101). -/
  | fcospiShort (f : LA)
  /-- FTANH (R54). -/
  | ftanh (f : LB)
  /-- FTANH_SHORT (R101). -/
  | ftanhShort (f : LA)
  /-- FCLASS (R108). -/
  | fclass (f : LB)
  /-- FCLASS_SHORT (R101). -/
  | fclassShort (f : LA)
  /-- FSCALE (R107). -/
  | fscale (f : LB)
  /-- FSCALE_SHORT (R101). -/
  | fscaleShort (f : LA)
  /-- FRND (R108). -/
  | frnd (f : LB)
  /-- FRND_SHORT (R101). -/
  | frndShort (f : LA)
  /-- DADD (R109). -/
  | dadd (f : LB)
  /-- DMUL (R109). -/
  | dmul (f : LB)
  /-- DFMA (R109). -/
  | dfma (f : LB)
  /-- DCMP (R109). -/
  | dcmp (f : LB)
  /-- CVT (R111). -/
  | cvt (f : LB)
  /-- QPLANE (R114). -/
  | qplane (f : LB)
  /-- DQPLANE (R115). -/
  | dqplane (f : LB)
  /-- PACK (R112). -/
  | pack (f : LB)
  /-- UNPACK (R113). -/
  | unpack (f : LB)
  /-- SRND (R116). -/
  | srnd (f : LB)
  /-- MOV (R117). -/
  | mov (f : LB)
  /-- MOV_SHORT (R117). -/
  | movShort (f : LA)
  /-- XLANE (R118). -/
  | xlane (f : LB)
  /-- PEER (R119). -/
  | peer (f : LB)
  /-- QPOLL (R120). -/
  | qpoll (f : LB)
  /-- REDX (R121). -/
  | redx (f : LB)
  /-- SCAN (R121). -/
  | scan (f : LB)
  /-- PLOP (R122). -/
  | plop (f : LB)
  /-- BRP (R129). -/
  | brp (f : LB)
  /-- TRD (R215). -/
  | trd (f : LT)
  /-- TWR (R215). -/
  | twr (f : LT)
  /-- LDS (R156). -/
  | lds (f : LM)
  /-- STS (R156). -/
  | sts (f : LM)
  /-- LDG (R156). -/
  | ldg (f : LM)
  /-- STG (R156). -/
  | stg (f : LM)
  /-- STNT (R159). -/
  | stnt (f : LM)
  /-- ATOMS (R166). -/
  | atoms (f : LM)
  /-- ATOMG (R166). -/
  | atomg (f : LM)
  /-- REDG (R168). -/
  | redg (f : LM)
  /-- PREFG (R176). -/
  | prefg (f : LM)
  /-- MMA (R197). -/
  | mma (f : LB)
  /-- ACCRD (R208). -/
  | accrd (f : LB)
  /-- ACCWR (R208). -/
  | accwr (f : LB)
  /-- NOP (R86). -/
  | nop (e : Bool)
  /-- SADD (R123). -/
  | sadd (f : UA)
  /-- SADD_UB (R123). -/
  | saddUb (f : UB)
  /-- SADD_UI (R123). -/
  | saddUi (f : UI)
  /-- SSUB (R123). -/
  | ssub (f : UA)
  /-- SSUB_UB (R123). -/
  | ssubUb (f : UB)
  /-- SSUB_UI (R123). -/
  | ssubUi (f : UI)
  /-- SMUL (R123). -/
  | smul (f : UA)
  /-- SMUL_UB (R123). -/
  | smulUb (f : UB)
  /-- SMUL_UI (R123). -/
  | smulUi (f : UI)
  /-- SMULH (R123). -/
  | smulh (f : UA)
  /-- SMULH_UB (R123). -/
  | smulhUb (f : UB)
  /-- SMULH_UI (R123). -/
  | smulhUi (f : UI)
  /-- SMAD (R123). -/
  | smad (f : UA)
  /-- SMAD_UB (R123). -/
  | smadUb (f : UB)
  /-- SMAD_UI (R123). -/
  | smadUi (f : UI)
  /-- SMIN (R123). -/
  | smin (f : UA)
  /-- SMIN_UB (R123). -/
  | sminUb (f : UB)
  /-- SMIN_UI (R123). -/
  | sminUi (f : UI)
  /-- SMAX (R123). -/
  | smax (f : UA)
  /-- SMAX_UB (R123). -/
  | smaxUb (f : UB)
  /-- SMAX_UI (R123). -/
  | smaxUi (f : UI)
  /-- SSHL (R123). -/
  | sshl (f : UA)
  /-- SSHL_UB (R123). -/
  | sshlUb (f : UB)
  /-- SSHL_UI (R123). -/
  | sshlUi (f : UI)
  /-- SSHR (R123). -/
  | sshr (f : UA)
  /-- SSHR_UB (R123). -/
  | sshrUb (f : UB)
  /-- SSHR_UI (R123). -/
  | sshrUi (f : UI)
  /-- SSAR (R123). -/
  | ssar (f : UA)
  /-- SSAR_UB (R123). -/
  | ssarUb (f : UB)
  /-- SSAR_UI (R123). -/
  | ssarUi (f : UI)
  /-- SLOGIC (R123). -/
  | slogic (f : UA)
  /-- SLOGIC_UB (R123). -/
  | slogicUb (f : UB)
  /-- SLOGIC_UI (R123). -/
  | slogicUi (f : UI)
  /-- SBFE (R123). -/
  | sbfe (f : UA)
  /-- SBFE_UB (R123). -/
  | sbfeUb (f : UB)
  /-- SBFE_UI (R123). -/
  | sbfeUi (f : UI)
  /-- SBFI (R123). -/
  | sbfi (f : UA)
  /-- SBFI_UB (R123). -/
  | sbfiUb (f : UB)
  /-- SBFI_UI (R123). -/
  | sbfiUi (f : UI)
  /-- SPOPC (R123). -/
  | spopc (f : UA)
  /-- SPOPC_UB (R123). -/
  | spopcUb (f : UB)
  /-- SPOPC_UI (R123). -/
  | spopcUi (f : UI)
  /-- SCLZ (R123). -/
  | sclz (f : UA)
  /-- SCLZ_UB (R123). -/
  | sclzUb (f : UB)
  /-- SCLZ_UI (R123). -/
  | sclzUi (f : UI)
  /-- SCMP (R123). -/
  | scmp (f : UA)
  /-- SCMP_UB (R123). -/
  | scmpUb (f : UB)
  /-- SCMP_UI (R123). -/
  | scmpUi (f : UI)
  /-- SSEL (R123). -/
  | ssel (f : UA)
  /-- SSEL_UB (R123). -/
  | sselUb (f : UB)
  /-- SSEL_UI (R123). -/
  | sselUi (f : UI)
  /-- SMOV (R123). -/
  | smov (f : UA)
  /-- SMOV_UB (R123). -/
  | smovUb (f : UB)
  /-- SMOV_UI (R123). -/
  | smovUi (f : UI)
  /-- BRA (R127). -/
  | bra (f : UJ)
  /-- BRC (R127). -/
  | brc (f : UI)
  /-- CALL (R128). -/
  | call (f : UJ)
  /-- RET (R128). -/
  | ret (f : UA)
  /-- JMPI (R128). -/
  | jmpi (f : UA)
  /-- EXIT (R130). -/
  | exit (f : UA)
  /-- JOIN (R132). -/
  | join (f : UA)
  /-- LEAVE (R133). -/
  | leave (f : UA)
  /-- WAIT (R134). -/
  | wait (f : UA)
  /-- MOPS (R136). -/
  | mops (f : UA)
  /-- BRK (R145). -/
  | brk (f : UA)
  /-- TRAP (R145). -/
  | trap (f : UB)
  /-- ERET (R400). -/
  | eret (f : UA)
  /-- YIELD (R138). -/
  | yield (f : UA)
  /-- SLEEPC (R138). -/
  | sleepc (f : UB)
  /-- WAITC (R137). -/
  | waitc (f : UB)
  /-- ATTACH (R139). -/
  | attach (f : UI)
  /-- DETACH (R141). -/
  | detach (f : UA)
  /-- REGGROW (R142). -/
  | reggrow (f : UA)
  /-- REGSHRINK (R142). -/
  | regshrink (f : UA)
  /-- SRD (R143). -/
  | srd (f : UB)
  /-- SWR (R143). -/
  | swr (f : UB)
  /-- SLDG (R158). -/
  | sldg (f : UB)
  /-- SSTG (R158). -/
  | sstg (f : UB)
  /-- SLDS (R158). -/
  | slds (f : UB)
  /-- SSTS (R158). -/
  | ssts (f : UB)
  /-- SATOMG (R169). -/
  | satomg (f : UB)
  /-- FENCE (R173). -/
  | fence (f : UB)
  /-- DRAINNT (R160). -/
  | drainnt (f : UB)
  /-- FLUSH (R175). -/
  | flush (f : UB)
  /-- PREF (R176). -/
  | pref (f : UB)
  /-- BARA (R178). -/
  | bara (f : UB)
  /-- BARW (R179). -/
  | barw (f : UB)
  /-- BARS (R179). -/
  | bars (f : UB)
  /-- CBARA (R180). -/
  | cbara (f : UB)
  /-- CBARW (R180). -/
  | cbarw (f : UB)
  /-- GRIDBAR (R180). -/
  | gridbar (f : UB)
  /-- KINIT_REG (R183). -/
  | kinitReg (f : UB)
  /-- KINIT_FREE (R183). -/
  | kinitFree (f : UB)
  /-- KTAKE (R184). -/
  | ktake (f : UB)
  /-- KGIVE (R185). -/
  | kgive (f : UB)
  /-- RINIT (R187). -/
  | rinit (f : UB)
  /-- RWAIT_FULL (R188). -/
  | rwaitFull (f : UB)
  /-- RWAIT_FREE (R188). -/
  | rwaitFree (f : UB)
  /-- RREL (R189). -/
  | rrel (f : UB)
  /-- RARR (R189). -/
  | rarr (f : UB)
  /-- CHSEND (R191). -/
  | chsend (f : UB)
  /-- CHRECV_TAKE (R191). -/
  | chrecvTake (f : UB)
  /-- CHRECV_DONE (R191). -/
  | chrecvDone (f : UB)
  /-- DEQ (R148). -/
  | deq (f : UB)
  /-- ENQ (R148). -/
  | enq (f : UB)
  /-- LAUNCH (R149). -/
  | launch (f : UB)
  /-- HSET (R196). -/
  | hset (f : UB)
  /-- ACCZ (R207). -/
  | accz (f : UB)
  /-- ACCREL (R207). -/
  | accrel (f : UB)
  /-- MCHKRD (R213). -/
  | mchkrd (f : UB)
  /-- TDEF (R214). -/
  | tdef (f : UB)
  /-- CPY_G2S (R224). -/
  | cpyG2s (f : UB)
  /-- CPY_S2G (R224). -/
  | cpyS2g (f : UB)
  /-- CPY_S2S (R224). -/
  | cpyS2s (f : UB)
  /-- CPGTH (R225). -/
  | cpgth (f : UB)
  /-- CPSCT (R225). -/
  | cpsct (f : UB)
  /-- CPXF (R226). -/
  | cpxf (f : UB)
  /-- TDCHK (R222). -/
  | tdchk (f : UB)
  /-- COLL (R230). -/
  | coll (f : UB)
  /-- RUN_GRANT (R239). -/
  | runGrant (core quad : Nat)
  /-- READY_WAIT_GUARD (R239). -/
  | readyWaitGuard (core quad : Nat)
  /-- SLEEP_END (R138). -/
  | sleepEnd (warp sub : Nat)
  /-- LOAD_RETURN (R156). -/
  | loadReturn (id : Nat)
  /-- CORE_STORE_ORDER_SEND (R284). -/
  | coreStoreOrderSend (core warp : Nat)
  /-- HOME_ACK (R288). -/
  | homeAck (id : Nat)
  /-- SCRATCH_PORT_ACCESS (R264). -/
  | scratchPortAccess (id : Nat)
  /-- PLANE_STEPS_START (R216). -/
  | planeStepsStart (core : Nat)
  /-- MATRIX_COMPLETION (R203). -/
  | matrixCompletion (core : Nat) (bad : Option Mismatch)
  /-- MISMATCH_WINDOW (R434). -/
  | mismatchWindow (core : Nat)
  /-- GOLDEN_TEST (R435). -/
  | goldenTest (core test : Nat)
  /-- GOLDEN_TEST_RESULT (R435). -/
  | goldenTestResult (core : Nat) (pass : Bool)
  /-- RESOURCE_QUEUE_SERVICE (R249). -/
  | resourceQueueService (core : Nat)
  /-- RESOURCE_QUEUE_AGE_LIMIT (R249). -/
  | resourceQueueAgeLimit (core : Nat)
  /-- RESOURCE_REFUSAL (R250). -/
  | resourceRefusal (core : Nat)
  /-- WARP_RESOURCE_RETURN (R141). -/
  | warpResourceReturn (warp : Nat)
  /-- WARP_ARRIVAL (R178). -/
  | warpArrival (warp bar : Nat)
  /-- PAIRED_BARRIER_EVENT (R246). -/
  | pairedBarrierEvent (block : Nat)
  /-- BLOCK_ARRIVAL (R180). -/
  | blockArrival (block bar : Nat)
  /-- COPY_PIECE (R271). -/
  | copyPiece (id : Nat)
  /-- COPY_SOURCE_READ (R273). -/
  | copySourceRead (id : Nat)
  /-- COPY_LINE_WRITE (R265). -/
  | copyLineWrite (id : Nat)
  /-- RING_ARRIVAL (R267). -/
  | ringArrival (id : Nat)
  /-- COPY_FAILURE (R229). -/
  | copyFailure (id : Nat)
  /-- COPY_REPLAY (R229). -/
  | copyReplay (block entry : Nat)
  /-- CHANNEL_CLAIM (R279). -/
  | channelClaim (id : Nat)
  /-- L2_REQUEST (R322). -/
  | l2Request (id : Nat)
  /-- GAP_FILL_ARRIVAL (R324). -/
  | gapFillArrival (id : Nat) (bad : BitVec 16)
  /-- HOME_WRITE (R323). -/
  | homeWrite (id : Nat)
  /-- LEASE_EXPIRY (R320). -/
  | leaseExpiry (slice : Nat)
  /-- SPLICE_ABSORB (R333). -/
  | spliceAbsorb (id : Nat)
  /-- SPLICE_RECORD_REQUEST (R334). -/
  | spliceRecordRequest (bay grain : Nat)
  /-- SPLICE_CONFIRM (R333). -/
  | spliceConfirm (bay grain : Nat)
  /-- SPLICE_RECALL (R335). -/
  | spliceRecall (bay grain : Nat)
  /-- SPLICE_PARTIAL_COMBINE (R335). -/
  | splicePartialCombine (id : Nat)
  /-- KNOT_REQUEST (R331). -/
  | knotRequest (id : Nat)
  /-- KTAKE_RESEND (R331). -/
  | ktakeResend (id : Nat)
  /-- STREAM_RELEASE (R315). -/
  | streamRelease (id : Nat)
  /-- TRANSLATION_WALK (R392). -/
  | translationWalk (core ctx : Nat) (va : VAddr)
  /-- ENQUEUE_WINDOW_WRITE (R361). -/
  | enqueueWindowWrite (fn q size : Nat) (words : List Word)
  /-- QCTL_WRITE (R360). -/
  | qctlWrite (m : Master) (q : Nat) (v : Word)
  /-- KLAUNCH (R363). -/
  | klaunch (q : Nat)
  /-- WAITON (R363). -/
  | waiton (q : Nat)
  /-- SIGNAL (R363). -/
  | signal (q : Nat)
  /-- WORK (R363). -/
  | work (q : Nat)
  /-- WAITON_SATISFIED (R363). -/
  | waitonSatisfied (q idx : Nat)
  /-- KLAUNCH_COMPLETE (R364). -/
  | klaunchComplete (q idx : Nat)
  /-- SIGNAL_COMPLETE (R363). -/
  | signalComplete (q idx : Nat)
  /-- PLACEMENT_PASS (R370). -/
  | placementPass (die : Nat)
  /-- PLACEMENT_AGE_LIMIT (R370). -/
  | placementAgeLimit (die : Nat)
  /-- BLOCK_PLACE (R370). -/
  | blockPlace (die : Nat)
  /-- BLOCK_START (R375). -/
  | blockStart (block : Nat)
  /-- SEAM_HALF_FORWARD (R371). -/
  | seamHalfForward (die : Nat)
  /-- PREEMPT_SAVE (R401). -/
  | preemptSave (cluster : Nat)
  /-- SAVE_COMPLETE (R401). -/
  | saveComplete (cluster : Nat)
  /-- RESTORE (R404). -/
  | restore (cluster : Nat)
  /-- CCTL_WRITE (R388). -/
  | cctlWrite (m : Master) (ctx : Nat) (v : Word)
  /-- KILL (R390). -/
  | kill (m : Master) (ctx : Nat)
  /-- WKICK (R389). -/
  | wkick (m : Master) (ctx : Nat)
  /-- WATCHDOG_PERIOD (R389). -/
  | watchdogPeriod
  /-- FENCE_COMPLETE (R390). -/
  | fenceComplete (ctx : Nat)
  /-- CINV_GO (R396). -/
  | cinvGo (m : Master) (ctx : Nat)
  /-- INVALIDATION_COMPLETE (R396). -/
  | invalidationComplete (ctx : Nat)
  /-- MIGRATION_GO (R405). -/
  | migrationGo (m : Master) (ch : Nat)
  /-- MIGRATION_CLR (R405). -/
  | migrationClr (m : Master) (ch : Nat)
  /-- MIGRATION_GRAIN (R406). -/
  | migrationGrain (ch : Nat)
  /-- MIGRATION_DONE (R407). -/
  | migrationDone (ch : Nat)
  /-- HOST_ACCESS (R412). -/
  | hostAccess (r : HostReq)
  /-- FLR_VIRTUAL (R415). -/
  | flrVirtual (fn : Nat)
  /-- FLR_FUNCTION0 (R415). -/
  | flrFunction0
  /-- MSIX_MESSAGE (R440). -/
  | msixMessage (fn : Nat)
  /-- PEER_REQUEST (R417). -/
  | peerRequest (r : PeerReq)
  /-- LANYARD_TIMEOUT (R418). -/
  | lanyardTimeout (id : Nat)
  /-- LANYARD_RESPONSE (R418). -/
  | lanyardResponse (id : Nat) (data : List Byte) (poison : Bool)
  /-- LANYARD_LINK_FAIL (R416). -/
  | lanyardLinkFail (link : Nat)
  /-- EXPANDER_FENCE (R410). -/
  | expanderFence (x : Nat)
  /-- HBM_STACK_LOSS (R433). -/
  | hbmStackLoss (stack : Nat)
  /-- COLL_CONTRIBUTION (R421). -/
  | collContribution (c : CollPart)
  /-- COLL_RESULT (R424). -/
  | collResult (id : Nat)
  /-- RDMA_RING_POLL (R427). -/
  | rdmaRingPoll (qp ring : Nat)
  /-- RDMA_INBOUND (R466). -/
  | rdmaInbound (r : RdmaReq)
  /-- CORRECTED_ERROR (R431). -/
  | correctedError (u : ErrUnit) (code n : Nat)
  /-- CORRECTED_ERROR_REPORT (R431). -/
  | correctedErrorReport (u : ErrUnit) (code : Nat)
  /-- UNCORRECTED_ERROR (R431). -/
  | uncorrectedError (site : ErrSite)
  /-- EVENT_STORE_RETRY (R439). -/
  | eventStoreRetry (die : Nat)
  /-- EVHEAD_WRITE (R438). -/
  | evheadWrite (m : Master) (v : Word)
  /-- EVSTAT_LOST_READ (R438). -/
  | evstatLostRead (m : Master)
  /-- FATAL_ERROR (R443). -/
  | fatalError (cause : Nat)
  /-- DUMP_COMPLETE (R443). -/
  | dumpComplete (status : Nat)
  /-- OVER_TEMPERATURE (R468). -/
  | overTemperature (temp : Nat)
  /-- REEL_CHUNK (R445). -/
  | reelChunk (hub : Nat)
  /-- REEL_COMPLETE (R446). -/
  | reelComplete
  /-- REEL_ENQUEUE_RETRY (R446). -/
  | reelEnqueueRetry
  /-- HALT (R450). -/
  | halt (m : Master) (ctx : Nat)
  /-- HALT_COMPLETE (R450). -/
  | haltComplete (ctx : Nat)
  /-- RESUME (R449). -/
  | resume (m : Master) (ctx : Nat)
  /-- STEP (R451). -/
  | step (m : Master) (ctx : Nat)
  /-- WATCH (R452). -/
  | watch (m : Master) (ctx : Nat)
  /-- ICINV (R449). -/
  | icinv (m : Master) (ctx : Nat)
  /-- ICINV_COMPLETE (R449). -/
  | icinvComplete (ctx : Nat)
  /-- DPOST3_WRITE (R448). -/
  | dpost3Write (m : Master) (ctx : Nat) (v : Word)
  /-- DSTAT_POST_CLEAR (R448). -/
  | dstatPostClear (m : Master) (ctx : Nat)
  /-- DCLAIM_READ (R448). -/
  | dclaimRead (m : Master) (ctx : Nat)
  /-- ATAB (R384). -/
  | atab (fn : Nat)
  /-- CTXASN (R415). -/
  | ctxasn (fn : Nat)
  /-- CGREG (R420). -/
  | cgreg (fn : Nat)
  /-- CGDEL (R420). -/
  | cgdel (fn : Nat)
  /-- REEL (R444). -/
  | reel (fn : Nat)
  /-- QPNEW (R466). -/
  | qpnew (fn : Nat)
  /-- QPDEL (R460). -/
  | qpdel (fn : Nat)
  /-- DOMAIN (R414). -/
  | domain (fn : Nat)
  /-- ATTEST (R464). -/
  | attest (fn : Nat)
  /-- GVCNT (R435). -/
  | gvcnt (fn : Nat)
  /-- FWUPD (R465). -/
  | fwupd (fn : Nat)
  /-- LCSET (R462). -/
  | lcset (fn : Nat)
  /-- CAP (R468). -/
  | cap (fn : Nat)
  /-- DEVICE_RESET (R457). -/
  | deviceReset (source : Nat)
  /-- POWER_STEP_SELECT (R468). -/
  | powerStepSelect (pwr temp : Nat)
  /-- CLOCK_STEP_CHANGE (R467). -/
  | clockStepChange
  /-- REGISTER_WRITE (R13). -/
  | registerWrite (m : Master) (off size : Nat) (v : BitVec 64)
  /-- MAIN_POWER_LOSS (R457). -/
  | mainPowerLoss
  /-- ETHERNET_LINK_CHANGE (R414). -/
  | ethernetLinkChange (port : Nat) (up : Bool)
  /-- VIRTUAL_FUNCTION_ENABLE (R411). -/
  | virtualFunctionEnable (n : Nat)
  /-- RDMA_RESPONSE (R427). -/
  | rdmaResponse (qp idx status : Nat) (data : List Byte)
  /-- RDMA_INBOUND_SEND (R426). -/
  | rdmaInboundSend (qp : Nat) (data : List Byte)
  /-- RDMA_RETRY_TIMEOUT (R427). -/
  | rdmaRetryTimeout (qp idx : Nat)
  /-- PAIRED_ACC_COMMAND_ARRIVAL (R204). -/
  | pairedAccCommandArrival (block : Nat)
  deriving DecidableEq, Repr

end Sys2Proof
end

