-- ==== Sys2Proof/Machine/Legal.lean ====
section
/-! DEFINITION. What the decode checks of R85 step 3 require of each instruction's fields, apart from what depends on the
warp (its width, window, mode, role and tile views): sub-operation, T, modifiers, operand limits and unused fields (R77
to R84 and the instruction chapters). -/

namespace Sys2Proof.Machine

/-- A lane operand: not used, one 32-bit register, or by T (a pair for a 64-bit T, R23). -/
inductive Opd where
  | none
  | one
  | byT
  deriving DecidableEq, Repr

/-- Where a lane instruction's result goes. -/
inductive DstKind where
  | one
  | byT
  | pred
  deriving DecidableEq, Repr

/-- A row of the tables of R105, R107, R109, R112 and R113: types, sub-operations, destination, sources and modifiers. -/
structure LaneSpec where
  ts : List Nat
  subs : List Nat
  dst : DstKind
  a : Opd
  b : Opd
  c : Opd
  sb : Bool
  im : Bool
  rnd : Bool
  sat : Bool
  na : Bool
  nb : Bool
  deriving DecidableEq, Repr

/-- The T sets of R104. -/
def tsI : List Nat := [0, 1, 5, 6, 7, 8, 10, 11]
def tsI32 : List Nat := [0, 1, 5, 6, 7, 8]
def tsW : List Nat := [0, 1, 10, 11]
def tsSI : List Nat := [0, 5, 7, 10]
def tsF : List Nat := [2, 3, 4]

/-- The row of each lane instruction (R105, R107, R109, R112, R113). CVT, DQPLANE and MOV have checks of their own. -/
def aluSpec : AluOp → LaneSpec
  | .iadd | .isub | .imul => ⟨tsI, [0], .byT, .byT, .byT, .none, true, true, false, true, true, true⟩
  | .imulh => ⟨tsW, [0], .byT, .byT, .byT, .none, true, true, false, false, true, true⟩
  | .imad => ⟨tsI, [0], .byT, .byT, .byT, .byT, true, false, false, true, true, true⟩
  | .imin | .imax => ⟨tsI, [0], .byT, .byT, .byT, .none, true, true, false, false, false, false⟩
  | .iabs => ⟨tsSI, [0], .byT, .byT, .none, .none, false, false, false, true, false, false⟩
  | .idp4 => ⟨[7, 8], [0], .one, .one, .one, .one, true, false, false, true, false, false⟩
  | .shl => ⟨tsI, [0], .byT, .byT, .one, .none, true, true, false, true, false, false⟩
  | .shr | .sar => ⟨tsI, [0], .byT, .byT, .one, .none, true, true, false, false, false, false⟩
  | .shf => ⟨[0, 1], [0, 1, 2, 3], .one, .one, .one, .one, true, false, false, false, false, false⟩
  | .knit => ⟨tsW, List.range 64, .byT, .byT, .byT, .byT, true, false, true, false, false, false⟩
  | .logic => ⟨tsI, [0, 1, 2, 3, 4, 5, 6], .byT, .byT, .byT, .none, true, true, false, false, false, false⟩
  | .bfe => ⟨tsW, [0], .byT, .byT, .one, .none, true, true, false, false, false, false⟩
  | .bfi => ⟨tsW, [0], .byT, .byT, .one, .byT, true, false, false, false, false, false⟩
  | .popc | .clz => ⟨tsW, [0], .one, .byT, .none, .none, false, false, false, false, false, false⟩
  | .brev => ⟨[1, 11], [0], .byT, .byT, .none, .none, false, false, false, false, false, false⟩
  | .ffs => ⟨[1, 11], [0, 1], .one, .byT, .none, .none, false, false, false, false, false, false⟩
  | .icmp => ⟨tsW, [0, 1, 2, 3, 4, 5], .pred, .byT, .byT, .none, true, true, false, false, true, true⟩
  | .sel => ⟨List.range 12, List.range 8, .byT, .byT, .byT, .none, true, true, false, false, false, false⟩
  | .isad => ⟨tsI32, [0], .one, .one, .one, .one, true, false, false, true, false, false⟩
  | .bmix => ⟨[1], [0], .one, .one, .one, .one, true, false, false, false, false, false⟩
  | .fadd | .fsub | .fmul => ⟨tsF, [0], .one, .one, .one, .none, true, true, true, true, true, true⟩
  | .ffma => ⟨tsF, [0], .one, .one, .one, .one, true, false, true, true, true, true⟩
  | .fmin | .fmax => ⟨tsF, [0], .one, .one, .one, .none, true, true, false, false, true, true⟩
  | .fcmp => ⟨[2], List.range 8, .pred, .one, .one, .none, true, true, false, false, true, true⟩
  | .frcp | .frsq | .fsqrt | .fexp2 | .flog2 | .fsinpi | .fcospi | .ftanh =>
    ⟨[2], [0], .one, .one, .none, .none, false, false, true, true, true, false⟩
  | .fdiv => ⟨[2], [0], .one, .one, .one, .none, true, true, true, true, true, true⟩
  | .fclass => ⟨[2], [0], .one, .one, .none, .none, false, false, false, false, false, false⟩
  | .fscale => ⟨[2], [0], .one, .one, .one, .none, true, true, true, true, true, false⟩
  | .frnd => ⟨tsF, [0, 1], .one, .one, .none, .none, false, false, true, false, true, false⟩
  | .dadd | .dmul => ⟨[9], [0], .byT, .byT, .byT, .none, false, true, true, true, true, true⟩
  | .dfma => ⟨[9], [0], .byT, .byT, .byT, .byT, false, false, true, true, true, true⟩
  | .dcmp => ⟨[9], List.range 8, .pred, .byT, .byT, .none, false, true, false, false, true, true⟩
  | .cvt => ⟨[0], List.range 64, .one, .one, .none, .none, false, false, true, true, true, false⟩
  | .pack => ⟨[0, 1, 2, 5, 6], [3, 4, 5, 6, 7, 8], .one, .one, .one, .none, true, false, true, true, false, false⟩
  | .unpack => ⟨[3, 4, 5, 6, 7, 8], [0, 1, 2, 3], .one, .one, .none, .none, false, false, false, false, false, false⟩
  | .dqplane => ⟨[2], List.range 64, .one, .one, .one, .one, true, false, true, false, false, false⟩
  | .mov => ⟨List.range 12, [0], .byT, .byT, .none, .none, true, true, false, false, false, false⟩

/-- A pair operand names an even register (R23). -/
def opdEven (o : Opd) (t r : Nat) : Bool := !(o == .byT && isPair t) || r % 2 == 0

/-- vd of a destination kind: even for a pair, below q7 for a predicate (R27, R102). -/
def dstOk (d : DstKind) (t vd : Nat) : Bool :=
  match d with
  | .one => true
  | .byT => opdEven .byT t vd
  | .pred => decide (vd < 7)

/-- The modifiers an LB instruction takes (R79): any other set bit is illegal; Q is honoured by MMA alone. -/
def lbMods (f : LB) (sb im rnd sat na nb : Bool) : Bool :=
  !f.q && (sb || !f.sb) && (im || !f.im) && (rnd || f.rnd == 0) && (sat || !f.sat) && (na || !f.na) && (nb || !f.nb)
    && !(f.sb && f.im)

/-- The immediate field vb:vc. -/
def lbImm (f : LB) : Nat := f.vb.toNat * 256 + f.vc.toNat

/-- Source b's field: unused, a register, a scalar or the high half of the immediate (R79, R99). -/
def lbSrcB (o : Opd) (f : LB) : Bool :=
  match o with
  | .none => f.vb == 0 && !f.sb && !f.im
  | o => f.sb || f.im || opdEven o f.t.toNat f.vb.toNat

/-- Source c's field. -/
def lbSrcC (o : Opd) (f : LB) : Bool :=
  match o with
  | .none => f.im || f.vc == 0
  | o => opdEven o f.t.toNat f.vc.toNat

/-- The LB checks of a row. -/
def lbOk (sp : LaneSpec) (f : LB) : Bool :=
  sp.ts.contains f.t.toNat && sp.subs.contains f.sub.toNat && lbMods f sp.sb sp.im sp.rnd sp.sat sp.na sp.nb
    && dstOk sp.dst f.t.toNat f.vd.toNat && opdEven sp.a f.t.toNat f.va.toNat && lbSrcB sp.b f && lbSrcC sp.c f
    && !(f.sb && f.t == 9) && (!f.im || immOk f.t.toNat (lbImm f))

/-- The LA checks of a row: T in sub[3:0], the sub-operation in sub[5:4] (R101). -/
def laOk (sp : LaneSpec) (f : LA) : Bool :=
  sp.ts.contains (f.sub.toNat % 16) && sp.subs.contains (f.sub.toNat / 16) && dstOk sp.dst (f.sub.toNat % 16) f.vd.toNat
    && opdEven sp.a (f.sub.toNat % 16) f.va.toNat

/-- The scalar element codes of CVT (R111). -/
def cvtScalar (ec : Nat) : Bool := [0, 1, 2, 9, 10, 11, 16, 17, 18, 19, 20, 21].contains ec

/-- The permitted pairs of CVT (R111). -/
def cvtPair (d s : Nat) : Bool :=
  (cvtScalar d && cvtScalar s) || ([3, 4, 5, 6].contains d && [3, 4, 5, 6].contains s) ||
    ([7, 8].contains d && [7, 8].contains s)

/-- CVT (R111): the destination EC in sub, the source EC in vc. -/
def cvtOk (f : LB) : Bool :=
  f.t == 0 && f.vb == 0 && decide (f.vc.toNat < 64) && cvtPair f.sub.toNat f.vc.toNat
    && lbMods f false false true true true false
    && (isFloatNum (ecOf f.sub.toNat).num || isFloatNum (ecOf f.vc.toNat).num || f.rnd == 0)
    && (!isPair f.sub.toNat || f.vd.toNat % 2 == 0) && (!isPair f.vc.toNat || f.va.toNat % 2 == 0)

/-- PACK (R112): the permitted destinations for a source T; RND only for a float destination. -/
def packOk (f : LB) : Bool :=
  lbOk (aluSpec .pack) f && (match f.t.toNat with
    | 2 => f.sub == 3 || f.sub == 4
    | 0 | 1 => (f.sub == 5 || f.sub == 6) && f.rnd == 0
    | _ => (f.sub == 7 || f.sub == 8) && f.rnd == 0)

/-- UNPACK (R113): the element index below the element count. -/
def unpackOk (f : LB) : Bool := lbOk (aluSpec .unpack) f && decide (f.sub.toNat < (tyOf f.t.toNat).n)

/-- DQPLANE (R115): 1 ≤ P-1, k ≤ P. -/
def dqplaneOk (f : LB) : Bool :=
  lbOk (aluSpec .dqplane) f && f.sub.toNat % 8 != 0 && decide (f.sub.toNat / 8 ≤ f.sub.toNat % 8)

/-- MOV in LB form (R117): b with SB or IM, else a; the other source's field is 0. -/
def movOk (f : LB) : Bool :=
  decide (f.t.toNat < 12) && f.sub == 0 && lbMods f true true false false false false && dstOk .byT f.t.toNat f.vd.toNat
    && !(f.sb && f.t == 9) && (f.im || f.vc == 0) && (!f.im || immOk f.t.toNat (lbImm f))
    && (if f.sb || f.im then f.va == 0 else f.vb == 0 && opdEven .byT f.t.toNat f.va.toNat)

/-- LOGIC (R105): .not uses no b. -/
def logicOk (f : LB) : Bool :=
  lbOk (aluSpec .logic) f && (f.sub != 6 || (f.vb == 0 && f.vc == 0))

/-- The LB check of a per-lane instruction. -/
def aluLbOk (op : AluOp) (f : LB) : Bool :=
  match op with
  | .cvt => cvtOk f
  | .pack => packOk f
  | .unpack => unpackOk f
  | .dqplane => dqplaneOk f
  | .mov => movOk f
  | .logic => logicOk f
  | op => lbOk (aluSpec op) f

/-- The LA check of a per-lane instruction with an LA form (R101). -/
def aluLaOk (op : AluOp) (f : LA) : Bool := laOk (aluSpec op) f

/-- No modifier at all. -/
def lbPlain (f : LB) : Bool := lbMods f false false false false false false

/-- QPLANE (R114). -/
def qplaneOk (f : LB) : Bool :=
  f.sub.toNat % 8 != 0 && decide (f.sub.toNat < 16) && f.t == 2 && f.vc == 0 && lbMods f true false false false false false
    && (if bit f.sub.toNat 3 then f.sb && decide (f.vb.toNat ≤ 253) else !f.sb && f.vb == 0)

/-- SRND (R116). -/
def srndOk (f : LB) : Bool :=
  [0, 1, 16, 17, 18, 19, 20, 21].contains f.sub.toNat && f.t == 2 && f.vc == 0 && f.sb && decide (f.vb.toNat ≤ 253)
    && lbMods f true false false true false false

/-- XLANE (R118), apart from the segment's limit by width. -/
def xlaneOk (f : LB) : Bool :=
  f.sub.toNat % 8 != 7 && f.sub.toNat / 8 != 7 && decide (f.t.toNat < 12) && lbMods f true true false false false false
    && opdEven .byT f.t.toNat f.vd.toNat && opdEven .byT f.t.toNat f.va.toNat && !(f.sb && f.t == 9)
    && (f.im || f.vc == 0) && (f.sb || f.im || opdEven .byT f.t.toNat f.vb.toNat) && (f.sub.toNat % 8 != 6 || (f.vb == 0 && !f.sb && !f.im))
    && (!f.im || immOk f.t.toNat (lbImm f))

/-- PEER (R119), apart from vd's parity by width. -/
def peerOk (f : LB) : Bool :=
  decide (f.sub.toNat < 4) && decide (f.t.toNat < 12) && f.vb == 0 && f.vc == 0 && lbPlain f
    && opdEven .byT f.t.toNat f.va.toNat

/-- QPOLL (R120), apart from vd's parity by width. -/
def qpollOk (f : LB) : Bool :=
  decide (f.sub.toNat < 7) && f.t == 0 && decide (f.va.toNat < 8) && f.vb == 0 && f.vc == 0
    && lbMods f false false false false true false
    && (if f.sub.toNat < 3 then decide (f.vd.toNat < 7)
        else if f.sub.toNat == 4 then decide (0 < f.vd.toNat) && decide (f.vd.toNat < 12) else true)

/-- REDX and SCAN (R121), apart from the segment's limit by width. -/
def reduceOk (scan : Bool) (f : LB) : Bool :=
  decide (f.sub.toNat % 8 < 6) && (scan || f.sub.toNat / 8 != 7) && f.vb == 0 && f.vc == 0
    && (tsW.contains f.t.toNat || (f.t == 2 && decide (f.sub.toNat % 8 < 3)))
    && lbMods f false false (f.t == 2 && f.sub.toNat % 8 == 0) (f.t != 2 && f.sub.toNat % 8 == 0) false false
    && opdEven .byT f.t.toNat f.vd.toNat && opdEven .byT f.t.toNat f.va.toNat

/-- PLOP (R122). -/
def plopOk (f : LB) : Bool :=
  f.vd.toNat % 64 < 7 && decide (f.va.toNat < 8) && decide (f.vb.toNat < 8) && decide (f.vc.toNat < 8) && f.t == 0
    && lbPlain f

/-- BRP (R129). -/
def brpOk (f : LB) : Bool :=
  f.va == 0 && f.sub == 0 && f.t == 0 && f.im && lbMods f false true false false false false

/-- TRD and TWR (R215), apart from h by width and the view's valid bit. -/
def ltOk (f : LT) : Bool := f.sub.toNat < 2 && f.rest == 0 && decide (f.sidx.toNat < 256)
def trdOk (f : LT) : Bool := ltOk f && f.va == 0
def twrOk (f : LT) : Bool := ltOk f && f.vd == 0

/-- vd's alignment for an access of 2^k registers (R152). -/
def szVd (sz vd : Nat) : Bool := if sz == 5 then vd % 2 == 0 else if sz == 6 then vd % 4 == 0 else true

/-- LDS, STS, LDG, STG and STNT (R152, R153): `glob` for the global ones, `store` for stores, `span` for LDG. -/
def lmOk (glob store span : Bool) (f : LM) : Bool :=
  f.sub.toNat % 8 != 7 && (bit f.sub.toNat 3 || f.va == 0) && (span || decide (f.sub.toNat < 16))
    && szVd (f.sub.toNat % 8) f.vd.toNat && !(store && (f.sub.toNat % 8 == 0 || f.sub.toNat % 8 == 2))
    && decide (f.sbase.toNat ≤ if glob then 254 else 255)

/-- AOP and AT combinations (R164). -/
def atomOk (aop ty : Nat) (redg : Bool) : Bool :=
  if aop < 3 then decide (ty < 7)
  else if aop < 6 then ty == 0 || ty == 1 || ty == 3 || ty == 4
  else !redg

/-- Registers an element of AT takes (R164). -/
def atomRegs (ty : Nat) : Nat := if ty == 7 then 4 else if ty == 3 || ty == 4 || ty == 5 then 2 else 1

/-- ATOMS, ATOMG and REDG (R164, R153). -/
def lmAtomOk (limit : Nat) (redg : Bool) (f : LM) : Bool :=
  atomOk (f.sub.toNat / 8) (f.sub.toNat % 8) redg && f.vd.toNat % atomRegs (f.sub.toNat % 8) == 0
    && decide (f.sbase.toNat ≤ limit)

/-- PREFG (R176). -/
def prefgOk (f : LM) : Bool :=
  decide (f.vd.toNat ≤ 16) && (f.sub == 0 || f.sub == 8) && (f.sub == 8 || f.va == 0) && decide (f.sbase.toNat ≤ 254)

/-- MMA (R197). -/
def mmaOk (f : LB) : Bool :=
  f.sub.toNat % 4 != 3 && decide (f.sub.toNat < 8) && (!bit f.sub.toNat 2 || decide (f.vb.toNat ≤ 250))
    && (if f.sub.toNat % 4 == 2 then decide (f.vc.toNat < 64) else f.vc == 0)
    && !f.gn && f.gp == 7 && f.sb && !f.im && f.rnd == 0 && !f.sat && !f.na && !f.nb && f.t == 0

/-- ACCRD and ACCWR (R208), apart from what depends on the width. -/
def accOk (f : LB) : Bool :=
  decide (f.sub.toNat < 16) && decide (f.va.toNat < 32) && f.t == 2 && f.vb == 0 && f.vc == 0 && lbPlain f

/-- A scalar field with `n` consecutive registers (R81). -/
def sOk (x : BitVec 9) (n : Nat) : Bool := decide (x.toNat + n ≤ 384)

/-- sub[2:0] values of the scalar arithmetic (R123). -/
def scalSubs : ScalOp → Nat
  | .smulh | .smin | .smax | .sbfe | .sclz => 2
  | .slogic => 7
  | .scmp => 6
  | _ => 1

/-- Whether the operation with this sub is unary (R123). -/
def scalUnary (op : ScalOp) (sub : Nat) : Bool := op == .spopc || op == .sclz || (op == .slogic && sub == 6)

/-- UA form: I = 0 (R82). -/
def scalUaOk (op : ScalOp) (f : UA) : Bool := decide (f.sub.toNat < scalSubs op) && sOk f.sd 1 && sOk f.sa 1

/-- UB form. -/
def scalUbOk (op : ScalOp) (f : UB) : Bool :=
  decide (f.sub.toNat < scalSubs op) && sOk f.sd 1 && sOk f.sa 1 && sOk f.sb 1 && sOk f.sc 1
    && (op == .smad || op == .sbfi || op == .ssel || f.sc == 0) && (op == .sadd || op == .smov || f.imm == 0)
    && (!(scalUnary op f.sub.toNat || op == .smov) || f.sb == 0)

/-- UI form: I = 1 in sub[3] (R82). -/
def scalUiOk (op : ScalOp) (f : UI) : Bool :=
  bit f.sub.toNat 3 && decide (f.sub.toNat - 8 < scalSubs op) && sOk f.sd 1 && sOk f.sa 1
    && (!(scalUnary op (f.sub.toNat - 8) || op == .smov) || f.sa == 0)

/-- A UA instruction with no field at all (R84). -/
def uaNone (f : UA) : Bool := f.sd == 0 && f.sa == 0 && f.sub == 0

/-- BRC (R127). -/
def brcOk (f : UI) : Bool := decide (f.sub.toNat < 6) && f.sd == 0 && sOk f.sa 1
/-- RET and JMPI (R128): sa = 383 is illegal. -/
def retOk (f : UA) : Bool := f.sd == 0 && f.sub == 0 && sOk f.sa 2
/-- JOIN and LEAVE (`lo = 1`), WAIT (`lo = 0`) (R131). -/
def maskOpOk (lo : Nat) (f : UA) : Bool := decide (lo ≤ f.sd.toNat) && decide (f.sd.toNat < 12) && f.sa == 0 && f.sub == 0

/-- MOPS (R136). -/
def mopsOk (f : UA) : Bool :=
  let dstM := decide (0 < f.sd.toNat) && decide (f.sd.toNat < 12)
  let srcM := decide (f.sa.toNat < 12)
  match f.sub.toNat with
  | 0 | 1 | 6 => dstM && f.sa == 0
  | 2 | 3 | 4 | 5 => dstM && srcM
  | 7 => sOk f.sd 2 && srcM
  | 8 => dstM && sOk f.sa 2
  | 9 => sOk f.sd 1 && srcM
  | _ => false

/-- TRAP (R145). -/
def trapOk (f : UB) : Bool := f.sd == 0 && f.sa == 0 && f.sub == 0 && f.sb == 0 && f.sc == 0
/-- SLEEPC (R138). -/
def sleepcOk (f : UB) : Bool :=
  f.sd == 0 && f.sb == 0 && f.sc == 0 && decide (f.sub.toNat < 2) && sOk f.sa 1 && (f.sub == 1 || f.sa == 0)
/-- WAITC (R137). -/
def waitcOk (f : UB) : Bool :=
  f.sd == 0 && f.sa == 0 && f.sb == 0 && f.sc == 0 && decide (f.sub.toNat < 4) && decide (f.imm.toNat < 64)
/-- ATTACH (R139). -/
def attachOk (f : UI) : Bool := decide (f.sub.toNat < 2) && sOk f.sd 1 && sOk f.sa 1
/-- REGGROW and REGSHRINK (R142). -/
def regwinOk (f : UA) : Bool := sOk f.sd 1 && decide (0 < f.sa.toNat) && decide (f.sa.toNat ≤ 32) && f.sub == 0

/-- The special register indices of R34. -/
def sregIndex (n : Nat) : Bool :=
  decide (n < 10) || n == 0x10 || n == 0x11 || (decide (0x18 ≤ n) && decide (n ≤ 0x1A)) ||
    (decide (0x20 ≤ n) && decide (n ≤ 0x28)) || (decide (0x30 ≤ n) && decide (n ≤ 0x34))
/-- The trap registers (R34). -/
def sregTrap (n : Nat) : Bool := decide (0x20 ≤ n) && decide (n ≤ 0x27)
/-- Registers with a writable field (R34, R35). -/
def sregWritable (n : Nat) : Bool := n == 0x10 || n == 0x11 || n == 0x28 || sregTrap n

/-- SRD (R35, R143). -/
def srdOk (f : UB) : Bool :=
  f.sa == 0 && f.sb == 0 && f.sc == 0 && sregIndex f.imm.toNat
    && (if f.sub == 0 then sOk f.sd 1 && decide (1 < f.imm.toNat) else f.sub == 1 && decide (f.sd.toNat < 256))
/-- SWR (R35, R143). -/
def swrOk (f : UB) : Bool :=
  f.sub == 0 && f.sd == 0 && sOk f.sa 1 && f.sb == 0 && f.sc == 0 && sregIndex f.imm.toNat && sregWritable f.imm.toNat

/-- Scalars a value of size SZ takes (R158). -/
def szRegs (sz : Nat) : Nat := if sz == 5 then 2 else if sz == 6 then 4 else 1
/-- SLDG (`pair = 2`) and SLDS (R158). -/
def sldOk (base : Nat) (f : UB) : Bool :=
  decide (f.sub.toNat < 7) && sOk f.sd (szRegs f.sub.toNat) && sOk f.sa base && f.sb == 0 && f.sc == 0
/-- SSTG and SSTS (R158). -/
def sstOk (base : Nat) (f : UB) : Bool :=
  decide (f.sub.toNat < 7) && f.sub != 0 && f.sub != 2 && f.sd == 0 && sOk f.sa base && sOk f.sb (szRegs f.sub.toNat)
    && f.sc == 0

/-- ORD, SCOPE and FORD of an order field (R165). -/
def orderOk (w : Nat) (cas redg : Bool) : Bool :=
  decide (w % 8 ≤ 4) && decide (w / 8 % 8 ≤ 5) && (if cas then w / 64 % 4 != 3 else w / 64 % 4 == 0)
    && (redg || !bit w 8) && decide (w < 512) && (!redg || w % 8 == 0 || w % 8 == 2)

/-- SATOMG (R169). -/
def satomgOk (f : UB) : Bool :=
  let ty := f.imm.toNat / 256 % 8
  let n := atomRegs ty
  decide (f.sub.toNat < 8) && atomOk f.sub.toNat ty false && decide (f.imm.toNat < 2048)
    && orderOk (f.imm.toNat % 256) (f.sub == 7) false && sOk f.sd n && sOk f.sa 2 && sOk f.sb n
    && (if f.sub == 7 then sOk f.sc n else f.sc == 0)

/-- FENCE (R171). -/
def fenceOk (f : UB) : Bool :=
  f.sd == 0 && f.sa == 0 && f.sub == 0 && f.sb == 0 && f.sc == 0 && decide (f.imm.toNat < 64)
    && decide (1 ≤ f.imm.toNat % 8) && decide (f.imm.toNat % 8 ≤ 4) && decide (f.imm.toNat / 8 ≤ 5)
/-- DRAINNT (R160). -/
def ubNone (f : UB) : Bool := f.sd == 0 && f.sa == 0 && f.sub == 0 && f.sb == 0 && f.sc == 0 && f.imm == 0
/-- FLUSH (R175). -/
def flushOk (f : UB) : Bool :=
  decide (f.sub.toNat < 3) && f.sd == 0 && f.sc == 0 && f.imm == 0 && sOk f.sa 2 && sOk f.sb 1
/-- PREF (R176). -/
def prefOk (f : UB) : Bool :=
  decide (f.imm.toNat ≤ 16) && f.sub == 0 && f.sd == 0 && f.sb == 0 && f.sc == 0 && sOk f.sa 2
/-- The barrier instructions (R177): `n` objects, a mask index when `mask`. -/
def barOk (n : Nat) (mask : Bool) (f : UB) : Bool :=
  decide (f.sd.toNat < n) && (if mask then decide (f.sa.toNat < 12) else f.sa == 0) && f.sub == 0 && f.sb == 0 && f.sc == 0
    && f.imm == 0
/-- KINIT, KTAKE and KGIVE with `sub` up to a bound (R182). -/
def knotOk (subs : Nat) (f : UB) : Bool :=
  decide (f.sub.toNat < subs) && sOk f.sd 1 && sOk f.sa 2 && f.sb == 0 && f.sc == 0 && f.imm == 0
/-- RINIT (R187). -/
def rinitOk (f : UB) : Bool :=
  f.sd == 0 && sOk f.sa 1 && sOk f.sb 1 && f.sc == 0 && f.sub == 0 && decide (f.imm.toNat < 64)
/-- RWAIT (R187). -/
def rwaitOk (f : UB) : Bool :=
  sOk f.sd 1 && sOk f.sa 1 && f.sb == 0 && f.sc == 0 && decide (f.sub.toNat < 2) && f.imm == 0
/-- RREL (R187). -/
def rrelOk (f : UB) : Bool := f.sd == 0 && sOk f.sa 1 && f.sb == 0 && f.sc == 0 && f.sub == 0 && f.imm == 0
/-- RARR (R187). -/
def rarrOk (f : UB) : Bool := f.sd == 0 && sOk f.sa 1 && sOk f.sb 1 && sOk f.sc 1 && f.sub == 0 && f.imm == 0
/-- CHSEND (R190). -/
def chsendOk (f : UB) : Bool :=
  f.sd == 0 && sOk f.sa 1 && sOk f.sb 1 && f.sc == 0 && f.sub == 0 && decide (f.imm.toNat < 16)
/-- CHRECV (R190). -/
def chrecvOk (f : UB) : Bool :=
  f.sa == 0 && f.sb == 0 && f.sc == 0 && decide (f.imm.toNat < 16)
    && (if f.sub == 0 then sOk f.sd 1 else f.sub == 1 && f.sd == 0)
/-- DEQ (R147). -/
def deqOk (f : UB) : Bool :=
  decide (f.sub.toNat < 2) && sOk f.sd 16 && sOk f.sa 1 && f.sb == 0 && f.sc == 0 && f.imm == 0
/-- ENQ (R147). -/
def enqOk (f : UB) : Bool :=
  decide (f.sub.toNat < 2) && sOk f.sd 1 && sOk f.sa 1 && sOk f.sb 16 && f.sc == 0 && decide (f.imm.toNat < 2)
/-- LAUNCH (R147). -/
def launchOk (f : UB) : Bool :=
  decide (f.sub.toNat < 2) && sOk f.sd 1 && sOk f.sa 2 && f.sb == 0 && f.sc == 0 && f.imm == 0
/-- HSET (R195). -/
def hsetOk (f : UB) : Bool :=
  decide (f.sd.toNat < 8) && decide (f.sub.toNat < 5) && f.sa == 0 && f.sb == 0 && f.sc == 0 && f.imm == 0
/-- ACCZ and ACCREL (R207). -/
def accNameOk (f : UB) : Bool :=
  decide (f.sd.toNat < 16) && f.sa == 0 && f.sb == 0 && f.sc == 0 && f.sub == 0 && f.imm == 0
/-- MCHKRD (R213). -/
def mchkrdOk (f : UB) : Bool := sOk f.sd 4 && f.sa == 0 && f.sb == 0 && f.sc == 0 && f.sub == 0 && f.imm == 0
/-- TDEF (R214). -/
def tdefOk (f : UB) : Bool :=
  decide (f.sd.toNat < 8) && decide (f.sub.toNat < 2) && f.sa == 0 && f.sb == 0 && f.sc == 0
    && (if f.sub == 1 then f.imm == 0 else decide (f.imm.toNat < 256) && f.imm.toNat % 8 == 0)
/-- The scalar operands of a copy: slot, source block, destination block, ring (R223). -/
def copyRegs (saN sbN : Nat) (f : UB) : Bool := sOk f.sd 1 && sOk f.sa saN && sOk f.sb sbN && sOk f.sc 1
/-- Bits of imm14 other than .ord (R223). -/
def copyMod (f : UB) : Nat := f.imm.toNat % 4096 + f.imm.toNat / 8192 * 4096
def cpyG2sOk (f : UB) : Bool := copyRegs 6 1 f && f.sub == 0 && decide (f.imm.toNat < 8192)
def cpyS2gOk (f : UB) : Bool := copyRegs 6 1 f && f.sub == 1 && copyMod f == 0
def cpyS2sOk (f : UB) : Bool := copyRegs 2 1 f && f.sub == 2 && copyMod f == 0
def cpIndexOk (f : UB) : Bool := copyRegs 6 3 f && f.sub == 0 && decide (copyMod f < 8)
def cpxfOk (f : UB) : Bool := copyRegs 6 1 f && decide (f.sub.toNat < 4) && decide (copyMod f < 16)
/-- TDCHK (R222). -/
def tdchkOk (f : UB) : Bool := sOk f.sd 1 && sOk f.sa 1 && f.sb == 0 && f.sc == 0 && f.sub == 0 && f.imm == 0
/-- COLL (R230). -/
def collOk (f : UB) : Bool :=
  copyRegs 2 3 f && decide (f.sub.toNat < 4) && f.imm.toNat % 4 != 3 && (f.sub == 0 || f.sub == 2 || f.imm.toNat % 4 == 0)
    && decide (f.imm.toNat / 4 % 16 < 5) && decide (f.imm.toNat < 64)

end Sys2Proof.Machine
end

