-- ==== Sys2Proof/WellFormed.lean ====
section
/-! DEFINITION. Well-formedness: the fields of an instruction obey the decode checks of R85 step 3 (R77 to R84). What
depends on the issuing warp (mode, role, width, window, tile views) is checked at issue. An event has no encoding and is
well formed. The checks themselves stand in Machine/Legal.lean. -/

namespace Sys2Proof

/-- Whether an instruction's fields are ones its row defines (R84, R85, R86). -/
def Instr.wf (i : Instr) : Bool :=
  match i with
  | .iadd f => Machine.aluLbOk .iadd f
  | .iaddShort f => Machine.aluLaOk .iadd f
  | .isub f => Machine.aluLbOk .isub f
  | .isubShort f => Machine.aluLaOk .isub f
  | .imul f => Machine.aluLbOk .imul f
  | .imulShort f => Machine.aluLaOk .imul f
  | .imulh f => Machine.aluLbOk .imulh f
  | .imulhShort f => Machine.aluLaOk .imulh f
  | .imad f => Machine.aluLbOk .imad f
  | .imadShort f => Machine.aluLaOk .imad f
  | .imin f => Machine.aluLbOk .imin f
  | .iminShort f => Machine.aluLaOk .imin f
  | .imax f => Machine.aluLbOk .imax f
  | .imaxShort f => Machine.aluLaOk .imax f
  | .iabs f => Machine.aluLbOk .iabs f
  | .iabsShort f => Machine.aluLaOk .iabs f
  | .idp4 f => Machine.aluLbOk .idp4 f
  | .idp4Short f => Machine.aluLaOk .idp4 f
  | .shl f => Machine.aluLbOk .shl f
  | .shlShort f => Machine.aluLaOk .shl f
  | .shr f => Machine.aluLbOk .shr f
  | .shrShort f => Machine.aluLaOk .shr f
  | .sar f => Machine.aluLbOk .sar f
  | .sarShort f => Machine.aluLaOk .sar f
  | .shf f => Machine.aluLbOk .shf f
  | .shfShort f => Machine.aluLaOk .shf f
  | .knit f => Machine.aluLbOk .knit f
  | .logic f => Machine.aluLbOk .logic f
  | .logicShort f => Machine.aluLaOk .logic f
  | .bfe f => Machine.aluLbOk .bfe f
  | .bfeShort f => Machine.aluLaOk .bfe f
  | .bfi f => Machine.aluLbOk .bfi f
  | .bfiShort f => Machine.aluLaOk .bfi f
  | .popc f => Machine.aluLbOk .popc f
  | .popcShort f => Machine.aluLaOk .popc f
  | .clz f => Machine.aluLbOk .clz f
  | .clzShort f => Machine.aluLaOk .clz f
  | .brev f => Machine.aluLbOk .brev f
  | .brevShort f => Machine.aluLaOk .brev f
  | .ffs f => Machine.aluLbOk .ffs f
  | .ffsShort f => Machine.aluLaOk .ffs f
  | .icmp f => Machine.aluLbOk .icmp f
  | .icmpShort f => Machine.aluLaOk .icmp f
  | .sel f => Machine.aluLbOk .sel f
  | .selShort f => Machine.aluLaOk .sel f
  | .isad f => Machine.aluLbOk .isad f
  | .isadShort f => Machine.aluLaOk .isad f
  | .bmix f => Machine.aluLbOk .bmix f
  | .bmixShort f => Machine.aluLaOk .bmix f
  | .fadd f => Machine.aluLbOk .fadd f
  | .faddShort f => Machine.aluLaOk .fadd f
  | .fsub f => Machine.aluLbOk .fsub f
  | .fsubShort f => Machine.aluLaOk .fsub f
  | .fmul f => Machine.aluLbOk .fmul f
  | .fmulShort f => Machine.aluLaOk .fmul f
  | .ffma f => Machine.aluLbOk .ffma f
  | .ffmaShort f => Machine.aluLaOk .ffma f
  | .fmin f => Machine.aluLbOk .fmin f
  | .fminShort f => Machine.aluLaOk .fmin f
  | .fmax f => Machine.aluLbOk .fmax f
  | .fmaxShort f => Machine.aluLaOk .fmax f
  | .fcmp f => Machine.aluLbOk .fcmp f
  | .fcmpShort f => Machine.aluLaOk .fcmp f
  | .frcp f => Machine.aluLbOk .frcp f
  | .frcpShort f => Machine.aluLaOk .frcp f
  | .frsq f => Machine.aluLbOk .frsq f
  | .frsqShort f => Machine.aluLaOk .frsq f
  | .fsqrt f => Machine.aluLbOk .fsqrt f
  | .fsqrtShort f => Machine.aluLaOk .fsqrt f
  | .fdiv f => Machine.aluLbOk .fdiv f
  | .fdivShort f => Machine.aluLaOk .fdiv f
  | .fexp2 f => Machine.aluLbOk .fexp2 f
  | .fexp2Short f => Machine.aluLaOk .fexp2 f
  | .flog2 f => Machine.aluLbOk .flog2 f
  | .flog2Short f => Machine.aluLaOk .flog2 f
  | .fsinpi f => Machine.aluLbOk .fsinpi f
  | .fsinpiShort f => Machine.aluLaOk .fsinpi f
  | .fcospi f => Machine.aluLbOk .fcospi f
  | .fcospiShort f => Machine.aluLaOk .fcospi f
  | .ftanh f => Machine.aluLbOk .ftanh f
  | .ftanhShort f => Machine.aluLaOk .ftanh f
  | .fclass f => Machine.aluLbOk .fclass f
  | .fclassShort f => Machine.aluLaOk .fclass f
  | .fscale f => Machine.aluLbOk .fscale f
  | .fscaleShort f => Machine.aluLaOk .fscale f
  | .frnd f => Machine.aluLbOk .frnd f
  | .frndShort f => Machine.aluLaOk .frnd f
  | .dadd f => Machine.aluLbOk .dadd f
  | .dmul f => Machine.aluLbOk .dmul f
  | .dfma f => Machine.aluLbOk .dfma f
  | .dcmp f => Machine.aluLbOk .dcmp f
  | .cvt f => Machine.aluLbOk .cvt f
  | .qplane f => Machine.qplaneOk f
  | .dqplane f => Machine.aluLbOk .dqplane f
  | .pack f => Machine.aluLbOk .pack f
  | .unpack f => Machine.aluLbOk .unpack f
  | .srnd f => Machine.srndOk f
  | .mov f => Machine.aluLbOk .mov f
  | .movShort f => Machine.aluLaOk .mov f
  | .xlane f => Machine.xlaneOk f
  | .peer f => Machine.peerOk f
  | .qpoll f => Machine.qpollOk f
  | .redx f => Machine.reduceOk false f
  | .scan f => Machine.reduceOk true f
  | .plop f => Machine.plopOk f
  | .brp f => Machine.brpOk f
  | .trd f => Machine.trdOk f
  | .twr f => Machine.twrOk f
  | .lds f => Machine.lmOk false false false f
  | .sts f => Machine.lmOk false true false f
  | .ldg f => Machine.lmOk true false true f
  | .stg f => Machine.lmOk true true false f
  | .stnt f => Machine.lmOk true true false f
  | .atoms f => Machine.lmAtomOk 254 false f
  | .atomg f => Machine.lmAtomOk 253 false f
  | .redg f => Machine.lmAtomOk 253 true f
  | .prefg f => Machine.prefgOk f
  | .mma f => Machine.mmaOk f
  | .accrd f => Machine.accOk f
  | .accwr f => Machine.accOk f
  | .nop _ => true
  | .sadd f => Machine.scalUaOk .sadd f
  | .saddUb f => Machine.scalUbOk .sadd f
  | .saddUi f => Machine.scalUiOk .sadd f
  | .ssub f => Machine.scalUaOk .ssub f
  | .ssubUb f => Machine.scalUbOk .ssub f
  | .ssubUi f => Machine.scalUiOk .ssub f
  | .smul f => Machine.scalUaOk .smul f
  | .smulUb f => Machine.scalUbOk .smul f
  | .smulUi f => Machine.scalUiOk .smul f
  | .smulh f => Machine.scalUaOk .smulh f
  | .smulhUb f => Machine.scalUbOk .smulh f
  | .smulhUi f => Machine.scalUiOk .smulh f
  | .smad f => Machine.scalUaOk .smad f
  | .smadUb f => Machine.scalUbOk .smad f
  | .smadUi f => Machine.scalUiOk .smad f
  | .smin f => Machine.scalUaOk .smin f
  | .sminUb f => Machine.scalUbOk .smin f
  | .sminUi f => Machine.scalUiOk .smin f
  | .smax f => Machine.scalUaOk .smax f
  | .smaxUb f => Machine.scalUbOk .smax f
  | .smaxUi f => Machine.scalUiOk .smax f
  | .sshl f => Machine.scalUaOk .sshl f
  | .sshlUb f => Machine.scalUbOk .sshl f
  | .sshlUi f => Machine.scalUiOk .sshl f
  | .sshr f => Machine.scalUaOk .sshr f
  | .sshrUb f => Machine.scalUbOk .sshr f
  | .sshrUi f => Machine.scalUiOk .sshr f
  | .ssar f => Machine.scalUaOk .ssar f
  | .ssarUb f => Machine.scalUbOk .ssar f
  | .ssarUi f => Machine.scalUiOk .ssar f
  | .slogic f => Machine.scalUaOk .slogic f
  | .slogicUb f => Machine.scalUbOk .slogic f
  | .slogicUi f => Machine.scalUiOk .slogic f
  | .sbfe f => Machine.scalUaOk .sbfe f
  | .sbfeUb f => Machine.scalUbOk .sbfe f
  | .sbfeUi f => Machine.scalUiOk .sbfe f
  | .sbfi f => Machine.scalUaOk .sbfi f
  | .sbfiUb f => Machine.scalUbOk .sbfi f
  | .sbfiUi f => Machine.scalUiOk .sbfi f
  | .spopc f => Machine.scalUaOk .spopc f
  | .spopcUb f => Machine.scalUbOk .spopc f
  | .spopcUi f => Machine.scalUiOk .spopc f
  | .sclz f => Machine.scalUaOk .sclz f
  | .sclzUb f => Machine.scalUbOk .sclz f
  | .sclzUi f => Machine.scalUiOk .sclz f
  | .scmp f => Machine.scalUaOk .scmp f
  | .scmpUb f => Machine.scalUbOk .scmp f
  | .scmpUi f => Machine.scalUiOk .scmp f
  | .ssel f => Machine.scalUaOk .ssel f
  | .sselUb f => Machine.scalUbOk .ssel f
  | .sselUi f => Machine.scalUiOk .ssel f
  | .smov f => Machine.scalUaOk .smov f
  | .smovUb f => Machine.scalUbOk .smov f
  | .smovUi f => Machine.scalUiOk .smov f
  | .bra _ => true
  | .brc f => Machine.brcOk f
  | .call _ => true
  | .ret f => Machine.retOk f
  | .jmpi f => Machine.retOk f
  | .exit f => Machine.uaNone f
  | .join f => Machine.maskOpOk 1 f
  | .leave f => Machine.maskOpOk 1 f
  | .wait f => Machine.maskOpOk 0 f
  | .mops f => Machine.mopsOk f
  | .brk f => Machine.uaNone f
  | .trap f => Machine.trapOk f
  | .eret f => Machine.uaNone f
  | .yield f => Machine.uaNone f
  | .sleepc f => Machine.sleepcOk f
  | .waitc f => Machine.waitcOk f
  | .attach f => Machine.attachOk f
  | .detach f => Machine.uaNone f
  | .reggrow f => Machine.regwinOk f
  | .regshrink f => Machine.regwinOk f
  | .srd f => Machine.srdOk f
  | .swr f => Machine.swrOk f
  | .sldg f => Machine.sldOk 2 f
  | .sstg f => Machine.sstOk 2 f
  | .slds f => Machine.sldOk 1 f
  | .ssts f => Machine.sstOk 1 f
  | .satomg f => Machine.satomgOk f
  | .fence f => Machine.fenceOk f
  | .drainnt f => Machine.ubNone f
  | .flush f => Machine.flushOk f
  | .pref f => Machine.prefOk f
  | .bara f => Machine.barOk 16 true f
  | .barw f => Machine.barOk 16 false f
  | .bars f => Machine.barOk 16 true f
  | .cbara f => Machine.barOk 8 true f
  | .cbarw f => Machine.barOk 8 false f
  | .gridbar f => Machine.barOk 1 true f
  | .kinitReg f => Machine.knotOk 1 f
  | .kinitFree f => f.sub == 1 && Machine.knotOk 2 f
  | .ktake f => Machine.knotOk 2 f
  | .kgive f => Machine.knotOk 1 f
  | .rinit f => Machine.rinitOk f
  | .rwaitFull f => f.sub == 0 && Machine.rwaitOk f
  | .rwaitFree f => f.sub == 1 && Machine.rwaitOk f
  | .rrel f => Machine.rrelOk f
  | .rarr f => Machine.rarrOk f
  | .chsend f => Machine.chsendOk f
  | .chrecvTake f => f.sub == 0 && Machine.chrecvOk f
  | .chrecvDone f => f.sub == 1 && Machine.chrecvOk f
  | .deq f => Machine.deqOk f
  | .enq f => Machine.enqOk f
  | .launch f => Machine.launchOk f
  | .hset f => Machine.hsetOk f
  | .accz f => Machine.accNameOk f
  | .accrel f => Machine.accNameOk f
  | .mchkrd f => Machine.mchkrdOk f
  | .tdef f => Machine.tdefOk f
  | .cpyG2s f => Machine.cpyG2sOk f
  | .cpyS2g f => Machine.cpyS2gOk f
  | .cpyS2s f => Machine.cpyS2sOk f
  | .cpgth f => Machine.cpIndexOk f
  | .cpsct f => Machine.cpIndexOk f
  | .cpxf f => Machine.cpxfOk f
  | .tdchk f => Machine.tdchkOk f
  | .coll f => Machine.collOk f
  | .runGrant _ _ => true
  | .readyWaitGuard _ _ => true
  | .sleepEnd _ _ => true
  | .loadReturn _ => true
  | .coreStoreOrderSend _ _ => true
  | .homeAck _ => true
  | .scratchPortAccess _ => true
  | .planeStepsStart _ => true
  | .matrixCompletion _ _ => true
  | .mismatchWindow _ => true
  | .goldenTest _ _ => true
  | .goldenTestResult _ _ => true
  | .resourceQueueService _ => true
  | .resourceQueueAgeLimit _ => true
  | .resourceRefusal _ => true
  | .warpResourceReturn _ => true
  | .warpArrival _ _ => true
  | .pairedBarrierEvent _ => true
  | .blockArrival _ _ => true
  | .copyPiece _ => true
  | .copySourceRead _ => true
  | .copyLineWrite _ => true
  | .ringArrival _ => true
  | .copyFailure _ => true
  | .copyReplay _ _ => true
  | .channelClaim _ => true
  | .l2Request _ => true
  | .gapFillArrival _ _ => true
  | .homeWrite _ => true
  | .leaseExpiry _ => true
  | .spliceAbsorb _ => true
  | .spliceRecordRequest _ _ => true
  | .spliceConfirm _ _ => true
  | .spliceRecall _ _ => true
  | .splicePartialCombine _ => true
  | .knotRequest _ => true
  | .ktakeResend _ => true
  | .streamRelease _ => true
  | .translationWalk _ _ _ => true
  | .enqueueWindowWrite _ _ _ _ => true
  | .qctlWrite _ _ _ => true
  | .klaunch _ => true
  | .waiton _ => true
  | .signal _ => true
  | .work _ => true
  | .waitonSatisfied _ _ => true
  | .klaunchComplete _ _ => true
  | .signalComplete _ _ => true
  | .placementPass _ => true
  | .placementAgeLimit _ => true
  | .blockPlace _ => true
  | .blockStart _ => true
  | .seamHalfForward _ => true
  | .preemptSave _ => true
  | .saveComplete _ => true
  | .restore _ => true
  | .cctlWrite _ _ _ => true
  | .kill _ _ => true
  | .wkick _ _ => true
  | .watchdogPeriod => true
  | .fenceComplete _ => true
  | .cinvGo _ _ => true
  | .invalidationComplete _ => true
  | .migrationGo _ _ => true
  | .migrationClr _ _ => true
  | .migrationGrain _ => true
  | .migrationDone _ => true
  | .hostAccess _ => true
  | .flrVirtual _ => true
  | .flrFunction0 => true
  | .msixMessage _ => true
  | .peerRequest _ => true
  | .lanyardTimeout _ => true
  | .lanyardResponse _ _ _ => true
  | .lanyardLinkFail _ => true
  | .expanderFence _ => true
  | .hbmStackLoss _ => true
  | .collContribution _ => true
  | .collResult _ => true
  | .rdmaRingPoll _ _ => true
  | .rdmaInbound _ => true
  | .correctedError _ _ _ => true
  | .correctedErrorReport _ _ => true
  | .uncorrectedError _ => true
  | .eventStoreRetry _ => true
  | .evheadWrite _ _ => true
  | .evstatLostRead _ => true
  | .fatalError _ => true
  | .dumpComplete _ => true
  | .overTemperature _ => true
  | .reelChunk _ => true
  | .reelComplete => true
  | .reelEnqueueRetry => true
  | .halt _ _ => true
  | .haltComplete _ => true
  | .resume _ _ => true
  | .step _ _ => true
  | .watch _ _ => true
  | .icinv _ _ => true
  | .icinvComplete _ => true
  | .dpost3Write _ _ _ => true
  | .dstatPostClear _ _ => true
  | .dclaimRead _ _ => true
  | .atab _ => true
  | .ctxasn _ => true
  | .cgreg _ => true
  | .cgdel _ => true
  | .reel _ => true
  | .qpnew _ => true
  | .qpdel _ => true
  | .domain _ => true
  | .attest _ => true
  | .gvcnt _ => true
  | .fwupd _ => true
  | .lcset _ => true
  | .cap _ => true
  | .deviceReset _ => true
  | .powerStepSelect _ _ => true
  | .clockStepChange => true
  | .registerWrite _ _ _ _ => true
  | .mainPowerLoss => true
  | .ethernetLinkChange _ _ => true
  | .virtualFunctionEnable _ => true
  | .rdmaResponse _ _ _ _ => true
  | .rdmaInboundSend _ _ => true
  | .rdmaRetryTimeout _ _ => true
  | .pairedAccCommandArrival _ => true

end Sys2Proof
end

