-- ==== Sys2Proof/Decode.lean ====
section
/-! DEFINITION. Framing and decoding of instruction words (R72, R76 to R88), total on any bytes, and the encoder written
from the same layouts. Decoding picks the row by the set bit S, the length bit L, the opcode and, for rows that share an
opcode, the sub-operation; what the fields may hold is `Instr.wf`'s question, so that every pattern of an assigned opcode
decodes and an illegal one is refused at issue by the ILL trap of R85. -/

namespace Sys2Proof

/-- Why bytes are no instruction of this manual (R86). -/
inductive Reject where
  /-- Fewer bytes than the instruction's words take. -/
  | tooShort
  /-- S = 0 and an opcode marked "-" in R87. -/
  | laneOpcode
  /-- S = 1 and an opcode marked "-" in R88. -/
  | uniformOpcode
  /-- L matches no form the lane opcode lists (R87). -/
  | laneForm
  /-- L matches no form the uniform opcode lists (R88). -/
  | uniformForm
  /-- S = 1, OP = 0x00 with a field set (R86). -/
  | nopFields
  deriving DecidableEq, Repr

/-- Word 0 as format LA (R76). -/
def decLA (w0 : Word) : LA :=
  { e := w0.getLsbD 29, vd := w0.extractLsb' 14 8, va := w0.extractLsb' 6 8, sub := w0.extractLsb' 0 6 }

/-- Words 0 and 1 as format LB (R77). -/
def decLB (w0 w1 : Word) : LB :=
  { e := w0.getLsbD 29, vd := w0.extractLsb' 14 8, va := w0.extractLsb' 6 8, sub := w0.extractLsb' 0 6,
    vb := w1.extractLsb' 24 8, vc := w1.extractLsb' 16 8, gn := w1.getLsbD 15, gp := w1.extractLsb' 12 3,
    q := w1.getLsbD 11, sb := w1.getLsbD 10, im := w1.getLsbD 9, rnd := w1.extractLsb' 7 2, sat := w1.getLsbD 6,
    na := w1.getLsbD 5, nb := w1.getLsbD 4, t := w1.extractLsb' 0 4 }

/-- Words 0 and 1 as format LM (R80). -/
def decLM (w0 w1 : Word) : LM :=
  { e := w0.getLsbD 29, vd := w0.extractLsb' 14 8, va := w0.extractLsb' 6 8, sub := w0.extractLsb' 0 6,
    sbase := w1.extractLsb' 23 9, gn := w1.getLsbD 22, gp := w1.extractLsb' 19 3, off := w1.extractLsb' 0 19 }

/-- Words 0 and 1 as format LT (R80). -/
def decLT (w0 w1 : Word) : LT :=
  { e := w0.getLsbD 29, vd := w0.extractLsb' 14 8, va := w0.extractLsb' 6 8, sub := w0.extractLsb' 0 6,
    rc := w1.getLsbD 31, tn := w1.extractLsb' 28 3, sidx := w1.extractLsb' 19 9, imm5 := w1.extractLsb' 14 5,
    gq := w1.extractLsb' 12 2, rest := w1.extractLsb' 0 12 }

/-- Word 0 as format UA (R81). -/
def decUA (w0 : Word) : UA :=
  { e := w0.getLsbD 29, sd := w0.extractLsb' 13 9, sa := w0.extractLsb' 4 9, sub := w0.extractLsb' 0 4 }

/-- Words 0 and 1 as format UB (R82). -/
def decUB (w0 w1 : Word) : UB :=
  { e := w0.getLsbD 29, sd := w0.extractLsb' 13 9, sa := w0.extractLsb' 4 9, sub := w0.extractLsb' 0 4,
    sb := w1.extractLsb' 23 9, sc := w1.extractLsb' 14 9, imm := w1.extractLsb' 0 14 }

/-- Words 0 and 1 as format UI (R82). -/
def decUI (w0 w1 : Word) : UI :=
  { e := w0.getLsbD 29, sd := w0.extractLsb' 13 9, sa := w0.extractLsb' 4 9, sub := w0.extractLsb' 0 4, imm := w1 }

/-- Word 0 as format UJ (R83). -/
def decUJ (w0 : Word) : UJ := { e := w0.getLsbD 29, off := w0.extractLsb' 0 22 }

/-- The major opcode (R72). -/
def opOf (w0 : Word) : Nat := (w0.extractLsb' 22 7).toNat

/-- The short lane forms (R87). -/
def laneShort (op : Nat) (f : LA) : Option Instr :=
  match op with
  | 0x01 => some (.iaddShort f)
  | 0x02 => some (.isubShort f)
  | 0x03 => some (.imulShort f)
  | 0x04 => some (.imulhShort f)
  | 0x05 => some (.imadShort f)
  | 0x06 => some (.iminShort f)
  | 0x07 => some (.imaxShort f)
  | 0x08 => some (.iabsShort f)
  | 0x09 => some (.idp4Short f)
  | 0x0A => some (.shlShort f)
  | 0x0B => some (.shrShort f)
  | 0x0C => some (.sarShort f)
  | 0x0D => some (.shfShort f)
  | 0x0F => some (.logicShort f)
  | 0x10 => some (.bfeShort f)
  | 0x11 => some (.bfiShort f)
  | 0x12 => some (.popcShort f)
  | 0x13 => some (.clzShort f)
  | 0x14 => some (.brevShort f)
  | 0x15 => some (.ffsShort f)
  | 0x16 => some (.icmpShort f)
  | 0x17 => some (.selShort f)
  | 0x18 => some (.isadShort f)
  | 0x19 => some (.bmixShort f)
  | 0x20 => some (.faddShort f)
  | 0x21 => some (.fsubShort f)
  | 0x22 => some (.fmulShort f)
  | 0x23 => some (.ffmaShort f)
  | 0x24 => some (.fminShort f)
  | 0x25 => some (.fmaxShort f)
  | 0x26 => some (.fcmpShort f)
  | 0x27 => some (.frcpShort f)
  | 0x28 => some (.frsqShort f)
  | 0x29 => some (.fsqrtShort f)
  | 0x2A => some (.fdivShort f)
  | 0x2B => some (.fexp2Short f)
  | 0x2C => some (.flog2Short f)
  | 0x2D => some (.fsinpiShort f)
  | 0x2E => some (.fcospiShort f)
  | 0x2F => some (.ftanhShort f)
  | 0x30 => some (.fclassShort f)
  | 0x31 => some (.fscaleShort f)
  | 0x32 => some (.frndShort f)
  | 0x50 => some (.movShort f)
  | _ => none

/-- The LB opcodes (R87). -/
def laneLB (op : Nat) (f : LB) : Option Instr :=
  match op with
  | 0x01 => some (.iadd f)
  | 0x02 => some (.isub f)
  | 0x03 => some (.imul f)
  | 0x04 => some (.imulh f)
  | 0x05 => some (.imad f)
  | 0x06 => some (.imin f)
  | 0x07 => some (.imax f)
  | 0x08 => some (.iabs f)
  | 0x09 => some (.idp4 f)
  | 0x0A => some (.shl f)
  | 0x0B => some (.shr f)
  | 0x0C => some (.sar f)
  | 0x0D => some (.shf f)
  | 0x0E => some (.knit f)
  | 0x0F => some (.logic f)
  | 0x10 => some (.bfe f)
  | 0x11 => some (.bfi f)
  | 0x12 => some (.popc f)
  | 0x13 => some (.clz f)
  | 0x14 => some (.brev f)
  | 0x15 => some (.ffs f)
  | 0x16 => some (.icmp f)
  | 0x17 => some (.sel f)
  | 0x18 => some (.isad f)
  | 0x19 => some (.bmix f)
  | 0x20 => some (.fadd f)
  | 0x21 => some (.fsub f)
  | 0x22 => some (.fmul f)
  | 0x23 => some (.ffma f)
  | 0x24 => some (.fmin f)
  | 0x25 => some (.fmax f)
  | 0x26 => some (.fcmp f)
  | 0x27 => some (.frcp f)
  | 0x28 => some (.frsq f)
  | 0x29 => some (.fsqrt f)
  | 0x2A => some (.fdiv f)
  | 0x2B => some (.fexp2 f)
  | 0x2C => some (.flog2 f)
  | 0x2D => some (.fsinpi f)
  | 0x2E => some (.fcospi f)
  | 0x2F => some (.ftanh f)
  | 0x30 => some (.fclass f)
  | 0x31 => some (.fscale f)
  | 0x32 => some (.frnd f)
  | 0x33 => some (.dadd f)
  | 0x34 => some (.dmul f)
  | 0x35 => some (.dfma f)
  | 0x36 => some (.dcmp f)
  | 0x40 => some (.cvt f)
  | 0x41 => some (.qplane f)
  | 0x42 => some (.dqplane f)
  | 0x43 => some (.pack f)
  | 0x44 => some (.unpack f)
  | 0x45 => some (.srnd f)
  | 0x50 => some (.mov f)
  | 0x51 => some (.xlane f)
  | 0x52 => some (.peer f)
  | 0x53 => some (.qpoll f)
  | 0x54 => some (.redx f)
  | 0x55 => some (.scan f)
  | 0x56 => some (.plop f)
  | 0x57 => some (.brp f)
  | 0x70 => some (.mma f)
  | 0x71 => some (.accrd f)
  | 0x72 => some (.accwr f)
  | _ => none

/-- The LM opcodes (R87). -/
def laneLM (op : Nat) (f : LM) : Option Instr :=
  match op with
  | 0x60 => some (.lds f)
  | 0x61 => some (.sts f)
  | 0x62 => some (.ldg f)
  | 0x63 => some (.stg f)
  | 0x64 => some (.stnt f)
  | 0x65 => some (.atoms f)
  | 0x66 => some (.atomg f)
  | 0x67 => some (.redg f)
  | 0x68 => some (.prefg f)
  | _ => none

/-- The LT opcodes (R87). -/
def laneLT (op : Nat) (f : LT) : Option Instr :=
  match op with
  | 0x58 => some (.trd f)
  | 0x59 => some (.twr f)
  | _ => none

/-- The one-word UA opcodes (R88). -/
def uniShort (op : Nat) (f : UA) : Option Instr :=
  match op with
  | 0x01 => some (.sadd f)
  | 0x02 => some (.ssub f)
  | 0x03 => some (.smul f)
  | 0x04 => some (.smulh f)
  | 0x05 => some (.smad f)
  | 0x06 => some (.smin f)
  | 0x07 => some (.smax f)
  | 0x08 => some (.sshl f)
  | 0x09 => some (.sshr f)
  | 0x0A => some (.ssar f)
  | 0x0B => some (.slogic f)
  | 0x0C => some (.sbfe f)
  | 0x0D => some (.sbfi f)
  | 0x0E => some (.spopc f)
  | 0x0F => some (.sclz f)
  | 0x10 => some (.scmp f)
  | 0x11 => some (.ssel f)
  | 0x12 => some (.smov f)
  | 0x23 => some (.ret f)
  | 0x24 => some (.jmpi f)
  | 0x25 => some (.exit f)
  | 0x26 => some (.join f)
  | 0x27 => some (.leave f)
  | 0x28 => some (.wait f)
  | 0x29 => some (.mops f)
  | 0x2A => some (.brk f)
  | 0x2C => some (.eret f)
  | 0x2D => some (.yield f)
  | 0x39 => some (.detach f)
  | 0x3A => some (.reggrow f)
  | 0x3B => some (.regshrink f)
  | _ => none

/-- The UJ opcodes (R88). -/
def uniUJ (op : Nat) (f : UJ) : Option Instr :=
  match op with
  | 0x20 => some (.bra f)
  | 0x22 => some (.call f)
  | _ => none

/-- The UB opcodes (R88); CPY, KINIT, RWAIT and CHRECV name their rows by sub (R182, R187, R190, R223). -/
def uniUB (op : Nat) (f : UB) : Option Instr :=
  match op with
  | 0x01 => some (.saddUb f)
  | 0x02 => some (.ssubUb f)
  | 0x03 => some (.smulUb f)
  | 0x04 => some (.smulhUb f)
  | 0x05 => some (.smadUb f)
  | 0x06 => some (.sminUb f)
  | 0x07 => some (.smaxUb f)
  | 0x08 => some (.sshlUb f)
  | 0x09 => some (.sshrUb f)
  | 0x0A => some (.ssarUb f)
  | 0x0B => some (.slogicUb f)
  | 0x0C => some (.sbfeUb f)
  | 0x0D => some (.sbfiUb f)
  | 0x0E => some (.spopcUb f)
  | 0x0F => some (.sclzUb f)
  | 0x10 => some (.scmpUb f)
  | 0x11 => some (.sselUb f)
  | 0x12 => some (.smovUb f)
  | 0x2B => some (.trap f)
  | 0x2E => some (.sleepc f)
  | 0x30 => some (.waitc f)
  | 0x40 => some (.srd f)
  | 0x41 => some (.swr f)
  | 0x44 => some (.sldg f)
  | 0x45 => some (.sstg f)
  | 0x46 => some (.slds f)
  | 0x47 => some (.ssts f)
  | 0x48 => some (.satomg f)
  | 0x49 => some (.fence f)
  | 0x4A => some (.drainnt f)
  | 0x4B => some (.flush f)
  | 0x4C => some (.pref f)
  | 0x50 => some (.bara f)
  | 0x51 => some (.barw f)
  | 0x52 => some (.bars f)
  | 0x53 => some (.cbara f)
  | 0x54 => some (.cbarw f)
  | 0x55 => some (.gridbar f)
  | 0x56 => some (if f.sub.getLsbD 0 then .kinitFree f else .kinitReg f)
  | 0x57 => some (.ktake f)
  | 0x58 => some (.kgive f)
  | 0x59 => some (.rinit f)
  | 0x5A => some (if f.sub.getLsbD 0 then .rwaitFree f else .rwaitFull f)
  | 0x5B => some (.rrel f)
  | 0x5C => some (.rarr f)
  | 0x5D => some (.chsend f)
  | 0x5E => some (if f.sub.getLsbD 0 then .chrecvDone f else .chrecvTake f)
  | 0x60 => some (.deq f)
  | 0x61 => some (.enq f)
  | 0x62 => some (.launch f)
  | 0x68 => some (.hset f)
  | 0x69 => some (.accz f)
  | 0x6A => some (.accrel f)
  | 0x6B => some (.mchkrd f)
  | 0x6C => some (.tdef f)
  | 0x70 => some (if f.sub = 1 then .cpyS2g f else if f.sub = 2 then .cpyS2s f else .cpyG2s f)
  | 0x71 => some (.cpgth f)
  | 0x72 => some (.cpsct f)
  | 0x73 => some (.cpxf f)
  | 0x74 => some (.tdchk f)
  | 0x78 => some (.coll f)
  | _ => none

/-- The UI opcodes (R88). -/
def uniUI (op : Nat) (f : UI) : Option Instr :=
  match op with
  | 0x01 => some (.saddUi f)
  | 0x02 => some (.ssubUi f)
  | 0x03 => some (.smulUi f)
  | 0x04 => some (.smulhUi f)
  | 0x05 => some (.smadUi f)
  | 0x06 => some (.sminUi f)
  | 0x07 => some (.smaxUi f)
  | 0x08 => some (.sshlUi f)
  | 0x09 => some (.sshrUi f)
  | 0x0A => some (.ssarUi f)
  | 0x0B => some (.slogicUi f)
  | 0x0C => some (.sbfeUi f)
  | 0x0D => some (.sbfiUi f)
  | 0x0E => some (.spopcUi f)
  | 0x0F => some (.sclzUi f)
  | 0x10 => some (.scmpUi f)
  | 0x11 => some (.sselUi f)
  | 0x12 => some (.smovUi f)
  | 0x21 => some (.brc f)
  | 0x38 => some (.attach f)
  | _ => none

/-- The opcodes assigned in the lane set (R87). -/
def laneAssigned (op : Nat) : Bool := (decide (0x01 ≤ op) && decide (op ≤ 0x19)) || (decide (0x20 ≤ op) && decide (op ≤ 0x36)) || (decide (0x40 ≤ op) && decide (op ≤ 0x45)) || (decide (0x50 ≤ op) && decide (op ≤ 0x59)) || (decide (0x60 ≤ op) && decide (op ≤ 0x68)) || (decide (0x70 ≤ op) && decide (op ≤ 0x72))

/-- The opcodes assigned in the uniform set (R88). -/
def uniAssigned (op : Nat) : Bool := (decide (0x00 ≤ op) && decide (op ≤ 0x12)) || (decide (0x20 ≤ op) && decide (op ≤ 0x2E)) || (decide (0x30 ≤ op) && decide (op ≤ 0x30)) || (decide (0x38 ≤ op) && decide (op ≤ 0x3B)) || (decide (0x40 ≤ op) && decide (op ≤ 0x41)) || (decide (0x44 ≤ op) && decide (op ≤ 0x4C)) || (decide (0x50 ≤ op) && decide (op ≤ 0x5E)) || (decide (0x60 ≤ op) && decide (op ≤ 0x62)) || (decide (0x68 ≤ op) && decide (op ≤ 0x6C)) || (decide (0x70 ≤ op) && decide (op ≤ 0x74)) || (decide (0x78 ≤ op) && decide (op ≤ 0x78))

/-- The first of two answers that is one. -/
def orElseInstr (a b : Option Instr) : Option Instr := match a with | some i => some i | none => b

/-- A short instruction from its word (R72, R85 steps 1 and 2). -/
def decodeShort (w0 : Word) : Except Reject Instr :=
  if w0.getLsbD 31 then
    if opOf w0 = 0 then (if w0.extractLsb' 0 22 = 0 then .ok (.nop (w0.getLsbD 29)) else .error .nopFields)
    else match orElseInstr (uniShort (opOf w0) (decUA w0)) (uniUJ (opOf w0) (decUJ w0)) with
      | some i => .ok i
      | none => .error (if uniAssigned (opOf w0) then .uniformForm else .uniformOpcode)
  else match laneShort (opOf w0) (decLA w0) with
    | some i => .ok i
    | none => .error (if laneAssigned (opOf w0) then .laneForm else .laneOpcode)

/-- The scalar opcodes 0x01-0x12 take form UI when sub[3], the I bit, is set (R82). -/
def uniLong (w0 w1 : Word) : Option Instr :=
  if opOf w0 ≤ 0x12 then
    (if w0.getLsbD 3 then uniUI (opOf w0) (decUI w0 w1) else uniUB (opOf w0) (decUB w0 w1))
  else orElseInstr (uniUI (opOf w0) (decUI w0 w1)) (uniUB (opOf w0) (decUB w0 w1))

/-- A long instruction from its words. -/
def decodeLong (w0 w1 : Word) : Except Reject Instr :=
  if w0.getLsbD 31 then
    if opOf w0 = 0 then .error .nopFields
    else match uniLong w0 w1 with
      | some i => .ok i
      | none => .error (if uniAssigned (opOf w0) then .uniformForm else .uniformOpcode)
  else match orElseInstr (laneLB (opOf w0) (decLB w0 w1))
      (orElseInstr (laneLM (opOf w0) (decLM w0 w1)) (laneLT (opOf w0) (decLT w0 w1))) with
    | some i => .ok i
    | none => .error (if laneAssigned (opOf w0) then .laneForm else .laneOpcode)

/-- The L bit of word 0 (R72). -/
def longOf (w0 : Word) : Bool := w0.getLsbD 30

/-- The instruction of word 0 and, when L is set, word 1. -/
def decodeWords (w0 w1 : Word) : Except Reject Instr := if longOf w0 then decodeLong w0 w1 else decodeShort w0

/-- A little-endian word (R10). -/
def wordOfBytes (b0 b1 b2 b3 : Byte) : Word := b3 ++ b2 ++ b1 ++ b0

/-- The instruction at the head of a byte sequence, and the bytes after it. -/
def decode (bs : List Byte) : Except Reject (Instr × List Byte) :=
  match bs with
  | b0 :: b1 :: b2 :: b3 :: rest =>
    let w0 := wordOfBytes b0 b1 b2 b3
    if longOf w0 then
      match rest with
      | c0 :: c1 :: c2 :: c3 :: rest' => (decodeLong w0 (wordOfBytes c0 c1 c2 c3)).map (fun i => (i, rest'))
      | _ => .error .tooShort
    else (decodeShort w0).map (fun i => (i, rest))
  | _ => .error .tooShort

/-- Word 0 of a lane format (R72, R76). -/
def encLaneWord (long e : Bool) (op : BitVec 7) (vd va : BitVec 8) (sub : BitVec 6) : Word :=
  BitVec.ofBool false ++ BitVec.ofBool long ++ BitVec.ofBool e ++ op ++ vd ++ va ++ sub

/-- Word 0 of a uniform format (R72, R81). -/
def encUniWord (long e : Bool) (op : BitVec 7) (sd sa : BitVec 9) (sub : BitVec 4) : Word :=
  BitVec.ofBool true ++ BitVec.ofBool long ++ BitVec.ofBool e ++ op ++ sd ++ sa ++ sub

/-- The word of an LA instruction (R76). -/
def encLA (op : BitVec 7) (f : LA) : List Word := [encLaneWord false f.e op f.vd f.va f.sub]

/-- The words of an LB instruction (R77). -/
def encLB (op : BitVec 7) (f : LB) : List Word :=
  [encLaneWord true f.e op f.vd f.va f.sub,
   f.vb ++ f.vc ++ BitVec.ofBool f.gn ++ f.gp ++ BitVec.ofBool f.q ++ BitVec.ofBool f.sb ++ BitVec.ofBool f.im ++ f.rnd
     ++ BitVec.ofBool f.sat ++ BitVec.ofBool f.na ++ BitVec.ofBool f.nb ++ f.t]

/-- The words of an LM instruction (R80). -/
def encLM (op : BitVec 7) (f : LM) : List Word :=
  [encLaneWord true f.e op f.vd f.va f.sub, f.sbase ++ BitVec.ofBool f.gn ++ f.gp ++ f.off]

/-- The words of an LT instruction (R80). -/
def encLT (op : BitVec 7) (f : LT) : List Word :=
  [encLaneWord true f.e op f.vd f.va f.sub, BitVec.ofBool f.rc ++ f.tn ++ f.sidx ++ f.imm5 ++ f.gq ++ f.rest]

/-- The word of a UA instruction (R81). -/
def encUA (op : BitVec 7) (f : UA) : List Word := [encUniWord false f.e op f.sd f.sa f.sub]

/-- The words of a UB instruction (R82). -/
def encUB (op : BitVec 7) (f : UB) : List Word := [encUniWord true f.e op f.sd f.sa f.sub, f.sb ++ f.sc ++ f.imm]

/-- The words of a UI instruction (R82). -/
def encUI (op : BitVec 7) (f : UI) : List Word := [encUniWord true f.e op f.sd f.sa f.sub, f.imm]

/-- The word of a UJ instruction (R83). -/
def encUJ (op : BitVec 7) (f : UJ) : List Word :=
  [BitVec.ofBool true ++ BitVec.ofBool false ++ BitVec.ofBool f.e ++ op ++ f.off]

/-- The words of an instruction; an event has none. -/
def encode (i : Instr) : List Word :=
  match i with
  | .iadd f => encLB 0x01 f
  | .iaddShort f => encLA 0x01 f
  | .isub f => encLB 0x02 f
  | .isubShort f => encLA 0x02 f
  | .imul f => encLB 0x03 f
  | .imulShort f => encLA 0x03 f
  | .imulh f => encLB 0x04 f
  | .imulhShort f => encLA 0x04 f
  | .imad f => encLB 0x05 f
  | .imadShort f => encLA 0x05 f
  | .imin f => encLB 0x06 f
  | .iminShort f => encLA 0x06 f
  | .imax f => encLB 0x07 f
  | .imaxShort f => encLA 0x07 f
  | .iabs f => encLB 0x08 f
  | .iabsShort f => encLA 0x08 f
  | .idp4 f => encLB 0x09 f
  | .idp4Short f => encLA 0x09 f
  | .shl f => encLB 0x0A f
  | .shlShort f => encLA 0x0A f
  | .shr f => encLB 0x0B f
  | .shrShort f => encLA 0x0B f
  | .sar f => encLB 0x0C f
  | .sarShort f => encLA 0x0C f
  | .shf f => encLB 0x0D f
  | .shfShort f => encLA 0x0D f
  | .knit f => encLB 0x0E f
  | .logic f => encLB 0x0F f
  | .logicShort f => encLA 0x0F f
  | .bfe f => encLB 0x10 f
  | .bfeShort f => encLA 0x10 f
  | .bfi f => encLB 0x11 f
  | .bfiShort f => encLA 0x11 f
  | .popc f => encLB 0x12 f
  | .popcShort f => encLA 0x12 f
  | .clz f => encLB 0x13 f
  | .clzShort f => encLA 0x13 f
  | .brev f => encLB 0x14 f
  | .brevShort f => encLA 0x14 f
  | .ffs f => encLB 0x15 f
  | .ffsShort f => encLA 0x15 f
  | .icmp f => encLB 0x16 f
  | .icmpShort f => encLA 0x16 f
  | .sel f => encLB 0x17 f
  | .selShort f => encLA 0x17 f
  | .isad f => encLB 0x18 f
  | .isadShort f => encLA 0x18 f
  | .bmix f => encLB 0x19 f
  | .bmixShort f => encLA 0x19 f
  | .fadd f => encLB 0x20 f
  | .faddShort f => encLA 0x20 f
  | .fsub f => encLB 0x21 f
  | .fsubShort f => encLA 0x21 f
  | .fmul f => encLB 0x22 f
  | .fmulShort f => encLA 0x22 f
  | .ffma f => encLB 0x23 f
  | .ffmaShort f => encLA 0x23 f
  | .fmin f => encLB 0x24 f
  | .fminShort f => encLA 0x24 f
  | .fmax f => encLB 0x25 f
  | .fmaxShort f => encLA 0x25 f
  | .fcmp f => encLB 0x26 f
  | .fcmpShort f => encLA 0x26 f
  | .frcp f => encLB 0x27 f
  | .frcpShort f => encLA 0x27 f
  | .frsq f => encLB 0x28 f
  | .frsqShort f => encLA 0x28 f
  | .fsqrt f => encLB 0x29 f
  | .fsqrtShort f => encLA 0x29 f
  | .fdiv f => encLB 0x2A f
  | .fdivShort f => encLA 0x2A f
  | .fexp2 f => encLB 0x2B f
  | .fexp2Short f => encLA 0x2B f
  | .flog2 f => encLB 0x2C f
  | .flog2Short f => encLA 0x2C f
  | .fsinpi f => encLB 0x2D f
  | .fsinpiShort f => encLA 0x2D f
  | .fcospi f => encLB 0x2E f
  | .fcospiShort f => encLA 0x2E f
  | .ftanh f => encLB 0x2F f
  | .ftanhShort f => encLA 0x2F f
  | .fclass f => encLB 0x30 f
  | .fclassShort f => encLA 0x30 f
  | .fscale f => encLB 0x31 f
  | .fscaleShort f => encLA 0x31 f
  | .frnd f => encLB 0x32 f
  | .frndShort f => encLA 0x32 f
  | .dadd f => encLB 0x33 f
  | .dmul f => encLB 0x34 f
  | .dfma f => encLB 0x35 f
  | .dcmp f => encLB 0x36 f
  | .cvt f => encLB 0x40 f
  | .qplane f => encLB 0x41 f
  | .dqplane f => encLB 0x42 f
  | .pack f => encLB 0x43 f
  | .unpack f => encLB 0x44 f
  | .srnd f => encLB 0x45 f
  | .mov f => encLB 0x50 f
  | .movShort f => encLA 0x50 f
  | .xlane f => encLB 0x51 f
  | .peer f => encLB 0x52 f
  | .qpoll f => encLB 0x53 f
  | .redx f => encLB 0x54 f
  | .scan f => encLB 0x55 f
  | .plop f => encLB 0x56 f
  | .brp f => encLB 0x57 f
  | .trd f => encLT 0x58 f
  | .twr f => encLT 0x59 f
  | .lds f => encLM 0x60 f
  | .sts f => encLM 0x61 f
  | .ldg f => encLM 0x62 f
  | .stg f => encLM 0x63 f
  | .stnt f => encLM 0x64 f
  | .atoms f => encLM 0x65 f
  | .atomg f => encLM 0x66 f
  | .redg f => encLM 0x67 f
  | .prefg f => encLM 0x68 f
  | .mma f => encLB 0x70 f
  | .accrd f => encLB 0x71 f
  | .accwr f => encLB 0x72 f
  | .nop e => [BitVec.ofBool true ++ BitVec.ofBool false ++ BitVec.ofBool e ++ (0 : BitVec 29)]
  | .sadd f => encUA 0x01 f
  | .saddUb f => encUB 0x01 f
  | .saddUi f => encUI 0x01 f
  | .ssub f => encUA 0x02 f
  | .ssubUb f => encUB 0x02 f
  | .ssubUi f => encUI 0x02 f
  | .smul f => encUA 0x03 f
  | .smulUb f => encUB 0x03 f
  | .smulUi f => encUI 0x03 f
  | .smulh f => encUA 0x04 f
  | .smulhUb f => encUB 0x04 f
  | .smulhUi f => encUI 0x04 f
  | .smad f => encUA 0x05 f
  | .smadUb f => encUB 0x05 f
  | .smadUi f => encUI 0x05 f
  | .smin f => encUA 0x06 f
  | .sminUb f => encUB 0x06 f
  | .sminUi f => encUI 0x06 f
  | .smax f => encUA 0x07 f
  | .smaxUb f => encUB 0x07 f
  | .smaxUi f => encUI 0x07 f
  | .sshl f => encUA 0x08 f
  | .sshlUb f => encUB 0x08 f
  | .sshlUi f => encUI 0x08 f
  | .sshr f => encUA 0x09 f
  | .sshrUb f => encUB 0x09 f
  | .sshrUi f => encUI 0x09 f
  | .ssar f => encUA 0x0A f
  | .ssarUb f => encUB 0x0A f
  | .ssarUi f => encUI 0x0A f
  | .slogic f => encUA 0x0B f
  | .slogicUb f => encUB 0x0B f
  | .slogicUi f => encUI 0x0B f
  | .sbfe f => encUA 0x0C f
  | .sbfeUb f => encUB 0x0C f
  | .sbfeUi f => encUI 0x0C f
  | .sbfi f => encUA 0x0D f
  | .sbfiUb f => encUB 0x0D f
  | .sbfiUi f => encUI 0x0D f
  | .spopc f => encUA 0x0E f
  | .spopcUb f => encUB 0x0E f
  | .spopcUi f => encUI 0x0E f
  | .sclz f => encUA 0x0F f
  | .sclzUb f => encUB 0x0F f
  | .sclzUi f => encUI 0x0F f
  | .scmp f => encUA 0x10 f
  | .scmpUb f => encUB 0x10 f
  | .scmpUi f => encUI 0x10 f
  | .ssel f => encUA 0x11 f
  | .sselUb f => encUB 0x11 f
  | .sselUi f => encUI 0x11 f
  | .smov f => encUA 0x12 f
  | .smovUb f => encUB 0x12 f
  | .smovUi f => encUI 0x12 f
  | .bra f => encUJ 0x20 f
  | .brc f => encUI 0x21 f
  | .call f => encUJ 0x22 f
  | .ret f => encUA 0x23 f
  | .jmpi f => encUA 0x24 f
  | .exit f => encUA 0x25 f
  | .join f => encUA 0x26 f
  | .leave f => encUA 0x27 f
  | .wait f => encUA 0x28 f
  | .mops f => encUA 0x29 f
  | .brk f => encUA 0x2A f
  | .trap f => encUB 0x2B f
  | .eret f => encUA 0x2C f
  | .yield f => encUA 0x2D f
  | .sleepc f => encUB 0x2E f
  | .waitc f => encUB 0x30 f
  | .attach f => encUI 0x38 f
  | .detach f => encUA 0x39 f
  | .reggrow f => encUA 0x3A f
  | .regshrink f => encUA 0x3B f
  | .srd f => encUB 0x40 f
  | .swr f => encUB 0x41 f
  | .sldg f => encUB 0x44 f
  | .sstg f => encUB 0x45 f
  | .slds f => encUB 0x46 f
  | .ssts f => encUB 0x47 f
  | .satomg f => encUB 0x48 f
  | .fence f => encUB 0x49 f
  | .drainnt f => encUB 0x4A f
  | .flush f => encUB 0x4B f
  | .pref f => encUB 0x4C f
  | .bara f => encUB 0x50 f
  | .barw f => encUB 0x51 f
  | .bars f => encUB 0x52 f
  | .cbara f => encUB 0x53 f
  | .cbarw f => encUB 0x54 f
  | .gridbar f => encUB 0x55 f
  | .kinitReg f => encUB 0x56 f
  | .kinitFree f => encUB 0x56 f
  | .ktake f => encUB 0x57 f
  | .kgive f => encUB 0x58 f
  | .rinit f => encUB 0x59 f
  | .rwaitFull f => encUB 0x5A f
  | .rwaitFree f => encUB 0x5A f
  | .rrel f => encUB 0x5B f
  | .rarr f => encUB 0x5C f
  | .chsend f => encUB 0x5D f
  | .chrecvTake f => encUB 0x5E f
  | .chrecvDone f => encUB 0x5E f
  | .deq f => encUB 0x60 f
  | .enq f => encUB 0x61 f
  | .launch f => encUB 0x62 f
  | .hset f => encUB 0x68 f
  | .accz f => encUB 0x69 f
  | .accrel f => encUB 0x6A f
  | .mchkrd f => encUB 0x6B f
  | .tdef f => encUB 0x6C f
  | .cpyG2s f => encUB 0x70 f
  | .cpyS2g f => encUB 0x70 f
  | .cpyS2s f => encUB 0x70 f
  | .cpgth f => encUB 0x71 f
  | .cpsct f => encUB 0x72 f
  | .cpxf f => encUB 0x73 f
  | .tdchk f => encUB 0x74 f
  | .coll f => encUB 0x78 f
  | .runGrant _ _ => []
  | .readyWaitGuard _ _ => []
  | .sleepEnd _ _ => []
  | .loadReturn _ => []
  | .coreStoreOrderSend _ _ => []
  | .homeAck _ => []
  | .scratchPortAccess _ => []
  | .planeStepsStart _ => []
  | .matrixCompletion _ _ => []
  | .mismatchWindow _ => []
  | .goldenTest _ _ => []
  | .goldenTestResult _ _ => []
  | .resourceQueueService _ => []
  | .resourceQueueAgeLimit _ => []
  | .resourceRefusal _ => []
  | .warpResourceReturn _ => []
  | .warpArrival _ _ => []
  | .pairedBarrierEvent _ => []
  | .blockArrival _ _ => []
  | .copyPiece _ => []
  | .copySourceRead _ => []
  | .copyLineWrite _ => []
  | .ringArrival _ => []
  | .copyFailure _ => []
  | .copyReplay _ _ => []
  | .channelClaim _ => []
  | .l2Request _ => []
  | .gapFillArrival _ _ => []
  | .homeWrite _ => []
  | .leaseExpiry _ => []
  | .spliceAbsorb _ => []
  | .spliceRecordRequest _ _ => []
  | .spliceConfirm _ _ => []
  | .spliceRecall _ _ => []
  | .splicePartialCombine _ => []
  | .knotRequest _ => []
  | .ktakeResend _ => []
  | .streamRelease _ => []
  | .translationWalk _ _ _ => []
  | .enqueueWindowWrite _ _ _ _ => []
  | .qctlWrite _ _ _ => []
  | .klaunch _ => []
  | .waiton _ => []
  | .signal _ => []
  | .work _ => []
  | .waitonSatisfied _ _ => []
  | .klaunchComplete _ _ => []
  | .signalComplete _ _ => []
  | .placementPass _ => []
  | .placementAgeLimit _ => []
  | .blockPlace _ => []
  | .blockStart _ => []
  | .seamHalfForward _ => []
  | .preemptSave _ => []
  | .saveComplete _ => []
  | .restore _ => []
  | .cctlWrite _ _ _ => []
  | .kill _ _ => []
  | .wkick _ _ => []
  | .watchdogPeriod => []
  | .fenceComplete _ => []
  | .cinvGo _ _ => []
  | .invalidationComplete _ => []
  | .migrationGo _ _ => []
  | .migrationClr _ _ => []
  | .migrationGrain _ => []
  | .migrationDone _ => []
  | .hostAccess _ => []
  | .flrVirtual _ => []
  | .flrFunction0 => []
  | .msixMessage _ => []
  | .peerRequest _ => []
  | .lanyardTimeout _ => []
  | .lanyardResponse _ _ _ => []
  | .lanyardLinkFail _ => []
  | .expanderFence _ => []
  | .hbmStackLoss _ => []
  | .collContribution _ => []
  | .collResult _ => []
  | .rdmaRingPoll _ _ => []
  | .rdmaInbound _ => []
  | .correctedError _ _ _ => []
  | .correctedErrorReport _ _ => []
  | .uncorrectedError _ => []
  | .eventStoreRetry _ => []
  | .evheadWrite _ _ => []
  | .evstatLostRead _ => []
  | .fatalError _ => []
  | .dumpComplete _ => []
  | .overTemperature _ => []
  | .reelChunk _ => []
  | .reelComplete => []
  | .reelEnqueueRetry => []
  | .halt _ _ => []
  | .haltComplete _ => []
  | .resume _ _ => []
  | .step _ _ => []
  | .watch _ _ => []
  | .icinv _ _ => []
  | .icinvComplete _ => []
  | .dpost3Write _ _ _ => []
  | .dstatPostClear _ _ => []
  | .dclaimRead _ _ => []
  | .atab _ => []
  | .ctxasn _ => []
  | .cgreg _ => []
  | .cgdel _ => []
  | .reel _ => []
  | .qpnew _ => []
  | .qpdel _ => []
  | .domain _ => []
  | .attest _ => []
  | .gvcnt _ => []
  | .fwupd _ => []
  | .lcset _ => []
  | .cap _ => []
  | .deviceReset _ => []
  | .powerStepSelect _ _ => []
  | .clockStepChange => []
  | .registerWrite _ _ _ _ => []
  | .mainPowerLoss => []
  | .ethernetLinkChange _ _ => []
  | .virtualFunctionEnable _ => []
  | .rdmaResponse _ _ _ _ => []
  | .rdmaInboundSend _ _ => []
  | .rdmaRetryTimeout _ _ => []
  | .pairedAccCommandArrival _ => []

/-- The bytes of words, little-endian, the first word lowest (R10). -/
def bytesOfWords : List Word → List Byte
  | [] => []
  | w :: ws => w.extractLsb' 0 8 :: w.extractLsb' 8 8 :: w.extractLsb' 16 8 :: w.extractLsb' 24 8 :: bytesOfWords ws

/-- The instruction this decoder reads from an instruction whose bits are `w`, bit 0 the least significant of the first
word, in `nbits` bits; the bits above are 0. -/
def decodeTableWord (nbits w : Nat) : Option Instr :=
  match decode (Machine.toBytes 8 (w % 2 ^ nbits)) with
  | .ok (i, _) => some i
  | .error _ => none

end Sys2Proof
end

