-- ==== Sys2Proof/Machine/Atom.lean ====
section
/-! DEFINITION. What an atomic computes on one element (R164, R166), access sizes (R152), and the values of loads and
stores. -/

namespace Sys2Proof.Machine

/-- Bytes of an access size SZ (R152). -/
def szBytes (sz : Nat) : Nat :=
  match sz with
  | 0 | 1 => 1
  | 2 | 3 => 2
  | 4 => 4
  | 5 => 8
  | _ => 16

/-- Whether a load of size SZ sign-extends (R152). -/
def szSigned (sz : Nat) : Bool := sz == 0 || sz == 2

/-- Bytes of an element of AT (R164). -/
def atomBytes (ty : Nat) : Nat := 4 * atomRegs' ty
where
  /-- Registers of an element of AT (R164). -/
  atomRegs' (ty : Nat) : Nat := if ty == 7 then 4 else if ty == 3 || ty == 4 || ty == 5 then 2 else 1

/-- The register type of AT (R164). -/
def atomTy (ty : Nat) : RTy :=
  match ty with
  | 0 => ⟨.int true 32, 1⟩
  | 1 => ⟨.int false 32, 1⟩
  | 2 => ⟨.flt fp32, 1⟩
  | 3 => ⟨.int true 64, 1⟩
  | 4 => ⟨.int false 64, 1⟩
  | 5 => ⟨.flt fp64, 1⟩
  | 6 => ⟨.flt bf16, 2⟩
  | _ => ⟨.int false 128, 1⟩

/-- Rounding of float atomics: RNE, denormals kept, no saturation (R166). -/
def atomCtl : RoundCtl := ⟨.rne, false, false⟩

/-- The arithmetic operations .add to .xor on one element's number (R166). -/
def atomNum (aop : Nat) (n : Num) (x v : Nat) : Nat :=
  match n with
  | .int sg w =>
    let a := valueOf sg w x
    let b := valueOf sg w v
    (match aop with
     | 0 => wrap w (a + b)
     | 1 => if b < a then v else x
     | 2 => if a < b then v else x
     | 3 => x &&& v
     | 4 => x ||| v
     | _ => x ^^^ v)
  | .flt f => if aop = 0 then (fAddVal f atomCtl (fDecode f x) (fDecode f v)).1 else (fMinMax f (aop == 2) x v).1

/-- The new value of an element (R166). -/
def atomApply (aop ty x v swap : Nat) : Nat :=
  match aop with
  | 6 => v
  | 7 => if x = v then swap else x
  | _ => (mapElems (atomTy ty) fun i =>
      let w := numWidth (atomTy ty).num
      (atomNum aop (atomTy ty).num (elem w x i) (elem w v i), 0)).1

/-- What a load writes from its bytes: extended to 32 bits by signedness (R152). -/
def loadValue (signed : Bool) (bs : List Byte) : Nat :=
  let v := ofBytes bs
  if signed ∧ bs.length < 4 then wrap 32 (toSigned (8 * bs.length) v) else v

end Sys2Proof.Machine
end

