-- ==== Sys2Proof/Config.lean ====
section
/-! DEFINITION. What the manual leaves open: free values with no body, so that nothing in Lean can evaluate them or prove
what they are, and the constants of the product modelled (DESIGN CHOICE, log 6). -/

namespace Sys2Proof

/-- The n-th free choice between two outcomes the manual allows (R18, R74, R161, R200, R203, R209, R418, R445; DESIGN CHOICE, log 5). -/
opaque Config.freeBit : Nat → Bool

/-- The n-th free number: identity material and keys the manual does not give (R464, R466; DESIGN CHOICE, log 5). -/
opaque Config.freeNat : Nat → Nat

/-- The hash of a package and of address bits [15:9] by which a Lanyard link is chosen (R416; DESIGN CHOICE, log 5). -/
opaque Config.linkHash : Nat → Nat → Nat

/-- Words of a function's configuration space that R411 and R414 do not give (DESIGN CHOICE, log 120). -/
opaque Config.configWord : Nat → Nat → Nat

/-- Whether CPXF.rqtr multiplies by the tensor scale, as R59 says, or leaves it out, as R226 says (DESIGN CHOICE, log 89). -/
opaque Config.rqtrScales : Bool

/-- Packages of the load-store domain (R379). -/
def Config.packages : Nat := 576

/-- Warp slots of a core (R20). -/
def Config.warpSlots : Nat := 48

/-- Cores of a die (R5, R6). -/
def Config.dieCores : Nat := 96

end Sys2Proof
end

