-- ==== Sys2Proof/Machine/Table.lean ====
section
/-! DEFINITION. Sparse tables: lists of (key, value) pairs with strictly rising keys. Memory, register files, scratch and
every collection of the state that is reached by a number are such tables; a table of values with a default lists no
entry equal to the default, so that equal contents are equal data. -/

namespace Sys2Proof.Machine

/-- A table from numbers to values. -/
abbrev Tbl (α : Type) := List (Nat × α)

/-- The entry at a key. -/
def tget {α : Type} : Tbl α → Nat → Option α
  | [], _ => none
  | (k, v) :: t, i => if i = k then some v else if i < k then none else tget t i

/-- The table with `v` at key `i`. -/
def tput {α : Type} : Tbl α → Nat → α → Tbl α
  | [], i, v => [(i, v)]
  | (k, x) :: t, i, v =>
    if i = k then (i, v) :: t else if i < k then (i, v) :: (k, x) :: t else (k, x) :: tput t i v

/-- The table without key `i`. -/
def terase {α : Type} : Tbl α → Nat → Tbl α
  | [], _ => []
  | (k, x) :: t, i => if i = k then t else if i < k then (k, x) :: t else (k, x) :: terase t i

/-- The value at a key of a table whose unlisted keys read as `d`. -/
def tgetD {α : Type} (t : Tbl α) (i : Nat) (d : α) : α := (tget t i).getD d

/-- Writes a table whose unlisted keys read as `d`: writing `d` removes the entry. -/
def tputD {α : Type} [DecidableEq α] (t : Tbl α) (i : Nat) (v d : α) : Tbl α :=
  if v = d then terase t i else tput t i v

/-- Applies `f` to the entry at a key, if there is one. -/
def tmod {α : Type} (t : Tbl α) (i : Nat) (f : α → α) : Tbl α :=
  match tget t i with
  | none => t
  | some v => tput t i (f v)

/-- Keys rise strictly, from above a bound. -/
def tsortedFrom {α : Type} : Option Nat → Tbl α → Bool
  | _, [] => true
  | lo, (k, _) :: t => (match lo with | none => true | some l => decide (l < k)) && tsortedFrom (some k) t

/-- The canonical form of a table: strictly rising keys. -/
def tsorted {α : Type} (t : Tbl α) : Bool := tsortedFrom none t

/-- The canonical form of a table with a default: strictly rising keys, no entry equal to the default. -/
def tcanon {α : Type} [DecidableEq α] (d : α) (t : Tbl α) : Bool := tsorted t && t.all (fun e => decide (e.2 ≠ d))

/-- The values in key order. -/
def tvals {α : Type} (t : Tbl α) : List α := t.map Prod.snd

/-- The keys in order. -/
def tkeys {α : Type} (t : Tbl α) : List Nat := t.map Prod.fst

/-- A fixed-length list with one place changed. -/
def lset {α : Type} : List α → Nat → α → List α
  | [], _, _ => []
  | _ :: xs, 0, v => v :: xs
  | x :: xs, i + 1, v => x :: lset xs i v

/-- The place `i` of a fixed-length list, changed by `f`. -/
def lmod {α : Type} : List α → Nat → (α → α) → List α
  | [], _, _ => []
  | x :: xs, 0, f => f x :: xs
  | x :: xs, i + 1, f => x :: lmod xs i f

/-- Inserts before the first element that `le` puts at or after `x`. -/
def insertBy {α : Type} (le : α → α → Bool) (x : α) : List α → List α
  | [] => [x]
  | y :: ys => if le x y then x :: y :: ys else y :: insertBy le x ys

/-- The list in the order of `le`; equal elements keep their order. -/
def sortBy {α : Type} (le : α → α → Bool) (l : List α) : List α := l.foldr (insertBy le) []

/-- A byte of a byte table; unlisted bytes are 0. -/
def byteAt (t : List Host.Cell) (a : Nat) : Byte := tgetD t a 0

/-- `n` bytes from address `a`. -/
def bytesAt (t : List Host.Cell) (a : Nat) : Nat → List Byte
  | 0 => []
  | n + 1 => byteAt t a :: bytesAt t (a + 1) n

/-- Stores one byte. -/
def setByte (t : List Host.Cell) (a : Nat) (b : Byte) : List Host.Cell := tputD t a b 0

/-- Stores bytes from address `a` upwards. -/
def setBytes (t : List Host.Cell) (a : Nat) : List Byte → List Host.Cell
  | [] => t
  | b :: bs => setBytes (setByte t a b) (a + 1) bs

/-- A memory in canonical form: addresses strictly rising, no byte listed that an unlisted address reads as (0). -/
abbrev memWf (t : List Host.Cell) : Prop := tcanon (0 : Byte) t = true

end Sys2Proof.Machine
end

