-- ==== Sys2Proof/Machine/CoreTypes.lean ====
section
/-! DEFINITION. The state of warps, blocks, clusters, grids, cores and of what is on its way inside a die: plain data. -/

namespace Sys2Proof.Machine

/-- A scratch byte's place: the cluster, the rank whose allocation it is in, and the offset (R260). -/
structure SPlace where
  cluster : Nat
  rank : Nat
  off : Nat
  deriving DecidableEq, Repr

/-- A barrier as a warp sees it (R177): bb0-15, cb0-7 or the grid barrier. -/
inductive Bar where
  | bb (n : Nat)
  | cb (n : Nat)
  | grid
  deriving DecidableEq, Repr

/-- What a resource-queue entry asks for (R248). -/
inductive ResReq where
  /-- ATTACH.wait: sd, the count, the label, the members mask and the attacher's s0-s31 at issue. -/
  | attach (sd count : Nat) (label : VAddr) (members : BitVec 16) (args : List Word)
  /-- REGGROW sd, n. -/
  | grow (sd n : Nat)
  /-- An accumulator slot for name `n` of the warp's block; the hitch of the round when the last signer of an MMA asks. -/
  | acc (n : Nat) (hitch : Option Nat)
  deriving DecidableEq, Repr

/-- Why lanes are parked (R234). -/
inductive Park where
  /-- WAIT mk (R134). -/
  | mask (k : Nat)
  /-- DETACH (R141). -/
  | detach
  /-- An arrive of a warp that has arrived or joins: taken in the new phase (R178, R244); `then_` for BARS. -/
  | arrive (b : Bar) (k : Nat) (wait_ : Bool)
  /-- BARW, CBARW, the second half of BARS, GRIDBAR: until the phase of the barrier differs (R179, R180). -/
  | phase (b : Bar) (was : Bool)
  /-- RWAIT.full or RWAIT.free on a header (R188), in the order in which the waits reached its port. -/
  | ring (at' : SPlace) (free : Bool) (sd : Nat) (order : Nat)
  /-- CHSEND waiting for a claim of a slot: the send's id (R191). -/
  | chSend (id : Nat)
  /-- CHRECV.take on channel n (R191). -/
  | chTake (n sd : Nat)
  /-- KINIT, KTAKE or KGIVE on its way to the record's home, or queued there (R182 to R185): the request's id. -/
  | knot (id : Nat)
  /-- DEQ.wait on a queue (R148). -/
  | deq (q sd : Nat)
  /-- ENQ.wait on a queue: the packet (R148). -/
  | enq (q sd : Nat) (sysScope : Bool) (packet : List Word)
  /-- LAUNCH.wait: the record's physical address (R149). -/
  | launch (sd rec : Nat)
  /-- A wait in the core's resource queue (R140, R142, R206). -/
  | resource
  /-- A copy's or TDCHK's descriptor on absent lines (R221, R222): the instruction is executed again. -/
  | lines (at' : List SPlace)
  /-- Its condition has been met while its warp was in trap mode, and its instruction is executed again at that moment (R398). -/
  | due
  /-- A scratch access held for an absent line (R157), or a ring operation at a peer's port: the load's, the write
  group's or the message's id. -/
  | port (id : Nat)
  deriving DecidableEq, Repr

/-- A sub-braid (R235): its lanes, their PC, and what arbitration looks at (R239, R240). -/
structure SubBraid where
  id : Nat
  lanes : Mask
  pc : VAddr
  lastGrant : Nat
  /-- The clock since which it counts as ready (R239 key 1). -/
  readySince : Nat
  /-- Asleep until this clock (SLEEPC, R138). -/
  wake : Nat
  deriving DecidableEq, Repr

/-- A deferred or held group: lanes behind their strand's current group (R234), or parked by a trap (R398), with the clock
until which they sleep (R138). -/
structure Group where
  lanes : Mask
  pc : VAddr
  lastGrant : Nat
  wake : Nat
  deriving DecidableEq, Repr

/-- Parked lanes: the address of the parking instruction, where they resume, and why they wait (R234). -/
structure Parked where
  lanes : Mask
  pc : VAddr
  next : VAddr
  cond : Park
  lastGrant : Nat
  /-- Parked by a handler lane in trap mode: it goes on in trap mode (R398, R399). -/
  inTrap : Bool
  deriving DecidableEq, Repr

/-- A tile view: valid bit and base register (R29). -/
structure Tile where
  valid : Bool
  base : Nat
  deriving DecidableEq, Repr

/-- A warp's standing at a block barrier (R243); `attaching` while the ATTACH of an odd core's attacher is on its way to the
barrier (R246). -/
inductive Member where
  | non
  | attaching
  | joining
  | waiting
  | arrived
  deriving DecidableEq, Repr

/-- An event on its way from the odd core of a paired block to its barriers (R246). -/
inductive OddEvent where
  | arrive (warp bar : Nat)
  | detach (warp bar : Nat)
  /-- The warps of one ATTACH join a barrier. -/
  | attach (warps : List Nat) (bar : Nat)
  deriving DecidableEq, Repr

/-- A warp's arrive state on one barrier (R178, R179): the set X, the mask index k, an arrival that waits for its
release, and the phase of the latest completed arrival whose flip is awaited. -/
structure Arrive where
  x : Mask
  k : Nat
  pending : Bool
  done : Option Bool
  deriving DecidableEq, Repr

/-- A poison mark of a register in a lane: the lowest poisoned byte and the age of the access that set it (R157). -/
structure Mark where
  addr : Nat
  age : Nat
  deriving DecidableEq, Repr

/-- One aligned piece of up to 16 bytes of a global write (R286). -/
structure Piece where
  addr : Nat
  data : List Byte
  deriving DecidableEq, Repr

/-- AOP, AT and ordering of an atomic or REDG (R164, R165). -/
structure AtomOp where
  aop : Nat
  ty : Nat
  ord : Nat
  scope : Nat
  ford : Nat
  nspl : Bool
  deriving DecidableEq, Repr

/-- What a queued global access does. -/
inductive WKind where
  | store
  /-- REDG: its pieces are the operands (R168). -/
  | redg (op : AtomOp)
  /-- ATOMG or SATOMG of the pending load `load`: each piece is a lane's operand, in order. -/
  | atomic (load : Nat)
  /-- STNT: outside the window (R159). -/
  | nt
  deriving DecidableEq, Repr

/-- An access in a warp's store queue (R284): global pieces, or a message for a peer's port. -/
inductive StoreEnt where
  | global (grp : Nat) (kind : WKind) (pieces : List Piece)
  | port (msg : Nat)
  deriving DecidableEq, Repr

/-- A CW class of a write (R288): which counters rose. -/
structure CwSet where
  cls : Bool
  die : Bool
  dev : Bool
  sys : Bool
  deriving DecidableEq, Repr

/-- A write instruction whose counters have not all fallen (R288): pieces yet to enter the window, pieces yet to be
acknowledged, whether ST counts it. -/
structure WGroup where
  id : Nat
  warp : Nat
  cw : CwSet
  toEnter : Nat
  toAck : Nat
  st : Bool
  /-- A STNT not gathered by DRAINNT yet, or gathered by one that waits (R160). -/
  nt : Bool
  deriving DecidableEq, Repr

/-- One warp (R19, R37). -/
structure Warp where
  block : Nat
  core : Nat
  slot : Nat
  widx : Nat
  width : Nat
  role : Nat
  win : Nat
  vregs : Tbl Word
  sregs : Tbl Word
  preds : List Mask
  masks : List Mask
  nest : Tbl Nat
  tiles : List Tile
  ld : Nat
  st : Nat
  cp : Nat
  mx : Nat
  cwCls : Nat
  cwDie : Nat
  cwDev : Nat
  cwSys : Nat
  fstat : Word
  fctl : Word
  clkhi : Word
  epc : VAddr
  ecause : Word
  emask : Mask
  eaddr : VAddr
  etval : Word
  trapMode : Bool
  reconAt : Tbl VAddr
  mchk : Option Nat
  marks : Tbl Mark
  smarks : Tbl Mark
  /-- Scalar registers that parked lanes are still to write, in order of issue: a later instruction's write voids them (R26). -/
  owed : List (Mask × Nat)
  braids : List SubBraid
  deferred : List Group
  parked : List Parked
  held : List Group
  nextId : Nat
  stepping : Bool
  /-- The lane whose sub-braid holds the step credit (R451). -/
  stepCredit : Option Nat
  /-- Lanes whose sub-braid is exempt from watchpoints at the next instruction it issues (R453). -/
  exempt : Mask
  members : List Member
  arrives : Tbl Arrive
  storeQ : List StoreEnt
  /-- A FENCE or atomic release that has not taken effect: the scope (R173). -/
  release : Option Nat
  /-- DRAINNT waits for the STNTs issued before it (R160). -/
  drain : Bool
  /-- The clock of the latest acquire that passes older lease copies (R174, R292, DEDUCED, log 88). -/
  acqClock : Nat
  /-- An acquiring atomic (a pending load) that later accesses wait for (R167). -/
  acqLoad : Option Nat
  /-- The warp has ended or detached and waits to return its slot (R141). -/
  ended : Bool
  /-- Its slot, granules and scalar file have returned (R141); stores in flight still complete. -/
  returned : Bool
  deriving DecidableEq, Repr

/-- A block barrier (R31). -/
structure BBar where
  e : Nat
  a : Nat
  phase : Bool
  pj : Nat
  pl : Nat
  deriving DecidableEq, Repr

/-- The B operand an MMA names (R196, R199). -/
inductive BOperand where
  | scratch (addr : Nat)
  | tile (addr : Nat) (coords : List Int)
  deriving DecidableEq, Repr

/-- The compared fields of an MMA (R196). -/
structure MmaKey where
  name : Nat
  hitch : Nat
  zero : Bool
  ty : Nat
  ka : Nat
  kb : Nat
  q : Bool
  b : BOperand
  deriving DecidableEq, Repr

/-- One signature: the warp, its index, its first A register, the core it signed from, and its registers' values at the signature (key
register * 64 + lane). -/
structure Sig where
  warp : Nat
  widx : Nat
  va : Nat
  width : Nat
  core : Nat
  regs : Tbl Word
  deriving DecidableEq, Repr

/-- A hitch register (R31, R196): S (0 idle), the record of the round and its signatures. -/
structure Hitch where
  s : Nat
  key : Option MmaKey
  sigs : List Sig
  deriving DecidableEq, Repr

/-- An accumulator name (R30). -/
inductive AccName where
  | unmapped
  | mapped (slot : Nat)
  | poisoned (slot : Nat)
  deriving DecidableEq, Repr

/-- A record of the block's mismatch log (R213). -/
structure MismatchRec where
  name : Nat
  hitch : Nat
  info : Mismatch
  deriving DecidableEq, Repr

/-- An entry of the copy-fault table (R229): the ring slot, the cause with its values, the copy's remaining work as the
copy's id, and whether RWAIT has delivered it. -/
structure CopyFault where
  ring : SPlace
  slot : Nat
  cause : Nat
  eaddr : Nat
  etval : Nat
  copy : Nat
  delivered : Bool
  deriving DecidableEq, Repr

/-- The state of a channel slot (R279). -/
inductive ChState where
  | claimed (send : Nat)
  | filled
  | taken
  deriving DecidableEq, Repr

/-- A watchpoint (R452). -/
structure Watch where
  armed : Bool
  lo : Nat
  len : Nat
  kind : Nat
  deriving DecidableEq, Repr

/-- One block (R19, R37). -/
structure Block where
  cluster : Nat
  rank : Nat
  core : Nat
  /-- Block slot on its core (R181). -/
  bslot : Nat
  /-- BLOCK_START has happened (R375). -/
  started : Bool
  ended : Bool
  halted : Bool
  bbs : List BBar
  hitches : List Hitch
  accs : List AccName
  /-- Reserved accumulator slots not mapped now (R206). -/
  accFree : List Nat
  mstat : Word
  mlog : List MismatchRec
  faults : List CopyFault
  scratch : List Host.Cell
  /-- Outstanding copies of a line (R265); an unlisted line has 0. -/
  lineCopies : Tbl Nat
  /-- Lines whose presence bit is clear (R265). -/
  absent : Tbl Bool
  /-- Poisoned lines (R266). -/
  linePois : List Nat
  /-- Ring headers by offset: true after RINIT, false once a plain store or a copy has written over them (R186, R270). -/
  rings : Tbl Bool
  /-- Channel slots in claim order: (channel, slot, state), free slots unlisted (R279). -/
  chSlots : List (Nat × Nat × ChState)
  /-- The slot after the one claimed last, by channel. -/
  chNext : Tbl Nat
  /-- Sends of other blocks waiting for a slot of a channel: (channel, send id). -/
  chWait : List (Nat × Nat)
  watches : List Watch
  /-- Events from the odd core under way to the block barriers, oldest first (R246). -/
  oddEvents : List OddEvent
  /-- ACCZ and ACCREL from the odd core under way to the plane array queue (R204): warp, name, whether ACCREL. -/
  oddAccs : List (Nat × Nat × Bool)
  /-- The next warp-arrival and cluster bookkeeping: warps that have completed on cbN or the grid this phase (R180). -/
  cbDone : Tbl (List Nat)
  /-- Warps attached after the first arrival of the phase, per cluster barrier (R180). -/
  cbLate : Tbl (List Nat)
  /-- Signatures of MMAs that a save has set back, to be made again when the restored block first issues (R401): hitch, record of
  the round, signature. -/
  again : List (Nat × MmaKey × Sig)
  deriving DecidableEq, Repr

/-- A cluster barrier (R31): counts, phase, and the ranks whose blocks have arrived (R180). -/
structure CBar where
  e : Nat
  a : Nat
  phase : Bool
  came : List Nat
  deriving DecidableEq, Repr

/-- One cluster: its grid, index, ranks' blocks as placed, barriers and orphan count (R31, R269, R471). -/
structure Cluster where
  grid : Nat
  index : Nat
  die : Nat
  bay : Nat
  /-- The block of each rank that has been placed. -/
  blocks : Tbl Nat
  endedRanks : List Nat
  cbs : List CBar
  orphans : Nat
  /-- Core of each rank, chosen when the cluster was placed. -/
  cores : List Nat
  deriving DecidableEq, Repr

/-- One grid (R95, R364): its launch record (384 bytes), context, queue packet it reports to. -/
structure Grid where
  ctx : Nat
  record : List Byte
  prio : Nat
  /-- The die's launch queue that places it; none for both halves of a seam launch. -/
  die : Nat
  /-- Queue and packet index of its KLAUNCH, none for LAUNCH. -/
  report : Option (Nat × Nat)
  /-- The clock at which its launch entered the list, and whether it has NOWAIT (R362, R367). -/
  entered : Nat
  noWait : Bool
  placed : Nat
  ended : Nat
  phase : Bool
  /-- Clusters and ranks that have arrived on the grid barrier in this phase. -/
  came : List (Nat × Nat)
  /-- Blocks ended, as (cluster index, rank). -/
  endedBlocks : List (Nat × Nat)
  deriving DecidableEq, Repr

/-- A resource-queue entry (R248). -/
structure ResEnt where
  warp : Nat
  sub : Parked
  req : ResReq
  since : Nat
  deriving DecidableEq, Repr

/-- A run a quadrant has granted (R75, R239): the warp, its sub-braid and the instructions issued. -/
structure Run where
  warp : Nat
  sub : Nat
  count : Nat
  deriving DecidableEq, Repr

/-- An entry of the plane array queue (R202). -/
inductive PlaneWork where
  /-- The record of the round, the signatures by rank, a tile handle's descriptor, and with their poison the B bytes as they
  stood at issue when their lines were present and as the engine has read them (R203, R212). -/
  | mma (key : MmaKey) (sigs : List Sig) (desc : List Byte) (bOld : List (Byte × Bool)) (staged : Option (List (Byte × Bool)))
  | accz (warp name : Nat)
  | accrel (warp name : Nat)
  /-- The end of a block: its slots return as by ACCREL (R141). -/
  | blockEnd
  deriving DecidableEq, Repr

/-- Whether work of the plane array is an MMA. -/
def PlaneWork.isMma : PlaneWork → Bool
  | .mma .. => true
  | _ => false

/-- A row of A or a column of B: its elements or its planes, its scale byte and its precision (R198, R199). -/
abbrev Frag := List Nat × Nat × Nat

/-- A queued plane array operation: its block, the slot it acts on, whether its steps have started. -/
structure PlaneEnt where
  block : Nat
  slot : Option Nat
  started : Bool
  /-- The count of the operation, for replay (R210). -/
  num : Nat
  /-- Elements written by ACCWR since it was queued, with their values before (R209). -/
  wrote : Tbl Word
  work : PlaneWork
  /-- The first of its own free choices (R203, R209). -/
  pick : Nat
  /-- Rows of A and columns of B, with their poison, whose use an ACCRD has shown: no later write changes them (log 116). -/
  rows : Tbl Frag
  cols : Tbl (Frag × Bool)
  /-- The operation, not complete yet, that has loaded the latch whose A this one uses (R200). -/
  src : Option Nat
  deriving DecidableEq, Repr

/-- An A latch (R200): its tag, and A as the operation that loaded it uses it. -/
structure Latch where
  block : Nat
  hitch : Nat
  /-- The signers' first registers, each once. -/
  va : List Nat
  ty : Nat
  ka : Nat
  used : Nat
  /-- The operation that loads it, until that is complete: then `rows` holds A. -/
  op : Option Nat
  rows : Tbl Frag
  /-- The registers of the block's warps when it was loaded, a signer's as at its signature. -/
  seen : Tbl (Tbl Word)
  deriving DecidableEq, Repr

/-- A cached translation (R395): context, virtual page number of the page's size, the leaf entry and its level. -/
structure TlbEnt where
  ctx : Nat
  base : Nat
  level : Nat
  entry : Nat
  deriving DecidableEq, Repr

/-- One core (R6, R8, R20). -/
structure Core where
  runs : List (Option Run)
  accs : Tbl Word
  /-- Slots 0-7: the block and name that hold it, or a block's reservation (name 16), none when free. -/
  accOwner : List (Option (Nat × Nat))
  queue : List PlaneEnt
  latches : List Latch
  opCount : Nat
  resQ : List ResEnt
  runBrk : Nat
  longRun : Nat
  /-- Instruction cache words, by context * 2^57 + address (R74). -/
  icache : Tbl Word
  tlb : List TlbEnt
  /-- Residue mismatches and replay mismatches in the current window (R434). -/
  mismatches : Nat
  replayMisses : Nat
  windowStart : Nat
  fenced : Bool
  drained : Bool
  /-- The clock since which the plane array queue has been empty (R435). -/
  idleSince : Nat
  goldenRun : Option Nat
  goldenLast : Nat
  goldenPass : Nat
  goldenFail : Nat
  deriving DecidableEq, Repr

/-- One entry of a bay write window (R286): pieces of one instruction in one grain, as the packet that is sent. -/
structure WinEnt where
  id : Nat
  core : Nat
  warp : Nat
  grp : Nat
  kind : WKind
  grain : Nat
  pieces : List Piece
  performed : Bool
  /-- Its bytes come from a poisoned line (R266). -/
  pois : Bool
  /-- Its place in the order in which packets were performed; 0 before (R282). -/
  stamp : Nat
  /-- It is acknowledged and no load finds it any more; its counters fall at HOME_ACK. -/
  retired : Bool
  /-- The requester port by which it reaches its home slice (R312). -/
  port : Nat
  /-- The engine class and the context it acts for, where neither its warp nor its copy says them (R383). -/
  actor : Option (Nat × Nat)
  /-- An STNT that its core has not sent yet: the warp's earlier loads are not performed (R285). -/
  held : Bool
  /-- A REDG that its bay has taken: no slice answers it (R168, R333). -/
  byBay : Bool
  deriving DecidableEq, Repr

/-- A splice buffer entry (R333). -/
structure SpliceEnt where
  grain : Nat
  aop : Nat
  ty : Nat
  data : List Byte
  mask : BitVec 8
  /-- The home has recorded it: the bay's bit in the directory is this entry's (R334). -/
  recorded : Bool
  /-- The bay knows that it is recorded (R333). -/
  confirmed : Bool
  age : Nat
  /-- Window entries acknowledged when the record is confirmed. -/
  waiters : List Nat
  /-- The master id of the REDG combined last. -/
  mid : Nat
  deriving DecidableEq, Repr

/-- A descriptor cache entry (R221): the core and scratch offset key, and the 64 bytes. -/
structure DescEnt where
  place : SPlace
  data : List Byte
  deriving DecidableEq, Repr

/-- One bay (R5). -/
structure Bay where
  window : List WinEnt
  splice : List SpliceEnt
  descs : List DescEnt
  tlb : List TlbEnt
  /-- The core, by its place in the bay, that its copy engine has served last (R271). -/
  lastCore : Nat
  deriving DecidableEq, Repr

/-- A block of an L2 slice (R319, R320); `data` maps region offsets to bytes. -/
structure L2Blk where
  region : Nat
  start : Nat
  len : Nat
  dirty : BitVec 16
  pois : BitVec 16
  acc : BitVec 16
  lease : Bool
  /-- The arithmetic clock at which a lease copy expires; its low 16 bits are LEXP (R320). -/
  lexp : Nat
  splc : Bool
  freq : Nat
  pool : Nat
  /-- Clock of last use, for the LRU order (R326). -/
  used : Nat
  /-- The tag's place in its set (R326). -/
  tag : Nat
  /-- For a lease copy, the clock at which its fill began (R174). -/
  began : Nat
  /-- The clock at which it, or its part filled last, was installed (R321). -/
  filled : Nat
  data : List Host.Cell
  deriving DecidableEq, Repr

/-- A gap fill in flight (R322, R324): grains of one region; a lease fill remembers the clock its home served it and
the bytes served. -/
structure Fill where
  id : Nat
  region : Nat
  grains : BitVec 16
  lease : Bool
  freq : Nat
  /-- The port by which a lease fill reaches its home (R312, R314). -/
  seam : Nat
  /-- The clock at which the fill began. -/
  began : Nat
  served : Option Nat
  data : List Host.Cell
  pois : BitVec 16
  /-- Grains written by this die since the home served it (R299). -/
  stale : BitVec 16
  deriving DecidableEq, Repr

/-- A splice directory entry (R334): grain, AOP, AT and the bays that hold partials; whether an access waits at the home, so
that the partials are recalled (R335). -/
structure SpliceDir where
  grain : Nat
  aop : Nat
  ty : Nat
  bays : BitVec 16
  called : Bool
  deriving DecidableEq, Repr

/-- An entry of a knot range table (R330). -/
structure KnotRange where
  pbase : Nat
  len : Nat
  krec : Nat
  deriving DecidableEq, Repr

/-- The holder or a taker of a token (R181, R331): a cluster, or the SIGNAL of a queue. -/
inductive Taker where
  | cluster (c : Nat)
  /-- A SIGNAL: its queue and its packet's running number. -/
  | signal (q n : Nat)
  deriving DecidableEq, Repr

/-- A registered knot's token and its queue (R331): takers in order with the request that parked them. -/
structure Knot where
  krec : Nat
  holder : Option Taker
  queue : List (Taker × Nat)
  /-- The holder has issued KGIVE: it no longer counts as holding for the TOKEN check (R185). -/
  giving : Bool
  deriving DecidableEq, Repr

/-- One L2 slice (R5). -/
structure Slice where
  blocks : List L2Blk
  predictor : Tbl (BitVec 16)
  fills : List Fill
  splice : List SpliceDir
  ranges : List KnotRange
  knots : List Knot
  /-- Accesses that wait at the slice, in the order they came: (grain, identity) (R324, R335). -/
  queue : List (Nat × Nat)
  fenced : Bool
  deriving DecidableEq, Repr

/-- Where a returned value goes: vector registers of lanes or scalars. -/
inductive LoadDst where
  | vec (vd : Nat)
  | scal (sd : Nat)
  deriving DecidableEq, Repr

/-- One lane's part of a load or atomic: the address, the virtual address, the bytes once performed, and poison. -/
structure LanePart where
  lane : Nat
  addr : Nat
  va : Nat
  value : Option (List Byte)
  pois : Bool
  operand : List Byte
  swap : List Byte
  deriving DecidableEq, Repr

/-- A load or atomic on its way (R156, R166). -/
structure PLoad where
  id : Nat
  warp : Nat
  dst : LoadDst
  size : Nat
  signed : Bool
  /-- none for a load, else the atomic. -/
  atom : Option AtomOp
  /-- A scratch access: no global address; its parts' addresses are rank * 2^20 + offset. -/
  scratch : Bool
  /-- LD counts it (R32). -/
  counts : Bool
  span : Nat
  acq : Nat
  /-- The vector registers it may write lie below this one (R24). -/
  top : Nat
  parts : List LanePart
  /-- The responses of slices of its own die, one for each lane that they served: the slice, and the order of sending (R313). -/
  resps : List (Nat × Nat)
  deriving DecidableEq, Repr

/-- A request at an L2 slice (R322): the pending load (or none for a prefetch), its region, the requester. -/
structure L2Req where
  id : Nat
  core : Nat
  load : Option Nat
  region : Nat
  touched : BitVec 16
  span : Nat
  /-- The requester port by which it reaches its home slice (R312). -/
  port : Nat
  /-- The request has been to its slice and asked for its fills. -/
  sent : Bool
  /-- Grains of its lanes that the home on the other die has served in this event (R299). -/
  home : BitVec 16
  /-- Lanes that have passed their warp's queue and their bay's window, and wait at their home (R285, R286). -/
  came : Mask
  deriving DecidableEq, Repr

/-- What a message does at a scratch port (R264, R267). -/
inductive PortOp where
  | load (pl : Nat)
  | atomic (pl : Nat)
  | store (grp : Nat) (pieces : List (Nat × List Byte))
  | ringInit (n expected : Nat)
  | ringArrive (slot bytes : Nat) (clamp : Nat) (copy : Option Nat)
  | ringRel
  | ringWait (free : Bool) (sd : Nat)
  deriving DecidableEq, Repr

/-- A message on its way to a scratch port: who sent it (a core or copy engine, for the order of R264). -/
structure PortMsg where
  id : Nat
  src : Nat
  warp : Option Nat
  place : SPlace
  op : PortOp
  /-- In a warp's store queue until the core store order sends it (R284); a load, until the warp's earlier loads are performed (R285). -/
  queued : Bool
  /-- Its place in the order sent (R264). -/
  sent : Nat
  deriving DecidableEq, Repr

/-- The kind of a copy command (R223, R230). -/
inductive CopyKind where
  | g2s
  | s2g
  | s2s
  | gth (d : Nat)
  | sct (d : Nat)
  | tr
  | rqtr (p : Nat)
  | prec (k : Nat)
  | conv (fmt : Nat)
  /-- CHSEND into a claimed slot of a channel (R191). -/
  | chan (n slot : Nat)
  /-- The operand fetcher's staging of a tile-handle B is part of its MMA. -/
  | coll (kind op ty group stp : Nat)
  deriving DecidableEq, Repr

/-- A receiver of a copy: the ring header and slot, and the destination's first byte. -/
structure Receiver where
  ring : SPlace
  slot : Nat
  dst : SPlace
  deriving DecidableEq, Repr

/-- A copy command of a bay engine (R271). -/
structure CopyCmd where
  id : Nat
  bay : Nat
  core : Nat
  warp : Nat
  ctx : Nat
  cluster : Nat
  block : Nat
  kind : CopyKind
  ord : Bool
  desc : List Byte
  coords : List Int
  src : SPlace
  idx : SPlace
  count : Nat
  recvs : List Receiver
  /-- Bytes of the destination image in all, and produced so far. -/
  total : Nat
  made : Nat
  /-- Scratch sources as they stood at issue when their lines were present, and as the engine has read them: bytes with
  poison, the index tensor's after the data's (R273). -/
  srcOld : List Byte
  srcRead : Option (List (Byte × Bool))
  /-- Bytes of the image the engine has fetched and not yet delivered, and their clamp count. -/
  buf : List (Byte × Bool)
  bufClamps : Nat
  /-- Bytes acknowledged at their homes, for global writes (R276). -/
  acked : Nat
  /-- The write group that holds ST and the CW counters (R224). -/
  grp : Option Nat
  /-- Word 0 of the instruction, ETVAL of ILL. -/
  w0 : Nat
  /-- A cause found, with EADDR and ETVAL: the copy fails (R229). -/
  failed : Option (Nat × Nat × Nat)
  /-- The engine has begun to write its global bytes: their tokens have been checked (R228). -/
  opened : Bool
  /-- Destination lines whose clear and count have not reached their port (R265): rank * 8192 + line. -/
  uncleared : List Nat
  /-- Planned bytes of a global write whose grain goes on in the next piece (R323): (address, virtual address, byte, poison). -/
  carry : List (Nat × Nat × Byte × Bool)
  /-- CP counts it still (R223). -/
  counts : Bool
  /-- Failed, and kept for the copy-fault tables that name it. -/
  done : Bool
  /-- Lines into which it has written poison: rank * 8192 + line (R266). -/
  tainted : List Nat
  deriving DecidableEq, Repr

/-- Part of a copy on its way into one scratch line of one receiver (R265). -/
structure LineMsg where
  id : Nat
  copy : Nat
  place : SPlace
  /-- Its bytes with their poison (R266). -/
  data : List (Byte × Bool)
  last : Bool
  /-- It waits in the reorder buffer of a receiving port for its place in its stream (R315). -/
  held : Bool
  /-- Its place in the order in which its engine, or the port that released it, sends (R311). -/
  out : Nat
  deriving DecidableEq, Repr

/-- An arrival on its way to a ring header (R267): bytes and clamp count. -/
structure RingMsg where
  id : Nat
  copy : Nat
  ring : SPlace
  slot : Nat
  bytes : Nat
  clamp : Nat
  /-- Line messages that must be written before the count is made (R267). -/
  after : List Nat
  deriving DecidableEq, Repr

/-- What a knot request asks (R182, R331). -/
inductive KnotOp where
  | reg (ranges : List KnotRange) (bad : Option Nat)
  | free
  | take (wait_ : Bool)
  | give
  deriving DecidableEq, Repr

/-- A knot request on its way to the record's home (R331). -/
structure KnotReq where
  id : Nat
  warp : Option Nat
  taker : Taker
  krec : Nat
  sd : Nat
  op : KnotOp
  /-- Its place in the order in which its die sent the requests of the record's stream (R315); none while a KGIVE's release
  drains (R185). -/
  sent : Option Nat
  /-- Queued at the home, or held at its core until this clock to be sent again (R331). -/
  queued : Bool
  resendAt : Option Nat
  /-- A KGIVE whose release has taken effect (R185). -/
  drained : Bool
  /-- Its home's reply under way: the status, and its place in the order in which replies were sent (R313). -/
  reply : Option (Nat × Nat)
  deriving DecidableEq, Repr

/-- A flush under way (R175): the physical grains left to act on, as (first grain, count) page by page. -/
structure FlushCmd where
  id : Nat
  warp : Nat
  op : Nat
  ranges : List (Nat × Nat)
  deriving DecidableEq, Repr

end Sys2Proof.Machine
end

