-- ==== Sys2Proof/Machine/PkgTypes.lean ====
section
/-! DEFINITION. The state of contexts, queues, distributors, the host port, the fabric, the event queue, the security
processor and power: plain data. -/

namespace Sys2Proof.Machine

/-- The debug mailbox of a context (R448). -/
structure DebugBox where
  dcmd : Word
  dargs : List Word
  drsp0 : Word
  drsp1 : Word
  busy : Bool
  err : Bool
  post : Bool
  ecode : Nat
  dposts : List Word
  free : Bool
  /-- A HALT in progress: the blocks it waits for (R450). -/
  halting : List Nat
  deriving DecidableEq, Repr

/-- One context (R387): its registers, its debug mailbox, what a fence or an invalidation in progress waits for, and the
watchdog's period (R389). -/
structure Ctx where
  rootlo : Word
  roothi : Word
  tveclo : Word
  tvechi : Word
  cctl : Word
  cwdog : Word
  cwcnt : Word
  csavelo : Word
  csavehi : Word
  cssize : Word
  cinvlo : Word
  cinvhi : Word
  cinvn : Word
  go : Bool
  cstat : Word
  /-- A fence has begun and FENCED is not yet set (R390). -/
  fencing : Bool
  /-- Accesses translated before GO that must be performed (R396): pending load, write group and copy ids. -/
  invWait : List Nat
  /-- A restart event in this watchdog period; a halted block in it; a resident block in it (R389). -/
  restarted : Bool
  haltSeen : Bool
  blockSeen : Bool
  /-- The clock of the watchdog's period end that has set CSTAT.WDOG: a W1C write of that clock leaves the bit (R13). -/
  wdogAt : Option Nat
  /-- Memory as it was when the context's instruction caches were last invalidated: the old form of its code (R74). -/
  code : List Host.Cell
  /-- The function the context is assigned to (R415). -/
  fn : Nat
  /-- Saved clusters' pool pages: (cluster, first page, pages) (R403). -/
  pool : List (Nat × Nat × Nat)
  dbox : DebugBox
  deriving DecidableEq, Repr

/-- A started packet of an engine queue that has not completed (R363): its running number, whose low 13 bits are its index,
and bytes; `stage` counts the steps of a SIGNAL that are done (0 started, 1 token held, 2 written, 3 acknowledged). -/
structure Packet where
  idx : Nat
  /-- The queue's context when it started. -/
  ctx : Nat
  bytes : List Byte
  stage : Nat
  /-- The grid a KLAUNCH started. -/
  grid : Option Nat
  /-- The write group of a SIGNAL's store. -/
  grp : Option Nat
  /-- The record of the knot that a SIGNAL of OP 4 takes. -/
  knot : Option Nat
  deriving DecidableEq, Repr

/-- One hardware queue (R360): registers, started packets not yet complete, completed ones beyond the prefix, and
parked DEQ and ENQ in the order they parked (R148). -/
structure Queue where
  baselo : Word
  basehi : Word
  en : Bool
  mode : Bool
  lsize : Nat
  prio : Nat
  ctx : Nat
  head : Nat
  tail : Nat
  ccnt : Nat
  ovf : Bool
  badw : Bool
  badp : Bool
  started : List Packet
  /-- Running numbers of packets completed and not yet counted in CCNT (R364). -/
  completed : List Nat
  /-- The running number of the packet that starts next: unlike HEAD it never comes again. -/
  next : Nat
  deqWait : List (Nat × Nat)
  enqWait : List (Nat × Nat)
  deriving DecidableEq, Repr

/-- A launch with unplaced clusters (R367). -/
structure Launch where
  grid : Nat
  prio : Nat
  recPrio : Nat
  entered : Nat
  nextCluster : Nat
  /-- Clusters that were pre-empted and wait to be restored (R373). -/
  saved : List Nat
  noWait : Bool
  /-- The clock since which its lowest cluster waits (R370). -/
  waitSince : Nat
  deriving DecidableEq, Repr

/-- A block that a pass has placed on its core and that BLOCK_PLACE will put there (R370). -/
structure Placing where
  grid : Nat
  cluster : Nat
  rank : Nat
  core : Nat
  /-- A restore of a saved cluster (R404). -/
  restore : Bool
  deriving DecidableEq, Repr

/-- One compute die's distributor, launch list and event store (R367, R370, R439). -/
structure Die where
  launches : List Launch
  /-- KLAUNCHes that wait while the list is full, oldest first (R363). -/
  backlog : List Launch
  lastBay : Nat
  lastSeam : Nat
  placing : List Placing
  /-- Halves of seam-bonded clusters on their way from the peer distributor (R371). -/
  forwarded : List Placing
  /-- Cores reserved for a launch by pre-emption: (core, grid) (R372). -/
  reserved : List (Nat × Nat)
  /-- The queue the engine started last, for round robin (R363). -/
  lastQueue : Nat
  /-- Event records waiting (R439), 32 bytes each. -/
  store : List (List Byte)
  /-- Clocks at which corrected errors were last reported and counts since: key unit and structure (R431). -/
  corrected : Tbl (Nat × Nat)
  /-- A pass is due (R370). -/
  passDue : Bool
  deriving DecidableEq, Repr

/-- A saved cluster's blocks and warps, as the image holds them (R403). -/
structure Saved where
  cluster : Nat
  blocks : List (Nat × Block)
  warps : List (Nat × Warp)
  accs : List (Nat × Nat × Tbl Word)
  /-- Names whose slots are of their block's reservation (R206): (block, name). -/
  reserved : List (Nat × Nat)
  deriving DecidableEq, Repr

/-- A pre-emption under way (R401): the cluster and the launch it makes room for. -/
structure Saving where
  cluster : Nat
  forGrid : Nat
  deriving DecidableEq, Repr

/-- A migration channel (R405). -/
structure Migration where
  src : Nat
  dst : Nat
  lg : Bool
  bnd : Nat
  busy : Bool
  done : Bool
  ref : Bool
  /-- The clock at which the last grain was moved (R407). -/
  ended : Option Nat
  deriving DecidableEq, Repr

/-- A format window (R336). -/
structure FmtWindow where
  lo : Word
  hi : Word
  cnt : Word
  ctl : Word
  deriving DecidableEq, Repr

/-- Memory-system state that no slice holds: poisoned grains and retired frames, lost stacks and fenced expanders,
format windows of the four hub dies, migration channels, and the held writes of the reel job (R442, R445). -/
structure MemSys where
  pois : List Nat
  retired : List Nat
  errFrames : List Nat
  lostStacks : List Nat
  /-- Capacity of each expander in bytes, 0 for absent (R3), and whether it is fenced (R410). -/
  expCap : List Nat
  expFenced : List Bool
  windows : List (List FmtWindow)
  migs : List Migration
  deriving DecidableEq, Repr

/-- Everything on its way inside the package: pending loads, write groups, L2 requests, port, line and ring messages,
copy commands, knot requests, flushes, STNT packets, recalled splice partials. -/
structure Net where
  loads : Tbl PLoad
  groups : Tbl WGroup
  reqs : Tbl L2Req
  ports : Tbl PortMsg
  copies : Tbl CopyCmd
  lines : Tbl LineMsg
  rings : Tbl RingMsg
  knots : Tbl KnotReq
  flushes : Tbl FlushCmd
  nts : List WinEnt
  /-- Global writes of copies and SIGNALs: packets performed at the home. -/
  cpw : List WinEnt
  /-- Recalled or returned splice entries: id, bay, entry (R335). -/
  partials : Tbl (Nat × SpliceEnt)
  deriving DecidableEq, Repr

/-- A Lanyard request in flight (R418): the load, or the packet, it is for, the package, when it was sent, and by which link with
which header and payload (R416). -/
structure LyReq where
  load : Option Nat
  grp : Option Nat
  pkg : Nat
  addr : Nat
  sent : Nat
  link : Option Nat
  head : List Byte
  data : List Byte
  deriving DecidableEq, Repr

/-- A registered collective group (R420). -/
structure CollGroup where
  ctx : Nat
  group : Nat
  myRank : Nat
  root : Nat
  mode : Nat
  swgrp : Nat
  members : List Nat
  deriving DecidableEq, Repr

/-- A COLL in flight in this package (R421): its copy, and the packets that have come. -/
structure CollRun where
  /-- The COLL of this package, once its source is read. -/
  copy : Option Nat
  /-- The hub die whose fabric reduction engine serves it (R408). -/
  hub : Option Nat
  /-- Its node's value, or the result, has left (R424). -/
  sent : Bool
  ctx : Nat
  group : Nat
  stp : Nat
  kind : Nat
  op : Nat
  ty : Nat
  count : Nat
  parts : List CollPart
  deriving DecidableEq, Repr

/-- A queue pair (R426, R466). -/
structure QPair where
  ctx : Nat
  port : Nat
  fn : Nat
  sendBase : Nat
  recvBase : Nat
  compBase : Nat
  sendLog : Nat
  recvLog : Nat
  compLog : Nat
  datagram : Bool
  remoteQp : Nat
  remoteIp : List Byte
  rkey : Nat
  sendIdx : Nat
  recvIdx : Nat
  compIdx : Nat
  /-- Taken work requests not complete: (ring index, bytes). -/
  pending : List (Nat × List Byte)
  recvs : List (Nat × List Byte)
  deriving DecidableEq, Repr

/-- A packet that leaves the package: Lanyard link 0 to 31, or 32 and the Ethernet port; the destination; the 32-byte header flit and
the payload flits of a Lanyard packet (R312, R416), whose layout is the model's own (DESIGN CHOICE, log 84); poisoned elements. -/
structure OutMsg where
  link : Nat
  dst : Nat
  head : List Byte
  data : List Byte
  lost : List Nat
  deriving DecidableEq, Repr

/-- A packet of a collective stream that has been sent (R416): when, by which hub die's engine, what it says, and as it left. -/
structure CollSent where
  at' : Nat
  hub : Nat
  seq : Nat
  part : CollPart
  msg : OutMsg
  deriving DecidableEq, Repr

/-- The fabric (R414 to R427; what lies outside the package is DESIGN CHOICE, log 84). -/
structure Fabric where
  pkgn : Nat
  pkgv : Bool
  /-- Whether any context has been enabled, or DOMAIN accepted, since reset (R460). -/
  domainClosed : Bool
  present : List Byte
  lyup : BitVec 32
  enup : BitVec 8
  lanyard : Tbl LyReq
  groups : List CollGroup
  /-- Registrations and removals that wait for the group's COLLs (R420): none in `members` removes. -/
  groupWait : List (CollGroup × Bool)
  colls : Tbl CollRun
  /-- Collective packets sent in the last 4 194 304 clocks: a link that fails may have lost them (R416, R418). -/
  collsOut : List CollSent
  qps : Tbl QPair
  /-- Packets for other packages and networks, oldest first. -/
  outbox : List OutMsg
  deriving DecidableEq, Repr

/-- The host port and the event queue (R411 to R415, R438 to R440). -/
structure Port where
  evbase : Nat
  evhead : Nat
  evtail : Nat
  evovf : Bool
  lost : Nat
  gap : Nat
  /-- Drops and contexts fenced since the last type 0x0F record (R439). -/
  drops : Nat
  fencedDrops : Nat
  /-- Messages owed to each function, and the clock of the last sent (R440). -/
  owed : List Nat
  lastMsg : Tbl Nat
  vfs : Nat
  /-- What the host sees, newest first: completions (function, bytes, poisoned TLP) and MSI-X messages (R412, R440). -/
  responses : List (Nat × List Byte × Bool)
  messages : List Nat
  deriving DecidableEq, Repr

/-- A security mailbox (R460). -/
structure SecBox where
  scmd : Word
  args : List Word
  rsps : List Word
  busy : Bool
  done : Bool
  status : Nat
  deriving DecidableEq, Repr

/-- A firmware image in flash (R463). -/
structure FwImage where
  version : Nat
  floor : Nat
  digest : List Byte
  valid : Bool
  /-- It is Holard test firmware (R461). -/
  test : Bool
  deriving DecidableEq, Repr

/-- The reel job (R444, R445): ranges (source, destination, chunks), the next chunks in order still to copy, counts, and
the bytes of chunks at T0 that a held write will change. -/
structure ReelJob where
  jobid : Nat
  queue : Nat
  ranges : List (Nat × Nat × Nat)
  /-- Chunks left: (source, destination). -/
  left : List (Nat × Nat)
  copied : Nat
  poisoned : Nat
  fenced : Bool
  deriving DecidableEq, Repr

/-- The security processor, fuses and flash (R457 to R466). -/
structure Sec where
  boxes : List SecBox
  /-- Commands queued: (function, OP), oldest first. -/
  queue : List (Nat × Nat)
  lc : Nat
  ready : Bool
  fwok : Bool
  recov : Bool
  dieok : BitVec 2
  rootHash : List Byte
  ownerHash : List Byte
  rollback : Nat
  devid : Nat
  images : List FwImage
  active : Nat
  repairDigest : List Byte
  /-- Repair entries: fenced cores mapped to spares and fenced slices (R441). -/
  repairCores : List Nat
  repairSlices : List Nat
  repairFrames : List Nat
  /-- Core numbers that stay fenced since their bay's spare is used (R441). -/
  repairDead : List Nat
  /-- The repair table's signature verifies (R441, R463). -/
  repairValid : Bool
  atab : Tbl (List Byte)
  reel : Option ReelJob
  /-- WORK packets of completed and refused jobs that wait for room (R446): the queue and the packet. -/
  reelDone : List (Nat × List Byte)
  /-- A device reset that a command has asked for (R457). -/
  resetDue : Bool
  /-- The TYPE of the fatal error's cause, and its record (R443). -/
  fatal : Option Nat
  fatalRecord : List Byte
  dump : Option Nat
  deriving DecidableEq, Repr

/-- Clock step, power and temperature (R467, R468). -/
structure Power where
  stp : Nat
  next : Nat
  pwr : Nat
  temp : Nat
  capw : Nat
  changing : Bool
  /-- The board management controller has been asked to remove power (R468). -/
  removal : Bool
  deriving DecidableEq, Repr

end Sys2Proof.Machine
end

