-- ==== Sys2Proof/Machine/State.lean ====
section
/-! DEFINITION. The state of the package as the spec gives it, the reasons a step can stop, and the state after reset
(R19 to R41, R457; the model's own fields: logs 1, 2 and 5). -/

namespace Sys2Proof.Machine

/-- What comes next: an event of the table, or the next instruction of the run that a quadrant has granted (DESIGN CHOICE, log 1). -/
inductive Move where
  | event (i : Instr)
  | issue (core quad : Nat)
  deriving DecidableEq, Repr

/-- One turn of the agenda: what comes next, and the clocks that pass before it (logs 1 and 2). -/
structure Turn where
  clocks : Nat
  move : Move
  deriving DecidableEq, Repr

/-- Who issues the instruction that `exec` runs: a warp and one of its sub-braids. -/
structure Issuer where
  warp : Nat
  sub : Nat
  deriving DecidableEq, Repr

/-- The whole package. -/
structure State where
  /-- The package arithmetic clock (R320, R36). -/
  clock : Nat
  /-- Watchdog periods that have been counted (R389). -/
  watched : Nat
  /-- The next unused identity of a warp, block, cluster, grid, load, message or command (the model's own). -/
  fresh : Nat
  /-- Free values used so far (the model's own, DESIGN CHOICE, log 5). -/
  free : Nat
  /-- What comes next (the model's own, DESIGN CHOICE, log 1). -/
  agenda : List Turn
  /-- The issuing warp and sub-braid, while an instruction is executed (the model's own, DESIGN CHOICE, log 1). -/
  focus : Option Issuer
  warps : Tbl Warp
  blocks : Tbl Block
  clusters : Tbl Cluster
  grids : Tbl Grid
  cores : List Core
  bays : List Bay
  slices : List Slice
  dies : List Die
  /-- HBM and the second tier by physical address; an unlisted byte is 0 (R457 step 5). -/
  mem : List Host.Cell
  memsys : MemSys
  net : Net
  ctxs : List Ctx
  queues : List Queue
  saving : List Saving
  saved : List Saved
  port : Port
  fabric : Fabric
  sec : Sec
  power : Power
  deriving DecidableEq, Repr

/-- Reasons a step stops with a fault. -/
inductive Fault where
  /-- `exec` was asked to run a warp's instruction with no issuing sub-braid in State.focus. `step` never does it: it sets
  the focus before it executes a fetched instruction. Safe: the machine has no such step. -/
  | noIssuer
  deriving DecidableEq, Repr

/-- Reasons a step is refused. -/
inductive Refusal where
  /-- An instruction or event with no meaning in this model yet; raised by `exec` alone. Safe. -/
  | notModelled (mnemonic : String)
  deriving DecidableEq, Repr

/-- A debug mailbox after reset: all 0 but DCLAIM.FREE (R448). -/
def resetDebugBox : DebugBox :=
  { dcmd := 0, dargs := [0, 0, 0, 0], drsp0 := 0, drsp1 := 0, busy := false, err := false, post := false, ecode := 0,
    dposts := [0, 0, 0, 0], free := true, halting := [] }

/-- A context after reset (R387); assigned to function 0 (DESIGN CHOICE, log 8). -/
def resetCtx : Ctx :=
  { rootlo := 0, roothi := 0, tveclo := 0, tvechi := 0, cctl := 0, cwdog := 0, cwcnt := 0, csavelo := 0, csavehi := 0,
    cssize := 0, cinvlo := 0, cinvhi := 0, cinvn := 0, go := false, cstat := 0, fencing := false, invWait := [],
    restarted := false, haltSeen := false, blockSeen := false, wdogAt := none, code := [], fn := 0, pool := [], dbox := resetDebugBox }

/-- A queue after reset (R360). -/
def resetQueue : Queue :=
  { baselo := 0, basehi := 0, en := false, mode := false, lsize := 0, prio := 0, ctx := 0, head := 0, tail := 0, ccnt := 0,
    ovf := false, badw := false, badp := false, started := [], completed := [], next := 0, deqWait := [],
    enqWait := [] }

/-- A core after reset: every register file, cache and table cleared (R457 step 5), no run granted (DESIGN CHOICE, log 7). -/
def resetCore : Core :=
  { runs := [none, none, none, none], accs := [], accOwner := List.replicate 8 none, queue := [], latches := [],
    opCount := 0, resQ := [], runBrk := 0, longRun := 0, icache := [], tlb := [], mismatches := 0, replayMisses := 0, windowStart := 0, idleSince := 0,
    fenced := false, drained := false, goldenRun := none, goldenLast := 0, goldenPass := 0, goldenFail := 0 }

/-- A bay after reset; its engine's turn begins with core 0 (DESIGN CHOICE, log 95). -/
def resetBay : Bay := { window := [], splice := [], descs := [], tlb := [], lastCore := 11 }

/-- An L2 slice after reset: every tag and table entry invalid (R320, R325, R330, R334). -/
def resetSlice : Slice :=
  { blocks := [], predictor := [], fills := [], splice := [], ranges := [], knots := [], queue := [], fenced := false }

/-- A die's distributor after reset: last placed bay and seam pair 7 (R370), and no queue started: queue 1 of the die comes first of
those of equal PRIO (DESIGN CHOICE, log 127). -/
def resetDie : Die :=
  { launches := [], backlog := [], lastBay := 7, lastSeam := 7, placing := [], forwarded := [], reserved := [], lastQueue := 0,
    store := [], corrected := [], passDue := false }

/-- A migration channel after reset (R405). -/
def resetMigration : Migration :=
  { src := 0, dst := 0, lg := false, bnd := 0, busy := false, done := false, ref := false, ended := none }

/-- A security mailbox after reset (R460). -/
def resetSecBox : SecBox :=
  { scmd := 0, args := [0, 0, 0, 0, 0, 0], rsps := [0, 0, 0, 0], busy := false, done := false, status := 0 }

/-- The memory system after reset: the M6 product's eight expanders of 768 GiB (DESIGN CHOICE, log 6), nothing poisoned. -/
def resetMemSys : MemSys :=
  { pois := [], retired := [], errFrames := [], lostStacks := [], expCap := List.replicate 8 (768 * 2 ^ 30),
    expFenced := List.replicate 8 false, windows := List.replicate 4 (List.replicate 16 ⟨0, 0, 0, 0⟩),
    migs := List.replicate 8 resetMigration }

/-- Nothing on its way. -/
def resetNet : Net :=
  { loads := [], groups := [], reqs := [], ports := [], copies := [], lines := [], rings := [], knots := [], flushes := [],
    nts := [], cpw := [], partials := [] }

/-- The fabric after reset: no domain (R414); links up (DESIGN CHOICE, log 9). -/
def resetFabric : Fabric :=
  { pkgn := 0, pkgv := false, domainClosed := false, present := [], lyup := BitVec.allOnes 32, enup := BitVec.allOnes 8,
    lanyard := [], groups := [], groupWait := [], colls := [], collsOut := [], qps := [], outbox := [] }

/-- The host port after reset; EVBASE is firmware's (DESIGN CHOICE, log 9). -/
def resetPort : Port :=
  { evbase := 0x01FFDFC00000, evhead := 0, evtail := 0, evovf := false, lost := 0, gap := 0, drops := 0, fencedDrops := 0,
    owed := [], lastMsg := [], vfs := 0, responses := [], messages := [] }

/-- The access table after reset (R459): host function f's MID 224 + f, class 8, reaches MMIO block 7, by its PERM and MBLK bits; no
other entry permits anything (DESIGN CHOICE, log 8). -/
def bootAtab : Tbl (List Byte) :=
  (List.range 32).map (fun f => (16 * (224 + f) + 8, [0xC0] ++ List.replicate 7 0 ++ [0x80] ++ List.replicate 247 0))

/-- The security processor at the end of the reset sequence (R457, R459): READY and FWOK, both dies out of reset; life
cycle deployed, fuses and flash as log 10 says (DESIGN CHOICE). -/
def resetSec : Sec :=
  { boxes := List.replicate 32 resetSecBox, queue := [], lc := 2, ready := true, fwok := true, recov := false, dieok := 3,
    rootHash := List.replicate 32 0, ownerHash := List.replicate 32 0, rollback := 0, devid := 0,
    images := [⟨0, 0, List.replicate 32 0, true, false⟩, ⟨0, 0, List.replicate 32 0, false, false⟩], active := 0,
    repairDigest := List.replicate 32 0, repairCores := [], repairSlices := [], repairFrames := [], repairDead := [], repairValid := true,
    atab := bootAtab, reel := none,
    reelDone := [], resetDue := false, fatal := none, fatalRecord := [], dump := none }

/-- Power after reset: step 0, cap 3 600 W (R457 step 6, R459). -/
def resetPower : Power := { stp := 0, next := 0, pwr := 0, temp := 0, capw := 3600, changing := false, removal := false }

/-- The package right after reset, step 7 of R457 done: no warp, block, cluster or grid exists, every table is clear,
all of memory reads 0 (DESIGN CHOICE, log 19). -/
def State.reset : State :=
  { clock := 0, watched := 0, fresh := 0, free := 0, agenda := [], focus := none, warps := [], blocks := [], clusters := [], grids := [],
    cores := List.replicate 192 resetCore, bays := List.replicate 16 resetBay, slices := List.replicate 128 resetSlice,
    dies := [resetDie, resetDie], mem := [], memsys := resetMemSys, net := resetNet, ctxs := List.replicate 64 resetCtx,
    queues := List.replicate 512 resetQueue, saving := [], saved := [], port := resetPort, fabric := resetFabric,
    sec := resetSec, power := resetPower }

end Sys2Proof.Machine
end

