-- ==== Sys2Proof/Machine/Regs.lean ====
section
/-! DEFINITION. The named operations over a warp's registers, masks, predicates and counters (R19 to R33), and over the
collections of the state. -/

namespace Sys2Proof.Machine

/-- The mask of lane `l`. -/
def laneBit (l : Nat) : Mask := BitVec.ofNat 64 (2 ^ l)

/-- All lanes of a width (R21). -/
def widthMask (width : Nat) : Mask := BitVec.ofNat 64 (2 ^ width - 1)

/-- Whether a lane is in a mask. -/
def inMask (m : Mask) (l : Nat) : Bool := m.getLsbD l

/-- The lanes of a mask, ascending. -/
def lanesOf (m : Mask) : List Nat := (List.range 64).filter (inMask m)

/-- The mask of a list of lanes. -/
def maskOf (ls : List Nat) : Mask := ls.foldl (fun acc l => acc ||| laneBit l) 0

/-- The lowest lane of a mask, 0 for none. -/
def lowestLane (m : Mask) : Nat := (lanesOf m).headD 0

/-- The lanes of strand `k` (R233). -/
def strandMask (k : Nat) : Mask := BitVec.ofNat 64 (0xF * 2 ^ (4 * k))

/-- Register r of lane l; an unlisted one is 0 (R24). -/
def vread (w : Warp) (r l : Nat) : Word := tgetD w.vregs (r * 64 + l) 0

/-- Writes register r of lane l and clears its poison mark (R157). -/
def vwrite (w : Warp) (r l : Nat) (v : Word) : Warp :=
  { w with vregs := tputD w.vregs (r * 64 + l) v 0, marks := terase w.marks (r * 64 + l) }

/-- `n` registers from r as one pattern, low register first (R23). -/
def vreadN (w : Warp) (r l : Nat) : Nat → Nat
  | 0 => 0
  | n + 1 => (vread w r l).toNat + 2 ^ 32 * vreadN w (r + 1) l n

/-- Writes `n` registers from r, low word first. -/
def vwriteN (w : Warp) (r l : Nat) : Nat → Nat → Warp
  | 0, _ => w
  | n + 1, v => vwriteN (vwrite w r l (BitVec.ofNat 32 v)) (r + 1) l n (v / 2 ^ 32)

/-- Scalar register n (R25). -/
def sread (w : Warp) (n : Nat) : Word := tgetD w.sregs n 0

/-- Writes a scalar register and clears its poison mark (R26, R157); what parked lanes still owe the register is void, since their
instruction was issued before (R26). -/
def swrite (w : Warp) (n : Nat) (v : Word) : Warp :=
  { w with sregs := tputD w.sregs n v 0, smarks := terase w.smarks n, owed := w.owed.filter (fun e => e.2 != n) }

/-- Whether a register takes the result of an instruction that issues now (`m` none) or whose parked lanes `m` go on: unless an
instruction issued after it has written the register (R26). -/
def takesOwed (w : Warp) (m : Option Mask) (n : Nat) : Bool := m.all (fun k => w.owed.contains (k, n))

/-- What is still owed once the lanes `m` have written register n: of that register, what was issued after them. -/
def owedAfter (l : List (Mask × Nat)) (m : Mask) (n : Nat) : List (Mask × Nat) :=
  (l.takeWhile (· != (m, n))).filter (fun e => e.2 != n) ++ (l.dropWhile (· != (m, n))).drop 1

/-- Writes a scalar register for an instruction that issues now, or whose parked lanes go on (R26). -/
def swriteOwed (w : Warp) (m : Option Mask) (n : Nat) (v : Word) : Warp :=
  match m with
  | none => swrite w n v
  | some k => if takesOwed w m n then { swrite w n v with owed := owedAfter w.owed k n } else w

/-- `n` scalars from k as one pattern, low word first. -/
def sreadN (w : Warp) (k : Nat) : Nat → Nat
  | 0 => 0
  | n + 1 => (sread w k).toNat + 2 ^ 32 * sreadN w (k + 1) n

/-- Writes `n` scalars from k, low word first. -/
def swriteN (w : Warp) (k : Nat) : Nat → Nat → Warp
  | 0, _ => w
  | n + 1, v => swriteN (swrite w k (BitVec.ofNat 32 v)) (k + 1) n (v / 2 ^ 32)

/-- A 57-bit address held in a scalar pair: bits [31:25] of the high word are ignored (R128, R153). -/
def spair (w : Warp) (k : Nat) : Nat := sreadN w k 2 % 2 ^ 57

/-- Predicate q of every lane; q7 is true (R27). -/
def predMask (w : Warp) (q : Nat) : Mask := if q = 7 then BitVec.allOnes 64 else w.preds.getD q 0

/-- Writes predicate q in the lanes of `lanes` with the truth of `v`. -/
def pwrite (w : Warp) (q : Nat) (lanes v : Mask) : Warp :=
  { w with preds := lmod w.preds q (fun p => (p &&& ~~~lanes) ||| (v &&& lanes)) }

/-- Mask register k (R28). -/
def mread (w : Warp) (k : Nat) : Mask := w.masks.getD k 0

/-- The live mask m0 (R28). -/
def liveMask (w : Warp) : Mask := mread w 0

/-- Writes a mask register: ANDed with m0 (R21, R136). -/
def mwrite (w : Warp) (k : Nat) (v : Mask) : Warp := { w with masks := lset w.masks k (v &&& liveMask w) }

/-- The nesting counter of a lane (R19). -/
def nestOf (w : Warp) (l : Nat) : Nat := tgetD w.nest l 0

/-- Sets a lane's nesting counter. -/
def setNest (w : Warp) (l v : Nat) : Warp := { w with nest := tputD w.nest l v 0 }

/-- Adds 1 to the nesting counters of lanes. -/
def nestUp (w : Warp) (m : Mask) : Warp := (lanesOf m).foldl (fun acc l => setNest acc l (nestOf acc l + 1)) w

/-- Takes 1 from the nesting counters of lanes; a counter at 0 stays (R134). -/
def nestDown (w : Warp) (m : Mask) : Warp := (lanesOf m).foldl (fun acc l => setNest acc l (nestOf acc l - 1)) w

/-- ORs flags into FSTAT (R71). -/
def orFlags (w : Warp) (f : Word) : Warp := { w with fstat := w.fstat ||| f }

/-- FCTL.RM and FCTL.FTZ (R38). -/
def fctlRm (w : Warp) : Nat := (w.fctl.extractLsb' 0 2).toNat
def fctlFtz (w : Warp) : Bool := w.fctl.getLsbD 2

/-- The active lanes of a guard (R79) among the issuing lanes. -/
def guardLanes (w : Warp) (issuing : Mask) (gn : Bool) (gp : Nat) : Mask :=
  issuing &&& liveMask w &&& (if gn then ~~~predMask w gp else predMask w gp)

/-- Changes a warp. -/
def modWarp (s : State) (k : Nat) (f : Warp → Warp) : State := { s with warps := tmod s.warps k f }
/-- Changes a block. -/
def modBlock (s : State) (k : Nat) (f : Block → Block) : State := { s with blocks := tmod s.blocks k f }
/-- Changes a cluster. -/
def modCluster (s : State) (k : Nat) (f : Cluster → Cluster) : State := { s with clusters := tmod s.clusters k f }
/-- Changes a grid. -/
def modGrid (s : State) (k : Nat) (f : Grid → Grid) : State := { s with grids := tmod s.grids k f }
/-- Changes a core. -/
def modCore (s : State) (k : Nat) (f : Core → Core) : State := { s with cores := lmod s.cores k f }
/-- Changes a bay. -/
def modBay (s : State) (k : Nat) (f : Bay → Bay) : State := { s with bays := lmod s.bays k f }
/-- Changes an L2 slice. -/
def modSlice (s : State) (k : Nat) (f : Slice → Slice) : State := { s with slices := lmod s.slices k f }
/-- Changes a die. -/
def modDie (s : State) (k : Nat) (f : Die → Die) : State := { s with dies := lmod s.dies k f }
/-- Changes a context. -/
def modCtx (s : State) (k : Nat) (f : Ctx → Ctx) : State := { s with ctxs := lmod s.ctxs k f }
/-- Changes a queue. -/
def modQueue (s : State) (k : Nat) (f : Queue → Queue) : State := { s with queues := lmod s.queues k f }
/-- Changes what is on its way. -/
def modNet (s : State) (f : Net → Net) : State := { s with net := f s.net }

def coreOf (s : State) (k : Nat) : Core := s.cores.getD k resetCore
def bayOf (s : State) (k : Nat) : Bay := s.bays.getD k resetBay
def sliceOf (s : State) (k : Nat) : Slice := s.slices.getD k resetSlice
def dieOf (s : State) (k : Nat) : Die := s.dies.getD k resetDie
def ctxOf (s : State) (k : Nat) : Ctx := s.ctxs.getD k resetCtx
def queueOf (s : State) (k : Nat) : Queue := s.queues.getD k resetQueue

/-- The bay of a core, 0 to 15 (R6). -/
def bayOfCore (core : Nat) : Nat := core / 96 * 8 + core % 96 / 12
/-- The die of a core. -/
def dieOfCore (core : Nat) : Nat := core / 96

/-- The grid of a block. -/
def gridOfBlock (s : State) (b : Block) : Option (Nat × Grid) :=
  (tget s.clusters b.cluster).bind fun c => (tget s.grids c.grid).map fun g => (c.grid, g)

/-- The context of a warp. -/
def ctxOfWarp (s : State) (w : Warp) : Nat :=
  ((tget s.blocks w.block).bind fun b => (gridOfBlock s b).map fun g => g.2.ctx).getD 0

/-- A little-endian field of a record. -/
def recField (r : List Byte) (off n : Nat) : Nat := ofBytes ((r.drop off).take n)

/-- Fields of a launch record (R95). -/
def recFlags (r : List Byte) : Nat := recField r 0x004 4
def recWidth (r : List Byte) : Nat := 16 * 2 ^ (recFlags r % 4)
def recPair (r : List Byte) : Bool := bit (recFlags r) 2
def recCoop (r : List Byte) : Bool := bit (recFlags r) 3
def recSeam (r : List Byte) : Bool := bit (recFlags r) 4
def recVregs (r : List Byte) : Nat := recField r 0x008 2
def recCsize (r : List Byte) : Nat := recField r 0x00A 1
def recPrio (r : List Byte) : Nat := recField r 0x00B 1
def recWarps (r : List Byte) : Nat := recField r 0x00C 1
def recAccs (r : List Byte) : Nat := recField r 0x00D 1
def recScrg (r : List Byte) : Nat := recField r 0x00E 2
def recEntry (r : List Byte) : Nat := recField r 0x010 8
def recGrid (r : List Byte) : Nat := recField r 0x018 4
def recCmask (r : List Byte) : Nat := recField r 0x020 24
/-- The ROLES entry of a warp index. -/
def recRole (r : List Byte) (widx : Nat) : Nat := bits (recField r 0x040 24) (2 * widx) 2
/-- Channel entry n. -/
def recChannel (r : List Byte) (n : Nat) : Nat := recField r (0x080 + 8 * n) 8
/-- Kernel argument word n. -/
def recArg (r : List Byte) (n : Nat) : Nat := recField r (0x100 + 4 * n) 4
/-- FCTL at launch: FLAGS.RM and FLAGS.FTZ (R38, R96). -/
def recFctl (r : List Byte) : Word := BitVec.ofNat 32 (bits (recFlags r) 6 2 + 4 * bits (recFlags r) 5 1)

/-- The launch record of a warp's grid. -/
def recordOf (s : State) (w : Warp) : List Byte :=
  ((tget s.blocks w.block).bind fun b => (gridOfBlock s b).map fun g => g.2.record).getD []

/-- A free choice (R18): true or false, never known (DESIGN CHOICE, log 5). -/
def freePick (s : State) : Bool × State := (Config.freeBit s.free, { s with free := s.free + 1 })

/-- Of two values the manual allows, one; equal values need no choice. -/
def pickVal {α : Type} [DecidableEq α] (k : Nat) (old new : α) : α :=
  if old = new then old else if Config.freeBit k then new else old

/-- A new identity (DESIGN CHOICE, log 82). -/
def nextId (s : State) : Nat × State := (s.fresh, { s with fresh := s.fresh + 1 })

end Sys2Proof.Machine
end

