-- ==== Sys2Proof/Machine/Groups.lean ====
section
/-! DEFINITION. Strands, groups and sub-braids (R233 to R238): parking and resuming lanes, splits and merges. -/

namespace Sys2Proof.Machine

/-- The lanes of all current groups. -/
def currentLanes (w : Warp) : Mask := w.braids.foldl (fun acc b => acc ||| b.lanes) 0

/-- The sub-braid with an id. -/
def braidOf (w : Warp) (id : Nat) : Option SubBraid := w.braids.find? (fun b => b.id == id)

/-- Changes the sub-braid with an id. -/
def modBraid (w : Warp) (id : Nat) (f : SubBraid → SubBraid) : Warp :=
  { w with braids := w.braids.map (fun b => if b.id == id then f b else b) }

/-- Appends a sub-braid with a new id, asleep until `wake` (R138). -/
def addAsleep (w : Warp) (lanes : Mask) (pc : VAddr) (grant ready wake : Nat) : Warp :=
  if lanes = 0 then w
  else
    { w with
      braids := w.braids ++ [⟨w.nextId, lanes, pc, grant, ready, wake⟩]
      nextId := w.nextId + 1 }

/-- Appends a sub-braid with a new id. -/
def addBraid (w : Warp) (lanes : Mask) (pc : VAddr) (grant ready : Nat) : Warp := addAsleep w lanes pc grant ready 0

/-- Every sleep of a warp ends (R138). -/
def endSleeps (w : Warp) : Warp :=
  { w with
    braids := w.braids.map (fun b => { b with wake := 0 })
    deferred := w.deferred.map (fun g => { g with wake := 0 })
    held := w.held.map (fun g => { g with wake := 0 }) }

/-- Sub-braids without lanes are no more. -/
def dropEmpty (w : Warp) : Warp := { w with braids := w.braids.filter (fun b => b.lanes != 0) }

/-- Takes lanes out of every current group. -/
def removeLanes (w : Warp) (m : Mask) : Warp :=
  dropEmpty { w with braids := w.braids.map (fun b => { b with lanes := b.lanes &&& ~~~m }) }

/-- The part of `m` in strands that hold a lane of `cur`. -/
def strandsWith (m cur : Mask) : Mask :=
  (List.range 16).foldl
    (fun acc k => if cur &&& strandMask k != 0 then acc ||| (m &&& strandMask k) else acc) 0

/-- The parts of `m` by strand, ascending, empty ones left out. -/
def strandParts (m : Mask) : List Mask :=
  ((List.range 16).map (fun k => m &&& strandMask k)).filter (fun p => p != 0)

/-- Lanes that resume at `pc` (R237): in each strand the group becomes current if the strand has none, otherwise it is
deferred. The groups that become current form one sub-braid. -/
def placeAsleep (w : Warp) (m : Mask) (pc : VAddr) (grant ready wake : Nat) : Warp :=
  let behind := strandsWith m (currentLanes w)
  let w := addAsleep w (m &&& ~~~behind) pc grant ready wake
  { w with deferred := w.deferred ++ (strandParts behind).map (fun p => ⟨p, pc, grant, wake⟩) }

/-- Lanes that resume at `pc` and do not sleep. -/
def placeLanes (w : Warp) (m : Mask) (pc : VAddr) (grant ready : Nat) : Warp := placeAsleep w m pc grant ready 0

/-- The lanes of `g` in strands whose group among `m` stands at g's PC. -/
def joins (g : Group) (pc : VAddr) (m : Mask) : Mask := if pc == g.pc then strandsWith g.lanes m else 0

/-- A group that resumes at the end of trap mode (R400): in each strand its lanes join the group that has come to stand at
their PC, whatever the nesting counters; the others are placed by R237. A group with a sleeping part sleeps (R138)
(DEDUCED, log 85). -/
def regroup (w : Warp) (g : Group) (ready : Nat) : Warp :=
  let cur := w.braids.foldl (fun acc b => acc ||| joins g b.pc b.lanes) 0
  let def' := w.deferred.foldl (fun acc d => acc ||| joins { g with lanes := g.lanes &&& ~~~cur } d.pc d.lanes) 0
  let w := { w with
    braids := w.braids.map (fun b =>
      if joins g b.pc b.lanes = 0 then b
      else { b with
        lanes := b.lanes ||| joins g b.pc b.lanes, lastGrant := min b.lastGrant g.lastGrant, wake := max b.wake g.wake })
    deferred := w.deferred.map (fun d =>
      let m := joins g d.pc d.lanes &&& def'
      if m = 0 then d
      else { d with lanes := d.lanes ||| m, lastGrant := min d.lastGrant g.lastGrant, wake := max d.wake g.wake }) }
  placeAsleep w (g.lanes &&& ~~~cur &&& ~~~def') g.pc g.lastGrant ready g.wake

/-- Strands without a current group take their oldest deferred group, which forms a sub-braid of its own (R237). -/
def promoteGo (ready : Nat) : List Group → Warp → Warp
  | [], w => w
  | g :: gs, w =>
    if strandsWith g.lanes (currentLanes w) = 0 then promoteGo ready gs (addAsleep w g.lanes g.pc g.lastGrant ready g.wake)
    else promoteGo ready gs { w with deferred := w.deferred ++ [g] }

/-- R237 after lanes have left their current groups. -/
def promote (w : Warp) (ready : Nat) : Warp := promoteGo ready w.deferred { w with deferred := [] }

/-- Parks lanes of current groups (R234). -/
def parkLanes (w : Warp) (p : Parked) (ready : Nat) : Warp :=
  if p.lanes = 0 then w
  else promote (removeLanes { w with parked := w.parked ++ [p] } p.lanes) ready

/-- Lanes of a completed park resume (R237); in trap mode, lanes parked before the trap are held (R398). -/
def resumeParked (w : Warp) (p : Parked) (m : Mask) (ready : Nat) : Warp :=
  if m = 0 then w
  else if w.trapMode && !p.inTrap then { w with held := w.held ++ [⟨m, p.next, p.lastGrant, 0⟩] }
  else placeLanes w m p.next p.lastGrant ready

/-- Whether every lane of a mask has one nesting counter (R238). -/
def sameNest (w : Warp) (m : Mask) : Bool :=
  match lanesOf m with
  | [] => true
  | l :: ls => ls.all (fun k => nestOf w k == nestOf w l)

/-- Whether two groups merge (R238): the same PC, one nesting counter, not asleep. -/
def mergeable (w : Warp) (clock : Nat) (b : SubBraid) (m : Mask) (pc : VAddr) : Bool :=
  b.pc == pc && decide (b.wake ≤ clock) && sameNest w (b.lanes ||| m)

/-- A deferred group merges with its strand's current group, the lanes of `b` in its strand (R238). -/
def mergesBehind (w : Warp) (clock : Nat) (b : SubBraid) (g : Group) : Bool :=
  strandsWith g.lanes b.lanes != 0 && decide (g.wake ≤ clock)
    && mergeable w clock { b with lanes := strandsWith b.lanes g.lanes } g.lanes g.pc

/-- Deferred groups that join their strand's current group. -/
def mergeDeferred (clock : Nat) : List Group → Warp → Warp
  | [], w => w
  | g :: gs, w =>
    match w.braids.find? (fun b => mergesBehind w clock b g) with
    | some b => mergeDeferred clock gs (modBraid w b.id (fun x => { x with lanes := x.lanes ||| g.lanes }))
    | none => mergeDeferred clock gs { w with deferred := w.deferred ++ [g] }

/-- Adds a sub-braid to merged ones: it joins the first that meets it (R238), which keeps the earlier grant (R240). -/
def mergeInto (w : Warp) (clock : Nat) (b : SubBraid) : List SubBraid → List SubBraid
  | [] => [b]
  | x :: xs =>
    if mergeable w clock x b.lanes b.pc && decide (b.wake ≤ clock) then
      { x with
        lanes := x.lanes ||| b.lanes
        lastGrant := min x.lastGrant b.lastGrant
        readySince := min x.readySince b.readySince } :: xs
    else x :: mergeInto w clock b xs

/-- Merging at a run boundary of the warp's quadrant (R238). -/
def mergeWarp (w : Warp) (clock : Nat) : Warp :=
  let w := mergeDeferred clock w.deferred { w with deferred := [] }
  { w with braids := w.braids.foldl (fun acc b => mergeInto w clock b acc) [] }

/-- BRP's split of the issuing sub-braid strand by strand (R236): fall-through lanes at `next`, target lanes at `tgt`. -/
def splitBraid (w : Warp) (b : SubBraid) (target : Mask) (next tgt : VAddr) (clock : Nat) : Warp :=
  let fall := b.lanes &&& ~~~target
  let both := strandsWith target fall
  let w := dropEmpty (modBraid w b.id (fun x => { x with lanes := fall, pc := next }))
  let w := addBraid w (target &&& ~~~both) tgt b.lastGrant clock
  { w with deferred := w.deferred ++ (strandParts both).map (fun p => ⟨p, tgt, b.lastGrant, 0⟩) }

/-- All parked lanes (R135). -/
def parkedLanes (w : Warp) : Mask := w.parked.foldl (fun acc p => acc ||| p.lanes) 0

/-- A parked group that waits on mask k (R134). -/
def waitsOn (k : Nat) (p : Parked) : Bool := p.cond == Park.mask k

/-- The lanes parked at a WAIT on mask k. -/
def waiting (w : Warp) (k : Nat) : Mask :=
  w.parked.foldl (fun acc p => if waitsOn k p then acc ||| p.lanes else acc) 0

/-- Takes lanes of parked groups that meet `c` out and resumes them, in order. -/
def releaseGo (c : Parked → Bool) (m : Mask) (ready : Nat) : List Parked → Warp → Warp
  | [], w => w
  | p :: ps, w =>
    if c p then
      let go := p.lanes &&& m
      let rest := p.lanes &&& ~~~m
      let w := if rest = 0 then w else { w with parked := w.parked ++ [{ p with lanes := rest }] }
      releaseGo c m ready ps (resumeParked w p go ready)
    else releaseGo c m ready ps { w with parked := w.parked ++ [p] }

/-- Resumes the lanes `m` of the parked groups that meet `c`. -/
def releaseLanes (w : Warp) (c : Parked → Bool) (m : Mask) (ready : Nat) : Warp :=
  releaseGo c m ready w.parked { w with parked := [] }

/-- The re-examination of WAIT mk (R134): parked lanes that are no longer members are released; then, when mk is not
empty and every member is parked at a WAIT on it, the WAIT completes. -/
def examineMask (w : Warp) (k ready : Nat) : Warp :=
  let w := releaseLanes w (waitsOn k) (waiting w k &&& ~~~mread w k) ready
  let m := mread w k
  if m != 0 && m &&& ~~~waiting w k == 0 then
    let w := if k = 0 then w else { nestDown w m with masks := lset w.masks k 0 }
    releaseLanes w (waitsOn k) m ready
  else w

/-- Re-examines every mask (R134). -/
def examineMasks (w : Warp) (ready : Nat) : Warp := (List.range 12).foldl (fun acc k => examineMask acc k ready) w

end Sys2Proof.Machine
end

