-- ==== Sys2Proof/Machine/Records.lean ====
section
/-! DEFINITION. Event records (R436 to R439), the start of a context fence (R390), and the release a warp waits for
(R172, R173). -/

namespace Sys2Proof.Machine

/-- What an event record says (R436): type, severity, context, address and whether it is virtual, unit, information. -/
structure EventRec where
  typ : Nat
  sev : Nat
  ctx : Option Nat
  addr : Option (Nat × Bool)
  unit : ErrUnit
  info0 : Nat
  info1 : Nat
  deriving DecidableEq, Repr

/-- The 32 bytes of an event record (R436). -/
def eventBytes (e : EventRec) (stamp : Nat) : List Byte :=
  toBytes 1 e.typ ++ toBytes 1 e.sev
    ++ toBytes 1 (e.ctx.isSome.toNat + 2 * e.addr.isSome.toNat + 4 * ((e.addr.map (·.2)).getD false).toNat)
    ++ toBytes 1 (e.ctx.getD 0) ++ toBytes 1 e.unit.kind ++ toBytes 1 0 ++ toBytes 2 e.unit.idx
    ++ toBytes 8 ((e.addr.map (·.1)).getD 0) ++ toBytes 4 e.info0 ++ toBytes 4 e.info1 ++ toBytes 8 stamp

/-- The warps of a context. -/
def warpIdsOfCtx (s : State) (c : Nat) : List Nat :=
  (s.warps.filter (fun e => ctxOfWarp s e.2 == c)).map Prod.fst

/-- Drops what a fenced warp waits with: parked sub-braids (R390 step 1). -/
def dropParked (s : State) (k : Nat) : State := modWarp s k (fun w => { w with parked := [], held := [] })

/-- A fence begins (R390 step 1): the context's warps are granted no further run, parked sub-braids and resource-queue
entries are dropped. `f` sets the cause in CSTAT. A context already fenced or fencing keeps on. -/
def startFence (s : State) (c : Nat) (f : Word → Word) : State :=
  let x := ctxOf s c
  if bit x.cstat.toNat 0 || x.fencing then modCtx s c (fun x => { x with cstat := f x.cstat })
  else
    let ws := warpIdsOfCtx s c
    let s := ws.foldl dropParked s
    let s := { s with cores := s.cores.map (fun k => { k with resQ := k.resQ.filter (fun e => !ws.contains e.warp) }) }
    modCtx s c (fun x => { x with cstat := f x.cstat, fencing := true })

/-- Sets CSTAT bit n. -/
def setBit (n : Nat) (w : Word) : Word := w ||| BitVec.ofNat 32 (2 ^ n)

/-- CSTAT with a cause code in DCAUSE (R387). -/
def setDcause (code n : Nat) (w : Word) : Word := (w &&& 0xFFFF00FF) ||| BitVec.ofNat 32 (256 * (code % 256)) ||| BitVec.ofNat 32 (2 ^ n)

/-- A record enters the store of its die (R439): 16 records; a record that finds it full is dropped, and when its
severity is 1 or 2 and it names a context, that context is fenced with CSTAT unchanged (PRESUMED, log 67). -/
def report (s : State) (die : Nat) (e : EventRec) : State :=
  if (dieOf s die).store.length < 16 then
    modDie s die (fun d => { d with store := d.store ++ [eventBytes e s.clock] })
  else
    let fences := e.sev != 0 && e.ctx.any (fun c => !bit (ctxOf s c).cstat.toNat 0 && !(ctxOf s c).fencing)
    let s := { s with
      port := { s.port with
        evovf := true
        lost := min (s.port.lost + 1) 65535
        drops := s.port.drops + 1
        fencedDrops := s.port.fencedDrops + fences.toNat } }
    match e.ctx with
    | some c => if fences then startFence s c id else s
    | none => s

/-- No unit (UKIND 0). -/
def noUnit : ErrUnit := ⟨0, 0⟩

/-- How many of CW.cls, CW.die, CW.dev and CW.sys a release at a scope waits on (R172): `seam` for a warp of a
seam-bonded cluster. -/
def scopeRow (seam : Bool) (scope : Nat) : Nat :=
  match scope with
  | 0 => 0
  | 1 | 2 => if seam then 3 else 1
  | 3 => 2
  | 4 => 3
  | _ => 4

/-- Whether an own-scratch store of the warp, or a RINIT of it, is held at its port (R157, R173). -/
def ownStoreHeld (s : State) (wid : Nat) : Bool :=
  s.net.ports.any (fun e =>
    e.2.warp == some wid && !e.2.queued &&
      (match e.2.op with
       | .store grp _ => (match tget s.net.groups grp with | some g => !g.cw.cls | none => false)
       | .ringInit .. => true
       | _ => false))

/-- The condition of a release at a scope (R173); it waits for no copy's read (DEDUCED, log 97). -/
def releaseDone (s : State) (wid : Nat) (w : Warp) (scope : Nat) : Bool :=
  let r := scopeRow (recSeam (recordOf s w)) scope
  w.ld == 0 && (r < 1 || w.cwCls == 0) && (r < 2 || w.cwDie == 0) && (r < 3 || w.cwDev == 0) && (r < 4 || w.cwSys == 0)
    && !ownStoreHeld s wid

/-- The bays that hold a rank of a cluster. -/
def baysOfCluster (c : Cluster) : List Nat := (c.cores.map bayOfCore).dedup

/-- A release at .blk or wider drops the descriptor cache entries of every bay that holds a rank of the cluster (R221). -/
def dropDescs (s : State) (wid : Nat) : State :=
  match (tget s.warps wid).bind (fun w => (tget s.blocks w.block).bind (fun b => tget s.clusters b.cluster)) with
  | none => s
  | some c => (baysOfCluster c).foldl (fun s b => modBay s b (fun y => { y with descs := [] })) s

/-- An atomic that is a release at .blk or wider drops them too (R165, R221). -/
def dropDescsOf (s : State) (wid : Nat) (op : AtomOp) : State := if 2 ≤ op.ord ∧ op.scope ≠ 0 then dropDescs s wid else s

/-- A pending release that is satisfied has taken effect (R173, R221). -/
def noteRelease (s : State) (wid : Nat) : State :=
  match tget s.warps wid with
  | none => s
  | some w =>
    match w.release with
    | none => s
    | some sc => if releaseDone s wid w sc then dropDescs (modWarp s wid (fun w => { w with release := none })) wid else s

end Sys2Proof.Machine
end

