-- ==== Sys2Proof/Machine/Phys.lean ====
section
/-! DEFINITION. The physical map (R379 to R381), homes (R316), what a home reads (R319, R337), the access table (R384)
and page migration's steering (R406). -/

namespace Sys2Proof.Machine

/-- What a physical address names (R379, R380). -/
inductive Place where
  | hbm (slice : Nat)
  | tier (x slice : Nat)
  | mmio (off : Nat)
  | peer (p off : Nat)
  | unbacked
  deriving DecidableEq, Repr

/-- Whether a place is in the MMIO range. -/
def Place.isMmio (p : Place) : Bool := match p with | .mmio _ => true | _ => false

/-- Whether a place is in a peer's aperture. -/
def Place.isPeer (p : Place) : Bool := match p with | .peer _ _ => true | _ => false

/-- Base of the second tier, of MMIO and of the peer apertures (R379). -/
def tierBase : Nat := 0x08000000000000
def mmioBase : Nat := 0x10000000000000
def peerBase : Nat := 0x40000000000000

/-- 768 GiB (R3). -/
def expanderSize : Nat := 768 * 2 ^ 30

/-- The XOR of the fields of `n` bits of `a` that start at the given bits. -/
def xorFold (a n : Nat) (starts : List Nat) : Nat := starts.foldl (fun acc k => acc ^^^ bits a k n) 0

/-- h of R316 for an HBM address (DEDUCED, log 83). -/
def hbmSlice (a : Nat) : Nat := xorFold a 6 [12, 18, 24, 30] ^^^ bits a 36 4

/-- f of R316 for a second-tier offset. -/
def tierFold (o : Nat) : Nat := xorFold o 5 [12, 17, 22, 27, 32, 37, 42] ^^^ bits o 47 4

/-- The slices whose homes are remapped: the repair table's, if that is valid (R441, R463). -/
def remappedSlices (s : State) : List Nat := if s.sec.repairValid then s.sec.repairSlices else []

/-- The slice that takes slice k's homes after a repair (R442): k XOR 1, or the lowest unfenced one of the same half. -/
def repairedSlice (s : State) (k : Nat) : Nat :=
  if !(remappedSlices s).contains k then k
  else if !(remappedSlices s).contains (k ^^^ 1) then k ^^^ 1
  else ((List.range 32).map (fun i => k / 32 * 32 + i)).find? (fun i => !(remappedSlices s).contains i) |>.getD k

/-- The stack that backs an HBM address (R316). -/
def stackOf (a : Nat) : Nat := 16 * (a / 2 ^ 40) + hbmSlice a / 4

/-- The address after migration's steering (R406) (DEDUCED, log 63). -/
def steer (s : State) (a : Nat) : Nat :=
  s.memsys.migs.foldl
    (fun acc m =>
      if m.busy && decide (m.src ≤ acc) && decide (acc < m.src + (if m.lg then 2 ^ 27 else 2 ^ 16))
          && decide ((acc - m.src) / 32 < m.bnd)
      then m.dst + (acc - m.src) else acc) a

/-- An address of the own package's aperture is the local address it names (R379). -/
def localAddr (s : State) (a : Nat) : Nat :=
  if peerBase ≤ a ∧ s.fabric.pkgv ∧ (a - peerBase) / 2 ^ 43 = s.fabric.pkgn then
    let o := (a - peerBase) % 2 ^ 43
    if o < 2 ^ 41 then o else tierBase + (o - 2 ^ 41)
  else a

/-- The address a request goes to. -/
def routed (s : State) (a : Nat) : Nat := steer s (localAddr s a)

/-- Whether package p is present in the domain (R414). -/
def pkgPresent (s : State) (p : Nat) : Bool :=
  s.fabric.pkgv && bit ((s.fabric.present.getD (p / 8) 0).toNat) (p % 8)

/-- What a routed address names. -/
def placeOf (s : State) (a : Nat) : Place :=
  if a < 2 ^ 41 then
    let k := repairedSlice s (64 * (a / 2 ^ 40) + hbmSlice a)
    if (sliceOf s k).fenced || s.memsys.lostStacks.contains (stackOf a) || s.memsys.retired.contains (a / 65536)
    then .unbacked else .hbm k
  else if a < tierBase then .unbacked
  else if a < tierBase + 8 * expanderSize then
    let o := a - tierBase
    let i := o / expanderSize
    let k := repairedSlice s (64 * (i / 4) + 32 * (i / 2 % 2) + tierFold o)
    if (sliceOf s k).fenced || s.memsys.expFenced.getD i true || decide (s.memsys.expCap.getD i 0 ≤ o % expanderSize)
    then .unbacked else .tier i k
  else if mmioBase ≤ a ∧ a < mmioBase + 2 ^ 26 then .mmio (a - mmioBase)
  else if peerBase ≤ a ∧ (a - peerBase) / 2 ^ 43 < Config.packages then
    let p := (a - peerBase) / 2 ^ 43
    if pkgPresent s p then .peer p ((a - peerBase) % 2 ^ 43) else .unbacked
  else .unbacked

/-- The home slice of an address, if it has one. -/
def homeOf (s : State) (a : Nat) : Option Nat :=
  match placeOf s a with
  | .hbm k => some k
  | .tier _ k => some k
  | _ => none

/-- The home die of a backed address, none for MMIO and apertures. -/
def homeDie (s : State) (a : Nat) : Option Nat := (homeOf s a).map (· / 64)

/-- The format window of an HBM address: its PMAX and the group grain j (R336, R337). -/
def windowOf (s : State) (a : Nat) : Option (Nat × Nat) :=
  let hub := 2 * (a / 2 ^ 40) + hbmSlice a / 32
  ((s.memsys.windows.getD hub []).find? (fun w =>
      let base := w.lo.toNat + w.hi.toNat * 2 ^ 32
      bit w.ctl.toNat 0 && decide (base ≤ a) && decide (a - base < 288 * w.cnt.toNat))).map
    (fun w =>
      let p := bits w.ctl.toNat 1 4
      (if 2 ≤ p ∧ p ≤ 8 then p else 8, (a - (w.lo.toNat + w.hi.toNat * 2 ^ 32)) % 288 / 32))

/-- A grain above PMAX of a format window: it reads 0 and is not written (R337). -/
def hiddenGrain (s : State) (a : Nat) : Bool :=
  a < 2 ^ 41 && (match windowOf s a with | some (p, j) => decide (p < j) | none => false)

/-- A byte as the memory controller reads it. -/
def ctlByte (s : State) (a : Nat) : Byte := if hiddenGrain s a then 0 else byteAt s.mem a

/-- Whether the grain of an address is poisoned in memory. -/
def memPois (s : State) (a : Nat) : Bool := s.memsys.pois.contains (a / 32) && !hiddenGrain s a

/-- A valid block that covers a grain: a lease copy is valid until it expires (R320). -/
def covers (clock : Nat) (lease : Bool) (a : Nat) (b : L2Blk) : Bool :=
  b.region == a / 512 && decide (b.start ≤ a % 512 / 32) && decide (a % 512 / 32 < b.start + b.len) && b.lease == lease
    && (!lease || decide (clock < b.lexp))

/-- The block of a slice that covers an address. -/
def findBlk (s : State) (slice : Nat) (lease : Bool) (a : Nat) : Option L2Blk :=
  (sliceOf s slice).blocks.find? (covers s.clock lease a)

/-- A byte as its home's block, else memory, holds it, splice partials apart. -/
def storedByte (s : State) (a : Nat) : Byte :=
  match homeOf s a with
  | none => 0
  | some k => match findBlk s k false a with
    | some b => byteAt b.data (a % 512)
    | none => ctlByte s a

/-- A splice partial combined into the 32 bytes of its grain (R333, R335). -/
def combineEnt (bs : List Byte) (e : SpliceEnt) : List Byte :=
  let n := atomBytes e.ty
  (List.range (32 / n)).flatMap (fun i =>
    let x := (bs.drop (n * i)).take n
    if e.mask.getLsbD i then
      toBytes n (atomApply e.aop e.ty (ofBytes x) (ofBytes ((e.data.drop (n * i)).take n)) 0)
    else x)

/-- The partials of a grain that its home has recorded: in the bays' buffers, or on their way back (R334, R335). -/
def partialsOf (s : State) (g : Nat) : List SpliceEnt :=
  s.bays.flatMap (fun b => b.splice.filter (fun e => e.grain == g && e.recorded))
    ++ (s.net.partials.filter (fun e => e.2.2.grain == g && e.2.2.recorded)).map (fun e => e.2.2)

/-- A byte as a reader finds it at its home: every recorded partial of its grain is combined first (R335). -/
def homeByte (s : State) (a : Nat) : Byte :=
  match partialsOf s (a / 32) with
  | [] => storedByte s a
  | es => (es.foldl combineEnt ((List.range 32).map (fun i => storedByte s (a / 32 * 32 + i)))).getD (a % 32) 0

/-- Whether the grain of an address is poisoned at its home. -/
def homePois (s : State) (a : Nat) : Bool :=
  match homeOf s a with
  | none => true
  | some k => match findBlk s k false a with
    | some b => b.pois.getLsbD (a % 512 / 32)
    | none => memPois s a

/-- The port by which a packet or a request of a core, or of its bay's copy engine, for a grain reaches the home slice (R312): an
inbound seam port, of which the shortest queue decides, is a free value (R314). -/
def entPort (s : State) (core : Nat) (engine : Bool) (g : Nat) : Nat × State :=
  let own := if engine then 96 + bayOfCore core % 8 else core % 96
  match homeOf s (32 * g) with
  | some k => if k / 64 = dieOfCore core then (own, s) else (104 + Config.freeNat s.free % 4, { s with free := s.free + 1 })
  | none => (own, s)

/-- Bytes at a home, low address first. -/
def homeBytes (s : State) (a : Nat) : Nat → List Byte
  | 0 => []
  | n + 1 => homeByte s a :: homeBytes s (a + 1) n

/-- The master id of an engine class that acts for a context (R383). -/
def masterOf (s : State) (ctx cls : Nat) : Nat := 16 * bits (ctxOf s ctx).cctl.toNat 24 8 + cls
/-- The master id of a host function. -/
def hostMaster (fn : Nat) : Nat := 16 * (224 + fn) + 8

/-- An access table entry (R384); an unlisted one is 0. -/
def atabEntry (s : State) (mid : Nat) : List Byte := (tget s.sec.atab mid).getD (List.replicate 256 0)

/-- RANGEi of R384: no range used, or one that holds the address. -/
def inRanges (e : List Byte) (a : Nat) : Bool :=
  let rs := (List.range 4).map (fun i =>
    (bits (recField e (0x10 + 16 * i) 8) 16 39 * 65536, bits (recField e (0x18 + 16 * i) 8) 16 39 * 65536))
  let used := rs.filter (fun r => r.1 != r.2)
  used.isEmpty || used.any (fun r => decide (r.1 ≤ a) && decide (a < r.2))

/-- Where the fatal dump lies (R443): no table grants it. -/
def inDump (a : Nat) : Bool := decide (0x01FFE0000000 ≤ a) && decide (a < 0x01FFE0000000 + 2 ^ 29)

/-- Whether a master may read (`rd`) and write (`wr`) an address (R384): its region's PERM bits and the ranges; no bit names a
range that nothing ever backs. -/
def permits (s : State) (mid a : Nat) (rd wr : Bool) : Bool :=
  let e := atabEntry s mid
  let p := recField e 0 8
  let need := fun lo => (!rd || bit p lo) && (!wr || bit p (lo + 1))
  match placeOf s a with
  | .hbm _ => need 0 && inRanges e a && !inDump a
  | .tier _ _ => need 2 && inRanges e a
  | .peer _ _ => need 4 && inRanges e a
  | .mmio o => need 6 && bit (recField e 8 8) (o / 65536)
  | .unbacked => inRanges e a && !inDump a
      && (if a < 2 ^ 41 then need 0
          else if tierBase ≤ a ∧ a < tierBase + 8 * expanderSize then need 2
          else if peerBase ≤ a ∧ (a - peerBase) / 2 ^ 43 < Config.packages then need 4
          else true)

/-- QMASK of a master for a queue (R384). -/
def queueAllowed (s : State) (mid q : Nat) : Bool := decide (q < 512) && bit (recField (atabEntry s mid) 0x50 64) q

/-- The record of a denied access (R385), and the fence of the context the master acts for. `acc`: 0 read, 1 write,
2 MMIO (DEDUCED, log 61). -/
def denyAccess (s : State) (die mid : Nat) (ctx : Option Nat) (a acc : Nat) : State :=
  let s := report s die ⟨0x08, 1, ctx, some (a, false), noUnit, mid, acc⟩
  match ctx with
  | some c => startFence s c (setBit 4)
  | none => s

/-- The record of an unbacked access (R380). -/
def unbackedAccess (s : State) (die mid : Nat) (ctx : Option Nat) (a : Nat) (wr : Bool) : State :=
  report s die ⟨0x07, 1, ctx, some (a, false), noUnit, mid, wr.toNat⟩

/-- Changes the fabric. -/
def modFab (s : State) (f : Fabric → Fabric) : State := { s with fabric := f s.fabric }
/-- The Lanyard links that are up (R414). -/
def upLinks (s : State) : List Nat := (List.range 32).filter (fun i => s.fabric.lyup.getLsbD i)

/-- The link of traffic that is no declared stream (R416): by a hash of the package and of address [15:9] among the links that are up. -/
def linkFor (s : State) (pkg a : Nat) : Option Nat :=
  (upLinks s)[Config.linkHash pkg (bits a 9 7) % (upLinks s).length]?

/-- A 32-byte header flit (R312). -/
def flit (bs : List Byte) : List Byte := (bs ++ List.replicate 32 0).take 32

/-- The payloads of the packets of a message (R312): up to 16 flits of 32 bytes each; `n` bounds their number. -/
def payloads : Nat → List Byte → List (List Byte)
  | 0, _ => []
  | n + 1, bs =>
    let p := bs.take 512
    let p := p ++ List.replicate ((32 - p.length % 32) % 32) 0
    if bs.length ≤ 512 then [p] else p :: payloads n (bs.drop 512)

/-- A packet leaves. -/
def sendMsg (s : State) (m : OutMsg) : State := modFab s (fun f => { f with outbox := f.outbox ++ [m] })

/-- A message for a package leaves by a link. -/
def sendBy (s : State) (link pkg : Nat) (head body : List Byte) : State :=
  (payloads (body.length + 1) body).foldl (fun s p => sendMsg s ⟨link, pkg, flit head, p, []⟩) s

/-- A message for a package that concerns an address leaves, if a link is up. -/
def sendLink (s : State) (pkg a : Nat) (head body : List Byte) : State :=
  match linkFor s pkg a with
  | none => s
  | some l => sendBy s l pkg head body

/-- A RoCE message leaves by an Ethernet port (R426). -/
def sendEth (s : State) (port : Nat) (bs : List Byte) : State := sendMsg s ⟨32 + port, 0, [], bs, []⟩

/-- The package whose aperture holds an address. -/
def peerOf (a : Nat) : Nat := (a - peerBase) / 2 ^ 43

/-- The header of a request to a peer package (R417): 0 a read, 1 a write, 2 an atomic, 3 a REDG; the master, the offset in the
aperture, bytes or pieces, AOP and type. -/
def lanyardHead (kind mid a n aop ty : Nat) : List Byte :=
  toBytes 1 kind ++ toBytes 2 mid ++ toBytes 8 ((a - peerBase) % 2 ^ 43) ++ toBytes 2 n ++ toBytes 1 aop ++ toBytes 1 ty

/-- How a peer package answers the read of a grain for an engine, a walker, a fetch or a controller (R417, R418): 0 its bytes, 1 poison,
2 not in time, as it is while no link is up. The peer decides: `k` is the free value of the read (DESIGN CHOICE, log 16). -/
def peerAnswer (s : State) (k a : Nat) : Nat :=
  if s.fabric.lyup = 0 then 2 else Config.freeNat (2 ^ 64 * (k + 1) + a / 32) % 3

/-- What such a read of `n` bytes leaves: its request, and the record of an answer that does not come (R417, R418). -/
def peerRead (s : State) (k mid a n : Nat) : State :=
  let s := sendLink s (peerOf a) a (lanyardHead 0 mid a n 0 0) []
  if peerAnswer s k a = 2 then report s 0 ⟨0x0C, 1, none, none, noUnit, peerOf a, 0⟩ else s

end Sys2Proof.Machine
end

