-- ==== Sys2Proof/Machine/Home.lean ====
section
/-! DEFINITION. L2 slices (R319 to R329, R337): sets, blocks, gap fills, eviction and merging, and the accesses that a home
slice performs. -/

namespace Sys2Proof.Machine

/-- The set of a region (R319). -/
def setOf (region : Nat) : Nat :=
  let a := region * 512
  bits a 9 3 + 8 * (xorFold a 7 [18, 25, 32, 39, 46] ^^^ bits a 53 2)

/-- Marks or clears the poison of a grain in memory. -/
def markPois (s : State) (g : Nat) (p : Bool) : State :=
  { s with memsys := { s.memsys with
      pois := if p then (if s.memsys.pois.contains g then s.memsys.pois else g :: s.memsys.pois)
        else s.memsys.pois.filter (fun x => x != g) } }

/-- Whether the controller discards a write of a grain: above PMAX of a format window (R337), or backed no longer (R410, R433). -/
def writeGone (s : State) (a : Nat) : Bool := hiddenGrain s a || (homeOf s a).isNone

/-- The poison mark that a write leaves with a grain in memory. -/
def markWritten (s : State) (g : Nat) (p : Bool) : State := if writeGone s (32 * g) then s else markPois s g p

/-- The controller writes bytes of one grain. -/
def memPut (s : State) (a : Nat) (bs : List Byte) : State :=
  if writeGone s a then s else { s with mem := setBytes s.mem a bs }

/-- The grains of a 16-bit mask. -/
def grainsOfMask (m : BitVec 16) : List Nat := (List.range 16).filter (fun g => m.getLsbD g)

/-- The mask of `n` grains from `g`. -/
def runMask (g n : Nat) : BitVec 16 := BitVec.ofNat 16 ((2 ^ n - 1) * 2 ^ g)

/-- Writes back the dirty grains of a block that lie in `m`, each with its poison (R326, R410, R431). -/
def writeBack (s : State) (b : L2Blk) (m : BitVec 16) : State :=
  (grainsOfMask (b.dirty &&& m)).foldl (fun s g =>
    let a := b.region * 512 + 32 * g
    markWritten (memPut s a (bytesAt b.data (32 * g) 32)) (a / 32) (b.pois.getLsbD g)) s

/-- Trains the predictor with a home block that leaves (R325). -/
def trainPredictor (s : State) (slice : Nat) (b : L2Blk) : State :=
  if b.lease then s
  else modSlice s slice (fun y => { y with
    predictor := tput y.predictor (bits (b.region * 512) 12 12 ^^^ (b.freq * 32 % 4096)) b.acc })

/-- Removes a block. -/
def dropBlk (s : State) (slice : Nat) (b : L2Blk) : State := modSlice s slice (fun y => { y with blocks := y.blocks.erase b })

/-- Replaces a block. -/
def putBlk (s : State) (slice : Nat) (b c : L2Blk) : State :=
  modSlice s slice (fun y => { y with blocks := y.blocks.map (fun x => if x == b then c else x) })

/-- Whether a lease copy is still valid (R320). -/
def leaseLive (clock : Nat) (b : L2Blk) : Bool := !b.lease || decide (clock < b.lexp)

/-- Expired lease copies are gone (R320). -/
def purgeExpired (s : State) (slice : Nat) : State :=
  modSlice s slice (fun y => { y with blocks := y.blocks.filter (leaseLive s.clock) })

/-- The blocks of a set. -/
def setBlocks (s : State) (slice set : Nat) : List L2Blk := (sliceOf s slice).blocks.filter (fun b => setOf b.region == set)

/-- Whether a block holds a physical grain. -/
def holdsGrain (b : L2Blk) (g : Nat) : Bool :=
  b.region == g / 16 && decide (b.start ≤ g % 16) && decide (g % 16 < b.start + b.len)

/-- Whether a block may be evicted: no fill of its region is pending, and no access waits for a grain of it (R326). -/
def evictable (s : State) (slice : Nat) (b : L2Blk) : Bool :=
  !(sliceOf s slice).fills.any (fun f => f.region == b.region && f.lease == b.lease)
    && !(sliceOf s slice).queue.any (fun q => holdsGrain b q.1)
    && !(sliceOf s slice).splice.any (fun d => d.called && holdsGrain b d.grain)

/-- The least recently used block of a list that may go, the lower tag losing a tie. -/
def lruOf (s : State) (slice : Nat) (bs : List L2Blk) : Option L2Blk :=
  (bs.filter (evictable s slice)).foldl (fun (acc : Option L2Blk) b =>
    match acc with
    | none => some b
    | some c => some (if b.used < c.used ∨ (b.used = c.used ∧ b.tag < c.tag) then b else c)) none

/-- Evicts a block (R326). -/
def evict (s : State) (slice : Nat) (b : L2Blk) : State :=
  dropBlk (trainPredictor (if b.lease then s else writeBack s b (BitVec.allOnes 16)) slice b) slice b

/-- Evicts until a set has a free tag and `n` free pool grains, sparing the blocks of `keep`: none when it cannot. -/
def ensureRoom (slice set n : Nat) (keep : List L2Blk) : Nat → State → Option State
  | 0, _ => none
  | fuel + 1, s =>
    let bs := setBlocks s slice set
    if bs.length < 16 ∧ bs.foldl (fun acc b => acc + b.len) 0 + n ≤ 64 then some s
    else match lruOf s slice (bs.filter (fun b => !keep.contains b)) with
      | none => none
      | some b => ensureRoom slice set n keep fuel (evict s slice b)

/-- The tag of a new block: the lowest free one of its set; merged blocks keep the lower of their tags (DESIGN CHOICE, log 108). -/
def freeTag (s : State) (slice set : Nat) : Nat :=
  let used := (setBlocks s slice set).map (·.tag)
  ((List.range 16).find? (fun t => !used.contains t)).getD 0

/-- The pool grains of the blocks of a set, after compaction (R320, DESIGN CHOICE, log 20). -/
def compactGo : Nat → List L2Blk → List L2Blk
  | _, [] => []
  | p, b :: bs => { b with pool := p } :: compactGo (p + b.len) bs

/-- Packs the pool of a set. -/
def compact (s : State) (slice set : Nat) : State :=
  modSlice s slice (fun y => { y with
    blocks := y.blocks.filter (fun b => setOf b.region != set)
      ++ compactGo 0 (y.blocks.filter (fun b => setOf b.region == set)) })

/-- The merge of two adjacent blocks, `b` below `c` (R321). -/
def mergeBlks (b c : L2Blk) : L2Blk :=
  let recent := if b.used < c.used then c else b
  let later := if b.filled < c.filled then c else b
  { b with
    len := b.len + c.len
    dirty := b.dirty ||| c.dirty
    pois := b.pois ||| c.pois
    acc := b.acc ||| c.acc
    lexp := min b.lexp c.lexp
    splc := b.splc || c.splc
    freq := later.freq
    used := recent.used
    tag := min b.tag c.tag
    began := min b.began c.began
    filled := later.filled
    data := b.data ++ c.data }

/-- Merges the adjacent blocks of a region until none is left (R321). -/
def mergeRegion (slice region : Nat) (lease : Bool) : Nat → State → State
  | 0, s => s
  | fuel + 1, s =>
    let bs := (sliceOf s slice).blocks.filter (fun b => b.region == region && b.lease == lease && leaseLive s.clock b)
    match bs.findSome? (fun b => (bs.find? (fun c => b.start + b.len == c.start)).map (fun c => (b, c))) with
    | none => s
    | some (b, c) => mergeRegion slice region lease fuel (putBlk (dropBlk s slice c) slice b (mergeBlks b c))

/-- Whether a home block holds a grain with recorded partials (R320, R334). -/
def spliceIn (s : State) (slice : Nat) (b : L2Blk) : Bool :=
  !b.lease && (sliceOf s slice).splice.any (fun d => d.bays != 0 && holdsGrain b d.grain)

/-- Installs a block: room is made, then it is merged (R321, R326). None when nothing can be evicted. -/
def installBlk (s : State) (slice : Nat) (b : L2Blk) : Option State :=
  let set := setOf b.region
  (ensureRoom slice set b.len [] 17 (purgeExpired s slice)).map (fun s =>
    let t := freeTag s slice set
    let s := modSlice s slice (fun y => { y with
      blocks := y.blocks ++ [{ b with tag := t, filled := s.clock, splc := spliceIn s slice b }] })
    mergeRegion slice b.region b.lease 16 (compact s slice set))

/-- The state of a grain at a slice (R322). -/
def grainPresent (s : State) (slice : Nat) (lease : Bool) (a : Nat) : Bool := (findBlk s slice lease a).isSome
def grainPending (s : State) (slice : Nat) (lease : Bool) (a : Nat) : Bool :=
  (sliceOf s slice).fills.any (fun f => f.region == a / 512 && f.lease == lease && f.grains.getLsbD (a % 512 / 32))

/-- A block that serves an access is most recently used, and ACC is set (R320, R322, R326). -/
def touchBlk (s : State) (slice : Nat) (lease : Bool) (a : Nat) : State :=
  match findBlk s slice lease a with
  | none => s
  | some b => putBlk s slice b { b with used := s.clock, acc := b.acc ||| runMask (a % 512 / 32) 1 }

/-- The maximal runs of a mask: (first grain, length). -/
def runsGo : Nat → Nat → BitVec 16 → List (Nat × Nat)
  | 0, _, _ => []
  | fuel + 1, g, m =>
    if 16 ≤ g then []
    else if m.getLsbD g then
      let n := ((List.range (16 - g)).takeWhile (fun i => m.getLsbD (g + i))).length
      (g, n) :: runsGo fuel (g + n) m
    else runsGo fuel (g + 1) m

/-- The maximal runs of a mask. -/
def runsOf (m : BitVec 16) : List (Nat × Nat) := runsGo 17 0 m

/-- The hub port by which a unit of the package without a port of its own in R312 reaches slice k: that of the hub die which the slice
uses itself (R316) (DESIGN CHOICE, log 110). -/
def hubPort (k : Nat) : Nat := 108 + k / 32 % 2

/-- The port by which a request of a die reaches a slice (R312): its own one, or one of the inbound seam ports, of which the
shortest queue decides (R314): a free value. -/
def portAt (s : State) (die own slice : Nat) : Nat × State :=
  if slice / 64 = die then (own, s) else (104 + Config.freeNat s.free % 4, { s with free := s.free + 1 })

/-- The mask of some grains. -/
def maskOfGrains (gs : List Nat) : BitVec 16 := gs.foldl (fun acc g => acc ||| runMask g 1) 0

/-- The grains of a mask that a slice neither holds nor waits for (R322). -/
def absentIn (s : State) (slice region : Nat) (lease : Bool) (m : BitVec 16) : BitVec 16 :=
  maskOfGrains ((grainsOfMask m).filter (fun g =>
    !grainPresent s slice lease (region * 512 + 32 * g) && !grainPending s slice lease (region * 512 + 32 * g)))

/-- Starts a gap fill for each maximal run of absent grains of `m` (R322); `port` is the requester, `seam` the port by which a
lease fill reaches its home. -/
def startFills (s : State) (slice region : Nat) (lease : Bool) (port seam : Nat) (m : BitVec 16) : State :=
  (runsOf (absentIn s slice region lease m)).foldl (fun s r =>
    let (id, s) := nextId s
    modSlice s slice (fun y => { y with
      fills := y.fills ++ [⟨id, region, runMask r.1 r.2, lease, port, seam, s.clock, none, [], 0, 0⟩] })) s

/-- The predictor's SPAN for a request from a port (R325). -/
def predictSpan (s : State) (slice a port : Nat) : Nat :=
  match tget (sliceOf s slice).predictor (bits a 12 12 ^^^ (port * 32 % 4096)) with
  | none => 4
  | some m =>
    let f := a % 512 / 32
    match ((List.range 16).filter (fun g => decide (f ≤ g) && m.getLsbD g)).getLast? with
    | some g => g - f + 1
    | none => 1

/-- The fill range of a request (R156, R322): from the first grain touched, SPAN grains or as many as are touched, to the
region's end at most; grains touched beyond it are part of it (DEDUCED, log 21). -/
def fillRange (touched : BitVec 16) (span : Nat) : BitVec 16 :=
  let gs := grainsOfMask touched
  let f := gs.headD 0
  runMask f (min (max span gs.length) (16 - f)) ||| touched

/-- Writes bytes of one grain into the block that covers it (R323): poison goes when all 32 bytes are written. -/
def blkWrite (s : State) (slice a : Nat) (ps : List Piece) (full : Bool) : State :=
  match findBlk s slice false a with
  | none => s
  | some b =>
    let m := runMask (a % 512 / 32) 1
    putBlk s slice b { b with
      data := ps.foldl (fun d p => setBytes d (p.addr % 512) p.data) b.data
      dirty := b.dirty ||| m
      acc := b.acc ||| m
      pois := if full then b.pois &&& ~~~m else b.pois
      used := s.clock }

/-- Whether pieces of one grain cover all its 32 bytes (R323). -/
def coversGrain (ps : List Piece) (g : Nat) : Bool :=
  (List.range 32).all (fun k => ps.any (fun p => decide (p.addr ≤ 32 * g + k) && decide (32 * g + k < p.addr + p.data.length)))

/-- A one-grain block of pieces that cover it (R323). -/
def fullBlk (s : State) (g port : Nat) (ps : List Piece) : L2Blk :=
  let m := runMask (g % 16) 1
  { region := g / 16, start := g % 16, len := 1, dirty := m, pois := 0, acc := m, lease := false, lexp := 0, splc := false,
    freq := port, pool := 0, used := s.clock, tag := 0, began := s.clock, filled := s.clock,
    data := ps.foldl (fun d p => setBytes d (p.addr % 512) p.data) [] }

/-- The splice directory entry of a grain, if some bay holds a partial (R334). -/
def spliceOf (s : State) (slice g : Nat) : Option SpliceDir :=
  (sliceOf s slice).splice.find? (fun d => d.grain == g && d.bays != 0)

/-- Bytes of one grain without allocation: merged into a present grain, else a masked write to memory (R323). -/
def putGrain (s : State) (a : Nat) (bs : List Byte) : State :=
  match homeOf s a with
  | none => s
  | some k =>
    if grainPresent s k false a then blkWrite s k a [⟨a, bs⟩] (coversGrain [⟨a, bs⟩] (a / 32))
    else
      let s := memPut s a bs
      if coversGrain [⟨a, bs⟩] (a / 32) then markWritten s (a / 32) false else s

/-- Poisons a grain at its home (R431). -/
def poisonHome (s : State) (a : Nat) : State :=
  match homeOf s a with
  | none => s
  | some k => match findBlk s k false a with
    | some b => putBlk s k b { b with pois := b.pois ||| runMask (a % 512 / 32) 1, dirty := b.dirty ||| runMask (a % 512 / 32) 1 }
    | none => markPois s (a / 32) true

/-- The SPLC bit of the block that covers a grain (R320, R334). -/
def setSplc (s : State) (k g : Nat) (v : Bool) : State :=
  match findBlk s k false (32 * g) with
  | none => s
  | some b => putBlk s k b { b with splc := v || (sliceOf s k).splice.any (fun d =>
      d.grain != g && d.bays != 0 && covers s.clock false (32 * d.grain) b) }

/-- A returned partial is combined into its grain; into a poisoned one it is discarded, with a record (R335, R432). -/
def applyPartial (s : State) (e : SpliceEnt) : State :=
  let a := 32 * e.grain
  if homePois s a then report s ((homeDie s a).getD 0) ⟨0x03, 1, none, some (a, false), noUnit, e.mid, 0⟩
  else putGrain s a (combineEnt ((List.range 32).map (fun i => storedByte s (a + i))) e)

/-- The bytes of grains of a region, by region offset, from a source. -/
def gatherGrains (region : Nat) (m : BitVec 16) (src : Nat → Byte) : List Host.Cell :=
  (grainsOfMask m).foldl (fun d g => setBytes d (32 * g) ((List.range 32).map (fun i => src (region * 512 + 32 * g + i)))) []

/-- The grains of a fill as blocks to install: one for each maximal run. -/
def fillBlks (s : State) (f : Fill) (m : BitVec 16) (data : List Host.Cell) (pois : BitVec 16) (lexp : Nat) : List L2Blk :=
  (runsOf m).map (fun r =>
    { region := f.region, start := r.1, len := r.2, dirty := 0, pois := pois &&& runMask r.1 r.2, acc := 0, lease := f.lease,
      lexp := lexp, splc := false, freq := f.freq, pool := 0, used := s.clock, tag := 0, began := f.began, filled := s.clock,
      data := data.filter (fun d => decide (32 * r.1 ≤ d.1) && decide (d.1 < 32 * (r.1 + r.2))) })

/-- Installs blocks one after another. -/
def installAll (slice : Nat) : List L2Blk → State → Option State
  | [], s => some s
  | b :: bs, s => (installBlk s slice b).bind (installAll slice bs)

/-- A fill from memory installed at its home slice (R324): what is present by then is trimmed. None where no block may leave. -/
def fillGrains (s : State) (k : Nat) (f : Fill) : Option State :=
  let m := maskOfGrains ((grainsOfMask f.grains).filter (fun g =>
    !grainPresent s k false (f.region * 512 + 32 * g) && homeOf s (f.region * 512 + 32 * g) == some k))
  let pois := maskOfGrains ((grainsOfMask m).filter (fun g => memPois s (f.region * 512 + 32 * g)))
  installAll k (fillBlks s f m (gatherGrains f.region m (ctlByte s)) pois 0) s

/-- Takes a fill out of its slice. -/
def dropFill (s : State) (k id : Nat) : State := modSlice s k (fun y => { y with fills := y.fills.filter (fun f => f.id != id) })

/-- Grains of a region become present at their home for an engine's access, whose read and its fills are one event: fills in
flight for them arrive, and what is absent is filled (R322) (DEDUCED, log 44). -/
def bringGrains (s : State) (k region port : Nat) (m : BitVec 16) : State :=
  let due := (sliceOf s k).fills.filter (fun f => !f.lease && f.region == region && (f.grains &&& m) != 0)
  let s := due.foldl (fun s f => (fillGrains (dropFill s k f.id) k f).getD s) s
  let a := absentIn s k region false m
  (fillGrains s k ⟨0, region, a, false, port, port, s.clock, none, [], 0, 0⟩).getD s

/-- Applies a change to every list of packets. -/
def mapEnts (s : State) (f : List WinEnt → List WinEnt) : State :=
  modNet { s with bays := s.bays.map (fun b => { b with window := f b.window }) } (fun n => { n with nts := f n.nts, cpw := f n.cpw })

/-- A packet has been performed at its home: the latest one so far. -/
def performEnt (s : State) (id : Nat) : State :=
  let (k, s) := nextId s
  mapEnts s (fun l => l.map (fun e => if e.id == id then { e with performed := true, stamp := k } else e))

/-- A REDG that its bay has taken counts as performed; the bay answers it (R168, R333). -/
def performAtBay (s : State) (id : Nat) : State :=
  mapEnts (performEnt s id) (fun l => l.map (fun e => if e.id == id then { e with byBay := true } else e))

/-- Window entries whose REDGs a partial carries count as performed. -/
def performEnts (s : State) (ids : List Nat) : State := ids.foldl performAtBay s

/-- Every recorded partial of a grain is recalled and combined, after which its REDGs are acknowledged, and the directory entry
cleared (R335). The recalls and their answers are one event (DEDUCED, log 44). -/
def settleGrain (s : State) (g : Nat) : State :=
  match partialsOf s g with
  | [] => s
  | es =>
    match homeOf s (32 * g) with
    | none => s
    | some k =>
      let s := es.foldl applyPartial (bringGrains s k (g / 16) (hubPort k) (runMask (g % 16) 1))
      let s := { s with bays := s.bays.map (fun b => { b with splice := b.splice.filter (fun e => e.grain != g || !e.recorded) }) }
      let s := modNet s (fun n => { n with partials := n.partials.filter (fun e => e.2.2.grain != g || !e.2.2.recorded) })
      let s := setSplc (modSlice s k (fun y => { y with splice := y.splice.filter (fun d => d.grain != g) })) k g false
      performEnts s (es.flatMap (·.waiters))

/-- An engine's read of grains of one region at their home (R62, R275, R322, R326, R335): partials come first, absent grains are
filled, and the blocks become most recently used. -/
def readGrains (s : State) (k region port : Nat) (m : BitVec 16) : State :=
  let s := (grainsOfMask m).foldl (fun s g => settleGrain s (16 * region + g)) s
  let s := bringGrains s k region port m
  (grainsOfMask m).foldl (fun s g => touchBlk s k false (region * 512 + 32 * g)) s

/-- The grains of one region that addresses touch. -/
def grainsTouched (region : Nat) (pas : List Nat) : BitVec 16 :=
  pas.foldl (fun acc a => if a / 512 = region then acc ||| runMask (a % 512 / 32) 1 else acc) 0

/-- An engine of a die reads bytes at their homes: one request for each region, that fills what it touches and no more. -/
def engTouch (s : State) (die own : Nat) (pas : List Nat) : State :=
  ((pas.map (· / 512)).dedup).foldl (fun s region =>
    match homeOf s (region * 512) with
    | none => s
    | some k =>
      let p := portAt s die own k
      readGrains p.2 k region p.1 (grainsTouched region pas)) s

/-- An engine of a die reads `n` bytes from an address. -/
def engTouchN (s : State) (die own a n : Nat) : State := engTouch s die own ((List.range ((n + 31) / 32 + 1)).map (fun i => min (a + 32 * i) (a + n - 1)))

/-- The part of a block that covers grains `st` to `st + n - 1` (R327). -/
def partBlk (b : L2Blk) (st n : Nat) : L2Blk :=
  { b with
    start := st
    len := n
    dirty := b.dirty &&& runMask st n
    pois := b.pois &&& runMask st n
    acc := b.acc &&& runMask st n
    data := b.data.filter (fun d => decide (32 * st ≤ d.1) && decide (d.1 < 32 * (st + n))) }

/-- Takes grain `g` out of a block of a slice: what is left below it, and above it when a tag is free, each with its own SPLC and its
place in the pool (R320). -/
def cutBlk (s : State) (slice : Nat) (b : L2Blk) (g : Nat) (tag : Option Nat) : List L2Blk :=
  let part := fun (st n : Nat) =>
    let p := partBlk b st n
    { p with splc := spliceIn s slice p, pool := b.pool + (st - b.start) }
  let low := if b.start < g then [part b.start (g - b.start)] else []
  let high := if b.start + b.len ≤ g + 1 then []
    else match (if b.start < g then tag else some b.tag) with
      | none => []
      | some t => [{ part (g + 1) (b.start + b.len - g - 1) with tag := t }]
  low ++ high

/-- Removes the lease copy of a grain from a slice (R329): what lies below it in its block stays, and what lies above it where a tag is
free (DESIGN CHOICE, log 125). -/
def cutLease (s : State) (slice a : Nat) : State :=
  match findBlk s slice true a with
  | none => s
  | some b =>
    let set := setOf b.region
    let tag := if (setBlocks s slice set).length < 16 then some (freeTag s slice set) else none
    modSlice s slice (fun y => { y with blocks := y.blocks.flatMap (fun x => if x == b then cutBlk s slice b (a % 512 / 32) tag else [x]) })

/-- Lease fills that the home has served before a write from their die are stale in that grain (R299). -/
def staleFills (s : State) (slice a : Nat) : State :=
  modSlice s slice (fun y => { y with fills := y.fills.map (fun f =>
    if f.lease && f.region == a / 512 && f.served.isSome then { f with stale := f.stale ||| runMask (a % 512 / 32) 1 } else f) })

/-- The proxy slice of a die for an address (R318). -/
def proxyOf (s : State) (die a : Nat) : Option Nat := (homeOf s a).map (fun k => 64 * die + k % 64)

/-- Drops the lease copy of a grain on a die (R329), and what a served fill still brings of it. -/
def dropLeaseGrain (s : State) (die a : Nat) : State :=
  match proxyOf s die a with
  | none => s
  | some k => if homeDie s a = some die then s else staleFills (cutLease s k a) k a

/-- Whether a packet writes a grain, or one whose page moves there (R406). -/
def writesGrain (s : State) (g : Nat) (e : WinEnt) : Bool := e.grain == g || routed s (32 * e.grain) / 32 == g

/-- A write of the host, of an engine or of the device to a grain is complete when it is performed: the packets performed there
before it are acknowledged (R300), which drops the lease copies that their dies hold (R299). -/
def retireGrain (s : State) (g : Nat) : State :=
  let due := s.bays.flatMap (fun b => b.window.filter (fun e => writesGrain s g e && e.performed && !e.retired))
  if due.isEmpty then s
  else
    let s := mapEnts s (fun l => l.map (fun e => if writesGrain s g e && e.performed then { e with retired := true } else e))
    due.foldl (fun s e => dropLeaseGrain (dropLeaseGrain s (dieOfCore e.core) (32 * e.grain)) (dieOfCore e.core) (32 * g)) s

/-- The reel engine's master id (R383). -/
def reelMid : Nat := 16 * 224 + 4

/-- The record of the reel engine's access to a page that is denied or unbacked (R380, R385). -/
def reelNote (s : State) (a : Nat) (wr : Bool) : State :=
  let die := (homeDie s a).getD 0
  if !permits s reelMid a (!wr) wr then denyAccess s die reelMid none a wr.toNat
  else if (homeOf s a).isNone then unbackedAccess s die reelMid none a wr else s

/-- One grain of a chunk is copied, each address where migration leads it (R406): the state, and whether it is poisoned. -/
def reelGrain (s : State) (src dst : Nat) : State × Bool :=
  let a := routed s src
  let d := routed s dst
  let s := settleGrain s (a / 32)
  let rd := permits s reelMid a true false
  let bad := !rd || homePois s a
  if !permits s reelMid d false true || (homeOf s d).isNone then (s, bad)
  else
    let s := putGrain (settleGrain s (d / 32)) d (if rd then (List.range 32).map (fun j => storedByte s (a + j)) else List.replicate 32 0)
    (if bad then poisonHome s d else s, bad)

/-- One chunk of the reel job is copied, with its poison (R444 to R446); one record for each page that its addresses lead to. -/
def reelCopy (s : State) (src dst : Nat) : State :=
  let gone := (List.range 2048).any (fun i => (homeOf s (routed s (dst + 32 * i))).isNone)
  let pages := fun (b : Nat) => ((List.range 2048).map (fun i => routed s (b + 32 * i) / 65536 * 65536)).dedup
  let s1 := (pages dst).foldl (fun s a => reelNote s a true) ((pages src).foldl (fun s a => reelNote s a false) s)
  let r := (List.range 2048).foldl (fun (r : State × Bool) i =>
    let t := reelGrain r.1 (src + 32 * i) (dst + 32 * i)
    (t.1, r.2 || t.2)) (s1, false)
  { r.1 with sec := { r.1.sec with reel := r.1.sec.reel.map (fun j => { j with
      left := j.left.filter (fun c => c.1 != src)
      copied := if gone then j.copied else j.copied + 1
      poisoned := j.poisoned + r.2.toNat
      fenced := j.fenced || gone }) } }

/-- A write to a chunk that the reel job has yet to copy waits until the engine has copied it, which it does next (R445) (DEDUCED, log 45). -/
def reelHook (s : State) (a : Nat) : State :=
  match s.sec.reel.bind (fun j => j.left.find? (fun c => c.1 / 65536 == a / 65536)) with
  | none => s
  | some c => reelCopy s c.1 c.2

/-- What precedes a write of a grain at its home: the reel job's copy, and the recall of its partials. -/
def openGrain (s : State) (a : Nat) : State := settleGrain (reelHook s a) (a / 32)

/-- A write of a unit of a die, by its port, to bytes of one grain at its home (R323, R331): bytes of an absent grain are installed
without a read where they are all 32, and after a fill otherwise; memory itself takes them where the set has no room. Its
acknowledgement drops the lease copy that its die holds of the grain (R318, R329). -/
def homeStoreBy (s : State) (die own a : Nat) (bs : List Byte) : State :=
  let s := retireGrain (openGrain s a) (a / 32)
  match homeOf s a with
  | none => s
  | some k =>
    let p := portAt s die own k
    let s := p.2
    let ps : List Piece := [⟨a, bs⟩]
    let full := coversGrain ps (a / 32)
    let t := if grainPresent s k false a then blkWrite s k a ps full
      else if full then (installBlk s k (fullBlk s (a / 32) p.1 ps)).getD (putGrain s a bs)
      else putGrain (bringGrains s k (a / 512) p.1 (runMask (a % 512 / 32) 1)) a bs
    dropLeaseGrain t die a

/-- The port by which the device itself reaches an address. -/
def devPort (s : State) (a : Nat) : Nat := ((homeOf s a).map hubPort).getD 108

/-- An atomic of a unit of a die opens its grain (R300, R323): the packets performed there before it are acknowledged, and an
absent grain is filled. -/
def homeFill (s : State) (die own a : Nat) : State :=
  let s := retireGrain (openGrain s a) (a / 32)
  match homeOf s a with
  | none => s
  | some k =>
    let p := portAt s die own k
    if grainPresent p.2 k false a then p.2 else bringGrains p.2 k (a / 512) p.1 (runMask (a % 512 / 32) 1)

/-- A write of the device itself, from the home's die. -/
def homeStore (s : State) (a : Nat) (bs : List Byte) : State := homeStoreBy s ((homeDie s a).getD 0) (devPort s a) a bs

/-- Bytes from an address cut at grain boundaries: (address, bytes). -/
def grainCuts : Nat → Nat → List Byte → List (Nat × List Byte)
  | 0, _, _ => []
  | fuel + 1, a, bs =>
    if bs.isEmpty then []
    else
      let k := 32 - a % 32
      (a, bs.take k) :: grainCuts fuel (a + k) (bs.drop k)

/-- Writes bytes at their homes, grain by grain, each where migration leads it (R406): a unit of a die, by its port. -/
def writeBytesBy (s : State) (die own a : Nat) (bs : List Byte) : State :=
  (grainCuts (bs.length + 1) a bs).foldl (fun s c => homeStoreBy s die own (routed s c.1) c.2) s

/-- Writes bytes at their homes, grain by grain: the device itself. -/
def writeBytes (s : State) (a : Nat) (bs : List Byte) : State :=
  (grainCuts (bs.length + 1) a bs).foldl (fun s c => homeStore s (routed s c.1) c.2) s

/-- The parts of `n` bytes that lie together where migration leads them (R406): one, but where a page under way splits them. -/
def routedParts (s : State) (a n : Nat) : List (Nat × Nat) :=
  if (List.range n).all (fun i => routed s (a + i) == routed s a + i) then [(routed s a, n)]
  else (grainCuts (n + 1) a (List.replicate n 0)).map (fun c => (routed s c.1, c.2.length))

/-- Bytes at their homes, low address first, each where migration leads it (R406). -/
def routedBytes (s : State) (a n : Nat) : List Byte := (List.range n).map (fun i => homeByte s (routed s (a + i)))

/-- Whether some grain of bytes is poisoned at its home. -/
def anyPois (s : State) (a n : Nat) : Bool :=
  (List.range ((a + n + 31) / 32 - a / 32)).any (fun i => homePois s (32 * (a / 32 + i)))

/-- The UIDX of a slice is its number; the stack and expander of an address (R436). -/
def memUnit (a : Nat) : ErrUnit := if a < tierBase then ⟨3, stackOf a⟩ else ⟨4, (a - tierBase) / expanderSize⟩

/-- The repair table that firmware changes (R463): an invalid one is ignored, and a new one written. -/
def repairTable (x : Sec) : Sec :=
  if x.repairValid then x
  else { x with repairCores := [], repairSlices := [], repairFrames := [], repairDead := [], repairValid := true }

/-- A frame is recorded for retirement (R433, R441): up to 4 096 a stack; it counts for the stack of its first byte (DESIGN CHOICE,
log 117). -/
def retireFrame (l : List Nat) (f : Nat) : List Nat :=
  if l.contains f || decide (4096 ≤ (l.filter (fun g => stackOf (65536 * g) == stackOf (65536 * f))).length) then l else f :: l

/-- An uncorrected error in a grain of HBM or the second tier (R431, R433): poisoned in memory, a record; a second one in a
64 KiB frame marks the frame for retirement, with a record of its own. -/
def uncorrectedGrain (s : State) (a : Nat) : State :=
  let die := (homeDie s a).getD 0
  let f := a / 65536
  let s := markPois s (a / 32) true
  let s := report s die ⟨0x02, 1, none, some (a, false), memUnit a, if a < tierBase then 1 else 2, 0⟩
  if tierBase ≤ a ∨ 2 ≤ s.memsys.errFrames.count f then s
  else
    let again := s.memsys.errFrames.contains f
    let s := { s with memsys := { s.memsys with errFrames := f :: s.memsys.errFrames } }
    if again then
      let x := repairTable s.sec
      report { s with sec := { x with repairFrames := retireFrame x.repairFrames f } } die
        ⟨0x06, 1, none, some (65536 * f, false), memUnit a, 0, 2⟩
    else s

/-- The registered knot records that bytes fall into. -/
def recordsHit (s : State) (a n : Nat) : List Nat :=
  (s.slices.flatMap (fun y => y.knots.map (·.krec))).filter (fun k => decide (k < a + n) && decide (a < k + 64))

/-- A store to a registered knot record makes the record's contents undefined for readers (R181): free bytes (DESIGN CHOICE, log 18). -/
def muddleRecords (s : State) (a n : Nat) : State :=
  (recordsHit s a n).foldl (fun s k =>
    { writeBytes s k (toBytes 64 (Config.freeNat s.free)) with free := s.free + 1 }) s

end Sys2Proof.Machine
end

