-- ==== Sys2Proof/Machine/MmioRead.lean ====
section
/-! DEFINITION. What a read of the MMIO range gives (R381, R382): every register of its blocks. -/

namespace Sys2Proof.Machine

/-- The master id of a master (R383). -/
def midOf (s : State) (m : Master) : Nat := if m.cls = 8 then hostMaster m.who else masterOf s m.who m.cls

/-- The context that a master acts for. -/
def ctxOfMaster (m : Master) : Option Nat := if m.cls = 8 ∨ m.cls = 9 then none else some m.who

/-- The active image. -/
def activeImage (x : Sec) : FwImage := x.images.getD x.active ⟨0, 0, List.replicate 32 0, false, false⟩

/-- Whether the life cycle has a debug mailbox (R461): the deployed state, and manufacture and returned under Holard test firmware
(DEDUCED, log 71). -/
def debugServed (x : Sec) : Bool := x.lc == 2 || ((x.lc == 0 || x.lc == 3) && (activeImage x).test)

/-- Whether a master reaches a context's mailbox (R447): its own context, host function 0, or the function that the context is
assigned to. -/
def debugReach (s : State) (m : Master) (ctx : Nat) : Bool :=
  debugServed s.sec && (if m.cls ≤ 3 then m.who == ctx else m.cls == 8 && (m.who == 0 || m.who == (ctxOf s ctx).fn))

/-- Changes a context's mailbox. -/
def modDebug (s : State) (c : Nat) (f : DebugBox → DebugBox) : State := modCtx s c (fun x => { x with dbox := f x.dbox })

/-- DSTAT (R448). -/
def dstatWord (d : DebugBox) : Word := BitVec.ofNat 32 (d.busy.toNat + 2 * d.err.toNat + 4 * d.post.toNat + 256 * d.ecode)

/-- A read of a mailbox register (R448): DCLAIM.FREE is cleared by the reader that finds it. -/
def debugRead (s : State) (c off : Nat) : Word × State :=
  let d := (ctxOf s c).dbox
  match off with
  | 0x00 => (d.dcmd, s)
  | 0x04 | 0x08 | 0x0C | 0x10 => (d.dargs.getD (off / 4 - 1) 0, s)
  | 0x14 => (d.drsp0, s)
  | 0x18 => (d.drsp1, s)
  | 0x1C => (dstatWord d, s)
  | 0x20 | 0x24 | 0x28 | 0x2C => (d.dposts.getD (off / 4 - 8) 0, s)
  | 0x30 => (if d.free then 1 else 0, modDebug s c (fun d => { d with free := false }))
  | _ => (0, s)

/-- The context registers of a context as its MMIO block shows them (R387): 15 words. -/
def ctxWords (x : Ctx) : List Word :=
  [x.rootlo, x.roothi, x.tveclo, x.tvechi, x.cctl, x.cwdog, x.cwcnt, x.csavelo, x.csavehi, x.cssize, x.cinvlo, x.cinvhi, x.cinvn,
    if x.go then 1 else 0, x.cstat]

/-- A read of a context register. -/
def ctxRead (s : State) (c reg : Nat) : Word := (ctxWords (ctxOf s c)).getD (reg / 4) 0

/-- QCTL of a queue (R360). -/
def qctlWord (x : Queue) : Word :=
  BitVec.ofNat 32 (x.en.toNat + 2 * x.mode.toNat + 4 * x.lsize + 2 ^ 8 * x.prio + 2 ^ 16 * x.ctx)

/-- QSTAT of a queue (R360). -/
def qstatWord (x : Queue) : Word := BitVec.ofNat 32 (x.ovf.toNat + 2 * x.badw.toNat + 4 * x.badp.toNat + 8 * (!x.started.isEmpty).toNat)

/-- The registers of a queue (R360). -/
def queueWords (x : Queue) : List Word :=
  [x.baselo, x.basehi, qctlWord x, BitVec.ofNat 32 x.head, BitVec.ofNat 32 x.tail, BitVec.ofNat 32 x.ccnt, qstatWord x]

/-- Whether the queues of a queue's die are there (R458). -/
def queueThere (s : State) (q : Nat) : Bool := s.sec.dieok.getLsbD (q / 256)

/-- A read of a queue register. -/
def queueRead (s : State) (q reg : Nat) : Word :=
  if queueThere s q then (queueWords (queueOf s q)).getD (reg / 4) 0 else 0

/-- A read of a format window. -/
def fmtRead (s : State) (h w reg : Nat) : Word :=
  match (s.memsys.windows.getD h [])[w]? with
  | none => 0
  | some x => [x.lo, x.hi, x.cnt, x.ctl].getD (reg / 4) 0

/-- A read of a migration channel (R405): GO reads as BUSY, since no other event clears it (DESIGN CHOICE, log 111). -/
def migRead (s : State) (ch reg : Nat) : Word :=
  match s.memsys.migs[ch]? with
  | none => 0
  | some m => BitVec.ofNat 32 ([m.src % 2 ^ 32, m.src / 2 ^ 32, m.dst % 2 ^ 32, m.dst / 2 ^ 32, m.busy.toNat + 2 * m.lg.toNat, m.bnd,
      m.busy.toNat + 2 * m.done.toNat + 4 * m.ref.toNat].getD (reg / 4) 0)

/-- A read of them: LOST is cleared by the reader (R438). -/
def evRead (s : State) (reg : Nat) : Word × State :=
  let pend := s.dies.any (fun d => !d.store.isEmpty)
  match reg with
  | 0x00 => (BitVec.ofNat 32 s.port.evbase, s)
  | 0x04 => (BitVec.ofNat 32 (s.port.evbase / 2 ^ 32), s)
  | 0x08 => (BitVec.ofNat 32 s.port.evhead, s)
  | 0x0C => (BitVec.ofNat 32 s.port.evtail, s)
  | 0x10 => (BitVec.ofNat 32 (s.port.evovf.toNat + 2 * pend.toNat + 65536 * s.port.lost),
      { s with port := { s.port with lost := 0 } })
  | 0x14 => (BitVec.ofNat 32 s.port.gap, s)
  | _ => (0, s)

/-- A function's mailbox. -/
def boxOf (s : State) (fn : Nat) : SecBox := s.sec.boxes.getD fn resetSecBox

/-- DEVSTAT (R459). -/
def devstat (s : State) : Word :=
  BitVec.ofNat 32 (s.sec.lc + 4 * s.sec.ready.toNat + 8 * s.sec.fwok.toNat + 16 * s.sec.recov.toNat + 32 * s.sec.dieok.toNat
    + 256 * s.power.stp + 2 ^ 16 * (s.power.temp % 256))

/-- SSTAT (R460). -/
def sstat (b : SecBox) : Word := BitVec.ofNat 32 (b.busy.toNat + 2 * b.done.toNat + 256 * b.status)

/-- A read in block 7 by a host function (R459, R460). -/
def secRead (s : State) (fn off : Nat) : Word :=
  if off = 0x2000 then devstat s
  else if off = 0x2004 then BitVec.ofNat 32 (s.power.pwr % 65536 + 65536 * s.power.capw)
  else if off / 256 ≠ fn then 0
  else
    let b := boxOf s fn
    let r := off % 256
    if r = 0 then b.scmd
    else if r ≤ 0x18 then b.args.getD (r / 4 - 1) 0
    else if r ≤ 0x28 then b.rsps.getD (r / 4 - 7) 0
    else if r = 0x2C then sstat b
    else 0

/-- A read of one register by a master (R381). -/
def regRead (s : State) (m : Master) (off : Nat) : Word × State :=
  let o := off % 65536
  match off / 65536 with
  | 0 => (if o < 0x4000 then ctxRead s (o / 256) (o % 256) else 0, s)
  | 1 => if o < 0x4000 && debugReach s m (o / 256) then debugRead s (o / 256) (o % 256) else (0, s)
  | 2 => (if o < 0x8000 then queueRead s (o / 64) (o % 64) else 0, s)
  | 4 => (if o < 0x400 then fmtRead s (o / 256) (o % 256 / 16) (o % 16) else 0, s)
  | 5 => (if o < 0x100 then migRead s (o / 32) (o % 32) else 0, s)
  | 6 => evRead s o
  | 7 => (if m.cls = 8 then secRead s m.who o else 0, s)
  | _ => (0, s)

/-- The record of a malformed MMIO access by a master id, or of a discarded window write (R361, R382, R437). -/
def malformedBy (s : State) (mid : Nat) (ctx : Option Nat) (off size reason : Nat) : State :=
  report s 0 ⟨0x09, 1, ctx, some (mmioBase + off, false), noUnit, mid, size % 65536 + 65536 * reason⟩

/-- That record for a master. -/
def malformed (s : State) (m : Master) (off size reason : Nat) : State := malformedBy s (midOf s m) (ctxOfMaster m) off size reason

/-- Whether an MMIO access has a size and alignment that registers take (R382). -/
def mmioShape (off size : Nat) : Bool := (size == 4 || size == 8) && off % size == 0

/-- Whether an offset lies in an enqueue window, which takes no write of a register's size (R361, R382). -/
def inWindow (off : Nat) : Bool := off / 65536 == 3 && decide (off % 65536 < 0x8000)

/-- Whether the package serves a block (R458): in recovery only block 7. -/
def blockServed (s : State) (off : Nat) : Bool := s.sec.ready || (s.sec.recov && off / 65536 == 7)

/-- A permitted MMIO read (R382). -/
def mmioRead (s : State) (m : Master) (off size : Nat) : Nat × State :=
  if !blockServed s off then (0, s)
  else if !mmioShape off size then (0, malformed s m off size 0)
  else
    let r := regRead s m off
    if size = 8 then
      let t := regRead r.2 m (off + 4)
      (r.1.toNat + 2 ^ 32 * t.1.toNat, t.2)
    else (r.1.toNat, r.2)

end Sys2Proof.Machine
end

