-- ==== Sys2Proof/Machine/Walk.lean ====
section
/-! DEFINITION. Translation (R391 to R396): the walk of a context's tables and the translation caches. -/

namespace Sys2Proof.Machine

/-- The low index bit of a level (R392). -/
def levelShift (j : Nat) : Nat :=
  match j with | 0 => 47 | 1 => 37 | 2 => 27 | _ => 16

/-- Index bits of a level. -/
def levelBits (j : Nat) : Nat := if j < 3 then 10 else 11

/-- The address field of an entry (R393). -/
def pteAddr (e : Nat) : Nat := bits e 13 42 * 2 ^ 13

/-- A valid, well-formed entry of level j (R393). -/
def pteOk (j e : Nat) : Bool :=
  bit e 0 && bits e 5 8 == 0 && bits e 55 9 == 0
    && (if bit e 1 then j != 0 && pteAddr e % 2 ^ levelShift j == 0
        else j != 3 && bits e 2 3 == 0 && (j != 2 || pteAddr e % 2 ^ 14 == 0))

/-- A walker's read of an entry (R383, R385): a denied, unbacked or poisoned one counts as not valid. A peer's entry is a free
value (R417) (DESIGN CHOICE, log 16). -/
def readPte (s : State) (ctx a : Nat) : Nat :=
  let a := routed s a
  if !permits s (masterOf s ctx 2) a true false then 0
  else match placeOf s a with
    | .hbm _ | .tier _ _ => if homePois s a then 0 else ofBytes (homeBytes s a 8)
    | .mmio o => (mmioRead s ⟨2, ctx⟩ o 8).1
    | .peer _ _ => if peerAnswer s s.free a = 0 then Config.freeNat (2 ^ 64 * s.free + a) % 2 ^ 64 else 0
    | .unbacked => 0

/-- What a walker's read of an entry leaves: the blocks it fills and uses, a register's change, the record of an access that is
denied or unbacked (R322, R380, R385). `k` is the free value of the walk. -/
def pteRead (s : State) (k core ctx a : Nat) : State :=
  let a := routed s a
  let mid := masterOf s ctx 2
  if !permits s mid a true false then denyAccess s (dieOfCore core) mid (some ctx) a (if (placeOf s a).isMmio then 2 else 0)
  else match placeOf s a with
    | .hbm _ | .tier _ _ => engTouch s (dieOfCore core) (core % 96) [a]
    | .mmio o => (mmioRead s ⟨2, ctx⟩ o 8).2
    | .peer _ _ => { peerRead s k mid a 8 with free := s.free + 1 }
    | .unbacked => unbackedAccess s (dieOfCore core) mid (some ctx) a false

/-- A walk (R392 to R394): the level of the entry that is not valid, or the leaf's level and entry. -/
def walkGo (s : State) (ctx va : Nat) : List Nat → Nat → Except Nat (Nat × Nat)
  | [], _ => .error 3
  | j :: js, base =>
    let e := readPte s ctx (base + 8 * bits va (levelShift j) (levelBits j))
    if !pteOk j e then .error j
    else if bit e 1 then .ok (j, e) else walkGo s ctx va js (pteAddr e)

/-- The level-0 table of a context. -/
def rootOf (x : Ctx) : Nat := x.rootlo.toNat / 2 ^ 13 * 2 ^ 13 + x.roothi.toNat % 2 ^ 23 * 2 ^ 32

/-- A walk in a context. -/
def walk (s : State) (ctx va : Nat) : Except Nat (Nat × Nat) :=
  walkGo s ctx va [0, 1, 2, 3] (rootOf (ctxOf s ctx))

/-- A cached leaf for an address (R395). -/
def tlbFind (t : List TlbEnt) (ctx va : Nat) : Option TlbEnt :=
  t.find? (fun e => e.ctx == ctx && e.base == va / 2 ^ levelShift e.level)

/-- The translation of an address: the level of a missing entry, or the physical address and the leaf. -/
def translate (s : State) (core ctx va : Nat) : Except Nat (Nat × TlbEnt) :=
  let out := fun (e : TlbEnt) => (pteAddr e.entry + va % 2 ^ levelShift e.level, e)
  match tlbFind (coreOf s core).tlb ctx va with
  | some e => .ok (out e)
  | none => match tlbFind (bayOf s (bayOfCore core)).tlb ctx va with
    | some e => .ok (out e)
    | none => match walk s ctx va with
      | .error j => .error j
      | .ok (j, e) => .ok (out ⟨ctx, va / 2 ^ levelShift j, j, e⟩)

/-- Read, write and execute permission of a leaf (R393). -/
def leafR (e : TlbEnt) : Bool := bit e.entry 2
def leafW (e : TlbEnt) : Bool := bit e.entry 3
def leafX (e : TlbEnt) : Bool := bit e.entry 4

/-- Puts a leaf into the caches of a core and its bay; the oldest entry leaves (DESIGN CHOICE, log 11). -/
def cacheLeaf (s : State) (core : Nat) (e : TlbEnt) : State :=
  let ins := fun (cap : Nat) (t : List TlbEnt) => if t.contains e then t else (e :: t).take cap
  let s := modCore s core (fun c => { c with tlb := ins 64 c.tlb })
  modBay s (bayOfCore core) (fun b => { b with tlb := ins 2048 b.tlb })

/-- A translation with a need for read, write, execute permission (R394): cause code, ETVAL, or the physical address. -/
def xlatePa (s : State) (core ctx va : Nat) (rd wr ex : Bool) : Except (Nat × Nat) (Nat × TlbEnt) :=
  match translate s core ctx va with
  | .error j => .error (5, j)
  | .ok (pa, e) =>
    if wr && !leafW e then .error (6, 1)
    else if rd && !leafR e then .error (6, 0)
    else if ex && !leafX e then .error (6, 2)
    else .ok (pa, e)

/-- The same with the address to which a request for one grain goes (R406). -/
def xlate (s : State) (core ctx va : Nat) (rd wr ex : Bool) : Except (Nat × Nat) (Nat × TlbEnt) :=
  (xlatePa s core ctx va rd wr ex).map (fun r => (routed s r.1, r.2))

/-- A walk's reads, down to the entry that ends it; `s0` is the state that the walk begins in. -/
def walkReads (s0 : State) (core ctx va : Nat) : List Nat → Nat → State → State
  | [], _, s => s
  | j :: js, base, s =>
    let a := base + 8 * bits va (levelShift j) (levelBits j)
    let e := readPte s0 ctx a
    let s := pteRead s s0.free core ctx a
    if pteOk j e && !bit e 1 then walkReads s0 core ctx va js (pteAddr e) s else s

/-- Whether a cache of a core or of its bay holds the leaf for an address (R395). -/
def leafCached (s : State) (core ctx va : Nat) : Bool :=
  (tlbFind (coreOf s core).tlb ctx va).isSome || (tlbFind (bayOf s (bayOfCore core)).tlb ctx va).isSome

/-- What translating an address leaves (R392, R395): the reads of its walk, and the leaf found, in the caches. -/
def cacheVa (s : State) (core ctx va : Nat) : State :=
  let t := if leafCached s core ctx va then s else walkReads s core ctx va [0, 1, 2, 3] (rootOf (ctxOf s ctx)) s
  match translate s core ctx va with
  | .error _ => t
  | .ok (_, e) => cacheLeaf t core e

end Sys2Proof.Machine
end

