-- ==== Sys2Proof/Machine/Ops.lean ====
section
/-! DEFINITION. What every instruction shares: the issuing sub-braid, the outcome of a meaning, taking a trap (R398) and
returning from one (R400), a run's accounting (R75), warp end and the completion of waits. -/

namespace Sys2Proof.Machine

/-- The cause codes of R42. -/
def cILL : Nat := 0x01
def cREGW : Nat := 0x02
def cALIGN : Nat := 0x03
def cSCRB : Nat := 0x04
def cPAGE : Nat := 0x05
def cPERM : Nat := 0x06
def cPOIS : Nat := 0x07
def cTOKEN : Nat := 0x08
def cNEST : Nat := 0x09
def cRECON : Nat := 0x0A
def cHITCH : Nat := 0x0B
def cROLE : Nat := 0x0C
def cGRIDB : Nat := 0x0D
def cMCHK : Nat := 0x0E
def cRING : Nat := 0x0F
def cBRK : Nat := 0x10
def cSTEP : Nat := 0x11
def cWATCH : Nat := 0x12
def cTRAPI : Nat := 0x13
def cCHAN : Nat := 0x14
def cPRIV : Nat := 0x15
def cACCX : Nat := 0x16
def cQUEUE : Nat := 0x17

/-- A raised cause (R41, R42): code, lanes, EADDR, ETVAL, RPLY and CPYF. -/
structure Trap where
  code : Nat
  lanes : Mask
  eaddr : Nat
  etval : Nat
  rply : Bool
  cpyf : Bool
  deriving DecidableEq, Repr

/-- A cause with no address. -/
def trapOf (code : Nat) (lanes : Mask) (etval : Nat) : Trap := ⟨code, lanes, 0, etval, false, false⟩

/-- Of page and permission faults, each at its address, the one reported: the first PAGE, else the first (R43). -/
def firstFault (fs : List (Nat × (Nat × Nat))) : Option (Nat × (Nat × Nat)) :=
  (fs.find? (fun e => e.2.1 == cPAGE)).or fs.head?

/-- How the issue of an instruction ends. -/
inductive Verdict where
  /-- The issuing lanes go on to the next instruction. -/
  | advance
  /-- Every issuing lane moves to the target; the run ends (R126). -/
  | jump (target : VAddr)
  /-- The meaning has placed the lanes itself. -/
  | placed (endsRun : Bool)
  /-- An unsatisfied dependence: the instruction does not issue and the run breaks (R75). -/
  | stall
  | trap (t : Trap)
  deriving DecidableEq, Repr

/-- The issuing warp and sub-braid, as they stand at issue. -/
structure Issue where
  wid : Nat
  w : Warp
  b : SubBraid
  ctx : Nat
  record : List Byte
  instr : Instr
  deriving DecidableEq, Repr

/-- Whether the record is of a seam-bonded cluster. -/
def Issue.seam (x : Issue) : Bool := recSeam x.record

/-- Whether an instruction is long (R72). -/
def isLong (i : Instr) : Bool := decide ((encode i).length = 2)
/-- Word 0 of an instruction. -/
def word0 (i : Instr) : Word := (encode i).headD 0
/-- The E bit (R72). -/
def eBit (i : Instr) : Bool := (word0 i).getLsbD 29
/-- Bytes of an instruction: 4 * (1 + L) (R73). -/
def instrBytes (i : Instr) : Nat := if isLong i then 8 else 4
/-- The address of the instruction after this one. -/
def nextPc (pc : VAddr) (i : Instr) : VAddr := pc + BitVec.ofNat 57 (instrBytes i)
/-- A relative target: the following instruction's address plus 4 * offset (R83, R126). -/
def relTarget (pc : VAddr) (i : Instr) (off : Int) : VAddr := nextPc pc i + BitVec.ofInt 57 (4 * off)

/-- The quadrant of a slot (R20). -/
def quadOf (slot : Nat) : Nat := slot / 12

/-- The issuer of `State.focus`. -/
def issuerOf (s : State) (i : Instr) : Option Issue :=
  s.focus.bind fun f =>
    (tget s.warps f.warp).bind fun w =>
      (braidOf w f.sub).map fun b => ⟨f.warp, w, b, ctxOfWarp s w, recordOf s w, i⟩

/-- The handler address of a context (R387). -/
def handlerOf (x : Ctx) : VAddr := BitVec.ofNat 57 (x.tveclo.toNat / 4 * 4 + x.tvechi.toNat % 2 ^ 25 * 2 ^ 32)

/-- Every current and deferred group, each at its PC: parked by a trap (R398). -/
def holdAll (w : Warp) : Warp :=
  { w with
    held := w.held ++ w.braids.map (fun b => ⟨b.lanes, b.pc, b.lastGrant, b.wake⟩) ++ w.deferred
    braids := []
    deferred := [] }

/-- Takes lanes out of current, deferred and parked groups. -/
def takeOut (w : Warp) (m : Mask) : Warp :=
  { w with
    braids := (w.braids.map (fun b => { b with lanes := b.lanes &&& ~~~m })).filter (fun b => b.lanes != 0)
    deferred := (w.deferred.map (fun g => { g with lanes := g.lanes &&& ~~~m })).filter (fun g => g.lanes != 0)
    parked := (w.parked.map (fun p => { p with lanes := p.lanes &&& ~~~m })).filter (fun p => p.lanes != 0) }

/-- The trap registers at entry (R41, R398 step 2). -/
def writeTrapRegs (w : Warp) (pc : VAddr) (t : Trap) : Warp :=
  { w with
    epc := pc
    ecause := BitVec.ofNat 32 (t.code + 64 * t.rply.toNat + 128 * t.cpyf.toNat)
    emask := t.lanes
    eaddr := BitVec.ofNat 57 t.eaddr
    etval := BitVec.ofNat 32 t.etval }

/-- Trap entry into the handler (R398 steps 4 and 5). -/
def enterHandler (w : Warp) (t : Trap) (handler : VAddr) (grant clock : Nat) : Warp :=
  let w := holdAll (takeOut w t.lanes)
  addBraid { w with trapMode := true } t.lanes handler grant clock

/-- Taking a trap (R398, R399): the trap registers, then the fence of a context without a handler, the double trap, or
the handler. `pc` is EPC, `grant` the last-grant clock of the trapping lanes (DEDUCED, log 36). -/
def takeTrap (s : State) (wid : Nat) (pc : VAddr) (grant : Nat) (t : Trap) : State :=
  match tget s.warps wid with
  | none => s
  | some w =>
    let c := ctxOfWarp s w
    if w.trapMode then startFence s c (setDcause t.code 2)
    else
      let s := modWarp s wid (fun w => writeTrapRegs w pc t)
      if bit (ctxOf s c).tveclo.toNat 0 then
        modWarp s wid (fun w => enterHandler w t (handlerOf (ctxOf s c)) grant s.clock)
      else startFence s c (setDcause t.code 5)

/-- Held lanes resume when trap mode ends, lower PC first (R399, R400). -/
def releaseHeld (w : Warp) (extra : List Group) (clock : Nat) : Warp :=
  let gs := (sortBy (fun a b => decide (a.pc.toNat ≤ b.pc.toNat)) (w.held ++ extra)).filter (fun g => g.lanes != 0)
  gs.foldl (fun w g => regroup w g clock) { w with held := [], trapMode := false }

/-- Groups at one PC as one group (R400). -/
def groupAt (gs : List Group) (g : Group) : List Group :=
  match gs with
  | [] => [g]
  | x :: xs => if x.pc == g.pc then { x with lanes := x.lanes ||| g.lanes } :: xs else x :: groupAt xs g

/-- The lanes that ERET resumes (R400): `h` the live handler lanes, `after` EPC + 4 * (1 + L). -/
def eretGroups (w : Warp) (h : Mask) (grant : Nat) (after : VAddr) : List Group :=
  let m := w.emask
  let epc := w.epc &&& ~~~(3#57)
  if w.ecause.toNat % 64 = cRECON then
    ((lanesOf h).map (fun l =>
      let at' := tgetD w.reconAt l epc
      (⟨laneBit l, if inMask m l then at' else at' + 4, grant, 0⟩ : Group))).foldl groupAt []
  else [⟨h &&& m, epc, grant, 0⟩, ⟨h &&& ~~~m, after, grant, 0⟩]

/-- The lanes that run in trap mode: current, deferred, and parked by the handler. -/
def handlerLanes (w : Warp) : Mask :=
  currentLanes w ||| w.deferred.foldl (fun acc g => acc ||| g.lanes) 0
    ||| w.parked.foldl (fun acc p => if p.inTrap then acc ||| p.lanes else acc) 0

/-- The key of a word in a core's instruction cache. -/
def icKey (ctx pc : Nat) : Nat := ctx * 2 ^ 57 + pc

/-- The word at a physical address as an instruction fetch reads it from memory: none where the read delivers poison
(R380, R385), with the record it leaves. A word of MMIO is a read of 4 bytes (R382); of a peer's aperture the word, or that it is
poisoned, is a free value (R417) (DESIGN CHOICE, log 16). -/
def codeWord (s : State) (core ctx pa : Nat) : Option Word × State :=
  let mid := masterOf s ctx 0
  match placeOf s pa with
  | .unbacked => (none, unbackedAccess s (dieOfCore core) mid (some ctx) pa false)
  | .hbm _ | .tier _ _ =>
    if !permits s mid pa true false then (none, denyAccess s (dieOfCore core) mid (some ctx) pa 0)
    else if homePois s pa then (none, engTouch s (dieOfCore core) (core % 96) [pa])
    else (some (BitVec.ofNat 32 (ofBytes (homeBytes s pa 4))), engTouch s (dieOfCore core) (core % 96) [pa])
  | .mmio o =>
    if !permits s mid pa true false then (none, denyAccess s (dieOfCore core) mid (some ctx) pa 2)
    else
      let r := mmioRead s ⟨0, ctx⟩ o 4
      (some (BitVec.ofNat 32 r.1), r.2)
  | .peer _ _ =>
    if !permits s mid pa true false then (none, denyAccess s (dieOfCore core) mid (some ctx) pa 0)
    else
      (if peerAnswer s s.free pa = 0 then some (BitVec.ofNat 32 (Config.freeNat s.free)) else none,
        { peerRead s s.free mid pa 4 with free := s.free + 1 })

/-- The old form of a word of code (R74): as memory held it when the context's instruction caches were last invalidated. -/
def oldWord (s : State) (ctx pa : Nat) : Word := BitVec.ofNat 32 (ofBytes (bytesAt (ctxOf s ctx).code pa 4))

/-- Fetches one word (R73, R74): a word of memory that has changed since the context's instruction caches were invalidated is seen in
its new form, or in an old one, each time by a free choice (DEDUCED, log 30). An error is the cause's code and ETVAL (DEDUCED,
log 31). -/
def fetchWord (s : State) (core ctx pc : Nat) : Except (Nat × Nat) Word × State :=
  match xlate s core ctx pc false false true with
  | .error e => (.error e, cacheVa s core ctx pc)
  | .ok (pa, _) =>
    let s := cacheVa s core ctx pc
    let r := codeWord s core ctx pa
    let held := tget (coreOf s core).icache (icKey ctx pc)
    match held, r.1 with
    | some old, none => (.ok old, s)
    | none, none => (.error (cPOIS, 0), r.2)
    | _, some new =>
      let old := if (homeOf s pa).isSome then oldWord s ctx pa else new
      let t := if held.isSome then s else r.2
      let put := fun (s : State) (v : Word) => modCore s core (fun c => { c with icache := tput c.icache (icKey ctx pc) v })
      if held.getD new = new ∧ old = new then (.ok new, put t new)
      else
        let v := pickVal t.free new (pickVal (t.free + 1) old (held.getD new))
        (.ok v, put { t with free := t.free + 2 } v)

/-- EPC as ERET takes it (R400). -/
def epcOf (w : Warp) : VAddr := w.epc &&& ~~~(3#57)

/-- The L bit of the word at EPC, fetched for the handler lanes that resume behind it (R400, R73), or the cause and ETVAL of the
fetch's fault; there is no fetch where there are no such lanes and where EPC is not used. -/
def eretFetch (s : State) (w : Warp) : Except (Nat × Nat) Bool × State :=
  if handlerLanes w &&& ~~~w.emask = 0 ∨ w.ecause.toNat % 64 = cRECON then (.ok false, s)
  else
    let r := fetchWord s w.core (ctxOfWarp s w) (epcOf w).toNat
    (r.1.map (fun v => v.getLsbD 30), r.2)

/-- ERET (R400): the handler lanes, and the lanes the trap parked, resume; trap mode ends. `after` is where the handler lanes not in
EMASK resume. A step gives its credit, a watchpoint its exemption, to the lowest resuming lane's sub-braid (R451, R453). -/
def eretWarp (w : Warp) (h : Mask) (grant clock : Nat) (after : VAddr) : Warp :=
  let w' := releaseHeld (takeOut w h) (eretGroups w h grant after) clock
  let l := lowestLane (h &&& w.emask)
  let gives := fun (c : Nat) => decide (w.ecause.toNat % 64 = c) && h &&& w.emask != 0
  { w' with
    stepCredit := if gives cSTEP then some l else w'.stepCredit
    exempt := if gives cWATCH then w'.exempt ||| laneBit l else w'.exempt
    reconAt := [] }

/-- ERET with what was fetched at EPC (R400): a fault of that fetch is raised after trap mode has ended, at EPC, for the handler lanes
that would resume behind it. -/
def eretDone (wid : Nat) (w : Warp) (grant : Nat) (r : Except (Nat × Nat) Bool × State) : State :=
  let leave := fun (after : VAddr) => modWarp r.2 wid (fun v => eretWarp v (handlerLanes w) grant r.2.clock after)
  match r.1 with
  | .ok long => leave (epcOf w + (if long then 8 else 4))
  | .error e => takeTrap (leave (epcOf w)) wid (epcOf w) grant
      ⟨e.1, handlerLanes w &&& ~~~w.emask, (epcOf w).toNat, e.2, decide (e.1 = cPAGE), false⟩

/-- The run of a warp's quadrant ends. -/
def endRun (s : State) (w : Warp) : State := modCore s w.core (fun c => { c with runs := lset c.runs (quadOf w.slot) none })

/-- The sub-braid of a run moves on to `pc` after an instruction. -/
def advanceBraid (w : Warp) (sub : Nat) (pc : VAddr) : Warp :=
  modBraid w sub (fun b => { b with pc := pc })

/-- One instruction of the run has issued: the run ends by E, after the 24th, or when single-stepping (R75, R241, R451). LONGRUN
counts the runs that the 24th alone ends (DEDUCED, log 91). -/
def countIssue (s : State) (x : Issue) (ends : Bool) : State :=
  let core := coreOf s x.w.core
  let n := ((core.runs.getD (quadOf x.w.slot) none).map (·.count)).getD 0 + 1
  if ends || eBit x.instr || (x.w.stepping && !x.w.trapMode) then endRun s x.w
  else if 24 ≤ n then endRun (modCore s x.w.core (fun c => { c with longRun := c.longRun + 1 })) x.w
  else modCore s x.w.core (fun c => { c with
    runs := lmod c.runs (quadOf x.w.slot) (fun r => r.map (fun r => { r with count := n })) })

/-- An instruction has issued: its sub-braid's exemption from watchpoints is used, by a trapping instruction too (R453) (DEDUCED, log 100). -/
def useExemption (s : State) (x : Issue) : State :=
  if x.w.trapMode then s else modWarp s x.wid (fun w => { w with exempt := w.exempt &&& ~~~x.b.lanes })

/-- An instruction has issued: the warp's step credit is used (R451), and its sub-braid's exemption. -/
def useCredit (s : State) (x : Issue) : State :=
  let s := useExemption s x
  if x.w.stepping && !x.w.trapMode then modWarp s x.wid (fun w => { w with stepCredit := none }) else s

/-- The readiness count of R239 key 1 starts when a run ends. -/
def stampReady (w : Warp) (sub clock : Nat) : Warp := modBraid w sub (fun b => { b with readySince := clock })

/-- What the verdict of a meaning does to the issuing sub-braid and its run. -/
def finish (x : Issue) (r : Verdict × State) : State :=
  let s := match r with
    | (.advance, s) =>
      useCredit (countIssue (modWarp s x.wid (fun w => advanceBraid w x.b.id (nextPc x.b.pc x.instr))) x false) x
    | (.jump t, s) => useCredit (countIssue (modWarp s x.wid (fun w => advanceBraid w x.b.id t)) x true) x
    | (.placed e, s) => useCredit (countIssue s x e) x
    | (.stall, s) => endRun (modCore s x.w.core (fun c => { c with runBrk := c.runBrk + 1 })) x.w
    | (.trap t, s) => endRun (takeTrap (useExemption s x) x.wid x.b.pc x.b.lastGrant t) x.w
  let s := modWarp s x.wid (fun w => stampReady w x.b.id s.clock)
  { s with focus := none }

/-- The scalar registers that an instruction writes when its lanes' wait ends (R26). -/
def owedRegs (i : Instr) : List Nat :=
  match i with
  | .rwaitFull f | .rwaitFree f | .kinitReg f | .kinitFree f | .ktake f | .kgive f | .chrecvTake f | .enq f => [f.sd.toNat]
  | .attach f => [f.sd.toNat]
  | .reggrow f => [f.sd.toNat]
  | .deq f => (List.range 16).map (f.sd.toNat + ·)
  | _ => []

/-- Parks issuing lanes of a meaning (R234); the rest of the sub-braid goes on. -/
def parkIssuing (s : State) (x : Issue) (m : Mask) (cond : Park) : State :=
  modWarp s x.wid (fun w =>
    let w := advanceBraid w x.b.id (nextPc x.b.pc x.instr)
    let w := { w with owed := w.owed.filter (fun e => e.1 != m) ++ (owedRegs x.instr).map (fun n => (m, n)) }
    parkLanes w ⟨m, x.b.pc, nextPc x.b.pc x.instr, cond, x.b.lastGrant, w.trapMode⟩ s.clock)

/-- Parks every issuing lane of a meaning. -/
def parkAll (s : State) (x : Issue) (cond : Park) : Verdict × State := (.placed true, parkIssuing s x x.b.lanes cond)

/-- The waits of warp `wid` that meet `c` end: their lanes resume after their instruction (R237). -/
def unpark (s : State) (wid : Nat) (c : Parked → Bool) : State :=
  modWarp s wid (fun w => releaseLanes w c (BitVec.allOnes 64) s.clock)

/-- The waits of warp `wid` that meet `c` end with the instruction still to be executed: their lanes resume at it. Lanes that a trap
has found parked stay so, and their instruction is executed at this moment (R398). -/
def reissue (s : State) (wid : Nat) (c : Parked → Bool) : State :=
  modWarp s wid (fun w =>
    let now := fun (p : Parked) => c p && w.trapMode && !p.inTrap
    let again := fun (p : Parked) => if now p then { p with cond := .due } else if c p then { p with next := p.pc } else p
    releaseLanes { w with parked := w.parked.map again } (fun p => c p && p.cond != .due) (BitVec.allOnes 64) s.clock)

/-- The waits of any warp that meet `c` end. -/
def unparkAll (s : State) (c : Parked → Bool) : State := (tkeys s.warps).foldl (fun s k => unpark s k c) s

/-- Changes a pending load. -/
def modLoad (s : State) (id : Nat) (f : PLoad → PLoad) : State := modNet s (fun n => { n with loads := tmod n.loads id f })

/-- The block, cluster and grid of a warp. -/
def blockOf (s : State) (w : Warp) : Option Block := tget s.blocks w.block
def clusterOf (s : State) (w : Warp) : Option (Nat × Cluster) :=
  (blockOf s w).bind fun b => (tget s.clusters b.cluster).map fun c => (b.cluster, c)

/-- The core that holds a block's scratch, barriers and accumulators: the even core of a paired block (R254). -/
def homeCore (b : Block) : Nat := b.core

/-- Warps of a block. -/
def warpsOfBlock (s : State) (blk : Nat) : List (Nat × Warp) := s.warps.filter (fun e => e.2.block == blk)

end Sys2Proof.Machine
end

