-- ==== Sys2Proof/Machine/Operands.lean ====
section
/-! DEFINITION. Where a lane instruction's sources come from (R99), the registers an instruction names (R23, R85), and the
checks that read them: REGW (R23), POIS (R157). -/

namespace Sys2Proof.Machine

/-- The registers an instruction names: (first, count) of vector registers written and read, scalars written and read;
the guard of a lane instruction (none: every issuing lane); `tests` whether a marked source raises POIS. -/
structure Uses where
  guard : Option (Bool × Nat)
  vdst : List (Nat × Nat)
  vsrc : List (Nat × Nat)
  sdst : List (Nat × Nat)
  ssrc : List (Nat × Nat)
  tests : Bool
  deriving DecidableEq, Repr

def noUses : Uses := ⟨none, [], [], [], [], true⟩

/-- Registers an operand takes (R23). -/
def opdCount (o : Opd) (t : Nat) : Nat :=
  match o with
  | .none => 0
  | .one => 1
  | .byT => if isPair t then 2 else 1

/-- A register range, none when empty. -/
def regRange (r n : Nat) : List (Nat × Nat) := if n = 0 then [] else [(r, n)]

/-- Registers of a destination. -/
def dstCount (d : DstKind) (t : Nat) : Nat :=
  match d with
  | .one => 1
  | .byT => opdCount .byT t
  | .pred => 0

/-- LOGIC.not, which reads no b (R105, DEDUCED, log 28). -/
def logicNot (op : AluOp) (f : LB) : Bool := op == .logic && f.sub == 6

/-- How many registers the destination and the sources a, b and c of an LB instruction take. -/
def lbCounts (op : AluOp) (f : LB) : Nat × Nat × Nat × Nat :=
  match op with
  | .cvt => ((if isPair f.sub.toNat then 2 else 1), (if isPair f.vc.toNat then 2 else 1), 0, 0)
  | .dqplane => (1, f.sub.toNat / 8 + 1, if f.sb then 0 else 1, 1)
  | .mov => (opdCount .byT f.t.toNat, if f.sb || f.im then 0 else opdCount .byT f.t.toNat, 0, 0)
  | op =>
    let sp := aluSpec op
    (dstCount sp.dst f.t.toNat, opdCount sp.a f.t.toNat, if f.sb || f.im || logicNot op f then 0 else opdCount sp.b f.t.toNat,
      if f.im then 0 else opdCount sp.c f.t.toNat)

def aluUses (op : AluOp) (f : LB) : Uses :=
  let n := lbCounts op f
  { guard := some (f.gn, f.gp.toNat)
    vdst := regRange f.vd.toNat n.1
    vsrc := regRange f.va.toNat n.2.1 ++ regRange f.vb.toNat n.2.2.1 ++ regRange f.vc.toNat n.2.2.2
    sdst := []
    ssrc := if f.sb && !logicNot op f then [(f.vb.toNat, 1)] else []
    tests := true }

/-- LA (R101): b and c are the old vd. -/
def laUses (op : AluOp) (f : LA) : Uses :=
  let sp := aluSpec op
  let t := f.sub.toNat % 16
  { guard := none
    vdst := regRange f.vd.toNat (dstCount sp.dst t)
    vsrc := regRange f.va.toNat (opdCount sp.a t)
      ++ (if sp.dst == .pred then [] else regRange f.vd.toNat (max (opdCount sp.b t) (opdCount sp.c t)))
    sdst := []
    ssrc := []
    tests := true }

def lbUses (f : LB) (vdst vsrc ssrc : List (Nat × Nat)) : Uses := ⟨some (f.gn, f.gp.toNat), vdst, vsrc, [], ssrc, true⟩

/-- XLANE (R118): b is of type T, as R99 has it. -/
def xlaneUses (f : LB) : Uses :=
  let n := opdCount .byT f.t.toNat
  lbUses f [(f.vd.toNat, n)] ((f.va.toNat, n) :: (if f.sb || f.im || f.sub.toNat % 8 == 6 then [] else [(f.vb.toNat, n)]))
    (if f.sb then [(f.vb.toNat, 1)] else [])

def ltUses (f : LT) (vdst vsrc : List (Nat × Nat)) : Uses :=
  ⟨some (false, 4 + f.gq.toNat), vdst, vsrc, [], [(f.sidx.toNat, 1)], true⟩

/-- Lane memory instructions: `vo` whether va is read, `n` scalars of the base and order word. -/
def lmUses (f : LM) (vdst vsrc : List (Nat × Nat)) (vo : Bool) (n : Nat) : Uses :=
  ⟨some (f.gn, f.gp.toNat), vdst, vsrc ++ (if vo then [(f.va.toNat, 1)] else []), [], [(f.sbase.toNat, n)], true⟩

/-- Registers an atomic reads from vd: twice the element's for .cas (R166). -/
def atomSrcRegs (sub : Nat) : Nat := if sub / 8 == 7 then 2 * atomRegs (sub % 8) else atomRegs (sub % 8)

def uniUses (sdst ssrc : List (Nat × Nat)) : Uses := ⟨none, [], [], sdst, ssrc, true⟩

def scalUaUses (op : ScalOp) (f : UA) : Uses :=
  uniUses [(f.sd.toNat, 1)]
    ((f.sa.toNat, 1) :: (if scalUnary op f.sub.toNat || op == .smov then [] else [(f.sd.toNat, 1)]))
def scalUbUses (op : ScalOp) (f : UB) : Uses :=
  uniUses [(f.sd.toNat, 1)]
    ((f.sa.toNat, 1) :: (if scalUnary op f.sub.toNat || op == .smov then [] else [(f.sb.toNat, 1)])
      ++ (if op == .smad || op == .sbfi || op == .ssel then [(f.sc.toNat, 1)] else []))
def scalUiUses (op : ScalOp) (f : UI) : Uses :=
  uniUses [(f.sd.toNat, 1)]
    ((if scalUnary op (f.sub.toNat % 8) || op == .smov then [] else [(f.sa.toNat, 1)])
      ++ (if op == .smad || op == .sbfi || op == .ssel then [(f.sd.toNat, 1)] else []))

def mopsUses (f : UA) : Uses :=
  match f.sub.toNat with
  | 7 => uniUses [(f.sd.toNat, 2)] []
  | 8 => uniUses [] [(f.sa.toNat, 2)]
  | 9 => uniUses [(f.sd.toNat, 1)] []
  | _ => noUses

def srdUses (f : UB) : Uses :=
  if f.sub == 0 then uniUses [(f.sd.toNat, 1)] [] else { noUses with vdst := [(f.sd.toNat, 1)] }

def satomgUses (f : UB) : Uses :=
  let n := atomRegs (f.imm.toNat / 256 % 8)
  uniUses [(f.sd.toNat, n)]
    ((f.sb.toNat, n) :: (f.sa.toNat, 2) :: (if f.sub.toNat == 7 then [(f.sc.toNat, n)] else []))

def copyUses (saN sbN : Nat) (f : UB) : Uses :=
  uniUses [] [(f.sd.toNat, 1), (f.sa.toNat, saN), (f.sb.toNat, sbN), (f.sc.toNat, 1)]

/-- The registers each instruction names. Prefetches never trap on poison (R176). -/
def usesOf (w : Warp) (i : Instr) : Uses :=
  match i with
  | .iadd f => aluUses .iadd f
  | .iaddShort f => laUses .iadd f
  | .isub f => aluUses .isub f
  | .isubShort f => laUses .isub f
  | .imul f => aluUses .imul f
  | .imulShort f => laUses .imul f
  | .imulh f => aluUses .imulh f
  | .imulhShort f => laUses .imulh f
  | .imad f => aluUses .imad f
  | .imadShort f => laUses .imad f
  | .imin f => aluUses .imin f
  | .iminShort f => laUses .imin f
  | .imax f => aluUses .imax f
  | .imaxShort f => laUses .imax f
  | .iabs f => aluUses .iabs f
  | .iabsShort f => laUses .iabs f
  | .idp4 f => aluUses .idp4 f
  | .idp4Short f => laUses .idp4 f
  | .shl f => aluUses .shl f
  | .shlShort f => laUses .shl f
  | .shr f => aluUses .shr f
  | .shrShort f => laUses .shr f
  | .sar f => aluUses .sar f
  | .sarShort f => laUses .sar f
  | .shf f => aluUses .shf f
  | .shfShort f => laUses .shf f
  | .knit f => aluUses .knit f
  | .logic f => aluUses .logic f
  | .logicShort f => laUses .logic f
  | .bfe f => aluUses .bfe f
  | .bfeShort f => laUses .bfe f
  | .bfi f => aluUses .bfi f
  | .bfiShort f => laUses .bfi f
  | .popc f => aluUses .popc f
  | .popcShort f => laUses .popc f
  | .clz f => aluUses .clz f
  | .clzShort f => laUses .clz f
  | .brev f => aluUses .brev f
  | .brevShort f => laUses .brev f
  | .ffs f => aluUses .ffs f
  | .ffsShort f => laUses .ffs f
  | .icmp f => aluUses .icmp f
  | .icmpShort f => laUses .icmp f
  | .sel f => aluUses .sel f
  | .selShort f => laUses .sel f
  | .isad f => aluUses .isad f
  | .isadShort f => laUses .isad f
  | .bmix f => aluUses .bmix f
  | .bmixShort f => laUses .bmix f
  | .fadd f => aluUses .fadd f
  | .faddShort f => laUses .fadd f
  | .fsub f => aluUses .fsub f
  | .fsubShort f => laUses .fsub f
  | .fmul f => aluUses .fmul f
  | .fmulShort f => laUses .fmul f
  | .ffma f => aluUses .ffma f
  | .ffmaShort f => laUses .ffma f
  | .fmin f => aluUses .fmin f
  | .fminShort f => laUses .fmin f
  | .fmax f => aluUses .fmax f
  | .fmaxShort f => laUses .fmax f
  | .fcmp f => aluUses .fcmp f
  | .fcmpShort f => laUses .fcmp f
  | .frcp f => aluUses .frcp f
  | .frcpShort f => laUses .frcp f
  | .frsq f => aluUses .frsq f
  | .frsqShort f => laUses .frsq f
  | .fsqrt f => aluUses .fsqrt f
  | .fsqrtShort f => laUses .fsqrt f
  | .fdiv f => aluUses .fdiv f
  | .fdivShort f => laUses .fdiv f
  | .fexp2 f => aluUses .fexp2 f
  | .fexp2Short f => laUses .fexp2 f
  | .flog2 f => aluUses .flog2 f
  | .flog2Short f => laUses .flog2 f
  | .fsinpi f => aluUses .fsinpi f
  | .fsinpiShort f => laUses .fsinpi f
  | .fcospi f => aluUses .fcospi f
  | .fcospiShort f => laUses .fcospi f
  | .ftanh f => aluUses .ftanh f
  | .ftanhShort f => laUses .ftanh f
  | .fclass f => aluUses .fclass f
  | .fclassShort f => laUses .fclass f
  | .fscale f => aluUses .fscale f
  | .fscaleShort f => laUses .fscale f
  | .frnd f => aluUses .frnd f
  | .frndShort f => laUses .frnd f
  | .dadd f => aluUses .dadd f
  | .dmul f => aluUses .dmul f
  | .dfma f => aluUses .dfma f
  | .dcmp f => aluUses .dcmp f
  | .cvt f => aluUses .cvt f
  | .qplane f => lbUses f [(f.vd.toNat, 1)] [(f.va.toNat, 1)] (if bit f.sub.toNat 3 then [(f.vb.toNat, 3)] else [])
  | .dqplane f => aluUses .dqplane f
  | .pack f => aluUses .pack f
  | .unpack f => aluUses .unpack f
  | .srnd f => lbUses f [(f.vd.toNat, 1)] [(f.va.toNat, 1)] [(f.vb.toNat, 3)]
  | .mov f => aluUses .mov f
  | .movShort f => laUses .mov f
  | .xlane f => xlaneUses f
  | .peer f => lbUses f [(f.vd.toNat, if f.sub == 0 && w.width == 64 then 2 else 1)] [(f.va.toNat, opdCount .byT f.t.toNat)] []
  | .qpoll f => lbUses f (if f.sub == 3 then [(f.vd.toNat, if w.width == 64 then 2 else 1)] else if f.sub == 5 || f.sub == 6 then [(f.vd.toNat, 1)] else []) [] []
  | .redx f => lbUses f [(f.vd.toNat, opdCount .byT f.t.toNat)] [(f.va.toNat, opdCount .byT f.t.toNat)] []
  | .scan f => lbUses f [(f.vd.toNat, opdCount .byT f.t.toNat)] [(f.va.toNat, opdCount .byT f.t.toNat)] []
  | .plop f => lbUses f [] [] []
  | .brp f => lbUses f [] [] []
  | .trd f => ltUses f [(f.vd.toNat, 1)] []
  | .twr f => ltUses f [] [(f.va.toNat, 1)]
  | .lds f => lmUses f [(f.vd.toNat, szRegs (f.sub.toNat % 8))] [] (bit f.sub.toNat 3) 1
  | .sts f => lmUses f [] [(f.vd.toNat, szRegs (f.sub.toNat % 8))] (bit f.sub.toNat 3) 1
  | .ldg f => lmUses f [(f.vd.toNat, szRegs (f.sub.toNat % 8))] [] (bit f.sub.toNat 3) 2
  | .stg f => lmUses f [] [(f.vd.toNat, szRegs (f.sub.toNat % 8))] (bit f.sub.toNat 3) 2
  | .stnt f => lmUses f [] [(f.vd.toNat, szRegs (f.sub.toNat % 8))] (bit f.sub.toNat 3) 2
  | .atoms f => lmUses f [(f.vd.toNat, atomRegs (f.sub.toNat % 8))] [(f.vd.toNat, atomSrcRegs f.sub.toNat)] true 2
  | .atomg f => lmUses f [(f.vd.toNat, atomRegs (f.sub.toNat % 8))] [(f.vd.toNat, atomSrcRegs f.sub.toNat)] true 3
  | .redg f => lmUses f [] [(f.vd.toNat, atomSrcRegs f.sub.toNat)] true 3
  | .prefg f => { lmUses f [] [] (f.sub == 8) 2 with tests := false }
  | .mma f => lbUses f [] [] [(f.vb.toNat, if bit f.sub.toNat 2 then 6 else 1)]
  | .accrd f => lbUses f [(f.vd.toNat, 32)] [] []
  | .accwr f => lbUses f [] [(f.vd.toNat, 32)] []
  | .sadd f => scalUaUses .sadd f
  | .saddUb f => scalUbUses .sadd f
  | .saddUi f => scalUiUses .sadd f
  | .ssub f => scalUaUses .ssub f
  | .ssubUb f => scalUbUses .ssub f
  | .ssubUi f => scalUiUses .ssub f
  | .smul f => scalUaUses .smul f
  | .smulUb f => scalUbUses .smul f
  | .smulUi f => scalUiUses .smul f
  | .smulh f => scalUaUses .smulh f
  | .smulhUb f => scalUbUses .smulh f
  | .smulhUi f => scalUiUses .smulh f
  | .smad f => scalUaUses .smad f
  | .smadUb f => scalUbUses .smad f
  | .smadUi f => scalUiUses .smad f
  | .smin f => scalUaUses .smin f
  | .sminUb f => scalUbUses .smin f
  | .sminUi f => scalUiUses .smin f
  | .smax f => scalUaUses .smax f
  | .smaxUb f => scalUbUses .smax f
  | .smaxUi f => scalUiUses .smax f
  | .sshl f => scalUaUses .sshl f
  | .sshlUb f => scalUbUses .sshl f
  | .sshlUi f => scalUiUses .sshl f
  | .sshr f => scalUaUses .sshr f
  | .sshrUb f => scalUbUses .sshr f
  | .sshrUi f => scalUiUses .sshr f
  | .ssar f => scalUaUses .ssar f
  | .ssarUb f => scalUbUses .ssar f
  | .ssarUi f => scalUiUses .ssar f
  | .slogic f => scalUaUses .slogic f
  | .slogicUb f => scalUbUses .slogic f
  | .slogicUi f => scalUiUses .slogic f
  | .sbfe f => scalUaUses .sbfe f
  | .sbfeUb f => scalUbUses .sbfe f
  | .sbfeUi f => scalUiUses .sbfe f
  | .sbfi f => scalUaUses .sbfi f
  | .sbfiUb f => scalUbUses .sbfi f
  | .sbfiUi f => scalUiUses .sbfi f
  | .spopc f => scalUaUses .spopc f
  | .spopcUb f => scalUbUses .spopc f
  | .spopcUi f => scalUiUses .spopc f
  | .sclz f => scalUaUses .sclz f
  | .sclzUb f => scalUbUses .sclz f
  | .sclzUi f => scalUiUses .sclz f
  | .scmp f => scalUaUses .scmp f
  | .scmpUb f => scalUbUses .scmp f
  | .scmpUi f => scalUiUses .scmp f
  | .ssel f => scalUaUses .ssel f
  | .sselUb f => scalUbUses .ssel f
  | .sselUi f => scalUiUses .ssel f
  | .smov f => scalUaUses .smov f
  | .smovUb f => scalUbUses .smov f
  | .smovUi f => scalUiUses .smov f
  | .brc f => uniUses [] [(f.sa.toNat, 1)]
  | .call _ => uniUses [(382, 2)] []
  | .ret f => uniUses [] [(f.sa.toNat, 2)]
  | .jmpi f => uniUses [] [(f.sa.toNat, 2)]
  | .mops f => mopsUses f
  | .sleepc f => uniUses [] (if f.sub == 1 then [(f.sa.toNat, 1)] else [])
  | .attach f => uniUses [(f.sd.toNat, 1)] [(f.sa.toNat, 1), (0, 32)]
  | .reggrow f => uniUses [(f.sd.toNat, 1)] []
  | .regshrink f => uniUses [(f.sd.toNat, 1)] []
  | .srd f => srdUses f
  | .swr f => uniUses [] [(f.sa.toNat, 1)]
  | .sldg f => uniUses [(f.sd.toNat, szRegs f.sub.toNat)] [(f.sa.toNat, 2)]
  | .sstg f => uniUses [] [(f.sb.toNat, szRegs f.sub.toNat), (f.sa.toNat, 2)]
  | .slds f => uniUses [(f.sd.toNat, szRegs f.sub.toNat)] [(f.sa.toNat, 1)]
  | .ssts f => uniUses [] [(f.sb.toNat, szRegs f.sub.toNat), (f.sa.toNat, 1)]
  | .satomg f => satomgUses f
  | .flush f => uniUses [] [(f.sa.toNat, 2), (f.sb.toNat, 1)]
  | .pref f => { uniUses [] [(f.sa.toNat, 2)] with tests := false }
  | .kinitReg f => uniUses [(f.sd.toNat, 1)] [(f.sa.toNat, 2)]
  | .kinitFree f => uniUses [(f.sd.toNat, 1)] [(f.sa.toNat, 2)]
  | .ktake f => uniUses [(f.sd.toNat, 1)] [(f.sa.toNat, 2)]
  | .kgive f => uniUses [(f.sd.toNat, 1)] [(f.sa.toNat, 2)]
  | .rinit f => uniUses [] [(f.sa.toNat, 1), (f.sb.toNat, 1)]
  | .rwaitFull f => uniUses [(f.sd.toNat, 1)] [(f.sa.toNat, 1)]
  | .rwaitFree f => uniUses [(f.sd.toNat, 1)] [(f.sa.toNat, 1)]
  | .rrel f => uniUses [] [(f.sa.toNat, 1)]
  | .rarr f => uniUses [] [(f.sa.toNat, 1), (f.sb.toNat, 1), (f.sc.toNat, 1)]
  | .chsend f => uniUses [] [(f.sa.toNat, 1), (f.sb.toNat, 1)]
  | .chrecvTake f => uniUses [(f.sd.toNat, 1)] []
  | .deq f => uniUses [(f.sd.toNat, 16)] [(f.sa.toNat, 1)]
  | .enq f => uniUses [(f.sd.toNat, 1)] [(f.sa.toNat, 1), (f.sb.toNat, 16)]
  | .launch f => uniUses [(f.sd.toNat, 1)] [(f.sa.toNat, 2)]
  | .mchkrd f => uniUses [(f.sd.toNat, 4)] []
  | .cpyG2s f => copyUses 6 1 f
  | .cpyS2g f => copyUses 6 1 f
  | .cpyS2s f => copyUses 2 1 f
  | .cpgth f => copyUses 6 3 f
  | .cpsct f => copyUses 6 3 f
  | .cpxf f => copyUses 6 1 f
  | .tdchk f => uniUses [(f.sd.toNat, 1)] [(f.sa.toNat, 1)]
  | .coll f => copyUses 2 3 f
  | _ => noUses

/-- Whether two ranges meet. -/
def rangeMeets (a b : Nat × Nat) : Bool := decide (a.1 < b.1 + b.2) && decide (b.1 < a.1 + a.2)

/-- REGW (R23): the first register at or beyond the window, operands in the order vd, va, vb, vc (DEDUCED, log 15); of the 32
registers of ACCRD and ACCWR the last (R208). -/
def regwOf (win : Nat) (u : Uses) : Option Nat :=
  ((u.vdst ++ u.vsrc).find? (fun r => decide (win < r.1 + r.2))).map (fun r => if r.2 = 32 then r.1 + 31 else max r.1 win)

/-- The active lanes of an instruction (R79, R125). -/
def activeOf (w : Warp) (issuing : Mask) (u : Uses) : Mask :=
  match u.guard with
  | none => issuing &&& liveMask w
  | some (gn, gp) => guardLanes w issuing gn gp

/-- The marks of a register range in a lane. -/
def marksIn (w : Warp) (l : Nat) (r : Nat × Nat) : List Mark :=
  (List.range r.2).filterMap (fun k => tget w.marks ((r.1 + k) * 64 + l))
/-- The marks of a scalar range. -/
def smarksIn (w : Warp) (r : Nat × Nat) : List Mark := (List.range r.2).filterMap (fun k => tget w.smarks (r.1 + k))

/-- The oldest of some marks. -/
def oldestMark (ms : List Mark) : Option Mark :=
  ms.foldl (fun acc m => match acc with | none => some m | some a => some (if m.age < a.age then m else a)) none

/-- POIS (R157) for vector registers `vs` read in lanes `act` and scalars `ss`: the trap, none when nothing is marked or no
lane is active (R79, R85). -/
def poisTrap (w : Warp) (act : Mask) (vs ss : List (Nat × Nat)) : Option Trap :=
  let sm := if act = 0 then [] else ss.flatMap (smarksIn w)
  let lm := (lanesOf act).map (fun l => (l, vs.flatMap (marksIn w l)))
  let lanes := if sm.isEmpty then maskOf ((lm.filter (fun e => !e.2.isEmpty)).map Prod.fst) else act
  (oldestMark (sm ++ lm.flatMap Prod.snd)).map (fun m => ⟨cPOIS, lanes, m.addr, 0, false, false⟩)

/-- The trap clears the marks the instruction would read (R157). -/
def clearMarks (w : Warp) (act : Mask) (vs ss : List (Nat × Nat)) : Warp :=
  { w with
    marks := (lanesOf act).foldl (fun m l => vs.foldl (fun m r =>
      (List.range r.2).foldl (fun m k => terase m ((r.1 + k) * 64 + l)) m) m) w.marks
    smarks := ss.foldl (fun m r => (List.range r.2).foldl (fun m k => terase m (r.1 + k)) m) w.smarks }

/-- POIS of an instruction that names the registers `u`, when some source is marked: the state with those marks cleared, and
the trap. -/
def poisUses (x : Issue) (s : State) (u : Uses) : Option (Verdict × State) :=
  let act := activeOf x.w x.b.lanes u
  if !u.tests then none
  else (poisTrap x.w act u.vsrc u.ssrc).map (fun t =>
    (.trap t, modWarp s x.wid (fun w => clearMarks w act u.vsrc u.ssrc)))

/-- POIS of an instruction. -/
def poisOf (x : Issue) (s : State) : Option (Verdict × State) := poisUses x s (usesOf x.w x.instr)

/-- An LB instruction's rounding (R77, R38). -/
def lbCtl (w : Warp) (f : LB) : RoundCtl := ⟨rmodeOfCode f.rnd.toNat, fctlFtz w, f.sat⟩

/-- Source b of an LB instruction in lane l (R99): `n` its registers. -/
def lbSource (w : Warp) (f : LB) (l n : Nat) : Nat :=
  if f.im then widenImm f.t.toNat (lbImm f)
  else if f.sb then
    let v := (sread w f.vb.toNat).toNat
    if f.t.toNat = 10 ∧ n = 2 then wrap 64 (toSigned 32 v) else v
  else vreadN w f.vb.toNat l n

/-- The negation type of a source: the source EC for CVT, else T. -/
def negOf (t : RTy) (x : Nat) : Nat :=
  (mapElems t fun i =>
    match t.num with
    | .flt f => (fNegBits f (elem (fmtBits f) x i), 0)
    | .int _ w => (wrap w (-(elem w x i : Int)), 0)).1

/-- What lane l of an LB instruction computes with (R99, R100) (DEDUCED, log 29). -/
def lbInput (op : AluOp) (w : Warp) (f : LB) (l : Nat) : AluIn :=
  let n := lbCounts op f
  let a0 := match op with
    | .dqplane => packBits (f.sub.toNat / 8 + 1) (fun i => (vread w (f.va.toNat + i) l).getLsbD (l % 32))
    | .mov => if f.sb || f.im then lbSource w f l (opdCount .byT f.t.toNat) else vreadN w f.va.toNat l n.2.1
    | _ => vreadN w f.va.toNat l n.2.1
  let b0 := lbSource w f l (max n.2.2.1 (opdCount (aluSpec op).b f.t.toNat))
  let ty := match op with | .cvt => ecOf f.vc.toNat | _ => tyOf f.t.toNat
  { sub := match op with | .knit => f.sub.toNat + 64 * f.rnd.toNat | _ => f.sub.toNat
    t := match op with | .cvt => f.vc.toNat | _ => f.t.toNat
    ctl := lbCtl w f
    a := if f.na then negOf ty a0 else a0
    b := if f.nb then negOf ty b0 else b0
    c := vreadN w f.vc.toNat l n.2.2.2
    qs := inMask (predMask w (f.sub.toNat % 8)) l }

/-- What lane l of an LA instruction computes with (R99, R101). -/
def laInput (op : AluOp) (w : Warp) (f : LA) (l : Nat) : AluIn :=
  let sp := aluSpec op
  let t := f.sub.toNat % 16
  { sub := f.sub.toNat / 16
    t := t
    ctl := ⟨rmodeOfCode (fctlRm w), fctlFtz w, false⟩
    a := vreadN w f.va.toNat l (opdCount sp.a t)
    b := if sp.dst == .pred then 0 else vreadN w f.vd.toNat l (opdCount sp.b t)
    c := vreadN w f.vd.toNat l (opdCount sp.c t)
    qs := inMask (predMask w (f.sub.toNat / 16)) l }

/-- Where a lane result goes: a predicate, or vd with its registers. -/
inductive LaneDst where
  | pred (q : Nat)
  | regs (vd n : Nat)
  deriving DecidableEq, Repr

/-- The destination of an LB instruction. -/
def lbDst (op : AluOp) (f : LB) : LaneDst :=
  if (aluSpec op).dst == .pred then .pred f.vd.toNat else .regs f.vd.toNat (lbCounts op f).1

/-- The destination of an LA instruction. -/
def laDst (op : AluOp) (f : LA) : LaneDst :=
  if (aluSpec op).dst == .pred then .pred f.vd.toNat
  else .regs f.vd.toNat (dstCount (aluSpec op).dst (f.sub.toNat % 16))

/-- Writes one lane's result. -/
def writeLane (w : Warp) (d : LaneDst) (l v : Nat) : Warp :=
  match d with
  | .pred q => pwrite w q (laneBit l) (if v = 0 then 0 else laneBit l)
  | .regs vd n => vwriteN w vd l n v

/-- The effect of a lane instruction (R100): every source of every lane is read first, then results are written and the
flags of all active lanes reach FSTAT. -/
def laneEffect (w : Warp) (act : Mask) (d : LaneDst) (f : Nat → Nat × Word) : Warp :=
  let rs := (lanesOf act).map (fun l => (l, f l))
  orFlags (rs.foldl (fun w r => writeLane w d r.1 r.2.1) w) (rs.foldl (fun acc r => acc ||| r.2.2) 0)

end Sys2Proof.Machine
end

