-- ==== Sys2Proof/Machine/Gate.lean ====
section
/-! DEFINITION. What stands between an instruction and its issue: the decode checks that depend on the warp (R85 steps 4
and 5), and the unsatisfied dependences (R32, R33, R75, R103, R160, R167, R173). Then `issue`, which every meaning of a
warp's instruction goes through. -/

namespace Sys2Proof.Machine

/-- What an instruction does to the orders it must wait for. -/
inductive Acc where
  | none
  | load
  | store
  | atomic
  | copy
  | engine
  | sync
  deriving DecidableEq, Repr

/-- How an instruction takes part in counters and orders: its kind, the outstanding counters it raises at issue (R32),
whether it releases. -/
structure Traits where
  acc : Acc
  ld : Bool
  st : Bool
  cp : Bool
  mx : Bool
  rel : Bool
  deriving DecidableEq, Repr

def plainTraits : Traits := ⟨.none, false, false, false, false, false⟩

/-- Kinds and counters (R156, R158, R159, R167 to R169, R173 to R175, R203, R223, R224, R231). LDS and SLDS raise LD only
for a peer's scratch, which their meanings look at. -/
def traitsOf (i : Instr) : Traits :=
  match i with
  | .lds _ | .slds _ | .tdchk _ => ⟨.load, false, false, false, false, false⟩
  | .ldg _ | .sldg _ => ⟨.load, true, false, false, false, false⟩
  | .sts _ | .ssts _ | .stg _ | .sstg _ | .stnt _ | .redg _ | .flush _ => ⟨.store, false, true, false, false, false⟩
  | .atoms _ | .atomg _ | .satomg _ => ⟨.atomic, true, false, false, false, false⟩
  | .cpyG2s _ | .cpyS2s _ | .cpgth _ | .cpxf _ => ⟨.copy, false, false, true, false, false⟩
  | .cpyS2g _ | .cpsct _ => ⟨.copy, false, true, true, false, false⟩
  | .coll _ => ⟨.copy, false, false, true, false, false⟩
  | .mma _ | .accz _ | .accrel _ => ⟨.engine, false, false, false, true, false⟩
  | .chsend _ => ⟨.copy, false, false, true, false, true⟩
  | .bara _ | .bars _ | .cbara _ | .gridbar _ | .kgive _ | .rrel _ | .rarr _ | .chrecvDone _ | .enq _ | .launch _ =>
    ⟨.sync, false, false, false, false, true⟩
  | .fence f => ⟨.sync, false, false, false, false, decide (2 ≤ f.imm.toNat % 8)⟩
  | .rinit _ => ⟨.store, false, false, false, false, false⟩
  | .kinitReg _ | .kinitFree _ | .ktake _ | .rwaitFull _ | .rwaitFree _ | .deq _ | .chrecvTake _ =>
    ⟨.sync, false, false, false, false, false⟩
  | _ => plainTraits

/-- The order word of a lane atomic, or SATOMG's imm14 (R165). -/
def orderWord (w : Warp) (i : Instr) : Option Nat :=
  match i with
  | .atoms f => some (sread w (f.sbase.toNat + 1)).toNat
  | .atomg f | .redg f => some (sread w (f.sbase.toNat + 2)).toNat
  | .satomg f => some (f.imm.toNat % 256)
  | _ => none

/-- The scope of a release the instruction itself waits for before it acts (R148, R149, R167, R168, R174, R190). -/
def relWait (w : Warp) (i : Instr) : Option Nat :=
  match i with
  | .rrel _ | .rarr _ | .chsend _ | .chrecvDone _ => some 2
  | .enq f => some (if f.imm == 0 then 4 else 5)
  | .launch _ => some 4
  | .fence f => if f.imm.toNat % 8 = 4 ∧ f.imm.toNat / 8 ≠ 0 then some (f.imm.toNat / 8) else none
  | i => match orderWord w i with
    | some o => if 2 ≤ o % 8 then some (o / 8 % 8) else none
    | none => none

/-- The roles that may not issue an instruction (R194): matrix class, accumulator read, copy class. -/
def roleBars (role : Nat) (i : Instr) : Bool :=
  match i with
  | .hset _ | .mma _ | .accz _ | .accrel _ | .accwr _ => role == 1 || role == 3
  | .accrd _ => role == 1
  | .cpyG2s _ | .cpyS2g _ | .cpyS2s _ | .cpgth _ | .cpsct _ | .cpxf _ | .coll _ => role == 2 || role == 3
  | _ => false

/-- PRIV (R35, R146, R175): ETVAL when a privileged form is issued outside trap mode. -/
def privOf (i : Instr) : Option Nat :=
  match i with
  | .eret _ => some 0
  | .flush f => if f.sub == 2 then some 0 else none
  | .srd f => if sregTrap f.imm.toNat then some f.imm.toNat else none
  | .swr f => if sregTrap f.imm.toNat then some f.imm.toNat else none
  | _ => none

/-- The checks of the fields against the warp: width, tile views, trap mode (R29, R114, R118 to R121, R208, R215, R399). -/
def warpOk (w : Warp) (i : Instr) : Bool :=
  match i with
  | .xlane f => decide (2 ^ (f.sub.toNat / 8) ≤ w.width)
  | .peer f => !(f.sub == 0 && w.width == 64) || f.vd.toNat % 2 == 0
  | .qpoll f => !(f.sub == 3 && w.width == 64) || f.vd.toNat % 2 == 0
  | .redx f => decide (2 ^ (f.sub.toNat / 8) ≤ w.width)
  | .scan f => f.sub.toNat / 8 % 4 == 0 || decide (4 * 2 ^ (f.sub.toNat / 8 % 4) ≤ w.width)
  | .qplane _ => w.width != 16
  | .trd f | .twr f => (f.sub == 0 || w.width == 16) && (w.tiles.getD f.tn.toNat ⟨false, 0⟩).valid
  | .accrd f | .accwr f => (f.va.toNat < 16 || w.width == 16) && (w.width != 64 || f.va.toNat % 2 == 0)
  | .detach _ => !w.trapMode
  | _ => true

/-- ILL from register values (R165, R187, R223, R230), whatever the guard (DEDUCED, log 93). -/
def valuesOk (w : Warp) (i : Instr) : Bool :=
  match i with
  | .atoms f => orderOk (sread w (f.sbase.toNat + 1)).toNat (f.sub.toNat / 8 == 7) false
  | .atomg f => orderOk (sread w (f.sbase.toNat + 2)).toNat (f.sub.toNat / 8 == 7) false
  | .redg f => orderOk (sread w (f.sbase.toNat + 2)).toNat false true
  | .rinit f => decide (0 < (sread w f.sb.toNat).toNat) && decide ((sread w f.sb.toNat).toNat ≤ 4194303)
  | .cpyS2s f =>
    decide (0 < (sread w (f.sa.toNat + 1)).toNat) && (sread w (f.sa.toNat + 1)).toNat % 16 == 0
  | .cpgth f | .cpsct f =>
    decide (1 ≤ (sread w (f.sb.toNat + 2)).toNat) && decide ((sread w (f.sb.toNat + 2)).toNat ≤ 4096)
  | .coll f => sread w (f.sb.toNat + 2) != 0
  | _ => true

/-- The registers a pending load writes. -/
def loadRegs (p : PLoad) : Nat := max 1 ((p.size + 3) / 4)

/-- Whether a pending load of the warp writes a register the instruction names (R103). -/
def waitsForLoad (s : State) (wid : Nat) (u : Uses) : Bool :=
  s.net.loads.any (fun e =>
    e.2.warp == wid &&
      (match e.2.dst with
       | .vec vd => (u.vdst ++ u.vsrc).any (rangeMeets (vd, loadRegs e.2))
       | .scal sd => (u.sdst ++ u.ssrc).any (rangeMeets (sd, loadRegs e.2))))

/-- STNTs of the warp not acknowledged yet (R160). -/
def ntLeft (s : State) (wid : Nat) : Bool := s.net.groups.any (fun e => e.2.warp == wid && e.2.nt)

/-- Whether a copy is held by its bay engine (R271): not a failed one, nor a CHSEND that has no slot yet. -/
def engineHolds (c : CopyCmd) : Bool :=
  !c.done && (match c.kind with | .chan .. => !c.recvs.isEmpty | _ => true)

/-- Commands of the bay copy engine held for a core (R271) (DEDUCED, log 46). -/
def coreCopies (s : State) (core : Nat) : Nat := (s.net.copies.filter (fun e => e.2.core == core && engineHolds e.2)).length

/-- Commands held by the copy engine of a bay (R271). -/
def bayCopies (s : State) (bay : Nat) : Nat := (s.net.copies.filter (fun e => e.2.bay == bay && engineHolds e.2)).length

/-- The core whose plane array, accumulators, scratch and barriers serve a warp (R254). -/
def servingCore (s : State) (w : Warp) : Nat := ((blockOf s w).map homeCore).getD w.core

/-- Entries in the queue of a core's plane array (R202), the ends of blocks apart. -/
def planeLoad (c : Core) : Nat := (c.queue.filter (fun e => e.work != .blockEnd)).length

/-- The queue of the plane array is full (R202). -/
def planeFull (s : State) (w : Warp) : Bool := decide (8 ≤ planeLoad (coreOf s (servingCore s w)))

/-- WAITC's counter (R137). -/
def waitCounter (w : Warp) (k : Nat) : Nat :=
  match k with | 0 => w.ld | 1 => w.st | 2 => w.cp | _ => w.mx

/-- An instruction's own condition to issue (R137, R142, R171 to R174, R202, R271). -/
def ownWait (s : State) (x : Issue) : Bool :=
  match x.instr with
  | .waitc f => decide (f.imm.toNat < waitCounter x.w f.sub.toNat)
  | .regshrink f => decide (8 * f.sa.toNat < x.w.win) && (x.w.ld != 0 || x.w.mx != 0)
  | .fence f =>
    (f.imm.toNat / 8 == 0 && !x.w.storeQ.isEmpty) ||
      (f.imm.toNat / 8 != 0 && (f.imm.toNat % 8 == 1 || decide (3 ≤ f.imm.toNat % 8)) && x.w.ld != 0)
  | .accz _ | .accrel _ => planeFull s x.w
  | .cpyG2s _ | .cpyS2g _ | .cpyS2s _ | .cpgth _ | .cpsct _ | .cpxf _ | .coll _ | .chsend _ =>
    decide (16 ≤ coreCopies s x.w.core) || decide (128 ≤ bayCopies s (bayOfCore x.w.core))
  | _ => false

/-- Whether an instruction accesses memory (R160): every kind but the commands that act on accumulators alone. -/
def readsOrWrites (t : Traits) (i : Instr) : Bool :=
  match i with
  | .accz _ | .accrel _ => false
  | _ => t.acc != .none

/-- The unsatisfied dependences of an instruction (R75). -/
def stalls (s : State) (x : Issue) : Bool :=
  let t := traitsOf x.instr
  (t.ld && decide (63 ≤ x.w.ld)) || (t.st && decide (63 ≤ x.w.st)) || (t.cp && decide (63 ≤ x.w.cp))
    || (t.mx && decide (63 ≤ x.w.mx))
    || (x.w.release.isSome && (t.rel || t.acc == .store || t.acc == .atomic || t.acc == .copy || t.acc == .engine))
    || (x.w.drain && ntLeft s x.wid && (t.rel || readsOrWrites t x.instr))
    || (x.w.acqLoad.isSome && t.acc != .none)
    || (match relWait x.w x.instr with | some sc => !releaseDone s x.wid x.w sc | none => false)
    || ownWait s x

/-- The decode checks and dependences, in order (R43, R85): a verdict other than going on, or none. -/
def prologue (s : State) (x : Issue) : Option Verdict :=
  let u := usesOf x.w x.instr
  let ill := Verdict.trap (trapOf cILL x.b.lanes (word0 x.instr).toNat)
  if !x.instr.wf || !warpOk x.w x.instr then some ill
  else if waitsForLoad s x.wid u then some .stall
  else if !valuesOk x.w x.instr then some ill
  else match if x.w.trapMode then none else privOf x.instr with
  | some v => some (.trap (trapOf cPRIV x.b.lanes v))
  | none =>
    if roleBars x.w.role x.instr then some (.trap (trapOf cROLE x.b.lanes x.w.role))
    else if (match x.instr with | .gridbar _ => !recCoop x.record | _ => false) then
      some (.trap (trapOf cGRIDB x.b.lanes 0))
    else match regwOf x.w.win u with
    | some r => some (.trap (trapOf cREGW x.b.lanes r))
    | none => if stalls s x then some .stall else none

/-- The issue of a warp's instruction: the checks before it, then its meaning `body`, then the run's accounting. Without
an issuing sub-braid there is no such step. -/
def issue (i : Instr) (s : State) (body : Issue → State → Verdict × State) : Host.Outcome State Fault Refusal :=
  match issuerOf s i with
  | none => .fault .noIssuer
  | some x =>
    match prologue s x with
    | some v => .next (finish x (v, s))
    | none => .next (finish x (body x s))

/-- The issue of an instruction that raises nothing before POIS (R43): its marked sources are looked at first (R157), those of R104's
instructions too (DEDUCED, log 103). -/
def issueOp (i : Instr) (s : State) (body : Issue → State → Verdict × State) : Host.Outcome State Fault Refusal :=
  issue i s (fun x s => match poisOf x s with | some r => r | none => body x s)

/-- The issue of an instruction that changes only its warp and goes on. -/
def issueWarp (i : Instr) (s : State) (body : Issue → Warp → Warp) : Host.Outcome State Fault Refusal :=
  issueOp i s (fun x s => (.advance, modWarp s x.wid (body x)))

end Sys2Proof.Machine
end

