-- ==== Sys2Proof/Machine/Fetch.lean ====
section
/-! DEFINITION. Instruction fetch (R73, R74), and what lets a warp issue (R375, R390, R401, R450, R451, R467). -/

namespace Sys2Proof.Machine

/-- What the fetch at a PC gives: an instruction, or the trap of the fetch or of the decoder (R73, R85, R86); word 1 is fetched
where word 0 opens a long form of an assigned opcode (DEDUCED, log 90). -/
def fetchInstr (s : State) (core ctx : Nat) (pc : VAddr) (lanes : Mask) : Except Trap Instr × State :=
  let failed := fun (at' : VAddr) (e : Nat × Nat) => (⟨e.1, lanes, at'.toNat, e.2, decide (e.1 = cPAGE), false⟩ : Trap)
  match fetchWord s core ctx pc.toNat with
  | (.error e, s) => (.error (failed pc e), s)
  | (.ok w0, s) =>
    match decode (bytesOfWords [w0, 0]) with
    | .error _ => (.error (trapOf cILL lanes w0.toNat), s)
    | .ok (i, _) =>
      if w0.getLsbD 30 then
        match fetchWord s core ctx (pc + 4).toNat with
        | (.error e, s) => (.error (failed (pc + 4) e), s)
        | (.ok w1, s) =>
          match decode (bytesOfWords [w0, w1]) with
          | .error _ => (.error (trapOf cILL lanes w0.toNat), s)
          | .ok (i, _) => (.ok i, s)
      else (.ok i, s)

/-- A trap before an instruction is issued: at its address, for every issuing lane; the run ends. -/
def trapAtIssue (s : State) (wid : Nat) (w : Warp) (b : SubBraid) (t : Trap) : State :=
  let s := endRun (takeTrap s wid b.pc b.lastGrant t) w
  { modWarp s wid (fun w => stampReady w b.id s.clock) with focus := none }

/-- Whether a warp's block lets it issue: started, not halted, not being saved; its context not fenced (R375, R390, R401,
R443, R450, R467). -/
def mayIssue (s : State) (w : Warp) : Bool :=
  let x := ctxOf s (ctxOfWarp s w)
  (match blockOf s w with
   | none => false
   | some b => b.started && !b.ended && !b.halted && !s.saving.any (fun v => v.cluster == b.cluster))
    && !x.fencing && !bit x.cstat.toNat 0 && !s.power.changing && s.sec.fatal.isNone

/-- Whether the step credit lets a sub-braid be granted (R451). -/
def creditAllows (w : Warp) (b : SubBraid) : Bool :=
  !w.stepping || w.trapMode ||
    (match w.stepCredit with
     | none => true
     | some l => inMask b.lanes l || !w.braids.any (fun c => inMask c.lanes l))

/-- The sub-braid of a run, while it stands: its lanes are there and its block may go on. -/
def runBraid (s : State) (r : Run) : Option (Warp × SubBraid) :=
  (tget s.warps r.warp).bind fun w => if w.ended then none else (braidOf w r.sub).map fun b => (w, b)

end Sys2Proof.Machine
end

