-- ==== Sys2Proof/Machine/Life.lean ====
section
/-! DEFINITION. Barriers (R178 to R180, R243 to R247), the life of warps, blocks and clusters (R19, R130, R141, R139,
R252), and the deadlock check (R135). -/

namespace Sys2Proof.Machine

/-- A barrier's key in a warp's table of arrives: bb0-15, cb0-7 at 16, the grid at 24. -/
def barKey : Bar → Nat
  | .bb n => n
  | .cb n => 16 + n
  | .grid => 24

/-- The barrier of a key. -/
def barOf (k : Nat) : Bar := if k < 16 then .bb k else if k < 24 then .cb (k - 16) else .grid

/-- The release of an arrive (R174). -/
def barScope : Bar → Nat
  | .bb _ => 1
  | .cb _ => 2
  | .grid => 4

def resetArrive : Arrive := ⟨0, 0, false, none⟩
def arriveOf (w : Warp) (b : Bar) : Arrive := (tget w.arrives (barKey b)).getD resetArrive
def setArrive (w : Warp) (b : Bar) (a : Arrive) : Warp := { w with arrives := tput w.arrives (barKey b) a }

/-- The current phase of a barrier as a warp sees it. -/
def phaseOf (s : State) (w : Warp) (b : Bar) : Bool :=
  match b with
  | .bb n => ((blockOf s w).bind (fun k => k.bbs[n]?)).map (·.phase) |>.getD false
  | .cb n => ((clusterOf s w).bind (fun c => c.2.cbs[n]?)).map (·.phase) |>.getD false
  | .grid => (((blockOf s w).bind (gridOfBlock s)).map (fun g => g.2.phase)).getD false

/-- Whether the warp's arrival on a barrier in the current phase has completed (R178). -/
def hasArrived (s : State) (w : Warp) (wid : Nat) (b : Bar) : Bool :=
  (arriveOf w b).pending ||
    (match b with
     | .bb n => w.members.getD n .non == .arrived || (blockOf s w).any (fun k => k.oddEvents.contains (.arrive wid n))
     | b => (blockOf s w).any (fun k => ((tget k.cbDone (barKey b)).getD []).contains wid))

/-- The check of R178: the arrival completes when mk and m0 lie in X. It then waits for its release. -/
def checkArrive (s : State) (wid : Nat) (b : Bar) : State :=
  match tget s.warps wid with
  | none => s
  | some w =>
    let a := arriveOf w b
    if a.x != 0 && (mread w a.k &&& liveMask w &&& ~~~a.x) == 0 then
      modWarp s wid (fun w =>
        { setArrive w b { a with x := 0, pending := true, done := some (phaseOf s w b) } with
          release := some (max (barScope b) (w.release.getD 0)) })
    else s

/-- An arrive by lanes of a warp (R178): none when the lanes must park until the phase flips. -/
def arriveLanes (s : State) (wid : Nat) (b : Bar) (lanes : Mask) (k : Nat) : Option State :=
  match tget s.warps wid with
  | none => some s
  | some w =>
    match b with
    | .bb n =>
      match w.members.getD n .non with
      | .non => some s
      | .attaching | .joining => none
      | _ =>
        if hasArrived s w wid b then none
        else some (checkArrive (modWarp s wid (fun w =>
          let a := arriveOf w b
          setArrive w b { a with x := a.x ||| lanes, k := k })) wid b)
    | b =>
      if hasArrived s w wid b then none
      else some (checkArrive (modWarp s wid (fun w =>
        let a := arriveOf w b
        setArrive w b { a with x := a.x ||| lanes, k := k })) wid b)

/-- Whether a wait on a barrier completes at once, else the phase it waits to leave (R179, R180). -/
def waitPhase (s : State) (w : Warp) (b : Bar) : Option Bool :=
  match b with
  | .bb n =>
    if w.members.getD n .non == .non then none
    else (arriveOf w b).done.bind (fun p => if phaseOf s w b == p then some p else none)
  | b => (arriveOf w b).done.bind (fun p => if phaseOf s w b == p then some p else none)

/-- Whether parked lanes wait for a phase of a barrier to pass. -/
def waitsPhase (b : Bar) (p : Parked) : Bool := match p.cond with | .phase x _ => x == b | _ => false
/-- Whether parked lanes hold an arrive for the next phase of a barrier. -/
def waitsArrive (b : Bar) (p : Parked) : Bool := match p.cond with | .arrive x _ _ => x == b | _ => false

/-- An acquire (R174): at .die or wider it passes older lease copies, as R292 asks of .die too; in a seam-bonded cluster, whose
halves synchronise over two dies, at .blk and .cls as well (R287, R290) (DEDUCED, log 88). -/
def acquire (w : Warp) (clock scope : Nat) (seam : Bool) : Warp :=
  if 3 ≤ scope || (seam && decide (1 ≤ scope)) then { w with acqClock := clock } else w

/-- The arrives of one warp parked for the new phase are taken (R244 step 6). -/
def takeParkedGo (wid : Nat) (b : Bar) : List Parked → State → State
  | [], s => s
  | p :: ps, s =>
    match p.cond with
    | .arrive _ k wait_ =>
      match arriveLanes s wid b p.lanes k with
      | none => takeParkedGo wid b ps s
      | some s1 =>
        let waits := match tget s1.warps wid with
          | some w => if b == .grid then some (phaseOf s1 w b) else if wait_ then waitPhase s1 w b else none
          | none => none
        let s2 := modWarp s1 wid (fun w =>
          match waits with
          | some ph => { w with parked := w.parked.map (fun q => if q == p then { q with cond := .phase b ph } else q) }
          | none => releaseLanes w (fun q => q == p) p.lanes s1.clock)
        takeParkedGo wid b ps s2
    | _ => takeParkedGo wid b ps s

/-- Takes the parked arrives of a warp. -/
def takeParked (s : State) (wid : Nat) (b : Bar) : State :=
  match tget s.warps wid with
  | none => s
  | some w => takeParkedGo wid b (w.parked.filter (waitsArrive b)) s

/-- Warps in ascending WIDX. -/
def byWidx (ws : List (Nat × Warp)) : List Nat := (sortBy (fun a b => decide (a.2.widx ≤ b.2.widx)) ws).map Prod.fst

/-- The waits of warps on a barrier end and its parked arrives are taken in the new phase. -/
def wakeBar (s : State) (ws : List (Nat × Warp)) (b : Bar) : State :=
  let ids := byWidx ws
  let s := ids.foldl (fun s k => modWarp (unpark s k (waitsPhase b)) k (fun w => acquire w s.clock (barScope b) (recSeam (recordOf s w)))) s
  ids.foldl (fun s k => takeParked s k b) s

/-- The flip of a block barrier (R244). -/
def flipBar (s : State) (blk n : Nat) : State :=
  let s := modBlock s blk (fun k => { k with
    bbs := lmod k.bbs n (fun r => { e := r.e + r.pj - r.pl, a := 0, phase := !r.phase, pj := 0, pl := 0 }) })
  let ws := warpsOfBlock s blk
  let s := ws.foldl (fun s e => modWarp s e.1 (fun w => { w with
    members := lmod w.members n (fun m => if m == .arrived || m == .joining then .waiting else m) })) s
  wakeBar s (warpsOfBlock s blk) (.bb n)

/-- The flip test (R244). -/
def flipTest (s : State) (blk n : Nat) : State :=
  match (tget s.blocks blk).bind (fun k => k.bbs[n]?) with
  | some r => if r.a == r.e && (r.e != 0 || r.pj != 0) then flipBar s blk n else s
  | none => s

/-- A warp leaves a block barrier (R244). -/
def leaveBar (s : State) (wid : Nat) (w : Warp) (n : Nat) : State :=
  let f : BBar → BBar := match w.members.getD n .non with
    | .waiting => fun r => { r with e := r.e - 1 }
    | .arrived => fun r => { r with pl := r.pl + 1 }
    | .joining => fun r => { r with pj := r.pj - 1 }
    | .attaching | .non => id
  let s := modBlock s w.block (fun k => { k with bbs := lmod k.bbs n f })
  flipTest (modWarp s wid (fun w => { w with members := lset w.members n .non })) w.block n

/-- Whether a warp runs on the odd core of a paired block (R254). -/
def onOdd (s : State) (w : Warp) : Bool := (blockOf s w).any (fun b => b.core != w.core)

/-- The detach of a warp from the block barriers on which no arrival of it is pending (R245); from the odd core it
travels (R246). -/
def detachBars (s : State) (wid : Nat) (w : Warp) : State :=
  (List.range 16).foldl (fun s n =>
    if (arriveOf w (.bb n)).pending then s
    else if onOdd s w then modBlock s w.block (fun b => { b with oddEvents := b.oddEvents ++ [.detach wid n] })
    else match tget s.warps wid with
      | some w => leaveBar s wid w n
      | none => s) s

/-- A release at a core may let a placement pass find room (R370). -/
def passDue (s : State) : State := { s with dies := s.dies.map (fun d => { d with passDue := true }) }

/-- A knot passes to its oldest queued taker or becomes free (R331): the knot and who got it. -/
def passToken (k : Knot) : Knot × Option (Taker × Nat) :=
  match k.queue with
  | [] => ({ k with holder := none, giving := false }, none)
  | q :: qs => ({ k with holder := some q.1, queue := qs, giving := false }, some q)

/-- Changes a knot of a slice. -/
def modKnot (s : State) (slice krec : Nat) (f : Knot → Knot) : State :=
  modSlice s slice (fun y => { y with knots := y.knots.map (fun k => if k.krec == krec then f k else k) })

/-- HOLDER of a taker (R181); with none, and in bit 6 of a SIGNAL's, 0 (DESIGN CHOICE, log 122). -/
def holderWord (s : State) (t : Option Taker) : Nat :=
  match t with
  | none => 0
  | some (.signal q n) =>
    (((queueOf s q).started.find? (fun p => p.idx == n)).map (·.ctx)).getD (queueOf s q).ctx + 2 ^ 18 + 2 ^ 19 * q
  | some (.cluster c) =>
    match tget s.clusters c with
    | none => 0
    | some k =>
      let core := k.cores.headD 0
      let bs := ((tget k.blocks 0).bind (tget s.blocks)).map (·.bslot) |>.getD 0
      ((tget s.grids k.grid).map (·.ctx)).getD 0 + 2 ^ 6 * dieOfCore core + 2 ^ 7 * (bayOfCore core % 8)
        + 2 ^ 10 * (core % 12) + 2 ^ 14 * bs

/-- The context of a warp restarts its watchdog period (R389). -/
def restartWatchdog (s : State) (c : Nat) : State := modCtx s c (fun x => { x with restarted := true, cwcnt := 0 })

/-- Whether a block is paired (R254). -/
def pairedBlock (s : State) (b : Block) : Bool := (gridOfBlock s b).any (fun g => recPair g.2.record)

/-- Blocks resident on a core (R254: a paired block counts on both). -/
def blocksOnCore (s : State) (core : Nat) : List Nat :=
  (s.blocks.filter (fun e => !e.2.ended &&
    (e.2.core == core || (e.2.core + 1 == core && pairedBlock s e.2)))).map
    Prod.fst

/-- A core becomes fenced (R433): a record, the fence of every resident block's context. -/
def fenceCore (s : State) (core cause : Nat) : State :=
  let s := modCore s core (fun c => { c with fenced := true })
  let s := report s (dieOfCore core) ⟨0x06, 1, none, none, ⟨1, core⟩, 0, cause⟩
  let ctxs := ((blocksOnCore s core).filterMap (fun b => (tget s.blocks b).bind (fun b => (gridOfBlock s b).map (fun g => g.2.ctx)))).dedup
  ctxs.foldl (fun s c => startFence s c id) s

/-- A drained core is fenced once its last block has ended (R434). -/
def fenceDrained (s : State) (core : Nat) : State :=
  if (coreOf s core).drained && !(coreOf s core).fenced && (blocksOnCore s core).isEmpty then fenceCore s core 4 else s

/-- The flip of a cluster barrier: ended blocks count as arrived in the new phase (R180). -/
def flipCluster (s : State) (cid n : Nat) : State :=
  let s := modCluster s cid (fun c => { c with
    cbs := lmod c.cbs n (fun r => { r with phase := !r.phase, came := c.endedRanks, a := c.endedRanks.length }) })
  let blks := ((tget s.clusters cid).map (fun c => tvals c.blocks)).getD []
  let s := blks.foldl (fun s b => modBlock s b (fun k => { k with
    cbDone := terase k.cbDone (16 + n), cbLate := terase k.cbLate (16 + n) })) s
  blks.foldl (fun s b => wakeBar s (warpsOfBlock s b) (.cb n)) s

/-- A block arrival on a cluster barrier (R180). -/
def clusterArrive (s : State) (cid n rank : Nat) : State :=
  let s := modCluster s cid (fun c => { c with
    cbs := lmod c.cbs n (fun r => if r.came.contains rank then r else { r with came := rank :: r.came, a := r.a + 1 }) })
  match (tget s.clusters cid).bind (fun c => c.cbs[n]?) with
  | some r => if r.a == r.e then flipCluster s cid n else s
  | none => s

/-- The blocks of a grid that exist. -/
def blocksOfGrid (s : State) (g : Nat) : List Nat :=
  (s.blocks.filter (fun e => ((tget s.clusters e.2.cluster).map (·.grid)) == some g)).map Prod.fst

/-- The flip of the grid barrier (R180). -/
def flipGrid (s : State) (g : Nat) : State :=
  let s := modGrid s g (fun r => { r with phase := !r.phase, came := r.endedBlocks })
  let blks := blocksOfGrid s g
  let s := blks.foldl (fun s b => modBlock s b (fun k => { k with
    cbDone := terase k.cbDone 24, cbLate := terase k.cbLate 24 })) s
  let mine := fun (v : Saved) => ((tget s.clusters v.cluster).map (·.grid)) == some g
  let s := { s with saved := s.saved.map (fun v => if mine v then
    { v with blocks := v.blocks.map (fun e => (e.1, { e.2 with cbDone := terase e.2.cbDone 24, cbLate := terase e.2.cbLate 24 })) }
    else v) }
  blks.foldl (fun s b => wakeBar s (warpsOfBlock s b) .grid) s

/-- A block arrival on the grid barrier (R180). -/
def gridArrive (s : State) (g cidx rank : Nat) : State :=
  let s := modGrid s g (fun r => if r.came.contains (cidx, rank) then r else { r with came := (cidx, rank) :: r.came })
  match tget s.grids g with
  | some r => if r.came.length == recGrid r.record * recCsize r.record then flipGrid s g else s
  | none => s

/-- Frees a block's accumulator slots on its core (R141). -/
def freeBlockSlots (s : State) (bid core : Nat) : State :=
  modCore s core (fun c => { c with
    accOwner := c.accOwner.map (fun o => if (o.map Prod.fst) == some bid then none else o) })

/-- The return of an ended block's accumulator slots enters the plane array's queue, as its ACCRELs would (R141, R207). -/
def queueBlockEnd (s : State) (bid core : Nat) : State :=
  modCore s core (fun c => { c with
    queue := c.queue ++ [⟨bid, none, false, c.opCount, [], .blockEnd, 0, [], [], none⟩] })

/-- A cluster has ended: tokens it holds are given, and its queued takers leave (R185, R331). -/
def endTaker (s : State) (t : Taker) : State :=
  (List.range 128).foldl (fun s i =>
    (sliceOf s i).knots.foldl (fun s k =>
      let s := modKnot s i k.krec (fun k => { k with queue := k.queue.filter (fun q => q.1 != t) })
      if k.holder == some t then modKnot s i k.krec (fun k => { k with giving := true }) else s) s) s

/-- A device KGIVE request for each token a taker still holds. -/
def giveRequests (s : State) (t : Taker) : State :=
  (List.range 128).foldl (fun s i =>
    ((sliceOf s i).knots.filter (fun k => k.holder == some t)).foldl (fun s k =>
      let (id, s) := nextId s
      modNet s (fun n => { n with knots := tput n.knots id ⟨id, none, t, k.krec, 0, .give, some id, false, none, true, none⟩ })) s) s

/-- A block ends (R19, R141, R263, R280): barriers count it, its slots and scratch return, its channels close; the
cluster ends with its last block. -/
def endBlock (s : State) (bid : Nat) : State :=
  match tget s.blocks bid with
  | none => s
  | some b =>
    if b.ended then s
    else
      let cores := if pairedBlock s b then [b.core, b.core + 1] else [b.core]
      let s := queueBlockEnd s bid b.core
      let s := modBlock s bid (fun b => { b with
        ended := true, scratch := [], lineCopies := [], absent := [], linePois := [], rings := [], chSlots := [], chNext := [], chWait := [], faults := [],
        accs := List.replicate 16 .unmapped, hitches := [] })
      let s := modCluster s b.cluster (fun c => { c with endedRanks := b.rank :: c.endedRanks })
      let s := (List.range 8).foldl (fun s n => clusterArrive s b.cluster n b.rank) s
      let s := match tget s.clusters b.cluster with
        | none => s
        | some c =>
          let s := modGrid s c.grid (fun g => { g with
            ended := g.ended + 1, endedBlocks := (c.index, b.rank) :: g.endedBlocks })
          let s := gridArrive s c.grid c.index b.rank
          let s := restartWatchdog s (((tget s.grids c.grid).map (·.ctx)).getD 0)
          let g := tget s.grids c.grid
          if c.endedRanks.length == (g.map (fun g => recCsize g.record)).getD 1 then
            let s := { s with saving := s.saving.filter (fun v => v.cluster != b.cluster || s.saved.any (fun x => x.cluster == b.cluster)) }
            giveRequests (endTaker s (.cluster b.cluster)) (.cluster b.cluster)
          else s
      let s := (tkeys s.warps).foldl (fun s k => reissue s k (fun p =>
        match p.cond with | .chSend id => (b.chWait.map Prod.snd).contains id | _ => false)) s
      let s := modNet s (fun n => { n with copies := n.copies.filter (fun e => !(b.chWait.map Prod.snd).contains e.1) })
      passDue (cores.foldl fenceDrained s)

/-- A warp ends (R130, R141): it leaves its barriers, issues nothing more, and its block ends with its last warp. -/
def endWarp (s : State) (wid : Nat) : State :=
  match tget s.warps wid with
  | none => s
  | some w =>
    let s := modWarp s wid (fun w => { w with
      ended := true, braids := [], deferred := [], parked := [], held := [], trapMode := false })
    let s := detachBars s wid w
    if (warpsOfBlock s w.block).all (fun e => e.2.ended) then endBlock s w.block else s

/-- Trap mode ends with the last handler lane's exit (R399). -/
def leaveTrap (w : Warp) (clock : Nat) : Warp :=
  if w.trapMode && handlerLanes w == 0 then releaseHeld w [] clock else w

/-- Lanes exit (R130): they leave m0 to m11, and their PC, predicates and nesting counters are no more. -/
def exitLanes (w : Warp) (m : Mask) (clock : Nat) : Warp :=
  let w := takeOut w m
  let w := { w with
    masks := w.masks.map (fun k => k &&& ~~~m)
    preds := w.preds.map (fun p => p &&& ~~~m)
    nest := (lanesOf m).foldl (fun t l => terase t l) w.nest }
  leaveTrap (promote w clock) clock

/-- The deadlock check (R135): every live lane parked at a WAIT or a DETACH, and no WAIT can complete. -/
def deadlocked (w : Warp) : Bool :=
  liveMask w != 0 && !w.ended && w.held.isEmpty &&
    (w.parked.foldl (fun acc p => match p.cond with | .mask _ | .detach => acc ||| p.lanes | _ => acc) 0) == liveMask w

/-- ETVAL of RECON: a bit for each mask some lane awaits; DETACH counts as m0. -/
def reconEtval (w : Warp) : Nat :=
  (w.parked.foldl (fun (acc : BitVec 32) p =>
    match p.cond with
    | .mask k => acc ||| BitVec.ofNat 32 (2 ^ k)
    | .detach => acc ||| 1
    | _ => acc) 0).toNat

/-- The address at which each lane is parked. -/
def parkedAt (w : Warp) : Tbl VAddr :=
  (lanesOf (liveMask w)).map (fun l => (l, ((w.parked.find? (fun p => inMask p.lanes l)).map (·.pc)).getD 0))

/-- RECON when a warp is deadlocked (R135). -/
def reconCheck (s : State) (wid : Nat) : State :=
  match tget s.warps wid with
  | none => s
  | some w =>
    if deadlocked w then
      let at' := parkedAt w
      let lanes := parkedLanes w
      let s := modWarp s wid (fun w => { w with reconAt := at' })
      takeTrap s wid (tgetD at' (lowestLane lanes) 0) (w.parked.foldl (fun a p => min a p.lastGrant) s.clock)
        (trapOf cRECON lanes (reconEtval w))
    else s

/-- After an instruction that can complete WAITs (R134): the masks are re-examined, then the warp detaches when every
live lane is parked at a DETACH (R141), or RECON is raised (R135). -/
def settleWarp (s : State) (wid : Nat) : State :=
  let s := modWarp s wid (fun w => examineMasks w s.clock)
  match tget s.warps wid with
  | none => s
  | some w =>
    let det := w.parked.foldl (fun acc p => if p.cond == .detach then acc ||| p.lanes else acc) (0 : Mask)
    if !w.ended && liveMask w == det then endWarp s wid else reconCheck s wid

/-- EXIT of lanes (R130): then the arrivals of R178 are checked, WAITs re-examined, and an empty warp ends. -/
def exitOp (s : State) (wid : Nat) (m : Mask) : State :=
  let s := modWarp s wid (fun w => exitLanes w m s.clock)
  let s := (List.range 25).foldl (fun s k => checkArrive s wid (barOf k)) s
  settleWarp s wid

/-- Granules of a window (R22). -/
def granules (win width : Nat) : Nat := win / 8 * (if width = 64 then 2 else 1)

/-- The warps of a core that hold a slot, ended ones included. -/
def warpsOnCore (s : State) (core : Nat) : List Warp := (tvals s.warps).filter (fun w => w.core == core && !w.returned)

/-- Slots in use on a core (R20). -/
def slotsUsed (s : State) (core : Nat) : List Nat :=
  (warpsOnCore s core).flatMap (fun w => if w.width = 64 then [w.slot, w.slot + 1] else [w.slot])

/-- Free vector granules of a quadrant (R22). -/
def granulesFree (s : State) (core quad : Nat) : Nat :=
  128 - ((warpsOnCore s core).filter (fun w => quadOf w.slot == quad)).foldl (fun acc w => acc + granules w.win w.width) 0

/-- Free slots (even slots of free pairs for width 64) of a quadrant, ascending. -/
def slotsFree (s : State) (core quad width : Nat) : List Nat :=
  let used := slotsUsed s core
  ((List.range 12).map (fun k => 12 * quad + k)).filter (fun k =>
    !used.contains k && (width != 64 || (k % 2 == 0 && !used.contains (k + 1))))

/-- The slot of an attached warp (R139): the lowest-numbered quadrant that fits, its lowest free slot. -/
def attachSlot (s : State) (core width win : Nat) : Option Nat :=
  (List.range 4).findSome? (fun q =>
    if granules win width ≤ granulesFree s core q then (slotsFree s core q width).head? else none)

/-- The slot of a warp at block start (R252): the quadrant with the most free slots that holds the granules. -/
def startSlot (s : State) (core width win : Nat) : Option Nat :=
  let qs := (List.range 4).filter (fun q =>
    granules win width ≤ granulesFree s core q && !(slotsFree s core q width).isEmpty)
  let best := qs.foldl (fun (acc : Option Nat) q =>
    match acc with
    | none => some q
    | some a => if (slotsFree s core a width).length < (slotsFree s core q width).length then some q else acc) none
  best.bind (fun q => (slotsFree s core q width).head?)

/-- A new warp (R19, R25, R28, R139): `args` s0 to s31, `members` its standing at the block barriers. -/
def newWarp (record : List Byte) (block core slot widx : Nat) (pc : VAddr) (fctl : Word) (args : List Word)
    (members : List Member) (clock : Nat) : Warp :=
  let width := recWidth record
  { block := block, core := core, slot := slot, widx := widx, width := width, role := recRole record widx,
    win := recVregs record, vregs := [],
    sregs := ((List.range 32).zip args).filter (fun e => e.2 != 0),
    preds := List.replicate 7 0, masks := widthMask width :: List.replicate 11 0, nest := [],
    tiles := List.replicate 8 ⟨false, 0⟩, ld := 0, st := 0, cp := 0, mx := 0, cwCls := 0, cwDie := 0, cwDev := 0,
    cwSys := 0, fstat := 0, fctl := fctl, clkhi := 0, epc := 0, ecause := 0, emask := 0, eaddr := 0, etval := 0,
    trapMode := false, reconAt := [], mchk := none, marks := [], smarks := [], owed := [],
    braids := [⟨0, widthMask width, pc, clock, clock, 0⟩], deferred := [], parked := [], held := [], nextId := 1,
    stepping := false, stepCredit := none, exempt := 0, members := members, arrives := [], storeQ := [], release := none,
    drain := false, acqClock := 0, acqLoad := none, ended := false, returned := false }

/-- Adds a warp to the state. -/
def addWarp (s : State) (w : Warp) : State :=
  let (id, s) := nextId s
  { s with warps := tput s.warps id w }

/-- A warp index of a block that no warp holds, ended or detached warps apart that hold no signature (R139). -/
def freeWidx (s : State) (blk : Nat) : Option Nat :=
  let used := (warpsOfBlock s blk).filterMap (fun e =>
    let signed := ((tget s.blocks blk).map (fun b => b.hitches.any (fun h => h.sigs.any (fun g => g.warp == e.1)))).getD false
    if e.2.ended && !signed then none else some e.2.widx)
  (List.range 96).find? (fun k => !used.contains k)

/-- One warp attached to a block (R139), on the attacher's core or, for a paired block, the partner: none when it does
not fit. As every warp of its grid it starts with an acquire at .dev (R296). -/
def attachOne (s : State) (att : Warp) (label : VAddr) (members : BitVec 16) (args : List Word) (fctl : Word) :
    Option State :=
  let rec_ := recordOf s att
  let partner := if att.core % 2 = 0 then att.core + 1 else att.core - 1
  let cores := if recPair rec_ then [att.core, partner] else [att.core]
  (cores.findSome? (fun c => (attachSlot s c (recWidth rec_) (recVregs rec_)).map (fun k => (c, k)))).bind (fun p =>
    (freeWidx s att.block).map (fun i =>
      let ms := (List.range 16).map (fun n =>
        if members.getLsbD n then (if onOdd s att then Member.attaching else Member.joining) else Member.non)
      let s := addWarp s { newWarp rec_ att.block p.1 p.2 i label fctl args ms s.clock with acqClock := s.clock }
      let wid := s.fresh - 1
      modBlock s att.block (fun b => { b with
        cbLate := (List.range 9).foldl (fun t n =>
          if ((tget b.cbDone (16 + n)).getD []).isEmpty then t else tput t (16 + n) (wid :: (tget t (16 + n)).getD []))
          b.cbLate })))

/-- Attaches up to `n` warps: how many, and the state. -/
def attachMany (att : Warp) (label : VAddr) (members : BitVec 16) (args : List Word) (fctl : Word) : Nat → State → Nat × State
  | 0, s => (0, s)
  | n + 1, s =>
    match attachOne s att label members args fctl with
    | none => (0, s)
    | some s =>
      let r := attachMany att label members args fctl n s
      (r.1 + 1, r.2)

/-- The event "ATTACH grants" at one block barrier (R244): PJ grows by the new warps, then the flip test. A new warp of an odd core
whose detach has reached the barrier first is not counted (R246) (DESIGN CHOICE, log 101). -/
def joinBar (s : State) (blk : Nat) (ids : List Nat) (n : Nat) : State :=
  let ids := ids.filter (fun k => ((tget s.warps k).map (fun w => w.members.getD n .non)) == some .attaching
    || ((tget s.warps k).map (fun w => w.members.getD n .non)) == some .joining)
  if ids.isEmpty then s
  else
    let s := ids.foldl (fun s k => modWarp s k (fun w => { w with members := lset w.members n .joining })) s
    flipTest (modBlock s blk (fun b => { b with bbs := lmod b.bbs n (fun r => { r with pj := r.pj + ids.length }) })) blk n

/-- The barriers named by an ATTACH count its new warps (R139, R244); from the odd core the event travels (R246). -/
def joinBars (s : State) (att : Warp) (members : BitVec 16) (ids : List Nat) : State :=
  if ids.isEmpty then s
  else
    let ns := (List.range 16).filter (fun n => members.getLsbD n)
    if onOdd s att then
      modBlock s att.block (fun b => { b with oddEvents := b.oddEvents ++ ns.map (OddEvent.attach ids) })
    else ns.foldl (fun s n => joinBar s att.block ids n) s

/-- ATTACH's grant of up to `n` warps (R139): how many, and the state. -/
def attachAll (att : Warp) (label : VAddr) (members : BitVec 16) (args : List Word) (fctl : Word) (n : Nat) (s : State) :
    Nat × State :=
  let r := attachMany att label members args fctl n s
  (r.1, joinBars r.2 att members ((List.range (r.2.fresh - s.fresh)).map (fun k => s.fresh + k)))

/-- g_max (R139). -/
def attachMax (s : State) (w : Warp) (c : Nat) : Nat :=
  let b := if recPair (recordOf s w) then 96 else 48
  min c (b - ((warpsOfBlock s w.block).filter (fun e => !e.2.ended)).length)

/-- Resizes a window: granules that leave are cleared, tile views beyond it become invalid (R24, R29, R142). -/
def setWindow (w : Warp) (n : Nat) : Warp :=
  { w with
    win := n
    vregs := w.vregs.filter (fun e => decide (e.1 / 64 < n))
    marks := w.marks.filter (fun e => decide (e.1 / 64 < n))
    tiles := w.tiles.map (fun t => if n ≤ t.base + 31 then { t with valid := false } else t) }

end Sys2Proof.Machine
end

