-- ==== Sys2Proof/Machine/Resource.lean ====
section
/-! DEFINITION. The core's resource queue (R248 to R251), the accumulator slots (R206) and the requests that wait. -/

namespace Sys2Proof.Machine

/-- The owner of a slot that holds name n of a block: 32 + n when the slot is of the block's reservation (R206). -/
def slotName (o : Option (Nat × Nat)) : Option (Nat × Nat) := o.map (fun p => (p.1, p.2 % 16))

/-- The accumulator slot that a name of a block would take: its reservation first, then the core's free list (R206). -/
def findSlot (s : State) (blk : Nat) (b : Block) : Option (Nat × Bool) :=
  match b.accFree with
  | k :: _ => some (k, true)
  | [] => ((List.range 8).find? (fun k => (coreOf s b.core).accOwner.getD k (some (blk, 0)) == none)).map (fun k => (k, false))

/-- The elements of a slot all become +0 (R206, R207). -/
def zeroSlot (s : State) (core slot : Nat) : State :=
  modCore s core (fun c => { c with accs := c.accs.filter (fun e => e.1 / 16384 != slot) })

/-- Maps name n of a block to a slot with every element 0. -/
def mapName (s : State) (blk n : Nat) (k : Nat × Bool) : State :=
  match tget s.blocks blk with
  | none => s
  | some b =>
    let s := zeroSlot s b.core k.1
    let s := modCore s b.core (fun c => { c with accOwner := lset c.accOwner k.1 (some (blk, if k.2 then 32 + n else n)) })
    modBlock s blk (fun b => { b with accs := lset b.accs n (.mapped k.1), accFree := b.accFree.filter (fun x => x != k.1) })

/-- Frees the slot of a name (R30, R206): a reserved slot returns to the block's reservation. -/
def unmapName (s : State) (blk n : Nat) : State :=
  match tget s.blocks blk with
  | none => s
  | some b =>
    match b.accs.getD n .unmapped with
    | .unmapped => s
    | .mapped k | .poisoned k =>
      let reserved := decide (((coreOf s b.core).accOwner.getD k none).map Prod.snd = some (32 + n))
      let s := modCore s b.core (fun c => { c with accOwner := lset c.accOwner k (if reserved then some (blk, 16) else none) })
      modBlock s blk (fun b => { b with
        accs := lset b.accs n .unmapped
        accFree := if reserved then b.accFree ++ [k] else b.accFree
        mstat := b.mstat &&& ~~~(BitVec.ofNat 32 (2 ^ n)) })

/-- Whether the oldest entry of a queue has waited 16 384 clocks (R249). -/
def agedHead (s : State) (core : Nat) : Option ResEnt :=
  (coreOf s core).resQ.head?.bind (fun e => if e.since + 16384 ≤ s.clock then some e else none)

/-- The core that shares a paired block with a core (R254). -/
def partnerCore (core : Nat) : Nat := if core % 2 = 0 then core + 1 else core - 1

/-- The cores whose slots and granules a request needs: the partner's too for a paired block's ATTACH (R139, R249). -/
def reqCores (s : State) (w : Warp) (r : ResReq) : List Nat :=
  match r with
  | .attach .. => if recPair (recordOf s w) then [w.core, partnerCore w.core] else [w.core]
  | _ => [w.core]

/-- Whether two requests need a resource of one kind in one quadrant, or both an accumulator slot (R249). -/
def contends (s : State) (v : Warp) (e : ResReq) (w : Warp) (r : ResReq) : Bool :=
  match e, r with
  | .acc .., .acc .. => true
  | .acc .., _ | _, .acc .. => false
  | .grow .., .grow .. => v.core == w.core && quadOf v.slot == quadOf w.slot
  | _, _ => (reqCores s v e).any (fun k => (reqCores s w r).contains k)

/-- Whether an aged oldest entry, of the request's own queue or of the partner core's, holds a request back that entered at
`since` (R249); `first` when it is its queue's oldest. A mapping into the block's own reservation never waits (R206). -/
def heldBack (s : State) (core : Nat) (w : Warp) (r : ResReq) (since : Nat) (first : Bool) : Bool :=
  let holds := fun (o : Option ResEnt) => o.any (fun e => (tget s.warps e.warp).any (fun v => contends s v e.req w r))
  match r with
  | .acc .. => (blockOf s w).any (fun b => b.accFree.isEmpty) && !first && holds (agedHead s core)
  | _ => (!first && holds (agedHead s core)) ||
      holds ((agedHead s (partnerCore core)).bind (fun e => if e.since < since then some e else none))

/-- A request granted now (R249): the state after it, none when it does not fit. Accumulator mappings are used by the
instruction, which is executed again. A waiting ATTACH.wait takes g_max and the attacher's FCTL as they stand at the grant
(DESIGN CHOICE, log 86); `m` are the lanes that wait for it. -/
def grantNow (s : State) (wid : Nat) (m : Option Mask) (r : ResReq) : Option State :=
  (tget s.warps wid).bind fun w =>
    match r with
    | .attach sd c label members args =>
      let n := attachMax s w c
      let r := attachAll w label members args w.fctl n s
      if r.1 = n then some (modWarp r.2 wid (fun w => swriteOwed w m sd (BitVec.ofNat 32 n))) else none
    | .grow sd n =>
      if 8 * n ≤ w.win then some (modWarp s wid (fun w => swriteOwed w m sd (BitVec.ofNat 32 w.win)))
      else if granules (8 * n) w.width - granules w.win w.width ≤ granulesFree s w.core (quadOf w.slot) then
        some (modWarp s wid (fun w => swriteOwed (setWindow w (8 * n)) m sd (BitVec.ofNat 32 (8 * n))))
      else none
    | .acc n _ => (blockOf s w).bind fun b =>
      match b.accs.getD n .unmapped with
      | .unmapped => (findSlot s w.block b).map (fun k => mapName s w.block n k)
      | _ => some s

/-- The wait of a granted or refused request ends: an accumulator's instruction is executed again (R206). -/
def endRequest (s : State) (e : ResEnt) : State :=
  match e.req with
  | .acc .. => reissue s e.warp (fun p => p.cond == .resource && p.pc == e.sub.pc)
  | _ => unpark s e.warp (fun p => p.cond == .resource && p.pc == e.sub.pc)

/-- Takes an entry out of a core's queue. -/
def dropEntry (s : State) (core : Nat) (e : ResEnt) : State := modCore s core (fun c => { c with resQ := c.resQ.erase e })

/-- The oldest entry that can be granted (R249), with the state after the grant. -/
def serveGo (s : State) (core : Nat) : Bool → List ResEnt → Option State
  | _, [] => none
  | first, e :: es =>
    let held := (tget s.warps e.warp).any (fun w => heldBack s core w e.req e.since first)
    match if held then none else grantNow s e.warp (some e.sub.lanes) e.req with
    | some s1 => some (endRequest (dropEntry s1 core e) e)
    | none => serveGo s core false es

/-- One grant of the resource queue. -/
def serveOne (s : State) (core : Nat) : Option State := serveGo s core true (coreOf s core).resQ

/-- Every grant that the queue allows now. -/
def serveAll (core : Nat) : Nat → State → State
  | 0, s => s
  | n + 1, s => match serveOne s core with
    | some s => serveAll core n s
    | none => s

/-- The queue of a core is served (R249). -/
def serveCore (s : State) (core : Nat) : State := serveAll core ((coreOf s core).resQ.length + 1) s

/-- The queues of a core and of its partner are served after a release (R249). -/
def servePair (s : State) (core : Nat) : State := serveCore (serveCore s core) (partnerCore core)

/-- Parks an instruction with a request in the resource queue (R248) of a core. A warp has one entry: a request of another
sub-braid stalls until it is gone (DEDUCED, log 87). -/
def enqueueRequest (s : State) (x : Issue) (core : Nat) (r : ResReq) : Verdict × State :=
  if s.cores.any (fun c => c.resQ.any (fun e => e.warp == x.wid)) then (.stall, s)
  else
  let p : Parked := ⟨x.b.lanes, x.b.pc, nextPc x.b.pc x.instr, .resource, x.b.lastGrant, x.w.trapMode⟩
  let s := modCore s core (fun c => { c with resQ := c.resQ ++ [⟨x.wid, p, r, s.clock⟩] })
  parkAll s x .resource

/-- Whether a request asks for nothing: an ATTACH.wait whose g_max is 0 (R139). -/
def asksNothing (s : State) (w : Warp) (r : ResReq) : Bool :=
  match r with
  | .attach _ c _ _ _ => attachMax s w c == 0
  | _ => false

/-- A request made by an instruction, once the older entries that fit are granted: granted at once when it fits and no older
entry holds it back, else it waits (R249). -/
def requestNow (s : State) (x : Issue) (core : Nat) (r : ResReq) : Option State :=
  let s := serveCore s core
  (tget s.warps x.wid).bind fun w =>
    if !asksNothing s w r && heldBack s core w r s.clock false then none else grantNow s x.wid none r

/-- A refused request (R251). -/
def refuse (s : State) (core : Nat) (e : ResEnt) : State :=
  let s := dropEntry s core e
  match e.req with
  | .attach sd .. => endRequest (modWarp s e.warp (fun w => swriteOwed w (some e.sub.lanes) sd 0)) e
  | .grow sd _ => endRequest (modWarp s e.warp (fun w => swriteOwed w (some e.sub.lanes) sd (BitVec.ofNat 32 w.win))) e
  | .acc n _ => takeTrap s e.warp e.sub.pc e.sub.lastGrant (trapOf cACCX e.sub.lanes n)

/-- The signatures of a warp in rounds that stall behind an accumulator mapping: their last signer waits in the queue of
the core that holds the block's accumulators (R204, R250). -/
def stalledSigs (s : State) (wid : Nat) (w : Warp) : Nat :=
  match blockOf s w with
  | none => 0
  | some b => (b.hitches.zipIdx.filter (fun h => h.1.sigs.any (fun g => g.warp == wid) &&
      (coreOf s b.core).resQ.any (fun e => match e.req with
        | .acc _ k => k == some h.2 && ((tget s.warps e.warp).map (·.block)) == some w.block
        | _ => false))).length

/-- A warp that cannot go on without the queue (R250): it waits in it, or at WAITC on MX behind it. `mxLimits` are
the limits of the WAITCs on MX that its sub-braids wait at. -/
def resourceBound (s : State) (wid : Nat) (w : Warp) (mxLimits : List Nat) : Bool :=
  w.parked.any (fun p => p.cond == .resource) || mxLimits.any (fun n => decide (n < stalledSigs s wid w))

end Sys2Proof.Machine
end

