-- ==== Sys2Proof/Machine/Scratch.lean ====
section
/-! DEFINITION. Scratch: addresses and bounds (R260, R261), the port (R264), presence and poison (R265, R266),
watchpoints (R452), and the accesses of warps to it (R156, R157, R471). -/

namespace Sys2Proof.Machine

/-- A rank's place as one number: rank * 2^20 + offset. -/
def placeCode (rank off : Nat) : Nat := rank * 2 ^ 20 + off
def codeRank (c : Nat) : Nat := c / 2 ^ 20
def codeOff (c : Nat) : Nat := c % 2 ^ 20

/-- SCRG of the issuer's kernel in bytes (R261). -/
def scratchBytes (record : List Byte) : Nat := recScrg record * 4096

/-- The place that `n` bytes at a scratch address name (R260, R261), none for SCRB. -/
def scratchPlace (record : List Byte) (rank a n : Nat) : Option Nat :=
  let off := a % 2 ^ 19
  let r := bits a 20 4
  let inside := decide (off + n ≤ scratchBytes record)
  if a / 2 ^ 24 = 0 then (if bits a 19 5 = 0 ∧ inside then some (placeCode rank off) else none)
  else if a / 2 ^ 24 = 1 then
    (if bit a 19 = false ∧ r < 12 ∧ r < recCsize record ∧ inside then some (placeCode r off) else none)
  else none

/-- The rank of a warp's block. -/
def rankOf (s : State) (w : Warp) : Nat := ((blockOf s w).map (·.rank)).getD 0
/-- The cluster of a warp. -/
def clusterIdOf (s : State) (w : Warp) : Nat := ((blockOf s w).map (·.cluster)).getD 0

/-- The block of a rank of a cluster, if it has been placed. -/
def rankBlock (s : State) (cluster rank : Nat) : Option (Nat × Block) :=
  (tget s.clusters cluster).bind fun c => (tget c.blocks rank).bind fun b => (tget s.blocks b).map fun k => (b, k)

/-- Whether a block is still on its way to its core (R370, R371). -/
def onTheWay (s : State) (b : Block) : Bool :=
  s.dies.any (fun d => (d.placing ++ d.forwarded).any (fun p => p.cluster == b.cluster && p.rank == b.rank))

/-- The block of a rank whose allocation exists on its core: what comes there before is held (R471). -/
def placedBlock (s : State) (cluster rank : Nat) : Option (Nat × Block) :=
  (rankBlock s cluster rank).bind fun b => if onTheWay s b.2 then none else some b

/-- Whether a rank's scratch is the warp's own core's (R254, R262). -/
def isLocal (s : State) (w : Warp) (rank : Nat) : Bool := (blockOf s w).any (fun b => b.rank == rank && b.core == w.core)

/-- Whether the lines of `n` bytes at an offset are present (R265). -/
def linesPresent (b : Block) (off n : Nat) : Bool :=
  (List.range ((off + n - 1) / 128 + 1 - off / 128)).all (fun k => (tget b.absent (off / 128 + k)).isNone)

/-- Whether some line of `n` bytes at an offset is poisoned (R266). -/
def linesPoisoned (b : Block) (off n : Nat) : Bool :=
  (List.range ((off + n - 1) / 128 + 1 - off / 128)).any (fun k => b.linePois.contains (off / 128 + k))

/-- ALIGN then SCRB of scratch addresses per lane (R153, R154, R261). -/
def scratchFault (x : Issue) (rank size : Nat) (addrs : List (Nat × Nat)) : Option Trap :=
  let mis := addrs.filter (fun e => e.2 % size != 0)
  let out := addrs.filter (fun e => (scratchPlace x.record rank e.2 size).isNone)
  match mis, out with
  | e :: _, _ => some ⟨cALIGN, maskOf (mis.map Prod.fst), e.2, size, false, false⟩
  | [], e :: _ => some ⟨cSCRB, maskOf (out.map Prod.fst), e.2, recScrg x.record, false, false⟩
  | [], [] => none

/-- The faults of a uniform instruction name every issuing lane (R158). -/
def uniformLanes (x : Issue) (t : Trap) : Trap := { t with lanes := x.b.lanes }

/-- Whether a watchpoint matches an access (R452): kind bit 0 read, bit 1 write. -/
def watchHits (v : Watch) (code size : Nat) (rd wr : Bool) : Bool :=
  v.armed && ((rd && bit v.kind 0) || (wr && bit v.kind 1)) && decide (code < v.lo + v.len) && decide (v.lo < code + size)

/-- WATCH (R452): the lowest matching watchpoint of any lane, the lanes that overlap it. -/
def watchTrap (s : State) (x : Issue) (size : Nat) (cells : List (Nat × Nat × Nat)) (rd wr : Bool) : Option Trap :=
  if x.w.exempt &&& x.b.lanes != 0 || x.w.trapMode then none
  else
    let ws := ((blockOf s x.w).map (·.watches)).getD []
    let hitBy := fun (c : Nat) => ws.any (fun v => watchHits v c size rd wr)
    let lanes := cells.filter (fun e => hitBy e.2.1)
    match lanes with
    | [] => none
    | e :: _ =>
      let idx := (List.range ws.length).find? (fun k => lanes.any (fun c =>
        match ws[k]? with | some v => watchHits v c.2.1 size rd wr | none => false))
      some ⟨cWATCH, maskOf (lanes.map Prod.fst), e.2.2, idx.getD 0, false, false⟩

/-- Slots of the ring header at an offset (R186). -/
def ringSlots (b : Block) (off : Nat) : Nat := bits (ofBytes (bytesAt b.scratch off 4)) 2 6 + 1

/-- Changes scratch bytes of a block by a store, an atomic or a copy: a ring header under them is no more as RINIT and the
ring's own operations left it (R186, R270). -/
def putScratch (b : Block) (off : Nat) (bs : List Byte) : Block :=
  { b with
    scratch := setBytes b.scratch off bs
    rings := b.rings.map (fun r =>
      (r.1, r.2 && !(decide (off < r.1 + 16 + 8 * ringSlots b r.1) && decide (r.1 < off + bs.length)))) }

/-- A load's part performed at a port: its bytes and poison; an ended block reads 0 (R471). -/
def loadPart (b : Block) (size : Nat) (p : LanePart) : LanePart :=
  if b.ended then { p with value := some (List.replicate size 0), pois := false }
  else { p with
    value := some (bytesAt b.scratch (codeOff p.addr) size)
    pois := linesPoisoned b (codeOff p.addr) size }

/-- An atomic's part performed at a port (R166, R157): the element, and the part with the old value. -/
def atomPart (op : AtomOp) (b : Block) (p : LanePart) : Block × LanePart :=
  let n := atomBytes op.ty
  if b.ended then (b, { p with value := some (List.replicate n 0), pois := false })
  else if linesPoisoned b (codeOff p.addr) n then (b, { p with value := some (List.replicate n 0), pois := true })
  else
    let old := bytesAt b.scratch (codeOff p.addr) n
    (putScratch b (codeOff p.addr)
        (toBytes n (atomApply op.aop op.ty (ofBytes old) (ofBytes p.operand) (ofBytes p.swap))),
      { p with value := some old, pois := false })

/-- Atomic parts in ascending lane order at one block. -/
def atomParts (op : AtomOp) : List LanePart → Block → Block × List LanePart
  | [], b => (b, [])
  | p :: ps, b =>
    let r := atomPart op b p
    let q := atomParts op ps r.1
    (q.1, r.2 :: q.2)

/-- Performs the parts of a load or atomic that lie in one rank's scratch. -/
def performRank (s : State) (cluster rank : Nat) (l : PLoad) : State × PLoad :=
  match rankBlock s cluster rank with
  | none => (s, l)
  | some (bid, b) =>
    match l.atom with
    | none => (s, { l with parts := l.parts.map (fun p =>
        if codeRank p.addr = rank ∧ p.value.isNone then loadPart b l.size p else p) })
    | some op =>
      let mine := l.parts.filter (fun p => codeRank p.addr = rank)
      let r := atomParts op mine b
      (modBlock s bid (fun _ => r.1),
        { l with parts := l.parts.map (fun p => (r.2.find? (fun q => q.lane == p.lane)).getD p) })

/-- Whether the lines of a load's parts in a rank are present; an ended block holds nothing back (R471). -/
def rankReady (s : State) (cluster rank : Nat) (cells : List (Nat × Nat)) : Bool :=
  match placedBlock s cluster rank with
  | none => false
  | some (_, b) => b.ended || cells.all (fun c => codeRank c.1 != rank || linesPresent b (codeOff c.1) c.2)

/-- Writes a load's result in a lane's registers, or marks them poisoned; a mark that stands is the earlier access's (R157): of
the access that has returned first (DEDUCED, log 104). Registers that have left the window are not written (R24). -/
def returnLane (w : Warp) (l : PLoad) (age low : Nat) (p : LanePart) : Warp :=
  let n := loadRegs l
  let v := loadValue l.signed (p.value.getD [])
  let mark := fun (m : Tbl Mark) k => if (tget m k).isSome then m else tput m k ⟨low, age⟩
  match l.dst with
  | .vec vd =>
    let n := min n (l.top - vd)
    if p.pois then { w with marks := (List.range n).foldl (fun m k => mark m ((vd + k) * 64 + p.lane)) w.marks }
    else vwriteN w vd p.lane n v
  | .scal sd =>
    if p.pois then { w with smarks := (List.range n).foldl (fun m k => mark m (sd + k)) w.smarks }
    else swriteN w sd n v

/-- The lowest poisoned byte of an access. -/
def lowPois (l : PLoad) : Nat :=
  ((l.parts.filter (·.pois)).map (·.va)).foldl (fun acc a => match acc with | none => some a | some b => some (min a b))
    (none : Option Nat) |>.getD 0

/-- Every part of a load or atomic has been performed. -/
def allPerformed (l : PLoad) : Bool := l.parts.all (fun p => p.value.isSome)

/-- The acquire side of ORD (R165). -/
def ordAcquires (op : AtomOp) : Bool := op.ord == 1 || op.ord == 3 || op.ord == 4

/-- Whether an atomic may acquire at all: later accesses wait for it (R167). -/
def mayAcquire (op : AtomOp) : Bool := ordAcquires op || op.ford != 0

/-- The acquire side of a returned atomic (R167): ORD, in place of it FORD where a .cas failed; none for a load. -/
def loadAcquires (l : PLoad) : Bool :=
  match l.atom with
  | none => false
  | some op =>
    let failed := fun (p : LanePart) => op.aop == 7 && p.value != some p.operand
    l.parts.any (fun p => if failed p then op.ford != 0 else ordAcquires op)

/-- A load or atomic returns (R156, R167): registers written, its acquire, LD falls, waits for it end. -/
def returnLoad (s : State) (l : PLoad) : State :=
  let low := lowPois l
  let s := modWarp s l.warp (fun w =>
    let w := l.parts.foldl (fun w p => returnLane w l s.clock low p) w
    let w := if l.counts then { w with ld := w.ld - 1 } else w
    let w := if loadAcquires l then acquire w s.clock ((l.atom.map (·.scope)).getD 0) (recSeam (recordOf s w)) else w
    if w.acqLoad = some l.id then { w with acqLoad := none } else w)
  let s := modNet s (fun n => { n with loads := terase n.loads l.id })
  noteRelease (unpark s l.warp (fun p => p.cond == .port l.id)) l.warp

/-- The ranks that a load's or store's cells lie in. -/
def ranksOf (codes : List Nat) : List Nat := (codes.map codeRank).dedup

/-- Sends a message to a rank's port. -/
def sendPort (s : State) (src : Nat) (wid : Option Nat) (cluster rank : Nat) (op : PortOp) (queued : Bool) : Nat × State :=
  let (id, s) := nextId s
  (id, modNet s (fun n => { n with ports := tput n.ports id ⟨id, src, wid, ⟨cluster, rank, 0⟩, op, queued, id⟩ }))

/-- The bytes of its rank's scratch that a message touches: (offset, count). -/
def msgSpans (s : State) (m : PortMsg) : List (Nat × Nat) :=
  match m.op with
  | .load l | .atomic l => (((tget s.net.loads l).map (fun p =>
      (p.parts.filter (fun x => codeRank x.addr == m.place.rank)).map (fun x => (codeOff x.addr, p.size)))).getD [])
  | .store _ ps => ps.map (fun p => (p.1, p.2.length))
  | .ringInit n _ => [(m.place.off, 16 + 8 * n)]
  | _ => [(m.place.off, 16)]

/-- Whether two accesses touch a common line. -/
def sharesLine (a b : List (Nat × Nat)) : Bool :=
  a.any (fun x => b.any (fun y => decide (x.1 / 128 ≤ (y.1 + y.2 - 1) / 128) && decide (y.1 / 128 ≤ (x.1 + x.2 - 1) / 128)))

/-- Whether message `m` must be performed before an access of core `src` and warp `wid` to the same rank's `spans` (R156,
R264, R285): one warp's own accesses go in issue order, and none passes a held access to one of its lines. -/
def goesFirst (s : State) (src : Nat) (wid : Option Nat) (spans : List (Nat × Nat)) (m : PortMsg) : Bool :=
  m.src == src && !m.queued && (sharesLine (msgSpans s m) spans ||
    (m.warp == wid && wid.any (fun k => (tget s.warps k).any (fun w => isLocal s w m.place.rank))))

/-- Whether an access of a warp to a rank's scratch must wait behind a message held at the port. -/
def heldBehind (s : State) (w : Warp) (wid cluster rank : Nat) (spans : List (Nat × Nat)) : Bool :=
  s.net.ports.any (fun e => e.2.place.cluster == cluster && e.2.place.rank == rank && goesFirst s w.core (some wid) spans e.2)

/-- The bytes that lie in one rank, as (offset, count). -/
def rankSpans (rank : Nat) (cells : List (Nat × Nat)) : List (Nat × Nat) :=
  (cells.filter (fun c => codeRank c.1 == rank)).map (fun c => (codeOff c.1, c.2))

/-- Whether some line of a rank's cells is absent. -/
def lineAbsent (s : State) (cluster : Nat) (cells : List (Nat × Nat)) (rank : Nat) : Bool :=
  (placedBlock s cluster rank).isSome && !rankReady s cluster rank cells

/-- What a warp's store queue says to a peer load of `size` bytes at a place (R285): nothing, the value of exactly these bytes,
or that the load waits (DEDUCED, log 37). -/
inductive Queued where
  | free
  | value (bs : List Byte)
  | waits
  deriving DecidableEq, Repr

/-- What one queued access says to a later load `id`. -/
def queuedPiece (s : State) (e : StoreEnt) (id code size : Nat) : Queued :=
  let meets := fun (a n : Nat) => decide (code < a + n) && decide (a < code + size)
  match e with
  | .global .. => .free
  | .port m => match if m < id then tget s.net.ports m else none with
    | none => .free
    | some msg => match msg.op with
      | .store _ ps => match (ps.filter (fun p => meets (placeCode msg.place.rank p.1) p.2.length)).getLast? with
        | none => .free
        | some p => if placeCode msg.place.rank p.1 = code ∧ p.2.length = size then .value p.2 else .waits
      | .atomic l => if ((tget s.net.loads l).map (fun q => q.parts.any (fun p => meets p.addr q.size))).getD false
          then .waits else .free
      | _ => .free

/-- What the store queue says to a load: the youngest earlier access that meets its bytes decides (R285). -/
def queuedPeer (s : State) (w : Warp) (id code size : Nat) : Queued :=
  (w.storeQ.reverse.map (fun e => queuedPiece s e id code size)).find? (fun q => q != .free) |>.getD .free

/-- A load's part as the store queue answers it. -/
def fromPeerQueue (s : State) (w : Warp) (id size : Nat) (p : LanePart) : LanePart :=
  match queuedPeer s w id p.addr size with
  | .value bs => { p with value := some bs }
  | _ => p

/-- The parts of a load in a rank without a value. -/
def openRank (l : PLoad) (rank : Nat) : List LanePart := l.parts.filter (fun p => codeRank p.addr == rank && p.value.isNone)

/-- A load's message for a peer's port leaves its core, its warp's earlier loads being performed (R285): lanes take what the warp's
store queue holds of exactly their bytes; it stays while a queued access meets some in part, and it is no more needed when none
is left. -/
def sendLoad (s : State) (m : PortMsg) (l : PLoad) (w : Warp) : State :=
  if (openRank l m.place.rank).any (fun p => queuedPeer s w l.id p.addr l.size == .waits) then s
  else
    let l' := { l with parts := l.parts.map (fun p =>
      if codeRank p.addr == m.place.rank && p.value.isNone then fromPeerQueue s w l.id l.size p else p) }
    let (k, s) := nextId (modLoad s l.id (fun _ => l'))
    let done := (openRank l' m.place.rank).isEmpty
    modNet s (fun n => { n with ports := (if done then terase n.ports m.id
      else tput n.ports m.id { m with queued := false, sent := k }) })

/-- A load or atomic from scratch by a warp (R156, R157, R166): what is its own and present is performed now; the rest goes to the
ports. The issuing lanes park while a line is absent. -/
def scratchLoad (x : Issue) (s : State) (l0 : PLoad) : Verdict × State :=
  let cluster := clusterIdOf s x.w
  let cells := l0.parts.map (fun p => (p.addr, l0.size))
  let ranks := ranksOf (cells.map Prod.fst)
  let own := ranks.filter (isLocal s x.w)
  let peers := ranks.filter (fun r => !isLocal s x.w r)
  let ready := own.all (fun r => rankReady s cluster r cells && !heldBehind s x.w x.wid cluster r (rankSpans r cells))
  let counts := l0.atom.isSome || !peers.isEmpty
  if counts && decide (63 ≤ x.w.ld) then (.stall, s)
  else
    let s := (l0.atom.map (dropDescsOf s x.wid)).getD s
    let (id, s) := nextId s
    let l := { l0 with id := id, counts := counts, top := x.w.win }
    let s := if counts then modWarp s x.wid (fun w => { w with ld := w.ld + 1 }) else s
    let s := if l.atom.any mayAcquire then modWarp s x.wid (fun w => { w with acqLoad := some id }) else s
    let r := if ready then own.foldl (fun (r : State × PLoad) k => performRank r.1 cluster k r.2) (s, l) else (s, l)
    if ready && peers.isEmpty then (.advance, returnLoad r.1 r.2)
    else
      let absent := !ready || peers.any (lineAbsent s cluster cells)
      let s := modNet r.1 (fun n => { n with loads := tput n.loads id r.2 })
      let s := if ready then s else own.foldl (fun s k =>
        (sendPort s x.w.core (some x.wid) cluster k (if l.atom.isSome then .atomic id else .load id) false).2) s
      let s := peers.foldl (fun s k =>
        if l.atom.isSome then
          let (m, s) := sendPort s x.w.core (some x.wid) cluster k (.atomic id) true
          modWarp s x.wid (fun w => { w with storeQ := w.storeQ ++ [.port m] })
        else (sendPort s x.w.core (some x.wid) cluster k (.load id) true).2) s
      if absent then parkAll s x (.port id) else (.advance, s)

/-- A write group falls by one piece acknowledged (R288): with the last, the counters that still count it fall. -/
def ackGroup (s : State) (grp : Nat) : State :=
  match tget s.net.groups grp with
  | none => s
  | some g =>
    if g.toAck ≤ 1 && g.toEnter == 0 then
      let s := modWarp s g.warp (fun w => { w with
        st := if g.st then w.st - 1 else w.st
        cwCls := if g.cw.cls then w.cwCls - 1 else w.cwCls
        cwDie := if g.cw.die then w.cwDie - 1 else w.cwDie
        cwDev := if g.cw.dev then w.cwDev - 1 else w.cwDev
        cwSys := if g.cw.sys then w.cwSys - 1 else w.cwSys })
      let s := modNet s (fun n => { n with groups := terase n.groups grp })
      let s := if g.nt && !ntLeft s g.warp then modWarp s g.warp (fun w => { w with drain := false }) else s
      noteRelease (unpark s g.warp (fun p => p.cond == .port grp)) g.warp
    else modNet s (fun n => { n with groups := tmod n.groups grp (fun g => { g with toAck := g.toAck - 1 }) })

/-- A store to scratch by a warp (R156): performed now where it is its own and present; absent lines park the issuing
lanes (R157); peers' pieces enter the store queue (R284). `cells` are (place, bytes) in ascending lane order. -/
def scratchStore (x : Issue) (s : State) (cells : List (Nat × List Byte)) : Verdict × State :=
  let cluster := clusterIdOf s x.w
  let spans := cells.map (fun c => (c.1, c.2.length))
  let ranks := ranksOf (cells.map Prod.fst)
  let own := ranks.filter (isLocal s x.w)
  let peers := ranks.filter (fun r => !isLocal s x.w r)
  let ready := own.all (fun r => rankReady s cluster r spans && !heldBehind s x.w x.wid cluster r (rankSpans r spans))
  let absent := !ready || peers.any (lineAbsent s cluster spans)
  let mine := fun r => (cells.filter (fun c => codeRank c.1 = r)).map (fun c => (codeOff c.1, c.2))
  if !peers.isEmpty && decide (4095 ≤ x.w.cwCls) then (.stall, s)
  else
    let write := fun (s : State) r => match rankBlock s cluster r with
      | none => s
      | some (bid, b) => if b.ended then s
        else modBlock s bid (fun b => (mine r).foldl (fun b c => putScratch b c.1 c.2) b)
    let s := if ready then own.foldl write s else s
    if ready && peers.isEmpty then (.advance, s)
    else
      let (grp, s) := nextId s
      let n := peers.length + (if ready then 0 else own.length)
      let g : WGroup := ⟨grp, x.wid, ⟨!peers.isEmpty, false, false, false⟩, 0, n, true, false⟩
      let s := modNet s (fun t => { t with groups := tput t.groups grp g })
      let s := modWarp s x.wid (fun w => { w with
        st := w.st + 1, cwCls := if peers.isEmpty then w.cwCls else w.cwCls + 1 })
      let s := if ready then s else own.foldl (fun s r =>
        (sendPort s x.w.core (some x.wid) cluster r (.store grp (mine r)) false).2) s
      let s := peers.foldl (fun s r =>
        let (m, s) := sendPort s x.w.core (some x.wid) cluster r (.store grp (mine r)) true
        modWarp s x.wid (fun w => { w with storeQ := w.storeQ ++ [.port m] })) s
      if absent then parkAll s x (.port grp) else (.advance, s)

end Sys2Proof.Machine
end

