-- ==== Sys2Proof/Machine/LaneMem.lean ====
section
/-! DEFINITION. The loads, stores and atomics of scratch: LDS, STS, SLDS, SSTS, ATOMS (R153 to R158, R164 to R167). -/

namespace Sys2Proof.Machine

/-- The scratch address of lane l (R153). -/
def scratchAddr (w : Warp) (f : LM) (vo : Bool) (l : Nat) : Nat :=
  wrap 32 ((sread w f.sbase.toNat).toNat + (if vo then (vread w f.va.toNat l).toNat else 0 : Nat) + sext 19 f.off.toNat)

/-- The scratch address of a uniform instruction (R158). -/
def scratchUniAddr (w : Warp) (f : UB) : Nat := wrap 32 ((sread w f.sa.toNat).toNat + sext 14 f.imm.toNat)

/-- What the active lanes of a scratch access name: lane and address, ascending. -/
def scratchLanes (x : Issue) (f : LM) (vo : Bool) : List (Nat × Nat) :=
  (lanesOf (activeOf x.w x.b.lanes (usesOf x.w x.instr))).map (fun l => (l, scratchAddr x.w f vo l))

/-- A scratch access after its checks in the order of R43: ALIGN, SCRB, POIS, WATCH, then `go` on (lane, place, address).
`uni` marks an instruction whose faults name every issuing lane. -/
def scratchAccess (x : Issue) (s : State) (uni : Bool) (size : Nat) (addrs : List (Nat × Nat)) (rd wr : Bool)
    (go : List (Nat × Nat × Nat) → Verdict × State) : Verdict × State :=
  let rank := rankOf s x.w
  let named := fun (t : Trap) => Verdict.trap (if uni then uniformLanes x t else t)
  match scratchFault x rank size addrs with
  | some t => (named t, s)
  | none =>
    match poisOf x s with
    | some r => r
    | none =>
      let cells := addrs.filterMap (fun e => (scratchPlace x.record rank e.2 size).map (fun p => (e.1, p, e.2)))
      match watchTrap s x size cells rd wr with
      | some t => (named t, s)
      | none => if cells.isEmpty then (.advance, s) else go cells

/-- A pending load of scratch with no part performed yet. -/
def scratchPLoad (x : Issue) (dst : LoadDst) (size : Nat) (signed : Bool) (atom : Option AtomOp) (parts : List LanePart) :
    PLoad := ⟨0, x.wid, dst, size, signed, atom, true, false, 0, 0, x.w.win, parts, []⟩

/-- LDS (R156): each active lane's bytes into vd, extended by SZ. -/
def execLds (f : LM) (s : State) : Host.Outcome State Fault Refusal :=
  issue (.lds f) s fun x s =>
    let sz := f.sub.toNat % 8
    scratchAccess x s false (szBytes sz) (scratchLanes x f (bit f.sub.toNat 3)) true false fun cells =>
      scratchLoad x s (scratchPLoad x (.vec f.vd.toNat) (szBytes sz) (szSigned sz) none
        (cells.map (fun c => ⟨c.1, c.2.1, c.2.2, none, false, [], []⟩)))

/-- STS (R156): the low bytes of vd into each active lane's bytes. -/
def execSts (f : LM) (s : State) : Host.Outcome State Fault Refusal :=
  issue (.sts f) s fun x s =>
    let n := szBytes (f.sub.toNat % 8)
    scratchAccess x s false n (scratchLanes x f (bit f.sub.toNat 3)) false true fun cells =>
      scratchStore x s (cells.map (fun c => (c.2.1, toBytes n (vreadN x.w f.vd.toNat c.1 ((n + 3) / 4)))))

/-- SLDS (R158). -/
def execSlds (f : UB) (s : State) : Host.Outcome State Fault Refusal :=
  issue (.slds f) s fun x s =>
    let sz := f.sub.toNat
    scratchAccess x s true (szBytes sz) [(lowestLane x.b.lanes, scratchUniAddr x.w f)] true false fun cells =>
      scratchLoad x s (scratchPLoad x (.scal f.sd.toNat) (szBytes sz) (szSigned sz) none
        (cells.map (fun c => ⟨c.1, c.2.1, c.2.2, none, false, [], []⟩)))

/-- SSTS (R158). -/
def execSsts (f : UB) (s : State) : Host.Outcome State Fault Refusal :=
  issue (.ssts f) s fun x s =>
    let n := szBytes f.sub.toNat
    scratchAccess x s true n [(lowestLane x.b.lanes, scratchUniAddr x.w f)] false true fun cells =>
      scratchStore x s (cells.map (fun c => (c.2.1, toBytes n (sreadN x.w f.sb.toNat ((n + 3) / 4)))))

/-- The operation of a lane atomic with its order word (R164, R165). -/
def atomOpOf (sub order : Nat) : AtomOp :=
  ⟨sub / 8, sub % 8, order % 8, bits order 3 3, bits order 6 2, bit order 8⟩

/-- The operand and swap bytes of lane l of an atomic (R166). -/
def atomOperands (w : Warp) (vd l sub : Nat) : List Byte × List Byte :=
  let n := atomRegs (sub % 8)
  (toBytes (4 * n) (vreadN w vd l n), if sub / 8 = 7 then toBytes (4 * n) (vreadN w (vd + n) l n) else [])

/-- ATOMS (R166): one indivisible operation per active lane at the port, ascending; vd takes the old value. -/
def execAtoms (f : LM) (s : State) : Host.Outcome State Fault Refusal :=
  issue (.atoms f) s fun x s =>
    let sub := f.sub.toNat
    let op := atomOpOf sub (sread x.w (f.sbase.toNat + 1)).toNat
    scratchAccess x s false (atomBytes op.ty) (scratchLanes x f true) true true fun cells =>
      scratchLoad x s (scratchPLoad x (.vec f.vd.toNat) (atomBytes op.ty) false (some op)
        (cells.map (fun c =>
          let d := atomOperands x.w f.vd.toNat c.1 sub
          ⟨c.1, c.2.1, c.2.2, none, false, d.1, d.2⟩)))

end Sys2Proof.Machine
end

