-- ==== Sys2Proof/Machine/Global.lean ====
section
/-! DEFINITION. What a warp issues to global memory: LDG, STG, STNT, ATOMG, REDG, SLDG, SSTG, SATOMG, the prefetches, FENCE,
DRAINNT and FLUSH (R153 to R176, R284, R288). Where the accesses go from there is in Machine/Home.lean. -/

namespace Sys2Proof.Machine

/-- The global address of lane l (R153). -/
def globalAddr (w : Warp) (f : LM) (vo : Bool) (l : Nat) : Nat :=
  wrap 57 ((spair w f.sbase.toNat : Int) + (if vo then (vread w f.va.toNat l).toInt else 0) + sext 19 f.off.toNat)

/-- The global address of a uniform instruction (R158). -/
def globalUniAddr (w : Warp) (f : UB) : Nat := wrap 57 ((spair w f.sa.toNat : Int) + sext 14 f.imm.toNat)

/-- What the active lanes of a global access name: lane and virtual address, ascending. -/
def globalLanes (x : Issue) (f : LM) (vo : Bool) : List (Nat × Nat) :=
  (lanesOf (activeOf x.w x.b.lanes (usesOf x.w x.instr))).map (fun l => (l, globalAddr x.w f vo l))

/-- The registered knots' ranges that guard a physical access (R330): their records. -/
def guardsOf (s : State) (pa size : Nat) : List Nat :=
  (s.slices.flatMap (fun y => if y.fenced then [] else
    y.ranges.filter (fun r => decide (r.pbase * 32 < pa + size) && decide (pa < (r.pbase + r.len) * 32)))).map (·.krec)

/-- Whether a taker holds the token of a record (R181, R185): a holder that has issued its KGIVE does not. -/
def holdsToken (s : State) (t : Taker) (krec : Nat) : Bool :=
  s.slices.any (fun y => y.knots.any (fun k => k.krec == krec && k.holder == some t && !k.giving))

/-- The record whose token a write of a cluster lacks (R170). -/
def tokenMissing (s : State) (cluster pa size : Nat) : Option Nat :=
  (guardsOf s pa size).find? (fun k => !holdsToken s (.cluster cluster) k)

/-- PAGE or PERM of the lanes of a global access (R154): PAGE comes first (R43). -/
def pageFault (s : State) (x : Issue) (addrs : List (Nat × Nat)) (rd wr : Bool) : Option Trap :=
  let bad := addrs.filterMap (fun e => match xlate s x.w.core x.ctx e.2 rd wr false with
    | .error c => some (e.1, e.2, c)
    | .ok _ => none)
  let of := fun code => bad.filter (fun e => e.2.2.1 == code)
  match of cPAGE, of cPERM with
  | e :: es, _ => some ⟨cPAGE, maskOf ((e :: es).map Prod.fst), e.2.1, e.2.2.2, true, false⟩
  | [], e :: es => some ⟨cPERM, maskOf ((e :: es).map Prod.fst), e.2.1, e.2.2.2, false, false⟩
  | [], [] => none

/-- TOKEN of the lanes of a global write (R170). -/
def tokenFault (s : State) (x : Issue) (size : Nat) (cells : List (Nat × Nat × Nat)) : Option Trap :=
  let cluster := clusterIdOf s x.w
  let bad := cells.filterMap (fun c => (tokenMissing s cluster c.2.1 size).map (fun k => (c, k)))
  match bad with
  | [] => none
  | e :: _ => some ⟨cTOKEN, maskOf (bad.map (fun b => b.1.1)), e.1.2.2, e.2 % 2 ^ 32, false, false⟩

/-- A global access after its checks in the order of R43: ALIGN, PAGE, PERM, TOKEN (of writes), POIS; then `go` on
(lane, physical address, virtual address). `uni` marks an instruction whose faults name every issuing lane. -/
def globalAccess (x : Issue) (s : State) (uni : Bool) (size : Nat) (addrs : List (Nat × Nat)) (rd wr : Bool)
    (go : State → List (Nat × Nat × Nat) → Verdict × State) : Verdict × State :=
  let named := fun (t : Trap) => Verdict.trap (if uni then uniformLanes x t else t)
  match addrs.filter (fun e => e.2 % size != 0) with
  | e :: es => (named ⟨cALIGN, maskOf ((e :: es).map Prod.fst), e.2, size, false, false⟩, s)
  | [] =>
    let walked := addrs.foldl (fun s e => cacheVa s x.w.core x.ctx e.2) s
    match pageFault s x addrs rd wr with
    | some t => (named t, walked)
    | none =>
      let cells := addrs.filterMap (fun e => match xlate s x.w.core x.ctx e.2 rd wr false with
        | .error _ => none
        | .ok (pa, _) => some (e.1, pa, e.2))
      match if wr then tokenFault s x size cells else none with
      | some t => (named t, walked)
      | none =>
        match poisOf x walked with
        | some r => r
        | none => if cells.isEmpty then (.advance, walked) else go walked cells

/-- The 512-byte regions that addresses touch, ascending by first use. -/
def regionsOf (addrs : List Nat) : List Nat := (addrs.map (· / 512)).dedup

/-- The grains of a region that addresses touch. -/
def touchedOf (region : Nat) (addrs : List Nat) : BitVec 16 :=
  addrs.foldl (fun acc a => if a / 512 = region then acc ||| BitVec.ofNat 16 (2 ^ (a % 512 / 32)) else acc) 0

/-- Adds a request at an L2 slice. -/
def addReq (core : Nat) (load : Option Nat) (span : Nat) (addrs : List Nat) (s : State) (region : Nat) : State :=
  let (id, s) := nextId s
  let (port, s) := entPort s core false (16 * region)
  modNet s (fun n => { n with reqs := tput n.reqs id ⟨id, core, load, region, touchedOf region addrs, span, port, false, 0, 0⟩ })

/-- A global load is issued (R156, R285): LD rises, one request for each region. -/
def startLoad (x : Issue) (s : State) (dst : LoadDst) (size : Nat) (signed : Bool) (span : Nat) (parts : List LanePart) :
    State :=
  let (id, s) := nextId s
  let s := modWarp s x.wid (fun w => { w with ld := w.ld + 1 })
  let l : PLoad := ⟨id, x.wid, dst, size, signed, none, false, true, span, x.w.acqClock, x.w.win, parts, []⟩
  let s := modNet s (fun n => { n with loads := tput n.loads id l })
  let addrs := parts.map (·.addr)
  (regionsOf addrs).foldl (addReq x.w.core (some id) span addrs) s

/-- The SPAN that a span code asks for (R156): 0 the predictor, 1 the grains touched. -/
def spanOf (sc : Nat) : Nat := match sc with | 0 => 0 | 1 => 1 | 2 => 8 | _ => 16

/-- LDG (R156). -/
def execLdg (f : LM) (s : State) : Host.Outcome State Fault Refusal :=
  issue (.ldg f) s fun x s =>
    let sz := f.sub.toNat % 8
    globalAccess x s false (szBytes sz) (globalLanes x f (bit f.sub.toNat 3)) true false fun s cells =>
      (.advance, startLoad x s (.vec f.vd.toNat) (szBytes sz) (szSigned sz) (spanOf (f.sub.toNat / 16))
        (cells.map (fun c => ⟨c.1, c.2.1, c.2.2, none, false, [], []⟩)))

/-- SLDG (R158). -/
def execSldg (f : UB) (s : State) : Host.Outcome State Fault Refusal :=
  issue (.sldg f) s fun x s =>
    let sz := f.sub.toNat
    globalAccess x s true (szBytes sz) [(lowestLane x.b.lanes, globalUniAddr x.w f)] true false fun s cells =>
      (.advance, startLoad x s (.scal f.sd.toNat) (szBytes sz) (szSigned sz) 0
        (cells.map (fun c => ⟨c.1, c.2.1, c.2.2, none, false, [], []⟩)))

/-- The CW class of one piece (R288). -/
def cwClass (s : State) (die a : Nat) : CwSet :=
  let home : Option Nat := match placeOf s a with
    | .hbm _ => some (a / 2 ^ 40)
    | .tier i _ => some (i / 4)
    | .unbacked =>
      if a < 2 ^ 41 then some (a / 2 ^ 40)
      else if tierBase ≤ a ∧ a < tierBase + 8 * expanderSize then some ((a - tierBase) / expanderSize / 4)
      else if mmioBase ≤ a then none
      else some die
    | _ => none
  match home with
  | none => ⟨true, true, true, true⟩
  | some d => ⟨true, true, d != die, false⟩

/-- The class of a write instruction: every counter of every piece. -/
def cwOfPieces (s : State) (die : Nat) (ps : List Piece) : CwSet :=
  ps.foldl (fun c p =>
    let k := cwClass s die p.addr
    ⟨c.cls || k.cls, c.die || k.die, c.dev || k.dev, c.sys || k.sys⟩) ⟨false, false, false, false⟩

/-- Whether a counter of a class is full (R33). -/
def cwFull (w : Warp) (c : CwSet) : Bool :=
  (c.cls && decide (4095 ≤ w.cwCls)) || (c.die && decide (4095 ≤ w.cwDie)) || (c.dev && decide (4095 ≤ w.cwDev))
    || (c.sys && decide (4095 ≤ w.cwSys))

/-- The counters of a class rise. -/
def cwRise (w : Warp) (c : CwSet) : Warp :=
  { w with cwCls := w.cwCls + c.cls.toNat, cwDie := w.cwDie + c.die.toNat, cwDev := w.cwDev + c.dev.toNat,
           cwSys := w.cwSys + c.sys.toNat }

/-- The packets of pieces: those that fall in one grain (R323), in order (DEDUCED, log 81). -/
def packetsOf (ps : List Piece) : List (Nat × List Piece) :=
  ((ps.map (fun p => p.addr / 32)).dedup).map (fun g => (g, ps.filter (fun p => p.addr / 32 == g)))

/-- A global write is issued (R156, R168, R284, R288): ST and its CW counters rise, and it enters the store queue. It
stalls when a CW counter is full. -/
def startStore (x : Issue) (s : State) (kind : WKind) (ps : List Piece) : Verdict × State :=
  let cw := cwOfPieces s (dieOfCore x.w.core) ps
  if cwFull x.w cw then (.stall, s)
  else
    let (id, s) := nextId s
    let s := modNet s (fun n => { n with
      groups := tput n.groups id ⟨id, x.wid, cw, ps.length, (packetsOf ps).length, true, false⟩ })
    (.advance, modWarp s x.wid (fun w =>
      { cwRise w cw with st := w.st + 1, storeQ := w.storeQ ++ [.global id kind ps] }))

/-- STG (R156). -/
def execStg (f : LM) (s : State) : Host.Outcome State Fault Refusal :=
  issue (.stg f) s fun x s =>
    let n := szBytes (f.sub.toNat % 8)
    globalAccess x s false n (globalLanes x f (bit f.sub.toNat 3)) false true fun s cells =>
      startStore x s .store (cells.map (fun c => ⟨c.2.1, toBytes n (vreadN x.w f.vd.toNat c.1 ((n + 3) / 4))⟩))

/-- SSTG (R158). -/
def execSstg (f : UB) (s : State) : Host.Outcome State Fault Refusal :=
  issue (.sstg f) s fun x s =>
    let n := szBytes f.sub.toNat
    globalAccess x s true n [(lowestLane x.b.lanes, globalUniAddr x.w f)] false true fun s cells =>
      startStore x s .store (cells.map (fun c => ⟨c.2.1, toBytes n (sreadN x.w f.sb.toNat ((n + 3) / 4))⟩))

/-- A packet of a STNT, which its core sends to its home (R159, R162, R285). -/
def addNt (x : Issue) (grp : Nat) (s : State) (p : Nat × List Piece) : State :=
  let (id, s) := nextId s
  let (port, s) := entPort s x.w.core false p.1
  modNet s (fun n => { n with nts := n.nts ++ [⟨id, x.w.core, x.wid, grp, .nt, p.1, p.2, false, false, 0, false, port, none, true, false⟩] })

/-- STNT (R159): it goes to its home at once, outside the store queue and the write window; ST alone counts it. -/
def execStnt (f : LM) (s : State) : Host.Outcome State Fault Refusal :=
  issue (.stnt f) s fun x s =>
    let n := szBytes (f.sub.toNat % 8)
    globalAccess x s false n (globalLanes x f (bit f.sub.toNat 3)) false true fun s cells =>
      let ps := cells.map (fun c => (⟨c.2.1, toBytes n (vreadN x.w f.vd.toNat c.1 ((n + 3) / 4))⟩ : Piece))
      let (id, s) := nextId s
      let s := modNet s (fun t => { t with
        groups := tput t.groups id ⟨id, x.wid, ⟨false, false, false, false⟩, 0, (packetsOf ps).length, true, true⟩ })
      let s := (packetsOf ps).foldl (addNt x id) s
      (.advance, modWarp s x.wid (fun w => { w with st := w.st + 1 }))

/-- A global atomic is issued (R166, R167): LD rises, it enters the store queue, its release has been waited for. -/
def startAtomic (x : Issue) (s : State) (dst : LoadDst) (op : AtomOp) (parts : List LanePart) : State :=
  let (id, s) := nextId s
  let l : PLoad := ⟨id, x.wid, dst, atomBytes op.ty, false, some op, false, true, 0, x.w.acqClock, x.w.win, parts, []⟩
  let s := modNet s (fun n => { n with loads := tput n.loads id l })
  let s := modWarp s x.wid (fun w => { w with
    ld := w.ld + 1
    acqLoad := if mayAcquire op then some id else w.acqLoad
    storeQ := w.storeQ ++ [.global id (.atomic id) (parts.map (fun p => ⟨p.addr, p.operand⟩))] })
  dropDescsOf s x.wid op

/-- ATOMG (R166). -/
def execAtomg (f : LM) (s : State) : Host.Outcome State Fault Refusal :=
  issue (.atomg f) s fun x s =>
    let op := atomOpOf f.sub.toNat (sread x.w (f.sbase.toNat + 2)).toNat
    globalAccess x s false (atomBytes op.ty) (globalLanes x f true) true true fun s cells =>
      (.advance, startAtomic x s (.vec f.vd.toNat) op (cells.map (fun c =>
        let d := atomOperands x.w f.vd.toNat c.1 f.sub.toNat
        ⟨c.1, c.2.1, c.2.2, none, false, d.1, d.2⟩)))

/-- SATOMG (R169). -/
def execSatomg (f : UB) (s : State) : Host.Outcome State Fault Refusal :=
  issue (.satomg f) s fun x s =>
    let ty := bits f.imm.toNat 8 3
    let n := atomRegs ty
    let op := atomOpOf (8 * f.sub.toNat + ty) (f.imm.toNat % 256)
    globalAccess x s true (atomBytes ty) [(lowestLane x.b.lanes, spair x.w f.sa.toNat)] true true fun s cells =>
      (.advance, startAtomic x s (.scal f.sd.toNat) op (cells.map (fun c =>
        ⟨c.1, c.2.1, c.2.2, none, false, toBytes (4 * n) (sreadN x.w f.sb.toNat n),
          if f.sub.toNat = 7 then toBytes (4 * n) (sreadN x.w f.sc.toNat n) else []⟩)))

/-- REDG (R168): its release has been waited for (R165). -/
def execRedg (f : LM) (s : State) : Host.Outcome State Fault Refusal :=
  issue (.redg f) s fun x s =>
    let op := atomOpOf f.sub.toNat (sread x.w (f.sbase.toNat + 2)).toNat
    globalAccess x s false (atomBytes op.ty) (globalLanes x f true) true true fun s cells =>
      let r := startStore x s (.redg op) (cells.map (fun c => ⟨c.2.1, (atomOperands x.w f.vd.toNat c.1 f.sub.toNat).1⟩))
      if r.1 = .advance then (r.1, dropDescsOf r.2 x.wid op) else r

/-- A prefetch of some addresses, each of some lanes (R176): those that would trap, on poisoned registers too, are dropped; it
changes nothing that a program sees. -/
def prefetch (x : Issue) (s : State) (span : Nat) (vas : List (Mask × Nat)) : State :=
  let u := usesOf x.w x.instr
  let good := vas.filter (fun e => (poisTrap x.w e.1 u.vsrc u.ssrc).isNone)
  let walked := good.foldl (fun s e => cacheVa s x.w.core x.ctx e.2) s
  let pas := (good.map Prod.snd).filterMap (fun va => match xlate s x.w.core x.ctx va true false false with
    | .error _ => none
    | .ok (pa, _) => some pa)
  (regionsOf pas).foldl (addReq x.w.core none span pas) walked

/-- PREFG (R176). -/
def execPrefg (f : LM) (s : State) : Host.Outcome State Fault Refusal :=
  issueOp (.prefg f) s (fun x s =>
    (.advance, prefetch x s f.vd.toNat ((globalLanes x f (bit f.sub.toNat 3)).map (fun e => (laneBit e.1, e.2)))))

/-- PREF (R176). -/
def execPref (f : UB) (s : State) : Host.Outcome State Fault Refusal :=
  issueOp (.pref f) s (fun x s => (.advance, prefetch x s f.imm.toNat [(x.b.lanes, spair x.w f.sa.toNat)]))

/-- FENCE (R171 to R174): the acquiring and .wrp forms have waited for what they order; .rel and .acqrel let loads issue and
hold the rest back until their condition holds (R302), .sc has waited for it. -/
def execFence (f : UB) (s : State) : Host.Outcome State Fault Refusal :=
  issueOp (.fence f) s fun x s =>
    let ord := f.imm.toNat % 8
    let scope := f.imm.toNat / 8
    if scope = 0 then (.advance, s)
    else
      let s := if ord = 4 then dropDescs s x.wid else s
      let s := modWarp s x.wid (fun w =>
        let w := if ord = 2 ∨ ord = 3 then { w with release := some scope } else w
        if ord = 2 then w else acquire w s.clock scope x.seam)
      (.advance, if ord = 2 ∨ ord = 3 then noteRelease s x.wid else s)

/-- DRAINNT (R160): later accesses and releases wait while a STNT issued before it is not acknowledged. -/
def execDrainnt (f : UB) (s : State) : Host.Outcome State Fault Refusal :=
  issueOp (.drainnt f) s (fun x s => (.advance, modWarp s x.wid (fun w => { w with drain := ntLeft s x.wid })))

/-- The pieces of a byte range that lie in one 64 KiB page each: (first address, bytes), ascending; addresses wrap at
2^57. -/
def pagesOf : Nat → Nat → Nat → List (Nat × Nat)
  | 0, _, _ => []
  | fuel + 1, a, n =>
    if n = 0 then []
    else
      let k := min n (65536 - a % 65536)
      (a, k) :: pagesOf fuel ((a + k) % 2 ^ 57) (n - k)

/-- FLUSH (R175): the range is widened to grains and every page of it checked; ST rises until every grain is done (DEDUCED, log 60). -/
def execFlush (f : UB) (s : State) : Host.Outcome State Fault Refusal :=
  issue (.flush f) s fun x s =>
    let base := spair x.w f.sa.toNat
    let n := (sread x.w f.sb.toNat).toNat
    let op := f.sub.toNat
    if n = 0 then (match poisOf x s with | some r => r | none => (.advance, s))
    else
      let lo := base / 32 * 32
      let pages := pagesOf 65538 lo ((base + n + 31) / 32 * 32 - lo)
      let walkOf := fun (p : Nat × Nat) => xlatePa s x.w.core x.ctx p.1 (op != 2) (op == 2) false
      let bad := (pages.filterMap (fun p => match walkOf p with | .error e => some (p.1, e) | .ok _ => none)).head?
      let s := pages.foldl (fun s p => cacheVa s x.w.core x.ctx p.1) s
      match bad with
      | some (a, e) => (.trap ⟨e.1, x.b.lanes, a, e.2, decide (e.1 = cPAGE), false⟩, s)
      | none => match poisOf x s with
      | some r => r
      | none =>
        let rs := pages.filterMap (fun p => match walkOf p with | .error _ => none | .ok (pa, _) => some (pa / 32, p.2 / 32))
        let (id, s) := nextId s
        let s := modNet s (fun t => { t with
          flushes := tput t.flushes id ⟨id, x.wid, op, rs⟩
          groups := tput t.groups id ⟨id, x.wid, ⟨false, false, false, false⟩, 0, 1, true, false⟩ })
        (.advance, modWarp s x.wid (fun w => { w with st := w.st + 1 }))

end Sys2Proof.Machine
end

