-- ==== Sys2Proof/Machine/Ring.lean ====
section
/-! DEFINITION. Rings (R186 to R189, R267 to R270): the header in scratch, its operations at the port that holds it, and
RINIT, RWAIT, RREL, RARR. -/

namespace Sys2Proof.Machine

/-- A ring slot's fields (R186). -/
structure RSlot where
  arr : Nat
  exp : Nat
  ph : Bool
  f : Bool
  ovr : Bool
  ft : Bool
  ncl : Nat
  deriving DecidableEq, Repr

def unpackSlot (v : Nat) : RSlot := ⟨bits v 0 22, bits v 22 22, bit v 44, bit v 45, bit v 46, bit v 47, bits v 48 16⟩
def packSlot (r : RSlot) : Nat :=
  r.arr + 2 ^ 22 * r.exp + 2 ^ 44 * r.ph.toNat + 2 ^ 45 * r.f.toNat + 2 ^ 46 * r.ovr.toNat + 2 ^ 47 * r.ft.toNat
    + 2 ^ 48 * r.ncl

/-- A 32-bit word of a header. -/
def ringWord (b : Block) (off k : Nat) : Nat := ofBytes (bytesAt b.scratch (off + k) 4)
/-- Writes header bytes as the ring's own operations do. -/
def putRing (b : Block) (off k n v : Nat) : Block := { b with scratch := setBytes b.scratch (off + k) (toBytes n v) }

def ringValid (b : Block) (off : Nat) : Bool := bit (ringWord b off 0) 0
def ringOrf (b : Block) (off : Nat) : Bool := bit (ringWord b off 0) 1
def ringWp (b : Block) (off : Nat) : Nat := bits (ringWord b off 4) 0 6
def ringWph (b : Block) (off : Nat) : Bool := bit (ringWord b off 4) 6
def ringRp (b : Block) (off : Nat) : Nat := bits (ringWord b off 4) 8 6
def ringRph (b : Block) (off : Nat) : Bool := bit (ringWord b off 4) 14
def ringSlot (b : Block) (off i : Nat) : RSlot := unpackSlot (ofBytes (bytesAt b.scratch (off + 16 + 8 * i) 8))
def putSlot (b : Block) (off i : Nat) (r : RSlot) : Block := putRing b off (16 + 8 * i) 8 (packSlot r)
def putOrf (b : Block) (off : Nat) (v : Bool) : Block :=
  putRing b off 0 4 (ringWord b off 0 / 4 * 4 + ringWord b off 0 % 2 + 2 * v.toNat)
def putPtrs (b : Block) (off wp rp : Nat) (wph rph : Bool) : Block :=
  putRing b off 4 4 (wp + 2 ^ 6 * wph.toNat + 2 ^ 8 * rp + 2 ^ 14 * rph.toNat)

/-- Claimed slots (R268). -/
def ringClaimed (b : Block) (off : Nat) : Nat :=
  if ringWph b off = ringRph b off then ringWp b off - ringRp b off else ringWp b off + ringSlots b off - ringRp b off

/-- The next pointer and its parity. -/
def ringNext (n p : Nat) (ph : Bool) : Nat × Bool := if p + 1 = n then (0, !ph) else (p + 1, ph)

/-- RINIT (R187): ORF stays as it stood; the header lines become present; entries of the copy-fault table go (R229). -/
def ringInit (at' : SPlace) (n exp : Nat) (b : Block) : Block :=
  let off := at'.off
  let orf := ringOrf b off
  let b := { b with scratch := setBytes b.scratch off (toBytes 16 (1 + 2 * orf.toNat + 4 * (n - 1))) }
  let b := (List.range n).foldl (fun b i => putSlot b off i ⟨0, exp, false, false, false, false, 0⟩) b
  let last := (off + 16 + 8 * n - 1) / 128
  { b with
    rings := tput b.rings off true
    faults := b.faults.filter (fun e => e.ring != at')
    absent := b.absent.filter (fun e => !(decide (off / 128 ≤ e.1) && decide (e.1 ≤ last))) }

/-- An arrival at a slot of a valid ring (R267). -/
def slotArrive (r : RSlot) (bytes clamp : Nat) : RSlot :=
  if r.f then { r with ovr := true }
  else
    let sum := r.arr + bytes
    let full := decide (r.exp ≤ sum)
    { r with
      arr := min sum r.exp
      ovr := r.ovr || decide (r.exp < sum)
      ncl := min (r.ncl + clamp) 65535
      f := full
      ph := if full then !r.ph else r.ph }

/-- A copy fault at a slot (R267). -/
def slotFault (r : RSlot) : RSlot := if r.f then { r with ft := true } else { r with ft := true, f := true, ph := !r.ph }

/-- A ring whose header a plain store or copy has changed behaves in no way the manual gives: its fields are free values
from then on (R186, R270, DESIGN CHOICE, log 17). -/
def scramble (s : State) (bid off alloc : Nat) : State :=
  match tget s.blocks bid with
  | none => s
  | some b =>
    let clean := (tget b.rings off).getD false
    if clean || ((tget b.rings off).isNone && !ringValid b off) then s
    else
      let n := min (ringSlots b off) ((alloc - off - 16) / 8)
      let w0 := ringWord b off 0 / 4 * 4 + Config.freeNat s.free % 4
      let b := putRing (putRing b off 0 4 w0) off 4 4 (Config.freeNat (s.free + 1))
      let b := (List.range n).foldl (fun b i => putRing b off (16 + 8 * i) 8 (Config.freeNat (s.free + 2 + i))) b
      { modBlock s bid (fun _ => b) with free := s.free + n + 2 }

/-- What RWAIT finds at a header (R188). -/
inductive RingRes where
  | orphan
  | wait
  | slot (i : Nat) (clamped : Bool)
  | failed (f : CopyFault)
  deriving DecidableEq, Repr

/-- The first check of RWAIT. -/
def ringBad (b : Block) (off : Nat) : Bool := !ringValid b off || ringOrf b off

/-- RWAIT.full after its first check: the entry of the copy-fault table that a faulted slot delivers is the slot's
oldest. -/
def ringFull (at' : SPlace) (b : Block) : RingRes :=
  let i := ringRp b at'.off
  let r := ringSlot b at'.off i
  if !r.f then .wait
  else if r.ft then
    match b.faults.find? (fun e => e.ring == at' && e.slot == i && !e.delivered) with
    | some e => .failed e
    | none => .slot i (r.ncl != 0)
  else .slot i (r.ncl != 0)

/-- RWAIT.free after its first check: the state of the block after a claim. -/
def ringFree (off : Nat) (b : Block) : Option (Nat × Block) :=
  let n := ringSlots b off
  let wp := ringWp b off
  let r := ringSlot b off wp
  if ringClaimed b off < n ∧ !r.f ∧ r.arr = 0 then
    let q := ringNext n wp (ringWph b off)
    some (wp, putPtrs b off q.1 (ringRp b off) q.2 (ringRph b off))
  else none

/-- The delivery of a copy fault (R229): the slot is no longer full, the entry stays armed. -/
def deliver (at' : SPlace) (e : CopyFault) (b : Block) : Block :=
  let b := putSlot b at'.off e.slot { ringSlot b at'.off e.slot with f := false, ft := false, ovr := false }
  { b with faults := b.faults.map (fun x => if x == e then { x with delivered := true } else x) }

/-- RREL of a full slot at RP (R189). -/
def ringRel (off : Nat) (b : Block) : Option Block :=
  let rp := ringRp b off
  let r := ringSlot b off rp
  if !r.f then none
  else
    let b := putSlot b off rp { r with arr := 0, f := false, ovr := false, ft := false, ncl := 0 }
    let q := ringNext (ringSlots b off) rp (ringRph b off)
    some (putPtrs b off (ringWp b off) q.1 (ringWph b off) q.2)

/-- RING (R188, R189): ETVAL is the cluster's orphan count. -/
def ringTrap (s : State) (cluster : Nat) (lanes : Mask) : Trap :=
  trapOf cRING lanes (((tget s.clusters cluster).map (·.orphans)).getD 0)

/-- The recorded copy fault as a trap (R188). -/
def copyTrap (e : CopyFault) (lanes : Mask) : Trap := ⟨e.cause, lanes, e.eaddr, e.etval, true, true⟩

/-- A completed RWAIT in its warp: the slot, CLMP, and the acquire (R188). -/
def ringDone (s : State) (wid : Nat) (m : Option Mask) (sd i : Nat) (clamped : Bool) : State :=
  modWarp s wid (fun w =>
    acquire (swriteOwed (if clamped then orFlags w flagCLMP else w) m sd (BitVec.ofNat 32 i)) s.clock 2 (recSeam (recordOf s w)))

/-- A cause that a parked instruction raises: in trap mode a double trap (R398, R399). -/
def parkedTrap (s : State) (wid : Nat) (p : Parked) (t : Trap) : State := takeTrap s wid p.pc p.lastGrant t

/-- One attempt of a wait at the port of a header: the state when it ends or traps, none when it goes on waiting (R188, R398) (DEDUCED, log 35). -/
def ringAttempt (s : State) (bid : Nat) (at' : SPlace) (wid : Nat) (p : Parked) (free : Bool) (sd : Nat) : Option State :=
  (tget s.blocks bid).bind fun b =>
    if free then
      (ringFree at'.off b).map (fun r =>
        unpark (ringDone (modBlock s bid (fun _ => r.2)) wid (some p.lanes) sd r.1 false) wid (fun q => q == p))
    else match ringFull at' b with
      | .wait | .orphan => none
      | .slot i c => some (unpark (ringDone s wid (some p.lanes) sd i c) wid (fun q => q == p))
      | .failed e => some (parkedTrap (modBlock s bid (deliver at' e)) wid p (copyTrap e p.lanes))

/-- The waits on a header, in port order: (warp, parked lanes, free, sd). -/
def ringWaiters (s : State) (at' : SPlace) : List (Nat × Parked × Bool × Nat) :=
  let all := s.warps.flatMap (fun e => e.2.parked.filterMap (fun p =>
    match p.cond with
    | .ring a free sd k => if a = at' then some (k, e.1, p, free, sd) else none
    | _ => none))
  (sortBy (fun a b => decide (a.1 ≤ b.1)) all).map Prod.snd

/-- A change at a header lets waits end, in port order. -/
def wakeRing (s : State) (at' : SPlace) : State :=
  match rankBlock s at'.cluster at'.rank with
  | none => s
  | some (bid, _) =>
    (ringWaiters s at').foldl (fun s e => (ringAttempt s bid at' e.1 e.2.1 e.2.2.1 e.2.2.2).getD s) s

/-- Bytes of a rank's allocation. -/
def allocOf (s : State) (cluster : Nat) : Nat :=
  (((tget s.clusters cluster).bind (fun c => tget s.grids c.grid)).map (fun g => scratchBytes g.record)).getD 0

/-- An arrival at a header's port (R267, R269): bytes of a copy, a COLL or an RARR; an ended block takes none (R263). A
completion that finds no ring raises the orphan count, each piece of a copy on its own (DESIGN CHOICE, log 107). -/
def ringArrive (s : State) (at' : SPlace) (slot bytes clamp : Nat) : State :=
  match rankBlock s at'.cluster at'.rank with
  | none => s
  | some (bid, b) =>
    if b.ended then s
    else
      let s := scramble s bid at'.off (allocOf s at'.cluster)
      let b := (tget s.blocks bid).getD b
      if !ringValid b at'.off || decide (ringSlots b at'.off ≤ slot) then
        modCluster (modBlock s bid (fun b => putOrf b at'.off true)) at'.cluster
          (fun c => { c with orphans := min (c.orphans + 1) 65535 })
      else wakeRing (modBlock s bid (fun b => putSlot b at'.off slot (slotArrive (ringSlot b at'.off slot) bytes clamp))) at'

/-- A copy's failure at a slot (R229 step 1): the slot is full with FT, or the ring has an orphan. -/
def ringFail (s : State) (at' : SPlace) (slot : Nat) : State :=
  match rankBlock s at'.cluster at'.rank with
  | none => s
  | some (bid, b) =>
    if b.ended then s
    else
      let s := scramble s bid at'.off (allocOf s at'.cluster)
      let b := (tget s.blocks bid).getD b
      if !ringValid b at'.off || decide (ringSlots b at'.off ≤ slot) then
        modCluster (modBlock s bid (fun b => putOrf b at'.off true)) at'.cluster
          (fun c => { c with orphans := min (c.orphans + 1) 65535 })
      else wakeRing (modBlock s bid (fun b => putSlot b at'.off slot (slotFault (ringSlot b at'.off slot)))) at'

/-- A ring operation of a warp at the port that holds the header. `x` says whose; the trap names its lanes. -/
inductive RingAct where
  | done (s : State)
  | waits
  | trap (t : Trap) (after : State)

/-- A ring operation performed at its port (R186, R264): `op` of R187 to R189, for lanes of warp `wid`, at their issue (`m` none) or
parked for it. At an ended rank an RWAIT completes with sd as it stood (DESIGN CHOICE, log 124). -/
def ringPerform (s : State) (wid : Nat) (lanes : Mask) (m : Option Mask) (at' : SPlace) (op : PortOp) : RingAct :=
  match rankBlock s at'.cluster at'.rank with
  | none => .waits
  | some (bid, b0) =>
    if b0.ended then .done s
    else
      let init := match op with | .ringInit .. => true | _ => false
      let s := if init then s else scramble s bid at'.off (allocOf s at'.cluster)
      let b := (tget s.blocks bid).getD b0
      let off := at'.off
      let orphan := RingAct.trap (ringTrap s at'.cluster lanes) s
      match op with
      | .ringInit n e => .done (wakeRing (modBlock s bid (ringInit at' n e)) at')
      | .ringArrive slot bytes clamp _ =>
        if ringValid b off && decide (ringSlots b off ≤ slot) then orphan else .done (ringArrive s at' slot bytes clamp)
      | .ringRel => match ringRel off b with
        | none => orphan
        | some b => .done (wakeRing (modBlock s bid (fun _ => b)) at')
      | .ringWait free sd =>
        if ringBad b off then .trap (ringTrap s at'.cluster lanes) (modBlock s bid (fun b => putOrf b off false))
        else if free then
          match ringFree off b with
          | some r => .done (ringDone (modBlock s bid (fun _ => r.2)) wid m sd r.1 false)
          | none => .waits
        else match ringFull at' b with
          | .slot i c => .done (ringDone s wid m sd i c)
          | .failed e => .trap (copyTrap e lanes) (modBlock s bid (deliver at' e))
          | _ => .waits
      | _ => .done s

/-- The header a ring instruction names, after ALIGN and SCRB (R187): `size` its bytes (DEDUCED, log 38). -/
def ringPlace (x : Issue) (s : State) (a size : Nat) : Except Trap SPlace :=
  let rank := rankOf s x.w
  if a % 16 ≠ 0 then .error ⟨cALIGN, x.b.lanes, a, 16, false, false⟩
  else match scratchPlace x.record rank a size with
    | none => .error ⟨cSCRB, x.b.lanes, a, recScrg x.record, false, false⟩
    | some c => .ok ⟨clusterIdOf s x.w, codeRank c, codeOff c⟩

/-- A ring instruction (R186): performed now at the own core's port, or sent to the port of a peer, where the lanes wait
for it; so too behind an own access that is held there (R264, R285). -/
def ringIssue (x : Issue) (s : State) (a size : Nat) (op : PortOp) : Verdict × State :=
  match ringPlace x s a size with
  | .error t => (.trap t, s)
  | .ok at' =>
    match poisOf x s with
    | some r => r
    | none =>
      if isLocal s x.w at'.rank && !heldBehind s x.w x.wid at'.cluster at'.rank [(at'.off, size)] then
        match ringPerform s x.wid x.b.lanes none at' op with
        | .done s => (.advance, s)
        | .trap t s => (.trap t, s)
        | .waits =>
          let (k, s) := nextId s
          match op with
          | .ringWait free sd => parkAll s x (.ring at' free sd k)
          | _ => (.advance, s)
      else
        let (id, s) := nextId s
        let s := modNet s (fun n => { n with ports := tput n.ports id ⟨id, x.w.core, some x.wid, at', op, false, id⟩ })
        parkAll s x (.port id)

/-- RINIT (R187). -/
def execRinit (f : UB) (s : State) : Host.Outcome State Fault Refusal :=
  issue (.rinit f) s fun x s =>
    let n := f.imm.toNat + 1
    ringIssue x s (sread x.w f.sa.toNat).toNat (16 + 8 * n) (.ringInit n (sread x.w f.sb.toNat).toNat)

/-- RWAIT.full (R188). -/
def execRwaitFull (f : UB) (s : State) : Host.Outcome State Fault Refusal :=
  issue (.rwaitFull f) s fun x s => ringIssue x s (sread x.w f.sa.toNat).toNat 16 (.ringWait false f.sd.toNat)

/-- RWAIT.free (R188). -/
def execRwaitFree (f : UB) (s : State) : Host.Outcome State Fault Refusal :=
  issue (.rwaitFree f) s fun x s => ringIssue x s (sread x.w f.sa.toNat).toNat 16 (.ringWait true f.sd.toNat)

/-- RREL (R189): after its release. -/
def execRrel (f : UB) (s : State) : Host.Outcome State Fault Refusal :=
  issue (.rrel f) s fun x s => ringIssue x (dropDescs s x.wid) (sread x.w f.sa.toNat).toNat 16 .ringRel

/-- RARR (R189): after its release. -/
def execRarr (f : UB) (s : State) : Host.Outcome State Fault Refusal :=
  issue (.rarr f) s fun x s =>
    ringIssue x (dropDescs s x.wid) (sread x.w f.sa.toNat).toNat 16
      (.ringArrive (sread x.w f.sb.toNat).toNat (sread x.w f.sc.toNat).toNat 0 none)

end Sys2Proof.Machine
end

