-- ==== Sys2Proof/Machine/Sync.lean ====
section
/-! DEFINITION. Barriers (R177 to R180) and knots (R181 to R185) as a warp issues them. -/

namespace Sys2Proof.Machine

/-- An arrive (R178): the lanes go on, or park until the phase flips. -/
def barArrive (x : Issue) (s : State) (b : Bar) (k : Nat) : Verdict × State :=
  match arriveLanes s x.wid b x.b.lanes k with
  | some s => (.advance, s)
  | none => parkAll s x (.arrive b k false)

/-- A wait on a barrier (R179, R180). -/
def barWait (x : Issue) (s : State) (b : Bar) : Verdict × State :=
  match (tget s.warps x.wid).bind (fun w => waitPhase s w b) with
  | some ph => parkAll s x (.phase b ph)
  | none => (.advance, modWarp s x.wid (fun w => acquire w s.clock (barScope b) (recSeam (recordOf s w))))

/-- BARA (R178). -/
def execBara (f : UB) (s : State) : Host.Outcome State Fault Refusal :=
  issueOp (.bara f) s (fun x s => barArrive x s (.bb f.sd.toNat) f.sa.toNat)

/-- BARW (R179). -/
def execBarw (f : UB) (s : State) : Host.Outcome State Fault Refusal :=
  issueOp (.barw f) s (fun x s => barWait x s (.bb f.sd.toNat))

/-- BARS (R179): BARA followed by BARW. -/
def execBars (f : UB) (s : State) : Host.Outcome State Fault Refusal :=
  issueOp (.bars f) s fun x s =>
    match arriveLanes s x.wid (.bb f.sd.toNat) x.b.lanes f.sa.toNat with
    | some s => barWait x s (.bb f.sd.toNat)
    | none => parkAll s x (.arrive (.bb f.sd.toNat) f.sa.toNat true)

/-- CBARA (R180). -/
def execCbara (f : UB) (s : State) : Host.Outcome State Fault Refusal :=
  issueOp (.cbara f) s (fun x s => barArrive x s (.cb f.sd.toNat) f.sa.toNat)

/-- CBARW (R180). -/
def execCbarw (f : UB) (s : State) : Host.Outcome State Fault Refusal :=
  issueOp (.cbarw f) s (fun x s => barWait x s (.cb f.sd.toNat))

/-- GRIDBAR (R180): every issuing lane parks until the grid's phase flips. -/
def execGridbar (f : UB) (s : State) : Host.Outcome State Fault Refusal :=
  issueOp (.gridbar f) s fun x s =>
    match arriveLanes s x.wid .grid x.b.lanes f.sa.toNat with
    | some s => parkAll s x (.phase .grid (phaseOf s x.w .grid))
    | none => parkAll s x (.arrive .grid f.sa.toNat true)

/-- Whether the warp has writes to bytes that are not at their home yet (R155, R284) (DEDUCED, log 39). -/
def ownWriteLive (s : State) (wid : Nat) (w : Warp) (pa n : Nat) : Bool :=
  let hit := fun (ps : List Piece) => ps.any (fun p => decide (p.addr < pa + n) && decide (pa < p.addr + p.data.length))
  w.storeQ.any (fun e => match e with | .global _ _ ps => hit ps | .port _ => false)
    || (bayOf s (bayOfCore w.core)).window.any (fun e => e.warp == wid && !e.performed && hit e.pieces)

/-- The record a knot instruction names (R182): aligned, and readable and writable. Its accesses are routed grain by grain (R406). -/
def knotRecord (x : Issue) (s : State) (sa : Nat) : Except Trap Nat :=
  let va := spair x.w sa
  if va % 64 ≠ 0 then .error ⟨cALIGN, x.b.lanes, va, 64, false, false⟩
  else match xlatePa s x.w.core x.ctx va true true false with
    | .error e => .error ⟨e.1, x.b.lanes, va, e.2, decide (e.1 = cPAGE), false⟩
    | .ok (pa, _) => .ok pa

/-- A request to a knot's home, for which the issuing lanes wait (R182, R185); `drains` for a KGIVE whose release must take
effect before it is sent. -/
def knotSend (x : Issue) (s : State) (krec sd : Nat) (op : KnotOp) (drains : Bool) : Verdict × State :=
  let (id, s) := nextId s
  let sent := if drains then none else some id
  let s := modNet s (fun n => { n with
    knots := tput n.knots id ⟨id, some x.wid, .cluster (clusterIdOf s x.w), krec, sd, op, sent, false, none, false, none⟩ })
  parkAll s x (.knot id)

/-- A knot instruction after its checks: the record's translation is cached, marked scalars raise POIS, `go` acts. -/
def knotIssue (x : Issue) (s : State) (sa : Nat) (go : State → Nat → Verdict × State) : Verdict × State :=
  let walked := cacheVa s x.w.core x.ctx (spair x.w sa)
  match knotRecord x s sa with
  | .error t => (.trap t, if t.code = cALIGN then s else walked)
  | .ok krec =>
    match poisOf x walked with
    | some r => r
    | none => go walked krec

/-- The used ranges of a record's 64 bytes (R181): (base, grains). -/
def knotRanges (bs : List Byte) : List (Nat × Nat) :=
  ((List.range 4).map (fun i => (recField bs (0x10 + 8 * i) 8, recField bs (0x30 + 4 * i) 4))).filter (fun r => r.2 != 0)

/-- Status 3 of KINIT.reg (R183): a reserved field not 0, a length beyond 2 048, no range, a range across 64 KiB (DEDUCED, log 40). -/
def knotBad (bs : List Byte) : Bool :=
  let rs := knotRanges bs
  recField bs 0 4 / 4 != 0 || recField bs 0x0C 4 != 0 || recField bs 4 4 / 2 ^ 28 != 0
    || (List.range 4).any (fun i =>
        let b := recField bs (0x10 + 8 * i) 8
        b % 32 != 0 || b / 2 ^ 57 != 0)
    || rs.isEmpty || rs.any (fun r => decide (2048 < r.2) || decide (65536 < r.1 % 65536 + 32 * r.2))

/-- The pages of a record's ranges, each with write permission (R182): the first that fails, PAGE before PERM (R43). -/
def knotPageFault (x : Issue) (s : State) (bs : List Byte) : Option Trap :=
  let vas := (knotRanges bs).flatMap (fun r => (pagesOf 4 (r.1 % 2 ^ 57 / 32 * 32) (32 * min r.2 2048)).map Prod.fst)
  (firstFault (vas.filterMap (fun va => match xlate s x.w.core x.ctx va false true false with
    | .error e => some (va, e)
    | .ok _ => none))).map (fun e => ⟨e.2.1, x.b.lanes, e.1, e.2.2, decide (e.2.1 = cPAGE), false⟩)

/-- The walks of the pages of a record's ranges. -/
def knotWalks (x : Issue) (s : State) (bs : List Byte) : State :=
  ((knotRanges bs).flatMap (fun r => (pagesOf 4 (r.1 % 2 ^ 57 / 32 * 32) (32 * min r.2 2048)).map Prod.fst)).foldl
    (fun s va => cacheVa s x.w.core x.ctx va) s

/-- The physical ranges of a record. -/
def knotPhys (x : Issue) (s : State) (krec : Nat) (bs : List Byte) : List KnotRange :=
  (knotRanges bs).filterMap (fun r => match xlate s x.w.core x.ctx (r.1 % 2 ^ 57 / 32 * 32) false true false with
    | .error _ => none
    | .ok (pa, _) => some ⟨pa / 32, r.2, krec⟩)

/-- The 64 bytes of a knot record as a context's loads read it (R384, R385, R406): zeros of a denied access. -/
def knotBytes (s : State) (ctx krec : Nat) : List Byte :=
  if [krec, krec + 32].all (fun a => permits s (masterOf s ctx 0) (routed s a) true false) then routedBytes s krec 64
  else List.replicate 64 0

/-- KINIT.reg (R183): the record is read at its home after the warp's own writes to it (DEDUCED, log 39). -/
def execKinitReg (f : UB) (s : State) : Host.Outcome State Fault Refusal :=
  issue (.kinitReg f) s fun x s =>
    match knotRecord x s f.sa.toNat with
    | .error t => (.trap t, if t.code = cALIGN then s else cacheVa s x.w.core x.ctx (spair x.w f.sa.toNat))
    | .ok krec =>
      if ownWriteLive s x.wid x.w krec 64 then (.stall, s)
      else
        let bs := knotBytes s x.ctx krec
        match knotPageFault x s bs with
        | some t => (.trap t, knotWalks x s bs)
        | none => knotIssue x s f.sa.toNat fun s k =>
          knotSend x (knotWalks x s bs) k f.sd.toNat (.reg (knotPhys x s k bs) (if knotBad bs then some 3 else none)) false

/-- KINIT.free (R183). -/
def execKinitFree (f : UB) (s : State) : Host.Outcome State Fault Refusal :=
  issue (.kinitFree f) s fun x s => knotIssue x s f.sa.toNat fun s k => knotSend x s k f.sd.toNat .free false

/-- KTAKE (R184). -/
def execKtake (f : UB) (s : State) : Host.Outcome State Fault Refusal :=
  issue (.ktake f) s fun x s => knotIssue x s f.sa.toNat fun s k => knotSend x s k f.sd.toNat (.take (f.sub == 1)) false

/-- A holder's token stops counting for the TOKEN check (R185 step 1). -/
def startGive (s : State) (t : Taker) (krec : Nat) : State :=
  { s with slices := s.slices.map (fun y => { y with
      knots := y.knots.map (fun k => if k.krec == krec && k.holder == some t then { k with giving := true } else k) }) }

/-- KGIVE (R185): from its issue the cluster no longer holds the token; its release at .dev drains, then the request goes to
the home. -/
def execKgive (f : UB) (s : State) : Host.Outcome State Fault Refusal :=
  issue (.kgive f) s fun x s => knotIssue x s f.sa.toNat fun s k =>
    let t := Taker.cluster (clusterIdOf s x.w)
    if holdsToken s t k then
      let s := modWarp (startGive s t k) x.wid (fun w => { w with release := some (max 4 (w.release.getD 0)) })
      knotSend x s k f.sd.toNat .give true
    else knotSend x s k f.sd.toNat .give false

end Sys2Proof.Machine
end

