-- ==== Sys2Proof/Machine/Place.lean ====
section
/-! DEFINITION. Launch records (R95, R96, R278), the fit of blocks and clusters (R252 to R258, R369) and the placement pass
(R367 to R374). A block's warps take their slots when the pass gives the block its core; BLOCK_PLACE and BLOCK_START say
when it stands there and when it issues. -/

namespace Sys2Proof.Machine

/-- A channel entry's fields (R95). -/
def chV (e : Nat) : Bool := bit e 0
def chRel (e : Nat) : Nat := bits e 1 3
def chSrank (e : Nat) : Nat := bits e 4 4
def chDrank (e : Nat) : Nat := bits e 8 4
def chSlotsN (e : Nat) : Nat := bits e 16 6 + 1
def chMline (e : Nat) : Nat := bits e 32 9
def chArg (e : Nat) : Nat := bits e 48 16

/-- The ranges of a channel entry (R95, R96): of one with V = 0 only the reserved bits are checked (DESIGN CHOICE, log 112). -/
def channelOk (e csize : Nat) : Bool :=
  bits e 12 4 == 0 && bits e 22 10 == 0 && bits e 41 7 == 0 &&
    (!chV e || (decide (chRel e ≤ 3) && decide (chSrank e < csize) && decide (chDrank e < csize) && decide (1 ≤ chMline e)
      && decide (chMline e ≤ 256)
      && (chRel e == 2 || (if chRel e = 3 then decide (chArg e ≤ 383) else chArg e == 0))))

/-- B of R278: the bytes of a channel's slots, rounded up to 4 KiB. -/
def chBytes (e : Nat) : Nat := (chSlotsN e * chMline e * 128 + 4095) / 4096 * 4096

/-- The channels that a rank receives. -/
def chOfRank (r : List Byte) (rank : Nat) : List Nat :=
  (List.range 16).filter (fun n => chV (recChannel r n) && chDrank (recChannel r n) == rank)

/-- T of R278. -/
def chTotal (r : List Byte) (rank : Nat) : Nat := ((chOfRank r rank).map (fun n => chBytes (recChannel r n))).foldl (· + ·) 0

/-- The offset of slot j of channel n in its receiver's allocation (R278). -/
def chSlotOff (r : List Byte) (n j : Nat) : Nat :=
  let e := recChannel r n
  let below := (((chOfRank r (chDrank e)).filter (fun m => decide (m < n))).map (fun m => chBytes (recChannel r m))).foldl
    (· + ·) 0
  scratchBytes r - chTotal r (chDrank e) + below + j * chMline e * 128

/-- The ranges and reserved fields of a launch record (R95, R96, R278). -/
def recordFieldsOk (r : List Byte) : Bool :=
  let fl := recFlags r
  let ws := recWarps r
  r.length == 384 && recField r 0 2 == 1 && recField r 2 2 == 0 && fl / 256 == 0 && fl % 4 != 3
    && decide (8 ≤ recVregs r) && decide (recVregs r ≤ 256) && recVregs r % 8 == 0
    && decide (1 ≤ recCsize r) && decide (recCsize r ≤ 12)
    && decide ((if recPair r then 2 else 1) ≤ ws) && decide (ws ≤ if recPair r then 96 else 48)
    && decide (recAccs r ≤ 8) && decide (recScrg r ≤ 128) && recEntry r % 4 == 0 && decide (1 ≤ recGrid r)
    && recField r 0x1C 4 == 0 && recField r 0x38 8 == 0 && recField r 0x58 40 == 0
    && (List.range 16).all (fun n => channelOk (recChannel r n) (recCsize r))
    && (List.range (recCsize r)).all (fun k => decide (chTotal r k ≤ scratchBytes r))
    && !(recSeam r && recCsize r == 1)

/-- Whether a record names a core of a die's launch (R368): no bit set means every core of the die, or of both dies for a
seam-bonded record (DEDUCED, log 42). -/
def inCmask (r : List Byte) (die core : Nat) : Bool :=
  if recCmask r = 0 then recSeam r || dieOfCore core == die else bit (recCmask r) core

/-- Whether the mask names a core of the other die. -/
def cmaskElsewhere (r : List Byte) (die : Nat) : Bool :=
  (List.range 192).any (fun c => bit (recCmask r) c && dieOfCore c != die)

/-- Scratch granules of the blocks of a core. -/
def scrgUsed (s : State) (core : Nat) : Nat :=
  (s.blocks.filter (fun e => !e.2.ended && e.2.core == core)).foldl
    (fun acc e => acc + ((gridOfBlock s e.2).map (fun g => recScrg g.2.record)).getD 0) 0

/-- Free accumulator slots of a core: neither mapped nor reserved. -/
def accsFree (s : State) (core : Nat) : List Nat :=
  (List.range 8).filter (fun k => (coreOf s core).accOwner.getD k (some (0, 0)) == none)

/-- The lowest block slot of a core that no block holds (R181). -/
def freeBslot (s : State) (core : Nat) : Nat :=
  let used := (s.blocks.filter (fun e => !e.2.ended && e.2.core == core)).map (fun e => e.2.bslot)
  ((List.range 16).find? (fun k => !used.contains k)).getD 0

/-- Whether a core takes a block of a grid at all (R369, R433, R434): neither fenced nor drained, in CMASK, not reserved for
another launch, at most 15 blocks. -/
def coreTakes (s : State) (gid : Nat) (g : Grid) (core : Nat) : Bool :=
  !(coreOf s core).fenced && !(coreOf s core).drained && inCmask g.record g.die core
    && !s.dies.any (fun d => d.reserved.any (fun p => p.1 == core && p.2 != gid))
    && decide ((blocksOnCore s core).length ≤ 15)

/-- The 32 argument words of a record. -/
def recArgs (r : List Byte) : List Word := (List.range 32).map (fun n => BitVec.ofNat 32 (recArg r n))

/-- The core of a warp index of a block at start (R254). -/
def startCore (r : List Byte) (core i : Nat) : Nat := if recPair r && i % 2 == 1 then core + 1 else core

/-- Starts the warps of a block in ascending index (R252): none when one does not fit. A PC has 57 bits: ENTRY's others are dropped
(DEDUCED, log 96). -/
def startWarps (s : State) (bid : Nat) (r : List Byte) (core : Nat) : List Nat → Option State
  | [] => some s
  | i :: is =>
    (startSlot s (startCore r core i) (recWidth r) (recVregs r)).bind (fun slot =>
      let w := newWarp r bid (startCore r core i) slot i (BitVec.ofNat 57 (recEntry r)) (recFctl r) (recArgs r)
        (List.replicate 16 .waiting) s.clock
      startWarps (addWarp s { w with acqClock := s.clock }) bid r core is)

/-- A block as it starts (R31, R206, R263). -/
def newBlock (cluster rank core bslot warps : Nat) (accs : List Nat) : Block :=
  { cluster := cluster, rank := rank, core := core, bslot := bslot, started := false, ended := false, halted := false,
    bbs := List.replicate 16 ⟨warps, 0, false, 0, 0⟩, hitches := List.replicate 8 ⟨0, none, []⟩,
    accs := List.replicate 16 .unmapped, accFree := accs, mstat := 0, mlog := [], faults := [], scratch := [],
    lineCopies := [], absent := [], linePois := [], rings := [], chSlots := [], chNext := [], chWait := [],
    watches := List.replicate 4 ⟨false, 0, 0, 0⟩, oddEvents := [], oddAccs := [], cbDone := [], cbLate := [], again := [] }

/-- Reserves accumulator slots of a core for a block. -/
def reserveAccs (s : State) (core bid : Nat) (ks : List Nat) : State :=
  modCore s core (fun c => { c with accOwner := ks.foldl (fun o k => lset o k (some (bid, 16))) c.accOwner })

/-- A block of a context is resident in this watchdog period; a halted one is halted in it (R389). -/
def noteResident (s : State) (c : Nat) (halted : Bool) : State :=
  modCtx s c (fun x => { x with blockSeen := true, haltSeen := x.haltSeen || halted })

/-- Puts a block of a rank on a core with its warps (R252, R254, R369): none when it does not fit. -/
def putBlock (s : State) (gid cid rank core : Nat) : Option State :=
  (tget s.grids gid).bind fun g =>
    let r := g.record
    let cores := if recPair r then [core, core + 1] else [core]
    if cores.all (coreTakes s gid g) && decide (scrgUsed s core + recScrg r ≤ 128)
        && decide (recAccs r ≤ (accsFree s core).length) then
      let accs := (accsFree s core).take (recAccs r)
      let (bid, s) := nextId s
      let s := { s with blocks := tput s.blocks bid (newBlock cid rank core (freeBslot s core) (recWarps r) accs) }
      let s := modCluster s cid (fun c => { c with blocks := tput c.blocks rank bid, cores := c.cores ++ [core] })
      startWarps (noteResident (reserveAccs s core bid accs) g.ctx false) bid r core (List.range (recWarps r))
    else none

/-- The core positions of a bay at which a block may start: every core, or the even ones of a pair. -/
def baySpots (pair : Bool) (bay : Nat) : List Nat :=
  ((List.range 12).map (fun p => 96 * (bay / 8) + 12 * (bay % 8) + p)).filter (fun c => !pair || c % 2 == 0)

/-- Greedy fit of ranks onto the cores of a bay (R369): each takes the lowest core above the one before on which it fits. -/
def fitRanks (put : State → Nat → Nat → Option State) : List Nat → List Nat → State → Option State
  | _, [], s => some s
  | [], _ :: _, _ => none
  | c :: cs, r :: rs, s => match put s r c with
    | some t => fitRanks put cs rs t
    | none => fitRanks put cs (r :: rs) s

/-- The ranks of a cluster by bay: all in one bay of die `die`, or the halves of a seam pair (R256, R258). -/
def bayHalves (r : List Byte) (die bay : Nat) : List (Nat × List Nat) :=
  let n := recCsize r
  let h := (n + 1) / 2
  if recSeam r then [(bay, List.range h), (8 + bay, (List.range (n - h)).map (· + h))]
  else [(8 * die + bay, List.range n)]

/-- Puts a cluster of a grid into a bay (or seam pair): none when the greedy search fails. -/
def putCluster (s : State) (gid idx bay : Nat) : Option State :=
  (tget s.grids gid).bind fun g =>
    let r := g.record
    let (cid, s) := nextId s
    let c : Cluster := {
      grid := gid, index := idx, die := if recSeam r then 0 else g.die, bay := bay, blocks := [], endedRanks := [],
      cbs := List.replicate 8 ⟨recCsize r, 0, false, []⟩, orphans := 0, cores := [] }
    let s := { s with clusters := tput s.clusters cid c }
    (bayHalves r g.die bay).foldl (fun (o : Option State) h =>
      o.bind (fitRanks (fun s rank core => putBlock s gid cid rank core) (baySpots (recPair r) h.1) h.2)) (some s)

/-- The bays in the order of R370 after the last one placed. -/
def bayOrder (seam : Bool) (last : Nat) : List Nat :=
  if seam then
    let o := [1, 3, 5, 7]
    o.filter (fun b => decide (last < b)) ++ o.filter (fun b => decide (b ≤ last))
  else (List.range 8).map (fun i => (last + 1 + i) % 8)

/-- The last bay of a distributor's placements. -/
def lastOf (d : Die) (seam : Bool) : Nat := if seam then d.lastSeam else d.lastBay

/-- Remembers the last bay. -/
def setLast (s : State) (die bay : Nat) (seam : Bool) : State :=
  modDie s die (fun d => if seam then { d with lastSeam := bay } else { d with lastBay := bay })

/-- Puts a cluster into the first bay that has room, with the bay. -/
def putAnywhere (s : State) (die gid idx : Nat) : Option (State × Nat) :=
  (tget s.grids gid).bind fun g =>
    (bayOrder (recSeam g.record) (lastOf (dieOf s die) (recSeam g.record))).findSome? (fun b =>
      (putCluster s gid idx b).map (fun t => (setLast t die b (recSeam g.record), b)))

/-- Puts `n` clusters of a grid from index `i` on (R371): none when some cluster finds no room. -/
def putWhole (die gid : Nat) : Nat → Nat → State → Option State
  | 0, _, s => some s
  | n + 1, i, s => (putAnywhere s die gid i).bind (fun r => putWhole die gid n (i + 1) r.1)

/-- The device with nothing on its cores (R96, R368). -/
def idleState (s : State) : State :=
  { s with warps := [], blocks := [], clusters := [], cores := s.cores.map (fun c => { c with accOwner := List.replicate 8 none }),
           dies := s.dies.map (fun d => { d with reserved := [] }) }

/-- A grid of a record. -/
def newGrid (ctx : Nat) (r : List Byte) (prio die : Nat) (rep : Option (Nat × Nat)) (entered : Nat) (noWait : Bool) : Grid :=
  { ctx := ctx, record := r, prio := prio, die := die, report := rep, entered := entered, noWait := noWait, placed := 0, ended := 0, phase := false, came := [],
    endedBlocks := [] }

/-- Whether a mask names no core in some seam bay of either die (R368): B1, B3, B5 and B7 of each; a mask of zeros names all (DEDUCED,
log 42). -/
def seamUnnamed (r : List Byte) : Bool :=
  recCmask r != 0 && [1, 3, 5, 7, 9, 11, 13, 15].any (fun b => !(baySpots false b).any (fun c => bit (recCmask r) c))

/-- Whether a record is refused (R96, R255, R258, R278, R368): `queued` for a KLAUNCH. -/
def recordRefused (s : State) (die : Nat) (r : List Byte) (queued : Bool) : Bool :=
  !recordFieldsOk r || (recSeam r && !queued) || (!recSeam r && cmaskElsewhere r die) || (recSeam r && seamUnnamed r) ||
    (let t := idleState s
     let gid := t.fresh
     let t := { t with grids := tput t.grids gid (newGrid 0 r 0 die none 0 false), fresh := gid + 1 }
     (putAnywhere t die gid 0).isNone || (queued && recCoop r && (putWhole die gid (recGrid r) 0 t).isNone))

/-- The order of the launch list (R367). -/
def launchBefore (a b : Launch) : Bool :=
  decide (b.prio < a.prio) || (a.prio == b.prio && (decide (b.recPrio < a.recPrio) ||
    (a.recPrio == b.recPrio && decide (a.entered ≤ b.entered))))

/-- Memory as its homes hold it. -/
def codeNow (s : State) : List Host.Cell :=
  s.slices.foldl (fun m y => (y.blocks.filter (fun b => !b.lease)).foldl (fun m b => (List.range b.len).foldl (fun m i =>
    setBytes m (512 * b.region + 32 * (b.start + i)) (bytesAt b.data (32 * (b.start + i)) 32)) m) m) s.mem

/-- A context's instruction caches are invalidated (R74): what they hold of memory from now on is what it holds now. -/
def dropCode (s : State) (ctx : Nat) : State :=
  { modCtx s ctx (fun x => { x with code := codeNow s }) with
    cores := s.cores.map (fun c => { c with icache := c.icache.filter (fun e => e.1 / 2 ^ 57 != ctx) }) }

/-- A launch enters a die's list (R367); the context's instruction caches are invalidated (R74). -/
def enterLaunch (s : State) (die ctx prio : Nat) (r : List Byte) (rep : Option (Nat × Nat)) (noWait : Bool) : Nat × State :=
  let (gid, s) := nextId s
  let s := dropCode { s with grids := tput s.grids gid (newGrid ctx r prio die rep s.clock noWait) } ctx
  let l : Launch := ⟨gid, prio, recPrio r, s.clock, 0, [], noWait, s.clock⟩
  (gid, modDie s die (fun d =>
    if 64 ≤ d.launches.length then { d with backlog := d.backlog ++ [l] }
    else { d with launches := sortBy launchBefore (d.launches ++ [l]), passDue := true }))

/-- Launches that wait in front of a die's list enter it while it has room (R363, R367). -/
def admitGo (die : Nat) : Nat → State → State
  | 0, s => s
  | n + 1, s =>
    match (dieOf s die).backlog with
    | [] => s
    | l :: ls =>
      if 64 ≤ (dieOf s die).launches.length then s
      else admitGo die n (modDie s die (fun d => { d with
        backlog := ls
        launches := sortBy launchBefore
          (d.launches ++ [{ l with entered := if l.saved.isEmpty then s.clock else l.entered, waitSince := s.clock }])
        passDue := true }))

/-- A die's list has room again: KLAUNCHes that wait enter it, then a waiting LAUNCH is tried again (R149, R363). -/
def roomMade (s : State) (die : Nat) : State :=
  let s := admitGo die (dieOf s die).backlog.length s
  (s.warps.filter (fun e => dieOfCore e.2.core == die)).foldl (fun s e =>
    reissue s e.1 (fun p => match p.cond with | .launch .. => true | _ => false)) s

/-- Whether a cooperative grid fits whole now (R371). -/
def fitsWhole (s : State) (die : Nat) (gid : Nat) (g : Grid) : Bool := (putWhole die gid (recGrid g.record) 0 s).isSome

/-- The blocks that a placement has put on cores, in rank order. -/
def placingsOf (s : State) (cid : Nat) (restore : Bool) : List Placing :=
  match tget s.clusters cid with
  | none => []
  | some c => c.blocks.filterMap (fun e => (tget s.blocks e.2).map (fun b => ⟨c.grid, cid, e.1, b.core, restore⟩))

/-- A placed cluster's blocks are handed out (R370, R371): those of the own die in turn, those of the other die to its
distributor. -/
def handOut (s : State) (die cid : Nat) (restore : Bool) : State :=
  let ps := placingsOf s cid restore
  modDie s die (fun d => { d with
    placing := d.placing ++ ps.filter (fun p => dieOfCore p.core == die)
    forwarded := d.forwarded ++ ps.filter (fun p => dieOfCore p.core != die) })

/-- Whether a grid is cooperative. -/
def coopGrid (s : State) (gid : Nat) : Bool := (tget s.grids gid).any (fun g => recCoop g.record)

/-- Whether a block that a distributor has to place is of a half that its peer has sent (R371). -/
def peerHalf (s : State) (die : Nat) (p : Placing) : Bool := (tget s.grids p.grid).any (fun g => g.die != die)

/-- Whether a distributor has placed some block of a grid already. -/
def placeBegun (s : State) (die gid : Nat) : Bool :=
  s.blocks.any (fun e => dieOfCore e.2.core == die && !onTheWay s e.2 && ((tget s.clusters e.2.cluster).map (·.grid)) == some gid)

/-- The halves that a distributor has sent its peer are there, to be placed before anything of the peer's own (R371, R374), but for the
rest of a cooperative grid whose first blocks there are placed (DEDUCED, log 133). -/
def takeHalves (s : State) (die : Nat) : State :=
  let f := (dieOf s die).forwarded
  let here := (dieOf s (1 - die)).placing
  let first := here.takeWhile (fun p => peerHalf s (1 - die) p || (coopGrid s p.grid && placeBegun s (1 - die) p.grid))
  modDie (modDie s die (fun d => { d with forwarded := [] })) (1 - die) (fun d => { d with
    placing := first ++ f ++ here.drop first.length })

/-- Whether the block that a distributor places next may be placed (R371): a half that its peer has sent is, and no other launch's is
while a cooperative grid that it placed before, whose blocks here are all placed, has some left at the peer. -/
def mayPlace (s : State) (die : Nat) : Bool :=
  let here := (dieOf s die).placing
  let away := (dieOf s die).forwarded ++ (dieOf s (1 - die)).placing
  match here with
  | [] => false
  | p :: _ => peerHalf s die p || !away.any (fun q => q.grid != p.grid && coopGrid s q.grid && !peerHalf s die q
      && !here.any (fun k => k.grid == q.grid))

/-- Changes a launch of a die. -/
def modLaunch (s : State) (die gid : Nat) (f : Launch → Launch) : State :=
  modDie s die (fun d => { d with launches := d.launches.map (fun l => if l.grid == gid then f l else l) })

/-- One cluster of a launch has been placed: the next one waits from now. -/
def notePlaced (s : State) (die gid cid : Nat) : State :=
  let s := modGrid s gid (fun g => { g with placed := g.placed + 1 })
  let s := modLaunch s die gid (fun l => { l with nextCluster := l.nextCluster + 1, waitSince := s.clock })
  handOut s die cid false

/-- The cluster of an index of a grid. -/
def clusterAt (s : State) (gid idx : Nat) : Option (Nat × Cluster) :=
  s.clusters.find? (fun e => e.2.grid == gid && e.2.index == idx)

/-- Places clusters of a launch one after another while they fit (R370). -/
def placeGo (die gid : Nat) : Nat → Nat → State → State
  | 0, _, s => s
  | n + 1, i, s =>
    match putAnywhere s die gid i with
    | none => s
    | some (t, _) => placeGo die gid n (i + 1) (notePlaced t die gid (((clusterAt t gid i).map Prod.fst).getD 0))

/-- The old accumulator slots of a saved block and their contents. -/
def savedAccs (v : Saved) (bid : Nat) : List (Nat × Tbl Word) := (v.accs.filter (fun e => e.1 == bid)).map (fun e => e.2)

/-- A saved block's warps on new slots (R404): none when one does not fit. -/
def restoreWarps (core : Nat) (r : List Byte) : List (Nat × Warp) → State → Option State
  | [], s => some s
  | (wid, w) :: ws, s =>
    let c := startCore r core w.widx
    (startSlot s c w.width w.win).bind (fun slot =>
      restoreWarps core r ws { s with warps := tput s.warps wid { w with core := c, slot := slot } })

/-- A saved name's slot on the new core: the k-th of those taken. -/
def remapName (old new : List Nat) (a : AccName) : AccName :=
  let f := fun k => new.getD (old.findIdx (fun x => x == k)) 0
  match a with
  | .unmapped => .unmapped
  | .mapped k => .mapped (f k)
  | .poisoned k => .poisoned (f k)

/-- The slot a name holds. -/
def slotOf (a : AccName) : Option Nat :=
  match a with
  | .unmapped => none
  | .mapped k | .poisoned k => some k

/-- Puts a saved block back on a core (R373, R404): accumulator names take free slots with their contents, the reservation
its own. It issues after RESTORE. -/
def putSaved (v : Saved) (s : State) (gid rank core : Nat) : Option State :=
  (tget s.grids gid).bind fun g =>
    (v.blocks.find? (fun e => e.2.rank == rank)).bind fun (bid, b) =>
      let r := g.record
      let cores := if recPair r then [core, core + 1] else [core]
      let old := b.accs.filterMap slotOf
      let keep := savedAccs v bid
      if cores.all (coreTakes s gid g) && decide (scrgUsed s core + recScrg r ≤ 128)
          && decide (old.length + b.accFree.length ≤ (accsFree s core).length) then
        let new := (accsFree s core).take (old.length + b.accFree.length)
        let names := b.accs.map (remapName old new)
        let res := new.drop old.length
        let b := { b with core := core, bslot := freeBslot s core, accs := names, accFree := res, started := false }
        let s := { s with blocks := tput s.blocks bid b }
        let s := modCluster s b.cluster (fun c => { c with blocks := tput c.blocks rank bid, cores := lset c.cores rank core })
        let s := noteResident (reserveAccs s core bid res) g.ctx b.halted
        let s := (names.zipIdx).foldl (fun s e => match slotOf e.1 with
          | none => s
          | some k =>
            let n := if v.reserved.contains (bid, e.2) then 32 + e.2 else e.2
            modCore s core (fun c => { c with accOwner := lset c.accOwner k (some (bid, n)) })) s
        let s := (old.zip new).foldl (fun s p =>
          let cells := ((keep.find? (fun e => e.1 == p.1)).map Prod.snd).getD []
          modCore s core (fun c => { c with
            accs := cells.foldl (fun t e => tput t (p.2 * 16384 + e.1 % 16384) e.2) c.accs })) s
        restoreWarps core r (v.warps.filter (fun e => e.2.block == bid)) s
      else none

/-- Puts a saved cluster into a bay (R373): the ranks whose blocks had not ended. -/
def putSavedCluster (s : State) (gid : Nat) (v : Saved) (bay : Nat) : Option State :=
  (tget s.grids gid).bind fun g =>
    let s := modCluster s v.cluster (fun c => { c with bay := bay })
    (bayHalves g.record g.die bay).foldl (fun (o : Option State) h =>
      o.bind (fitRanks (fun s rank core => putSaved v s gid rank core) (baySpots (recPair g.record) h.1)
        (h.2.filter (fun k => v.blocks.any (fun e => e.2.rank == k))))) (some s)

/-- Puts saved clusters back in order: none when one finds no room (a cooperative grid is restored whole). -/
def restoreAll (die gid : Nat) : List Nat → State → Option State
  | [], s => some s
  | c :: cs, s =>
    (s.saved.find? (fun v => v.cluster == c)).bind fun v =>
      (tget s.grids gid).bind fun g =>
        ((bayOrder (recSeam g.record) (lastOf (dieOf s die) (recSeam g.record))).findSome? (fun b =>
          (putSavedCluster s gid v b).map (fun t => setLast t die b (recSeam g.record)))).bind (fun t =>
            let t := handOut t die c true
            restoreAll die gid cs (modLaunch t die gid (fun l =>
              { l with saved := l.saved.filter (fun x => x != c), waitSince := s.clock })))

/-- Restores what fits, one cluster after another (R373). -/
def restoreSome (die gid : Nat) : List Nat → State → State
  | [], s => s
  | c :: cs, s => match restoreAll die gid [c] s with
    | some t => restoreSome die gid cs t
    | none => s

/-- The victims of a launch (R372): clusters of pre-emptible contexts other than its own with a lower priority; a
cooperative grid's go together. -/
def victimOf (s : State) (l : Launch) (cid : Nat) : Bool :=
  match (tget s.clusters cid).bind (fun c => (tget s.grids c.grid).map (fun g => (c, g))), tget s.grids l.grid with
  | some (c, g), some h =>
    g.ctx != h.ctx && bit (ctxOf s g.ctx).cctl.toNat 1 && decide (g.prio < l.prio)
      && c.endedRanks.length < recCsize g.record && !s.saved.any (fun v => v.cluster == cid)
  | _, _ => false

/-- The device without some blocks and their warps. -/
def withoutBlocks (s : State) (gone : List Nat) : State :=
  { s with
    warps := s.warps.filter (fun e => !gone.contains e.2.block)
    blocks := s.blocks.filter (fun e => !gone.contains e.1)
    cores := s.cores.map (fun c => { c with
      accOwner := c.accOwner.map (fun o => if (o.map (fun p => gone.contains p.1)).getD false then none else o) }) }

/-- The blocks of some clusters that have not ended: of an ended rank it stays known that it has ended (R280, R471). -/
def liveOf (s : State) (cs : List Nat) : List Nat :=
  (s.blocks.filter (fun e => cs.contains e.2.cluster && !e.2.ended)).map Prod.fst

/-- The cores on which a state has blocks of a grid that another has not. -/
def newCores (s t : State) (gid : Nat) : List Nat :=
  (t.blocks.filter (fun e => (tget s.blocks e.1).isNone
    && ((tget t.clusters e.2.cluster).map (·.grid)) == some gid)).flatMap (fun e =>
      if ((tget t.grids gid).map (fun g => recPair g.record)).getD false then [e.2.core, e.2.core + 1] else [e.2.core])

/-- Clusters that are pre-empted with some cluster (R372): the whole grid of a cooperative one, but for clusters that have ended. -/
def withGrid (s : State) (cid : Nat) : List Nat :=
  match (tget s.clusters cid).bind (fun c => (tget s.grids c.grid).map (fun g => (c.grid, g))) with
  | some (gid, g) =>
    if recCoop g.record
    then (s.clusters.filter (fun e => e.2.grid == gid && decide (e.2.endedRanks.length < recCsize g.record))).map Prod.fst
    else [cid]
  | none => [cid]

/-- Pre-emption for a launch that found no room (R372): the cores are reserved for it, where all their victims are being saved already
too. -/
def preemptFor (s : State) (die : Nat) (l : Launch) (g : Grid) : State :=
  if s.saving.any (fun v => v.forGrid == l.grid) then s
  else
    let cands := (tkeys s.clusters).filter (victimOf s l)
    let t := withoutBlocks s (liveOf s cands)
    let found := if !l.saved.isEmpty then restoreAll die l.grid (if recCoop g.record then l.saved else l.saved.take 1) t
      else if recCoop g.record then putWhole die l.grid (recGrid g.record) 0 t
      else (putAnywhere t die l.grid l.nextCluster).map Prod.fst
    match found with
    | none => s
    | some u =>
      let cores := newCores t u l.grid
      let hit := cands.filter (fun c => s.blocks.any (fun e => e.2.cluster == c && !e.2.ended
        && (cores.contains e.2.core || (pairedBlock s e.2 && cores.contains (e.2.core + 1)))))
      let all := (hit.flatMap (withGrid s)).dedup.filter (fun c =>
        !s.saving.any (fun v => v.cluster == c) && !s.saved.any (fun v => v.cluster == c))
      if hit.isEmpty then s
      else
        let s := { s with saving := s.saving ++ all.map (fun c => ⟨c, l.grid⟩) }
        modDie s die (fun d => { d with reserved := (d.reserved ++ cores.map (fun c => (c, l.grid))).dedup })

/-- A launch whose last cluster is placed leaves the list (R367); a waiting LAUNCH is tried again. -/
def dropPlaced (s : State) (die : Nat) : State :=
  let done := (dieOf s die).launches.filter (fun l =>
    l.saved.isEmpty && decide (((tget s.grids l.grid).map (fun g => recGrid g.record)).getD 0 ≤ l.nextCluster))
  if done.isEmpty then s
  else
    roomMade (modDie s die (fun d => { d with
      launches := d.launches.filter (fun l => !done.contains l)
      reserved := d.reserved.filter (fun p => !(done.map (·.grid)).contains p.2) })) die

/-- Gives a started packet its status (R363, R371). -/
def setStatus (s : State) (rep : Option (Nat × Nat)) (status : Nat) : State :=
  match rep with
  | none => s
  | some (q, i) => modQueue s q (fun x => { x with
      started := x.started.map (fun p => if p.idx == i && p.stage == 0 then { p with stage := status } else p) })

/-- A launch that is not admitted leaves the list; its packet has status 2 (R371). -/
def notAdmitted (s : State) (die : Nat) (l : Launch) (g : Grid) : State :=
  let s := modDie s die (fun d => { d with launches := d.launches.filter (fun x => x.grid != l.grid) })
  roomMade (setStatus { s with grids := terase s.grids l.grid } g.report 2) die

/-- A cooperative launch's turn in a pass (R371): a pre-empted grid is restored whole, once its last cluster is saved (R373). -/
def passWhole (s : State) (die : Nat) (l : Launch) (g : Grid) : State :=
  if l.saved.isEmpty then
    match putWhole die l.grid (recGrid g.record) 0 s with
    | some t => (List.range (recGrid g.record)).foldl (fun t i =>
        notePlaced t die l.grid (((clusterAt t l.grid i).map Prod.fst).getD 0)) t
    | none => if l.noWait then notAdmitted s die l g else preemptFor s die l g
  else if s.saving.any (fun v => ((tget s.clusters v.cluster).map (·.grid)) == some l.grid) then s
  else (restoreAll die l.grid l.saved s).getD (preemptFor s die l g)

/-- The pass of R370 over the launches in list order. -/
def passGo (die : Nat) : List Launch → State → State
  | [], s => s
  | l :: ls, s =>
    match tget s.grids l.grid with
    | none => passGo die ls s
    | some g =>
      let unplaced := fun (s : State) =>
        ((dieOf s die).launches.find? (fun x => x.grid == l.grid)).filter (fun x =>
          !x.saved.isEmpty || decide (x.nextCluster < recGrid g.record))
      let s :=
        if recCoop g.record then passWhole s die l g
        else
          let s := restoreSome die l.grid l.saved s
          let still := ((dieOf s die).launches.find? (fun x => x.grid == l.grid)).getD l
          if still.saved.isEmpty then placeGo die l.grid (recGrid g.record - l.nextCluster) l.nextCluster s else s
      match unplaced s with
      | none => passGo die ls s
      | some x =>
        let s := if recCoop g.record then s else preemptFor s die x g
        if x.waitSince + 65536 ≤ s.clock then s else passGo die ls s

/-- A placement pass of a die (R370). -/
def placementPass (s : State) (die : Nat) : State :=
  let s := modDie s die (fun d => { d with passDue := false })
  dropPlaced (passGo die (dieOf s die).launches s) die

end Sys2Proof.Machine
end

