-- ==== Sys2Proof/Machine/Arrival.lean ====
section
/-! DEFINITION. The events of barriers (R178 to R180, R243 to R247), of the core's resource queue (R141, R248 to R251) and of
the distributors (R370, R371, R375). -/

namespace Sys2Proof.Machine

/-- A warp's arrival counts at a block barrier, which then tests for a flip (R244). -/
def countArrival (s : State) (wid n : Nat) : State :=
  match tget s.warps wid with
  | none => s
  | some w =>
    if w.members.getD n .non == .waiting then
      let s := modBlock s w.block (fun k => { k with bbs := lmod k.bbs n (fun r => { r with a := r.a + 1 }) })
      flipTest (modWarp s wid (fun w => { w with members := lset w.members n .arrived })) w.block n
    else s

/-- The detach of an ended warp from one block barrier (R244). -/
def detachOne (s : State) (wid n : Nat) : State :=
  match tget s.warps wid with
  | none => s
  | some w => leaveBar s wid w n

/-- A warp's arrival reaches its barrier (R178): at the odd core of a paired block it travels (R246); on a cluster or grid
barrier the block notes it. -/
def receiveArrival (s : State) (wid : Nat) (w : Warp) (b : Bar) : State :=
  match b with
  | .bb n =>
    if onOdd s w then
      let leave := if w.ended then [OddEvent.detach wid n] else []
      modBlock s w.block (fun k => { k with oddEvents := k.oddEvents ++ [.arrive wid n] ++ leave })
    else
      let s := countArrival s wid n
      if w.ended then detachOne s wid n else s
  | b => modBlock s w.block (fun k => { k with cbDone := tput k.cbDone (barKey b) (wid :: (tget k.cbDone (barKey b)).getD []) })

/-- WARP_ARRIVAL (R178, R245): once its release has taken effect the barrier receives the warp's arrival. -/
def execWarpArrival (warp bar : Nat) (s : State) : Host.Outcome State Fault Refusal :=
  match tget s.warps warp with
  | none => .next s
  | some w =>
    let b := barOf bar
    if bar < 25 ∧ (arriveOf w b).pending ∧ releaseDone s warp w (barScope b) then
      let s := noteRelease (dropDescs s warp) warp
      let s := modWarp s warp (fun w => setArrive w b { arriveOf w b with pending := false })
      .next (receiveArrival s warp w b)
    else .next s

/-- PAIRED_BARRIER_EVENT (R246): the oldest event from the odd core reaches the barriers at the even core. -/
def execPairedBarrierEvent (block : Nat) (s : State) : Host.Outcome State Fault Refusal :=
  match (tget s.blocks block).bind (fun b => b.oddEvents.head?) with
  | none => .next s
  | some e =>
    let s := modBlock s block (fun b => { b with oddEvents := b.oddEvents.drop 1 })
    .next (match e with
      | .arrive wid n => countArrival s wid n
      | .detach wid n => detachOne s wid n
      | .attach ids n => joinBar s block ids n)

/-- Whether every warp of a block has arrived on a cluster or grid barrier in this phase, has ended, or came too late
(R180). -/
def blockArrived (s : State) (bid : Nat) (b : Block) (bar : Nat) : Bool :=
  let done := (tget b.cbDone bar).getD []
  let late := (tget b.cbLate bar).getD []
  !done.isEmpty && (warpsOfBlock s bid).all (fun e =>
    done.contains e.1 || late.contains e.1 || (e.2.ended && !(arriveOf e.2 (barOf bar)).pending))

/-- BLOCK_ARRIVAL (R180). -/
def execBlockArrival (block bar : Nat) (s : State) : Host.Outcome State Fault Refusal :=
  match tget s.blocks block with
  | none => .next s
  | some b =>
    if b.ended || !blockArrived s block b bar then .next s
    else match barOf bar, tget s.clusters b.cluster with
      | .cb n, some c =>
        if (c.cbs[n]?.map (fun r => r.came.contains b.rank)).getD true then .next s else .next (clusterArrive s b.cluster n b.rank)
      | .grid, some c =>
        if ((tget s.grids c.grid).map (fun g => g.came.contains (c.index, b.rank))).getD true then .next s
        else .next (gridArrive s c.grid c.index b.rank)
      | _, _ => .next s

/-- RESOURCE_QUEUE_SERVICE (R249): every entry that fits is granted, oldest first. -/
def execResourceQueueService (core : Nat) (s : State) : Host.Outcome State Fault Refusal :=
  .next (serveCore s core)

/-- RESOURCE_QUEUE_AGE_LIMIT (R249): from 16 384 clocks on the oldest entry holds back younger ones of its kind: the queue is
served under that rule. -/
def execResourceQueueAgeLimit (core : Nat) (s : State) : Host.Outcome State Fault Refusal :=
  match agedHead s core with
  | none => .next s
  | some _ => .next (serveCore s core)

/-- The limits of the WAITCs on MX at which sub-braids of the warp wait (R250). -/
def mxWait (s : State) (w : Warp) : List Nat :=
  w.braids.filterMap (fun b => match (fetchInstr s w.core (ctxOfWarp s w) b.pc b.lanes).1 with
    | .ok (.waitc f) => if f.sub.toNat = 3 ∧ f.imm.toNat < w.mx then some f.imm.toNat else none
    | _ => none)

/-- Whether a sub-braid of the warp waits at a REGSHRINK (R250). -/
def shrinkWait (s : State) (w : Warp) : Bool :=
  w.braids.any (fun b => match (fetchInstr s w.core (ctxOfWarp s w) b.pc b.lanes).1 with
    | .ok (.regshrink f) => decide (8 * f.sa.toNat < w.win) && (w.ld != 0 || w.mx != 0)
    | _ => false)

/-- Whether a warp is parked at a block barrier: none of its lanes runs, and those that do not wait at a WAIT behind the others do at
the barrier (DEDUCED, log 114). -/
def atBlockBar (w : Warp) : Bool :=
  let atBar := fun (p : Parked) => match p.cond with | .phase (.bb _) _ | .arrive (.bb _) _ _ => true | _ => false
  let behind := fun (p : Parked) => match p.cond with | .mask _ | .detach => true | _ => false
  w.braids.isEmpty && w.parked.any atBar && w.parked.all (fun p => atBar p || behind p)

/-- Whether a block stands on a core, alone or as one of a pair (R254). -/
def standsOn (s : State) (core bid : Nat) : Bool :=
  (tget s.blocks bid).any (fun b => b.core == core || (b.core + 1 == core && pairedBlock s b))

/-- Whether a release is in flight at a core (R250): of its own warps, of the blocks that stand on it, and of its plane array, which for
the odd core of a paired block is the even core's. -/
def releaseInFlight (s : State) (core : Nat) : Bool :=
  s.warps.any (fun e => e.2.core == core && !e.2.returned && (e.2.ended || shrinkWait s e.2))
    || s.cores.any (fun c => c.queue.any (fun q => standsOn s core q.block
        && (match q.work with | .accrel .. | .blockEnd => true | _ => false)))
    || s.blocks.any (fun e => standsOn s core e.1 && e.2.oddAccs.any (fun a => a.2.2))

/-- The condition of a refusal (R250): every resident warp is resource-bound, or parked at a block barrier of a block that
holds such a warp, on whichever core of a pair, and no release is in flight. -/
def mustRefuse (s : State) (core : Nat) : Bool :=
  let ws := s.warps.filter (fun e => e.2.core == core && !e.2.returned)
  let bound := fun (e : Nat × Warp) => resourceBound s e.1 e.2 (mxWait s e.2)
  !releaseInFlight s core && ws.all (fun e => bound e || (atBlockBar e.2 && (warpsOfBlock s e.2.block).any bound))

/-- RESOURCE_REFUSAL (R250, R251): the youngest entry is refused. -/
def execResourceRefusal (core : Nat) (s : State) : Host.Outcome State Fault Refusal :=
  match (coreOf s core).resQ.getLast? with
  | none => .next s
  | some e => if mustRefuse s core then .next (refuse s core e) else .next s

/-- Whether a hitch holds a signature of the warp. -/
def hasSignature (s : State) (wid : Nat) (w : Warp) : Bool :=
  (blockOf s w).any (fun b => b.hitches.any (fun h => h.sigs.any (fun g => g.warp == wid)))

/-- Whether an event of a warp is on its way to its barriers (R246). -/
def oddEventOf (wid : Nat) : OddEvent → Bool
  | .arrive k _ | .detach k _ => k == wid
  | .attach ids _ => ids.contains wid

/-- An ended warp whose slot has returned is no more once its stores and its arrivals are done (DEDUCED, log 59). -/
def dropDone (s : State) (wid : Nat) : State :=
  match tget s.warps wid with
  | none => s
  | some w =>
    if !w.returned || w.st != 0 || !w.storeQ.isEmpty || w.arrives.any (fun a => a.2.pending)
        || (blockOf s w).any (fun b => b.oddEvents.any (oddEventOf wid)) then s
    else { s with warps := terase s.warps wid }

/-- WARP_RESOURCE_RETURN (R141): the slot, the granules and the scalar file of an ended warp return; the resource
queues are served, and a placement pass is due. Stores in flight complete afterwards. -/
def execWarpResourceReturn (warp : Nat) (s : State) : Host.Outcome State Fault Refusal :=
  match tget s.warps warp with
  | none => .next s
  | some w =>
    if !w.ended || w.ld != 0 || w.mx != 0 || hasSignature s warp w then .next s
    else if w.returned then .next (dropDone s warp)
    else
      let s := modWarp s warp (fun w => { w with returned := true })
      .next (dropDone (passDue (servePair s w.core)) warp)

/-- PLACEMENT_PASS (R370, R371): a pass that is due runs, once the halves forwarded to this distributor are placed. -/
def execPlacementPass (die : Nat) (s : State) : Host.Outcome State Fault Refusal :=
  if (dieOf s die).passDue && (dieOf s (1 - die)).forwarded.isEmpty && decide (die < 2) then .next (placementPass s die)
  else .next s

/-- PLACEMENT_AGE_LIMIT (R370): a launch whose lowest unplaced cluster has waited 65 536 clocks stops the passes behind it: a
pass under that rule is due. -/
def execPlacementAgeLimit (die : Nat) (s : State) : Host.Outcome State Fault Refusal :=
  if (dieOf s die).launches.any (fun l => decide (l.waitSince + 65536 ≤ s.clock)) then
    .next (modDie s die (fun d => { d with passDue := true }))
  else .next s

/-- BLOCK_PLACE (R370, R371): the next block that a pass has placed stands on its core. -/
def execBlockPlace (die : Nat) (s : State) : Host.Outcome State Fault Refusal :=
  if mayPlace s die then .next (modDie s die (fun d => { d with placing := d.placing.drop 1 })) else .next s

/-- BLOCK_START (R375, R296): the warps of a placed block begin to issue, after an acquire at .dev; those of a saved cluster
begin with RESTORE. -/
def execBlockStart (block : Nat) (s : State) : Host.Outcome State Fault Refusal :=
  match tget s.blocks block with
  | none => .next s
  | some b =>
    if b.started || b.ended || onTheWay s b || s.saved.any (fun v => v.cluster == b.cluster) then .next s
    else
      let ws := warpsOfBlock s block
      let s := modBlock s block (fun b => { b with started := true })
      .next (ws.foldl (fun s e => modWarp s e.1 (fun w => { w with
        acqClock := s.clock, braids := w.braids.map (fun b => { b with readySince := s.clock }) })) s)

/-- SEAM_HALF_FORWARD (R371): the halves that a distributor has sent reach its peer, which places them. -/
def execSeamHalfForward (die : Nat) (s : State) : Host.Outcome State Fault Refusal :=
  if (dieOf s die).forwarded.isEmpty then .next s else .next (takeHalves s die)

end Sys2Proof.Machine
end

