-- ==== Sys2Proof/Machine/Desc.lean ====
section
/-! DEFINITION. Tensor descriptors (R217, R218, R222) and the images of copies (R219, R220, R225, R226): where each byte of
an image comes from or goes to. -/

namespace Sys2Proof.Machine

/-- The fields of a descriptor (R217). -/
structure Desc where
  base : Nat
  fmt : Nat
  ndim : Nat
  planes : Nat
  swz : Nat
  /-- The FP32 tensor scale (R59). -/
  tscale : Nat
  ext : List Nat
  str : List Nat
  box : List Nat
  deriving DecidableEq, Repr

/-- The fields of 64 bytes; stride 0 is of dimension 0, which has none. -/
def parseDesc (bs : List Byte) : Desc :=
  { base := recField bs 0 8 % 2 ^ 57
    fmt := recField bs 8 1
    ndim := recField bs 9 1 % 8
    planes := recField bs 10 1 % 16
    swz := recField bs 11 1 % 4
    tscale := recField bs 12 4
    ext := (List.range 5).map (fun d => recField bs (0x10 + 4 * d) 4)
    str := (List.range 5).map (fun d => if d = 0 then 0 else recField bs (0x24 + 4 * (d - 1)) 4)
    box := (List.range 5).map (fun d => recField bs (0x34 + 2 * d) 2) }

def Desc.extOf (d : Desc) (i : Nat) : Nat := d.ext.getD i 1
def Desc.strOf (d : Desc) (i : Nat) : Nat := d.str.getD i 0
def Desc.boxOf (d : Desc) (i : Nat) : Nat := d.box.getD i 1
/-- A bit-plane tensor. -/
def Desc.bp (d : Desc) : Bool := d.fmt == 11

/-- The number type of a FMT code (R218). -/
def fmtNum (fmt : Nat) : Num :=
  match fmt with
  | 1 => .int true 8
  | 2 => .int false 8
  | 3 => .int true 16
  | 4 => .int false 16
  | 5 => .flt fp16
  | 6 => .flt bf16
  | 7 => .int true 32
  | 8 => .int false 32
  | 9 => .flt fp32
  | _ => .flt fp64

/-- Bytes of an element of FMT 1 to 10. -/
def fmtSize (fmt : Nat) : Nat := numWidth (fmtNum fmt) / 8

/-- Plane groups along dimension 0 of a .bp box. -/
def Desc.groups (d : Desc) : Nat := (d.boxOf 0 + 255) / 256

/-- Rows of dimension 0 of a box. -/
def Desc.rows (d : Desc) : Nat := d.boxOf 1 * d.boxOf 2 * d.boxOf 3 * d.boxOf 4

/-- Bytes of a row's image. -/
def Desc.rowBytes (d : Desc) : Nat := if d.bp then 288 * d.groups else fmtSize d.fmt * d.boxOf 0

/-- Bytes of a box image (R217, R219). -/
def Desc.boxBytes (d : Desc) : Nat := d.rowBytes * d.rows

/-- The first failing check of R222, 0 for none. NDIM and PLANES are checked as whole bytes, so their upper bits fail checks 3 and 4
(DEDUCED, log 106). -/
def descCheck (bs : List Byte) : Nat :=
  let d := parseDesc bs
  let b := recField bs 0 8
  let fmtOk := decide (1 ≤ d.fmt) && decide (d.fmt ≤ 11)
  if b / 2 ^ 57 ≠ 0 ∨ (fmtOk = true ∧ d.base % (if d.bp then 32 else fmtSize d.fmt) ≠ 0) then 1
  else if !fmtOk then 2
  else if d.ndim < 1 ∨ 5 < d.ndim ∨ recField bs 9 1 / 8 ≠ 0 then 3
  else if recField bs 10 1 / 16 ≠ 0 ∨ (if d.bp then d.planes < 2 ∨ 8 < d.planes else d.planes ≠ 0) then 4
  else if (List.range 5).any (fun i => if i < d.ndim then d.extOf i == 0 || decide (2 ^ 31 ≤ d.extOf i) else d.extOf i != 1)
      || (d.bp && d.extOf 0 % 32 != 0) then 5
  else if (List.range 5).any (fun i => if i < d.ndim then d.boxOf i == 0 else d.boxOf i != 1)
      || (d.bp && d.boxOf 0 % 32 != 0) || decide (131072 < d.boxBytes) then 6
  else if recField bs 11 1 / 4 ≠ 0 ∨ recField bs 0x3E 2 ≠ 0 ∨ (d.bp = false ∧ recField bs 0x0C 4 ≠ 0)
      ∨ (List.range 5).any (fun i => decide (d.ndim ≤ i) && d.strOf i != 0) then 7
  else 0

/-- The swizzle of an image offset (R219): a last block of fewer than 128 bytes stays (DEDUCED, log 50). -/
def swizzle (s total o : Nat) : Nat :=
  if s = 0 ∨ total < o / 128 * 128 + 128 then o else o ^^^ (bits o 7 s * 16)

/-- A coordinate clamped to its extent, and whether it was outside (R220). -/
def clampTo (ext : Nat) (x : Int) : Nat × Bool :=
  if x < 0 then (0, true) else if (ext : Int) ≤ x then (ext - 1, true) else (x.toNat, false)

/-- Row `r` of a box at coordinates: the address of its dimension-0 origin, and whether a coordinate of dimensions 1 to 4
clamps. -/
def rowAt (d : Desc) (co : List Int) (r : Nat) : Nat × Bool :=
  let idx := [0, r % d.boxOf 1, r / d.boxOf 1 % d.boxOf 2, r / (d.boxOf 1 * d.boxOf 2) % d.boxOf 3,
    r / (d.boxOf 1 * d.boxOf 2 * d.boxOf 3)]
  [1, 2, 3, 4].foldl (fun (acc : Nat × Bool) i =>
    let c := clampTo (d.extOf i) (co.getD i 0 + (idx.getD i 0 : Nat))
    (acc.1 + 16 * d.strOf i * c.1, acc.2 || c.2)) (d.base, false)

/-- A byte's place in memory, or a constant. -/
inductive Src where
  | addr (va : Nat)
  | const (b : Nat)
  deriving DecidableEq, Repr

/-- Byte `b` of the image of K-block position `j` and plane group `g` in a .bp row at `va`: its place when it belongs to a
K-block of the box, and whether that K-block clamps. -/
def bpByte (d : Desc) (x0 : Int) (va g b : Nat) : Option (Nat × Bool) :=
  let j := 8 * g + (if b < 8 then b else (b - 32) % 32 / 4)
  let c := clampTo (d.extOf 0 / 32) (x0 / 32 + (j : Nat))
  let at' := va + c.1 / 8 * 288
  if d.boxOf 0 / 32 ≤ j then none
  else if b < 8 then some (at' + c.1 % 8, c.2)
  else if b < 32 ∨ d.planes ≤ (b - 32) / 32 then none
  else some (at' + 32 * (1 + (b - 32) / 32) + 4 * (c.1 % 8) + b % 4, c.2)

/-- Where byte `o` of a box image is read from (R219, R220), and the clamped elements counted at it: an element's at its
first byte, a K-block's at its scale byte. -/
def boxSrc (d : Desc) (co : List Int) (o : Nat) : Src × Nat :=
  let row := rowAt d co (o / d.rowBytes)
  let k := o % d.rowBytes
  if d.bp then
    match bpByte d (co.getD 0 0) row.1 (k / 288) (k % 288) with
    | none => (.const 0, 0)
    | some (va, c) => (.addr (va % 2 ^ 57), if k % 288 < 8 ∧ (row.2 || c) then 32 else 0)
  else
    let n := fmtSize d.fmt
    let c := clampTo (d.extOf 0) (co.getD 0 0 + (k / n : Nat))
    (.addr ((row.1 + c.1 * n + k % n) % 2 ^ 57), if k % n = 0 ∧ (row.2 || c.2) then 1 else 0)

/-- Where byte `o` of a box image is written to (R220): none for a dropped element; a reserved byte of a plane group is
written as 0 with its group's first K-block (R61, DEDUCED, log 22). -/
def boxDst (d : Desc) (co : List Int) (o : Nat) : Option (Nat × Bool) :=
  let row := rowAt d co (o / d.rowBytes)
  let k := o % d.rowBytes
  if row.2 then none
  else if d.bp then
    match bpByte d (co.getD 0 0) row.1 (k / 288) (k % 288) with
    | some (va, c) => if c then none else some (va % 2 ^ 57, true)
    | none =>
      let x := co.getD 0 0 + (256 * (k / 288) : Nat)
      let reserved := decide (8 ≤ k % 288) && (decide (k % 288 < 32) || decide (32 * (d.planes + 1) ≤ k % 288))
      if reserved ∧ x % 256 = 0 ∧ 0 ≤ x ∧ x < d.extOf 0 then some ((row.1 + x.toNat / 256 * 288 + k % 288) % 2 ^ 57, false)
      else none
  else
    let n := fmtSize d.fmt
    let c := clampTo (d.extOf 0) (co.getD 0 0 + (k / n : Nat))
    if c.2 then none else some ((row.1 + c.1 * n + k % n) % 2 ^ 57, true)

/-- Byte `o` of a .prec panel (R226, R199): a column's plane, its scale byte, PLANES (DEDUCED, log 48). -/
def precSrc (d : Desc) (co : List Int) (k o : Nat) : Src × Nat :=
  let n := o % 512 / 4
  let x0 := co.getD 0 0
  let one := { d with box := [32, 128, 1, 1, 1] }
  let row := rowAt one co n
  let c := clampTo (d.extOf 0 / 32) (x0 / 32)
  let at' := row.1 + c.1 / 8 * 288
  if o < 512 * k then (.addr ((at' + 32 * (1 + o / 512) + 4 * (c.1 % 8) + o % 4) % 2 ^ 57), 0)
  else if o % 4 = 0 then (.addr ((at' + c.1 % 8) % 2 ^ 57), if row.2 || c.2 then 32 else 0)
  else (.const (if o % 4 = 1 then d.planes else 0), 0)

/-- The element of a .tr image at index `e` of the destination, as an index of the box (R226). -/
def trElem (d : Desc) (e : Nat) : Nat :=
  let b0 := d.boxOf 0
  let b1 := d.boxOf 1
  e / (b0 * b1) * (b0 * b1) + e % b1 * b0 + e % (b0 * b1) / b1

/-- The bytes of K-block element (row r of dimension 1, element index x of dimension 0) of a .rqtr source: its plane bytes
and its scale byte, whether it is clamped, and its bit (DEDUCED, log 49). -/
def rqtrSrc (d : Desc) (co : List Int) (x r : Nat) : List Src × Bool × Nat :=
  let one := { d with box := [d.boxOf 0, d.boxOf 1, 1, 1, 1] }
  let row := rowAt one co r
  let e := co.getD 0 0 + (x : Nat)
  let c := clampTo (d.extOf 0 / 32) (e / 32)
  let at' := row.1 + c.1 / 8 * 288
  ((List.range d.planes).map (fun p => Src.addr ((at' + 32 * (1 + p) + 4 * (c.1 % 8) + x % 32 / 8) % 2 ^ 57))
      ++ [Src.addr ((at' + c.1 % 8) % 2 ^ 57)], row.2 || c.2, x % 8)

/-- The value of a .rqtr source element from its bytes (R58, R59): a NaN for a NaN scale. R59 has the tensor scale `ts` applied, R226
has it not: the part does the one or the other (DESIGN CHOICE, log 89). -/
def rqtrValue (planes bitNo ts : Nat) (bs : List Nat) : FVal :=
  let v := planeValue (fun j => bit (bs.getD j 0) bitNo) planes
  let e := bs.getD planes 0
  let x : FVal := .fin (decide (v < 0)) v.natAbs ((e : Int) - 127)
  if e = 255 then .nan false else if Config.rqtrScales then (fMulVal x (fDecode fp32 ts)).getD (.nan false) else x

/-- Bytes of a .rqtr image (R226). -/
def rqtrBytes (d : Desc) : Nat := d.boxOf 0 * (d.boxOf 1 / 256) * 288

/-- The K-block that byte `o` of a .rqtr image belongs to: its row and first element along dimension 1; none for reserved
bytes. -/
def rqtrBlock (d : Desc) (p o : Nat) : Option (Nat × Nat) :=
  let g := o / 288
  let b := o % 288
  let n := d.boxOf 1 / 256
  if b < 8 then some (g / n, g % n * 256 + 32 * b)
  else if b < 32 ∨ p ≤ (b - 32) / 32 then none
  else some (g / n, g % n * 256 + 32 * ((b - 32) % 32 / 4))

/-- Byte `o` of a .rqtr image from the K-block's quantisation (R63, R226): the scale byte or a byte of a plane. -/
def rqtrByte (p o : Nat) (vals : List FVal) : Nat :=
  let q := quantise p (fun _ => .rne) vals
  let b := o % 288
  if b < 8 then q.1 else bits (planeImage p ((b - 32) / 32) q.2.1) (8 * (b % 4)) 8

/-- One element of .conv (R226): RNE, no FTZ; an integer saturates to an integer, and overflows to a float as R50 says (R57). -/
def convByte (src dst : Nat) (x : Nat) (k : Nat) : Nat :=
  let sat := match fmtNum src, fmtNum dst with | .int _ _, .int _ _ => true | _, _ => false
  bits (convElem (fmtNum src) (fmtNum dst) ⟨.rne, false, sat⟩ x).1 (8 * k) 8

end Sys2Proof.Machine
end

