-- ==== Sys2Proof/Machine/Copy.lean ====
section
/-! DEFINITION. Copies as a warp issues them (R221 to R226): CPY, CPGTH, CPSCT, CPXF, TDCHK. -/

namespace Sys2Proof.Machine

/-- The descriptor cache entry of a place in a core's bay (R221) (DEDUCED, log 52). -/
def cachedDesc (s : State) (core : Nat) (p : SPlace) : Option (List Byte) :=
  ((bayOf s (bayOfCore core)).descs.find? (fun e => e.place == p)).map (·.data)

/-- A descriptor enters the cache of a bay: 32 entries, the oldest leaves. -/
def cacheDesc (s : State) (core : Nat) (p : SPlace) (bs : List Byte) : State :=
  modBay s (bayOfCore core) (fun b => { b with descs := (⟨p, bs⟩ :: b.descs.filter (fun e => e.place != p)).take 32 })

/-- Bytes of scratch as a read at their port finds them: an ended block reads 0 (R471). -/
def placeBytes (b : Block) (off n : Nat) : List (Byte × Bool) :=
  if b.ended then List.replicate n (0, false)
  else (List.range n).map (fun i => (byteAt b.scratch (off + i), b.linePois.contains ((off + i) / 128)))

/-- A misaligned operand of a copy (R223): the first of (address, alignment). -/
def copyAlign (x : Issue) (l : List (Nat × Nat)) : Option Trap :=
  (l.find? (fun e => e.1 % e.2 != 0)).map (fun e => ⟨cALIGN, x.b.lanes, e.1, e.2, false, false⟩)

/-- SCRB of an address (R223). -/
def copyScrb (x : Issue) (a : Nat) : Trap := ⟨cSCRB, x.b.lanes, a, recScrg x.record, false, false⟩

/-- The place of `n` bytes at an address, or SCRB. -/
def copyPlace (x : Issue) (s : State) (a n : Nat) : Except Trap SPlace :=
  match scratchPlace x.record (rankOf s x.w) a n with
  | none => .error (copyScrb x a)
  | some c => .ok ⟨clusterIdOf s x.w, codeRank c, codeOff c⟩

/-- The places at which a copy's receivers see an address (R224): as written, or at its own-form offset in each rank of a
mask. -/
def copyPlaces (x : Issue) (s : State) (mask a n : Nat) : Except Trap (List SPlace) :=
  match copyPlace x s a n with
  | .error t => .error t
  | .ok p =>
    let ranks := (List.range 12).filter (fun r => bit mask r)
    if mask = 0 then .ok [p]
    else if p.rank ≠ rankOf s x.w ∨ ranks.any (fun r => decide (recCsize x.record ≤ r)) then .error (copyScrb x a)
    else .ok (ranks.map (fun r => { p with rank := r }))

/-- Reading a descriptor at issue (R221, R222): from the cache, or from scratch, where absent lines park and poison traps. -/
inductive DescRead where
  | got (bs : List Byte) (s : State)
  | absent
  | poison (a : Nat)

/-- The read of a descriptor at a place; `fresh` reads scratch in any case (DEDUCED, log 34). -/
def readDesc (x : Issue) (s : State) (a : Nat) (p : SPlace) (fresh : Bool) : DescRead :=
  match if fresh then none else cachedDesc s x.w.core p with
  | some bs => .got bs s
  | none =>
    match placedBlock s p.cluster p.rank with
    | none => .absent
    | some (_, b) =>
      if !b.ended && !linesPresent b p.off 64 then .absent
      else
        let bs := placeBytes b p.off 64
        match ((List.range 64).zip bs).find? (fun e => e.2.2) with
        | some e => .poison (a + e.1)
        | none => .got (bs.map Prod.fst) (cacheDesc s x.w.core p (bs.map Prod.fst))

/-- Whether a form admits a descriptor, a box and an x (R225, R226): the bytes of its image; none where the slot fails with
ILL (DEDUCED, log 47). -/
def formBytes (kind : CopyKind) (d : Desc) (count : Nat) : Option Nat :=
  let rest := d.boxOf 2 == 1 && d.boxOf 3 == 1 && d.boxOf 4 == 1
  match kind with
  | .g2s | .s2g => some d.boxBytes
  | .gth i | .sct i =>
    if i < d.ndim ∧ !(d.bp && i == 0) then some (count * ({ d with box := lset d.box i 1 } : Desc).boxBytes) else none
  | .tr => if d.bp then none else some d.boxBytes
  | .rqtr p => if d.bp ∧ 2 ≤ p ∧ p ≤ 8 ∧ d.boxOf 1 % 256 = 0 then some (rqtrBytes d) else none
  | .prec k => if d.bp ∧ 1 ≤ k ∧ k ≤ d.planes ∧ d.boxOf 0 = 32 ∧ d.boxOf 1 = 128 ∧ rest then some (512 * (k + 1)) else none
  | .conv t => if !d.bp ∧ 1 ≤ t ∧ t ≤ 10 then some (d.boxOf 0 * d.rows * fmtSize t) else none
  | _ => none

/-- Coordinates a form does not admit (R220, R226): the copy fails with ILL. -/
def coordsBad (kind : CopyKind) (d : Desc) (co : List Int) : Bool :=
  let x0 := co.getD 0 0
  d.bp && (x0 % 32 != 0 || (match kind with | .prec _ => decide ((d.extOf 0 : Int) ≤ x0) | _ => false))

/-- The five coordinates of a sa block (R223). -/
def coordsAt (w : Warp) (k : Nat) : List Int := (List.range 5).map (fun i => (sread w (k + 1 + i)).toInt)

/-- The lines of `n` bytes at an offset. -/
def lineList (off n : Nat) : List Nat :=
  if n = 0 then [] else (List.range ((off + n - 1) / 128 + 1 - off / 128)).map (fun k => off / 128 + k)

/-- The key of a line of a rank's allocation. -/
def lineKey (rank l : Nat) : Nat := rank * 8192 + l

/-- The lines that a copy has yet to write, at every receiver (R265). -/
def lineKeys (recvs : List Receiver) (made total : Nat) : List Nat :=
  recvs.flatMap (fun r => (lineList (r.dst.off + made) (total - made)).map (lineKey r.dst.rank))

/-- Clears lines of one receiver at its port: each whose count is below 15 becomes absent and counts the copy (R265). The state,
and the lines that still wait (DEDUCED, log 78). -/
def clearAt (s : State) (r : Receiver) (keys : List Nat) : State × List Nat :=
  match placedBlock s r.dst.cluster r.dst.rank with
  | none => (s, keys)
  | some (bid, b) =>
    let go := keys.filter (fun k => k / 8192 == r.dst.rank && (b.ended || decide ((tget b.lineCopies (k % 8192)).getD 0 < 15)))
    (if b.ended then s else modBlock s bid (fun b => { b with
      absent := go.foldl (fun t k => tput t (k % 8192) true) b.absent
      lineCopies := go.foldl (fun t k => tput t (k % 8192) ((tget t (k % 8192)).getD 0 + 1)) b.lineCopies }),
      keys.filter (fun k => !go.contains k))

/-- The receivers of a copy on a core (R264). -/
def recvsOn (s : State) (core : Nat) (recvs : List Receiver) : List Receiver :=
  recvs.filter (fun r => ((rankBlock s r.dst.cluster r.dst.rank).map (fun b => b.2.core)) == some core)

/-- The scratch sources of a copy: (place, bytes). -/
def copySources (c : CopyCmd) : List (SPlace × Nat) :=
  match c.kind with
  | .s2g | .s2s | .chan .. => [(c.src, c.total)]
  | .sct _ => [(c.src, c.total), (c.idx, 4 * c.count)]
  | .gth _ => [(c.idx, 4 * c.count)]
  | .coll .. => [(c.src, c.count)]
  | _ => []

/-- The bytes of scratch sources, none when a line of them is absent or a rank is not placed. -/
def sourceBytes (s : State) (l : List (SPlace × Nat)) : Option (List (Byte × Bool)) :=
  l.foldl (fun (o : Option (List (Byte × Bool))) e =>
    o.bind fun bs => (placedBlock s e.1.cluster e.1.rank).bind fun (_, b) =>
      if b.ended || e.2 == 0 || linesPresent b e.1.off e.2 then some (bs ++ placeBytes b e.1.off e.2) else none) (some [])

/-- A global write's copy. -/
def writesGlobal (k : CopyKind) : Bool := match k with | .s2g | .sct _ => true | _ => false

/-- A store of the issuing warp to its own core's scratch that is held at the port of a source (R264, R273). -/
def sourceHeld (s : State) (c : CopyCmd) : Bool :=
  s.net.ports.any (fun e => e.2.warp == some c.warp && !e.2.queued && decide (e.1 < c.id)
    && (copySources c).any (fun p => p.1.cluster == e.2.place.cluster && p.1.rank == e.2.place.rank)
    && ((rankBlock s e.2.place.cluster e.2.place.rank).any (fun b => b.2.core == e.2.src))
    && (match e.2.op with | .store .. | .atomic _ => true | _ => false))

/-- The scratch sources of a copy as they stand before the issuing warp's later stores (R273): none while an earlier one is held. -/
def sourceNow (s : State) (c : CopyCmd) : List Byte :=
  if sourceHeld s c then [] else ((sourceBytes s (copySources c)).getD []).map Prod.fst

/-- Copies whose held stores have been performed see what these have left (R273). -/
def noteSources (s : State) : State :=
  modNet s (fun n => { n with copies := n.copies.map (fun e =>
    if e.2.srcOld.isEmpty && e.2.srcRead.isNone then (e.1, { e.2 with srcOld := sourceNow s e.2 }) else e) })

/-- A copy command enters the engine of the issuer's bay (R223, R271): CP rises, the destination lines on the issuer's core are
cleared, and the others when the clear reaches their ports (R265); a global write raises ST and the four CW counters (R224). -/
def startCopy (x : Issue) (s : State) (c : CopyCmd) : Verdict × State :=
  let wr := writesGlobal c.kind
  let all : CwSet := ⟨true, true, true, true⟩
  if wr && cwFull x.w all then (.stall, s)
  else
    let (id, s) := nextId s
    let (g, s) := nextId s
    let s := if !wr then s else modWarp (modNet s (fun n => { n with
        groups := tput n.groups g ⟨g, x.wid, all, 0, 1, true, false⟩ })) x.wid
      (fun w => { cwRise w all with st := w.st + 1 })
    let s := modWarp s x.wid (fun w => { w with cp := w.cp + 1 })
    let keys := if wr then [] else lineKeys c.recvs 0 c.total
    let own := ((blockOf s x.w).map (·.core)).getD x.w.core
    let t := (recvsOn s own c.recvs).foldl (fun (t : State × List Nat) r => clearAt t.1 r t.2) (s, keys)
    let c := { c with id := id, srcOld := sourceNow s { c with id := id }, grp := if wr then some g else none, uncleared := t.2 }
    (.advance, modNet t.1 (fun n => { n with copies := tput n.copies id c }))

/-- A command of the issuer, not yet filled in. -/
def newCopy (x : Issue) (s : State) (kind : CopyKind) (ord : Bool) (recvs : List Receiver) : CopyCmd :=
  let none_ : SPlace := ⟨clusterIdOf s x.w, 0, 0⟩
  { id := 0, bay := bayOfCore x.w.core, core := x.w.core, warp := x.wid, ctx := x.ctx, cluster := clusterIdOf s x.w,
    block := x.w.block, kind := kind, ord := ord, desc := [], coords := [], src := none_, idx := none_, count := 0,
    recvs := recvs, total := 0, made := 0, srcOld := [], srcRead := none, buf := [], bufClamps := 0, acked := 0,
    grp := none, w0 := (word0 x.instr).toNat, failed := none, opened := false, uncleared := [], carry := [], counts := true, done := false,
    tainted := [] }

/-- The receivers of a copy: headers with their destinations. -/
def receiversOf (rings dsts : List SPlace) (slot : Nat) : List Receiver := (rings.zip dsts).map (fun e => ⟨e.1, slot, e.2⟩)

/-- The bytes of a copy's scratch buffer by a valid descriptor, whether or not its form admits it (R223) (DEDUCED, log 47). -/
def formRange (kind : CopyKind) (d : Desc) (count : Nat) : Nat :=
  (formBytes kind d count).getD (match kind with
    | .gth i | .sct i => count * ({ d with box := lset d.box i 1 } : Desc).boxBytes
    | .rqtr _ => rqtrBytes d
    | .prec k => 512 * (k + 1)
    | _ => d.boxBytes)

/-- The parts of a copy that its scalars name (R223): descriptor address, buffer, header, and an index tensor's address and
count. -/
structure CopyArgs where
  desc : Nat
  buf : Nat
  hdr : Nat
  index : Option (Nat × Nat)
  deriving DecidableEq, Repr

/-- Copy operands of a UB word. -/
def copyArgs (w : Warp) (f : UB) (index : Option (Nat × Nat)) : CopyArgs :=
  ⟨(sread w f.sa.toNat).toNat, (sread w f.sb.toNat).toNat, (sread w f.sc.toNat).toNat, index⟩

/-- ALIGN of a copy with a descriptor (R223): the buffer counts where the descriptor read at issue is valid. -/
def copyAlignFault (x : Issue) (a : CopyArgs) (valid : Bool) : Option Trap :=
  copyAlign x ([(a.desc, 64)] ++ (if valid then [(a.buf, 16)] else []) ++ [(a.hdr, 16)] ++ (a.index.map (fun i => (i.1, 4))).toList)

/-- Whether a copy's buffer must be aligned (R223): unless the descriptor that it reads at issue fails a check of R222, or its lines
are still awaited. -/
def descValid (x : Issue) (s : State) (a : CopyArgs) : Bool :=
  match copyPlace x s a.desc 64 with
  | .error _ => true
  | .ok p => match readDesc x s a.desc p false with
    | .got bs _ => descCheck bs == 0
    | .absent => false
    | .poison _ => true

/-- The ranges of a copy whose sizes come from scalars (R223): descriptor, headers, index tensor; or SCRB. -/
def copyFixed (x : Issue) (s : State) (a : CopyArgs) (mask : Nat) : Except Trap (SPlace × List SPlace × SPlace) :=
  let ipl : Except Trap SPlace := match a.index with
    | none => .ok ⟨clusterIdOf s x.w, 0, 0⟩
    | some i => copyPlace x s i.1 (4 * i.2)
  match copyPlace x s a.desc 64, copyPlaces x s mask a.hdr 16, ipl with
  | .error t, _, _ => .error t
  | _, .error t, _ => .error t
  | _, _, .error t => .error t
  | .ok dp, .ok rings, .ok ip => .ok (dp, rings, ip)

/-- The command of a copy whose descriptor has been read (R223 to R226): with an invalid one, or a form that does not admit it, it
has no buffer and fails its slot; SCRB where the buffer leaves the allocation. -/
def descCopy (x : Issue) (s : State) (kind : CopyKind) (f : UB) (mask : Nat) (a : CopyArgs) (rings : List SPlace) (ip : SPlace)
    (bs : List Byte) : Except Trap CopyCmd :=
  let w := x.w
  let d := parseDesc bs
  let co := coordsAt w f.sa.toNat
  let count := (a.index.map Prod.snd).getD 0
  let slot := (sread w f.sd.toNat).toNat
  let base := { newCopy x s kind (bit f.imm.toNat 12) (receiversOf rings rings slot) with desc := bs, coords := co, idx := ip, count := count }
  let ill := some (cILL, 0, (word0 x.instr).toNat)
  if descCheck bs ≠ 0 then .ok { base with failed := ill }
  else match copyPlaces x s mask a.buf (formRange kind d count) with
    | .error t => .error t
    | .ok dsts => .ok (match formBytes kind d count with
      | none => { base with failed := ill }
      | some total => { base with
          total := total
          recvs := receiversOf rings (if writesGlobal kind then rings else dsts) slot
          src := dsts.headD ip
          failed := if coordsBad kind d co then ill else none })

/-- A copy with a descriptor (R221 to R226), its checks in the order of R43: `mask` of .g2s, `index` the address and count of an
index tensor. -/
def copyDesc (x : Issue) (s : State) (kind : CopyKind) (f : UB) (mask : Nat) (index : Option (Nat × Nat)) : Verdict × State :=
  let a := copyArgs x.w f index
  match copyAlignFault x a (descValid x s a) with
  | some t => (.trap t, s)
  | none =>
    match copyFixed x s a mask with
    | .error t => (.trap t, s)
    | .ok (dp, rings, ip) =>
      match readDesc x s a.desc dp false with
      | .absent => (match poisOf x s with
        | some r => r
        | none => parkAll s x (.lines [dp]))
      | .poison b => (match poisOf x s with
        | some r => r
        | none => (.trap ⟨cPOIS, x.b.lanes, b, 0, false, false⟩, s))
      | .got bs s => match descCopy x s kind f mask a rings ip bs with
        | .error t => (.trap t, s)
        | .ok c => match poisOf x s with
          | some r => r
          | none => startCopy x s c

/-- CPY.g2s (R224). -/
def execCpyG2s (f : UB) (s : State) : Host.Outcome State Fault Refusal :=
  issue (.cpyG2s f) s fun x s => copyDesc x s .g2s f (f.imm.toNat % 4096) none

/-- CPY.s2g (R224). -/
def execCpyS2g (f : UB) (s : State) : Host.Outcome State Fault Refusal :=
  issue (.cpyS2g f) s fun x s => copyDesc x s .s2g f 0 none

/-- CPGTH (R225). -/
def execCpgth (f : UB) (s : State) : Host.Outcome State Fault Refusal :=
  issue (.cpgth f) s fun x s => copyDesc x s (.gth (f.imm.toNat % 8)) f 0
    (some ((sread x.w (f.sb.toNat + 1)).toNat, (sread x.w (f.sb.toNat + 2)).toNat))

/-- CPSCT (R225). -/
def execCpsct (f : UB) (s : State) : Host.Outcome State Fault Refusal :=
  issue (.cpsct f) s fun x s => copyDesc x s (.sct (f.imm.toNat % 8)) f 0
    (some ((sread x.w (f.sb.toNat + 1)).toNat, (sread x.w (f.sb.toNat + 2)).toNat))

/-- The form of CPXF (R226): .tr with x other than 0 is a form that fails. -/
def xfKind (form x : Nat) : CopyKind :=
  match form with
  | 0 => if x = 0 then .tr else .conv 0
  | 1 => .rqtr x
  | 2 => .prec x
  | _ => .conv x

/-- CPXF (R226). -/
def execCpxf (f : UB) (s : State) : Host.Outcome State Fault Refusal :=
  issue (.cpxf f) s fun x s => copyDesc x s (xfKind (f.sub.toNat % 4) (f.imm.toNat % 16)) f 0 none

/-- CPY.s2s (R224). -/
def execCpyS2s (f : UB) (s : State) : Host.Outcome State Fault Refusal :=
  issue (.cpyS2s f) s fun x s =>
    let a := (sread x.w f.sa.toNat).toNat
    let n := (sread x.w (f.sa.toNat + 1)).toNat
    let buf := (sread x.w f.sb.toNat).toNat
    let hdr := (sread x.w f.sc.toNat).toNat
    match copyAlign x [(a, 16), (buf, 16), (hdr, 16)] with
    | some t => (.trap t, s)
    | none =>
      match copyPlace x s a n, copyPlace x s hdr 16, copyPlace x s buf n with
      | .error t, _, _ => (.trap t, s)
      | _, .error t, _ => (.trap t, s)
      | _, _, .error t => (.trap t, s)
      | .ok src, .ok ring, .ok dst =>
        match poisOf x s with
        | some r => r
        | none => startCopy x s { newCopy x s .s2s (bit f.imm.toNat 12) [⟨ring, (sread x.w f.sd.toNat).toNat, dst⟩] with
            src := src, total := n }

/-- Whether an earlier store of the warp to the lines of a descriptor is still queued, or one of its core held at the port: TDCHK
reads after it (R264, R285). -/
def descHeld (s : State) (x : Issue) (p : SPlace) : Bool :=
  heldBehind s x.w x.wid p.cluster p.rank [(p.off, 64)] || queuedPeer s x.w s.fresh (placeCode p.rank p.off) 64 != .free

/-- TDCHK (R222): the first failing check; the descriptor read enters the cache. -/
def execTdchk (f : UB) (s : State) : Host.Outcome State Fault Refusal :=
  issue (.tdchk f) s fun x s =>
    let a := (sread x.w f.sa.toNat).toNat
    match copyAlign x [(a, 64)] with
    | some t => (.trap t, s)
    | none =>
      match copyPlace x s a 64 with
      | .error t => (.trap t, s)
      | .ok p =>
        match poisOf x s with
        | some r => r
        | none =>
          if descHeld s x p then (.stall, s) else
          match readDesc x s a p true with
          | .absent => parkAll s x (.lines [p])
          | .poison b => (.trap ⟨cPOIS, x.b.lanes, b, 0, false, false⟩, s)
          | .got bs s => (.advance, modWarp s x.wid (fun w => swrite w f.sd.toNat (BitVec.ofNat 32 (descCheck bs))))

end Sys2Proof.Machine
end

