-- ==== Sys2Proof/Machine/Engine.lean ====
section
/-! DEFINITION. The copy engines (R227 to R229, R265 to R275, R293, R315): what they read and write, piece by piece, the
lines and ring arrivals they send, failure and replay. -/

namespace Sys2Proof.Machine

/-- A byte as an engine's read finds it at its home, with its poison (R293, R380, R385). MMIO gives 0 to a read of this size
(R382); what lies in a peer's aperture, or that it is poisoned, is a free value (R417) (DESIGN CHOICE, log 16). -/
def engByte (s : State) (mid pa : Nat) : Byte × Bool :=
  if !permits s mid pa true false then (0, true)
  else match placeOf s pa with
    | .hbm _ | .tier _ _ => (homeByte s pa, homePois s pa)
    | .unbacked => (0, true)
    | .mmio _ => (0, false)
    | .peer _ _ => (BitVec.ofNat 8 (Config.freeNat s.free / 256 ^ (pa % 2 ^ 20)), peerAnswer s s.free pa != 0)

/-- The record of one engine access that is denied, unbacked, or a read of MMIO, and the fence (R380, R382, R385). -/
def engNote (s : State) (die mid : Nat) (ctx : Option Nat) (wr : Bool) (pa : Nat) : State :=
  if !permits s mid pa (!wr) wr then denyAccess s die mid ctx pa (if (placeOf s pa).isMmio then 2 else wr.toNat)
  else match placeOf s pa with
    | .unbacked => unbackedAccess s die mid ctx pa wr
    | .mmio o => if wr then s else malformedBy s mid ctx o 32 0
    | _ => s

/-- What an engine's read of bytes leaves: the records of its accesses, one for each grain, the requests to peer packages (R417), and
the blocks it fills and uses at the homes (R322). `own` is its requester port. -/
def engNotes (s : State) (die own mid : Nat) (ctx : Option Nat) (pas : List Nat) : State :=
  let k := s.free
  let gs := (pas.map (fun a => a / 32 * 32)).dedup
  let far := gs.filter (fun a => permits s mid a true false && (placeOf s a).isPeer)
  let s := gs.foldl (fun (s : State) (a : Nat) => engNote s die mid ctx false a) { s with free := k + 1 }
  let s := far.foldl (fun (s : State) (a : Nat) => peerRead s k mid a 32) s
  engTouch s die own (pas.filter (fun a => permits s mid a true false))

/-- The walks of the pages of some virtual addresses. -/
def walkPages (s : State) (core ctx : Nat) (vas : List Nat) : State :=
  ((vas.map (· / 65536)).dedup).foldl (fun s p => cacheVa s core ctx (65536 * p)) s

/-- The requester port of a core's copy engine (R312). -/
def enginePort (core : Nat) : Nat := 96 + bayOfCore core % 8

/-- The master id of a copy. -/
def copyMid (s : State) (c : CopyCmd) : Nat := masterOf s c.ctx 1

/-- Index i of a gather or scatter, as read from the index tensor (R225). -/
def copyIndex (c : CopyCmd) (i : Nat) : Int :=
  let base := match c.kind with | .sct _ => c.total | _ => 0
  toSigned 32 (ofBytes ((((c.srcRead.getD []).drop (base + 4 * i)).take 4).map Prod.fst))

/-- The descriptor of one slice (R225). -/
def sliceDesc (d : Desc) (i : Nat) : Desc := { d with box := lset d.box i 1 }

/-- Where the source bytes of byte `q` of a copy's image lie, and the clamped elements counted at it (R220, R225, R226). -/
def copySrcs (c : CopyCmd) (q : Nat) : List Src × Nat :=
  let d := parseDesc c.desc
  let o := swizzle d.swz c.total q
  match c.kind with
  | .g2s =>
    let r := boxSrc d c.coords o
    ([r.1], r.2)
  | .gth k =>
    let sd := sliceDesc d k
    let n := sd.boxBytes
    let x := clampTo (d.extOf k) (copyIndex c (q / n))
    let r := boxSrc sd (lset c.coords k (x.1 : Int)) (swizzle d.swz n (q % n))
    ([r.1], r.2 + if q % n = 0 ∧ x.2 then 1 else 0)
  | .tr =>
    let n := fmtSize d.fmt
    let r := boxSrc d c.coords (trElem d (o / n) * n + o % n)
    ([r.1], r.2)
  | .prec k =>
    let r := precSrc d c.coords k o
    ([r.1], r.2)
  | .conv t =>
    let n := fmtSize d.fmt
    let m := fmtSize t
    let rs := (List.range n).map (fun i => boxSrc d c.coords (o / m * n + i))
    (rs.map Prod.fst, if o % m = 0 then (rs.map Prod.snd).foldl (· + ·) 0 else 0)
  | .rqtr p =>
    match rqtrBlock d p o with
    | none => ([], 0)
    | some (x, r) =>
      let es := (List.range 32).map (fun i => rqtrSrc d c.coords x (r + i))
      (es.flatMap (·.1), if o % 288 < 8 then (es.filter (·.2.1)).length else 0)
  | _ => ([], 0)

/-- Byte `q` of a copy's image from its source bytes. -/
def copyCombine (c : CopyCmd) (q : Nat) (bs : List Nat) : Nat :=
  let d := parseDesc c.desc
  let o := swizzle d.swz c.total q
  match c.kind with
  | .conv t => convByte d.fmt t (ofBytes (bs.map (BitVec.ofNat 8))) (o % fmtSize t)
  | .rqtr p =>
    match rqtrBlock d p o with
    | none => 0
    | some (x, _) =>
      let n := d.planes + 1
      rqtrByte p o ((List.range 32).map (fun i => rqtrValue d.planes (x % 8) d.tscale ((bs.drop (n * i)).take n)))
  | _ => bs.headD 0

/-- What an engine reads at a virtual address: the fault (EADDR, code, ETVAL), or the byte, its poison and its virtual and
physical address. -/
def engRead (s : State) (core ctx mid : Nat) : Src → Except (Nat × Nat × Nat) (Byte × Bool × Option (Nat × Nat))
  | .const b => .ok (BitVec.ofNat 8 b, false, none)
  | .addr va => match xlate s core ctx va true false false with
    | .error e => .error (e.1, va, e.2)
    | .ok (pa, _) =>
      let r := engByte s mid pa
      .ok (r.1, r.2, some (va, pa))

/-- Reads source bytes in order. -/
def engReads (s : State) (core ctx mid : Nat) : List Src → Except (Nat × Nat × Nat) (List (Byte × Bool × Option (Nat × Nat)))
  | [] => .ok []
  | x :: xs => match engRead s core ctx mid x with
    | .error e => .error e
    | .ok r => match engReads s core ctx mid xs with
      | .error e => .error e
      | .ok rs => .ok (r :: rs)

/-- `n` bytes of a copy's image from byte `q` on: bytes with poison, clamp count, virtual and physical addresses read. -/
def fetchImage (s : State) (c : CopyCmd) : Nat → Nat → Except (Nat × Nat × Nat) (List (Byte × Bool) × Nat × List (Nat × Nat))
  | _, 0 => .ok ([], 0, [])
  | q, n + 1 =>
    let r := copySrcs c q
    match engReads s c.core c.ctx (copyMid s c) r.1 with
    | .error e => .error e
    | .ok bs => match fetchImage s c (q + 1) n with
      | .error e => .error e
      | .ok t =>
        let b := BitVec.ofNat 8 (copyCombine c q (bs.map (fun e => e.1.toNat)))
        .ok ((b, bs.any (fun e => e.2.1)) :: t.1, r.2 + t.2.1, bs.filterMap (fun e => e.2.2) ++ t.2.2)

/-- How many bytes the engine fetches at once: a piece of up to 4 KiB that ends with a line of the destination, so that no line is
left in part by a fault (R271, R275); for a gather the slices of 64 indices (R225); a .prec panel whole, column by column. -/
def stretch (c : CopyCmd) : Nat :=
  let at' := ((c.recvs.head?).map (·.dst.off)).getD 0 + c.made
  match c.kind with
  | .gth k =>
    let unit := 64 * (sliceDesc (parseDesc c.desc) k).boxBytes
    min (c.total - c.made) (unit - c.made % unit)
  | .prec _ => c.total - c.made
  | _ => min (c.total - c.made) (4096 - at' % 4096)

/-- Changes a copy command. -/
def modCopy (s : State) (id : Nat) (f : CopyCmd → CopyCmd) : State := modNet s (fun n => { n with copies := tmod n.copies id f })

/-- The stream to which a copy's lines for a rank belong (R315): the issuing core and ring header of .ord copies; the channel. -/
def copyStream (c : CopyCmd) (rank : Nat) : Option (List Nat) :=
  match c.kind, c.recvs.find? (fun r => r.dst.rank == rank) with
  | .chan n _, some r => some [1, c.ctx, n, c.cluster, r.dst.cluster]
  | .coll _ _ _ g t, _ => some [2, c.ctx, g, t]
  | _, some r => if c.ord then some [0, c.core, r.ring.cluster, r.ring.rank, r.ring.off] else none
  | _, none => none

/-- Commands of a core that the engine may serve, in issue order: a CHSEND only once it has claimed its slot, a COLL until its source
is read, and again once its result is there. -/
def coreQueue (s : State) (core : Nat) : List CopyCmd :=
  (tvals s.net.copies).filter (fun c => c.core == core && !c.done && !(c.recvs.isEmpty)
    && (match c.kind with | .coll .. => c.srcRead.isNone || !c.buf.isEmpty | _ => true))

/-- Whether two copies count into one ring. -/
def shareRing (c d : CopyCmd) : Bool := c.recvs.any (fun r => d.recvs.any (fun q => q.ring == r.ring))

/-- Whether an earlier .ord command into one of its rings is under way (R227, R271, R308). -/
def ordBlocked (s : State) (c : CopyCmd) : Bool :=
  c.ord && s.net.copies.any (fun e => decide (e.1 < c.id) && e.2.ord && !e.2.done && shareRing e.2 c)

/-- Whether a command is one of the four of its core that the engine keeps open (R271). -/
def copyOpened (s : State) (c : CopyCmd) : Bool := !ordBlocked s c && ((coreQueue s c.core).take 4).any (fun x => x.id == c.id)

/-- Whether the engine can serve a command: it is open, and its source read (R271, R273). -/
def copyServable (s : State) (c : CopyCmd) : Bool :=
  c.srcRead.isSome && !c.done && c.failed.isNone && decide (c.made < c.total) && copyOpened s c

/-- Whether the engine serves a command now: it takes them round robin over the cores of its bay that have some (R271). -/
def copyOpen (s : State) (c : CopyCmd) : Bool :=
  let turn := fun (core : Nat) => (core % 12 + 11 - (bayOf s c.bay).lastCore) % 12
  copyServable s c && !s.net.copies.any (fun e => e.2.bay == c.bay && decide (turn e.2.core < turn c.core) && copyServable s e.2)

/-- The segments of `bs`, from offset `off` of an allocation, by line: (offset, bytes). -/
def lineCuts : Nat → Nat → List (Byte × Bool) → List (Nat × List (Byte × Bool))
  | 0, _, _ => []
  | fuel + 1, off, bs =>
    if bs.isEmpty then []
    else
      let k := 128 - off % 128
      (off, bs.take k) :: lineCuts fuel (off + k) (bs.drop k)

/-- The die of a rank's block. -/
def rankDie (s : State) (p : SPlace) : Nat := ((rankBlock s p.cluster p.rank).map (fun b => dieOfCore b.2.core)).getD 0

/-- A ring arrival is sent. -/
def sendRing (s : State) (copy : Nat) (r : Receiver) (bytes clamp : Nat) (after : List Nat) : State :=
  if bytes = 0 ∧ clamp = 0 then s
  else
    let (id, s) := nextId s
    modNet s (fun n => { n with rings := tput n.rings id ⟨id, copy, r.ring, r.slot, bytes, clamp, after⟩ })

/-- Sends the lines of a piece to one receiver: the state and their ids. -/
def sendLines (s : State) (c : CopyCmd) (r : Receiver) (bs : List (Byte × Bool)) : State × List Nat :=
  let off := r.dst.off + c.made
  let held := (copyStream c r.dst.rank).isSome && rankDie s r.dst != dieOfCore c.core
  (lineCuts (bs.length + 1) off bs).foldl (fun (t : State × List Nat) e =>
    let (id, s) := nextId t.1
    let stop := min ((e.1 / 128 + 1) * 128) (r.dst.off + c.total)
    let m : LineMsg := ⟨id, c.id, { r.dst with off := e.1 }, e.2, decide (e.1 + e.2.length = stop), held, id⟩
    (modNet s (fun n => { n with lines := tput n.lines id m }), t.2 ++ [id])) (s, [])

/-- A copy whose lines, arrivals and writes are all done leaves the engine; its global writes' counters have fallen. -/
def settleCopy (s : State) (id : Nat) : State :=
  match tget s.net.copies id with
  | none => s
  | some c =>
    let writes := s.net.cpw.any (fun e => e.grp == id)
    if c.made < c.total ∨ c.failed.isSome ∨ writes then s
    else
      let s := match c.grp with | some g => modCopy (ackGroup s g) id (fun c => { c with grp := none }) | none => s
      if s.net.lines.any (fun e => e.2.copy == id) || s.net.rings.any (fun e => e.2.copy == id) || c.counts then s
      else modNet s (fun n => { n with copies := terase n.copies id })

/-- The engine has found a fault (R229). -/
def failCopy (s : State) (id : Nat) (e : Nat × Nat × Nat) : State := modCopy s id (fun c => { c with failed := some e })

/-- A piece of up to 4 KiB is sent to every receiver (R224, R271, R272). -/
def deliverPiece (s : State) (c : CopyCmd) : State :=
  let bs := c.buf.take 4096
  let s := c.recvs.foldl (fun s r =>
    let t := sendLines s c r bs
    match c.kind with
    | .chan .. => t.1
    | _ => sendRing t.1 c.id r bs.length c.bufClamps t.2) s
  settleCopy (modCopy s c.id (fun x => { x with made := c.made + bs.length, buf := c.buf.drop 4096, bufClamps := 0 })) c.id

/-- The requests for the physical bytes of a piece: a .prec panel asks for each column's grains 0 to k at once (R62, R275). -/
def requestsOf (s : State) (c : CopyCmd) (pas : List Nat) : List (List Nat) :=
  match c.kind with
  | .prec k => (List.range 128).map (fun n => (List.range (k + 1)).filterMap (fun p =>
      match (precSrc (parseDesc c.desc) c.coords k (512 * p + 4 * n)).1 with
      | .const _ => none
      | .addr va => match xlate s c.core c.ctx va true false false with
        | .error _ => none
        | .ok (pa, _) => some pa))
  | _ => [pas]

/-- One piece of a copy into scratch. -/
def readPiece (s : State) (c : CopyCmd) : State :=
  if !c.buf.isEmpty then deliverPiece s c
  else match c.kind with
    | .s2s | .chan .. => deliverPiece s { c with buf := ((c.srcRead.getD []).drop c.made).take (min 4096 (c.total - c.made)) }
    | .coll .. => s
    | _ => match fetchImage s c c.made (stretch c) with
      | .error e => failCopy (walkPages s c.core c.ctx [e.2.1]) c.id e
      | .ok r =>
        let s := walkPages s c.core c.ctx (r.2.2.map Prod.fst)
        let s := (requestsOf s c (r.2.2.map Prod.snd)).foldl (fun s pas =>
          engNotes s (dieOfCore c.core) (enginePort c.core) (copyMid s c) (some c.ctx) pas) s
        deliverPiece s { c with buf := r.1, bufClamps := r.2.1 }

/-- Where byte `q` of a global write's image goes, whether its value is the source's (or 0), and its clamp count (R220, R225). A
slice whose index comes again among the same 64 is written once, with the last one's data. -/
def copyDst (c : CopyCmd) (q : Nat) : Option (Nat × Bool) × Nat :=
  let d := parseDesc c.desc
  match c.kind with
  | .sct k =>
    let sd := sliceDesc d k
    let n := sd.boxBytes
    let i := q / n
    let x := clampTo (d.extOf k) (copyIndex c i)
    let later := (List.range (min c.count (i / 64 * 64 + 64) - i - 1)).any (fun j =>
      (clampTo (d.extOf k) (copyIndex c (i + 1 + j))).1 == x.1)
    let co := lset c.coords k (x.1 : Int)
    let o := swizzle d.swz n (q % n)
    (if later then none else boxDst sd co o, (boxSrc sd co o).2 + if q % n = 0 ∧ x.2 then 1 else 0)
  | _ =>
    let o := swizzle d.swz c.total q
    (boxDst d c.coords o, (boxSrc d c.coords o).2)

/-- The global bytes of image bytes `q` to `q + n - 1`: (address, virtual address, byte, poison), with the clamp count, or a
fault. -/
def planWrites (s : State) (c : CopyCmd) : Nat → Nat → Except (Nat × Nat × Nat) (List (Nat × Nat × Byte × Bool) × Nat)
  | _, 0 => .ok ([], 0)
  | q, n + 1 =>
    match planWrites s c (q + 1) n with
    | .error e =>
      (match (copyDst c q).1 with
       | some (va, _) => match xlate s c.core c.ctx va false true false with | .error f => .error (f.1, va, f.2) | .ok _ => .error e
       | none => .error e)
    | .ok t =>
      let r := copyDst c q
      match r.1 with
      | none => .ok (t.1, r.2 + t.2)
      | some (va, keep) => match xlate s c.core c.ctx va false true false with
        | .error f => .error (f.1, va, f.2)
        | .ok (pa, _) =>
          let b := if keep then (c.srcRead.getD []).getD q (0, false) else (0, false)
          .ok ((pa, va, b.1, b.2) :: t.1, r.2 + t.2)

/-- Consecutive bytes joined to pieces. -/
def joinBytes : List (Nat × Byte) → List Piece
  | [] => []
  | (a, b) :: l => match joinBytes l with
    | [] => [⟨a, [b]⟩]
    | p :: ps => if a + 1 = p.addr ∧ p.data.length < 16 ∧ p.addr % 16 ≠ 0 then ⟨a, b :: p.data⟩ :: ps else ⟨a, [b]⟩ :: p :: ps

/-- The first byte of a copy's remaining writes whose token its cluster lacks (R228): TOKEN. -/
def copyToken (s : State) (c : CopyCmd) : Option (Nat × Nat × Nat) :=
  (List.range (c.total - c.made)).findSome? (fun i =>
    (copyDst c (c.made + i)).1.bind (fun e =>
      match xlate s c.core c.ctx e.1 false true false with
      | .error _ => none
      | .ok (pa, _) => (tokenMissing s c.cluster pa 1).map (fun k => (cTOKEN, e.1, k % 2 ^ 32))))

/-- Packets of a copy's global bytes, one for each grain, leave for their homes (R323). -/
def sendGrains (s : State) (c : CopyCmd) (ws : List (Nat × Nat × Byte × Bool)) : State :=
  ((ws.map (fun e => e.1 / 32)).dedup).foldl (fun s g =>
    let mine := ws.filter (fun e => e.1 / 32 == g)
    let (id, s) := nextId s
    let (port, s) := entPort s c.core true g
    modNet s (fun t => { t with
      cpw := t.cpw ++ [⟨id, c.core, c.warp, c.id, .store, g, joinBytes (mine.map (fun e => (e.1, e.2.2.1))), false,
        mine.any (fun e => e.2.2.2), 0, false, port, none, false, false⟩] })) s

/-- One piece of a global write (R224, R228, R276, R323): its packets go to their homes, but for grains of which the bytes that come
next have a part; the bytes it does not write count now, and its clamps with bytes (R267). -/
def writePiece (s : State) (c : CopyCmd) : State :=
  match if c.opened then none else copyToken s c with
  | some e => failCopy s c.id e
  | none =>
    let n := min (c.total - c.made) (4096 - c.made % 4096)
    match planWrites s c c.made n with
    | .error e => failCopy (modCopy (sendGrains (walkPages s c.core c.ctx [e.2.1]) c c.carry) c.id (fun x => { x with carry := [] })) c.id e
    | .ok (ws, clamps) =>
      let next := match planWrites s c (c.made + n) (min 256 (c.total - c.made - n)) with
        | .ok t => t.1.map (fun (e : Nat × Nat × Byte × Bool) => e.1 / 32)
        | .error _ => []
      let all := c.carry ++ ws
      let s := walkPages s c.core c.ctx (ws.map (fun e => e.2.1))
      let s := sendGrains s c (all.filter (fun e => !next.contains (e.1 / 32)))
      let late := if ws.isEmpty then 0 else c.bufClamps + clamps
      let s := c.recvs.foldl (fun s r => sendRing s c.id r (n - ws.length) (c.bufClamps + clamps - late) []) s
      settleCopy (modCopy s c.id (fun x => { x with
        made := c.made + n, opened := true, bufClamps := late, acked := x.acked + (n - ws.length), carry := all.filter (fun e => next.contains (e.1 / 32)) })) c.id

/-- The clears of a copy's lines that reach the port of its first receiver that has some to make (R265): none when no line can be
cleared. -/
def clearNext (s : State) (c : CopyCmd) : Option State :=
  c.recvs.findSome? (fun r =>
    let t := clearAt s r c.uncleared
    if t.2 = c.uncleared then none else some (modCopy t.1 c.id (fun c => { c with uncleared := t.2 })))

/-- COPY_PIECE (R265, R271): the clear of a receiver's lines reaches its port, or the engine makes its next piece of the command. -/
def execCopyPiece (id : Nat) (s : State) : Host.Outcome State Fault Refusal :=
  match tget s.net.copies id with
  | none => .next s
  | some c =>
    match clearNext s c with
    | some t => .next t
    | none =>
      if !copyOpen s c then .next s
      else
        let s := modBay s c.bay (fun b => { b with lastCore := c.core % 12 })
        .next (if writesGlobal c.kind then writePiece s c else readPiece s c)

/-- Old or new for each aligned 16 bytes of one source range (R273); `k` numbers the choices. -/
def pickBytes (k off : Nat) (old : List Byte) (new : List (Byte × Bool)) : List (Byte × Bool) :=
  if old.length = new.length then
    ((old.zip new).zipIdx).map (fun e => (pickVal (k + (off % 16 + e.2) / 16) e.1.1 e.1.2.1, e.1.2.2))
  else new

/-- Old or new for the bytes of source ranges one after another, each by its own aligned 16 bytes. -/
def pickRanges (k : Nat) : List (SPlace × Nat) → List Byte → List (Byte × Bool) → List (Byte × Bool)
  | [], _, _ => []
  | (p, n) :: l, old, new =>
    pickBytes k p.off (old.take n) (new.take n) ++ pickRanges (k + n / 16 + 2) l (old.drop n) (new.drop n)

/-- COPY_SOURCE_READ (R223, R271, R273): the engine reads the scratch sources of an open command; CP falls. -/
def execCopySourceRead (id : Nat) (s : State) : Host.Outcome State Fault Refusal :=
  match tget s.net.copies id with
  | none => .next s
  | some c =>
    if c.srcRead.isSome || c.failed.isSome || c.recvs.isEmpty || sourceHeld s c || !copyOpened s c then .next s
    else match sourceBytes s (copySources c) with
      | none => .next s
      | some bs =>
        let got := pickRanges s.free (copySources c) c.srcOld bs
        let s := { s with free := s.free + bs.length / 16 + 4 }
        let s := if c.counts then modWarp s c.warp (fun w => { w with cp := w.cp - 1 }) else s
        .next (settleCopy (modCopy s id (fun c => { c with srcRead := some got, counts := false })) id)

/-- Instructions that wait for lines are executed again once those are present (R157, R221, R222). -/
def wakeLines (s : State) : State :=
  (tkeys s.warps).foldl (fun s k => reissue s k (fun p => match p.cond with
    | .lines l => l.all (fun a => match placedBlock s a.cluster a.rank with
      | none => false
      | some (_, b) => b.ended || linesPresent b a.off 64)
    | _ => false)) s

/-- The count of a line falls; at 0 the line is present (R265). -/
def dropCount (b : Block) (l : Nat) : Block :=
  match tget b.lineCopies l with
  | none => b
  | some n => if n ≤ 1 then { b with lineCopies := terase b.lineCopies l, absent := terase b.absent l }
    else { b with lineCopies := tput b.lineCopies l (n - 1) }

/-- The claim of a CHSEND's slot in its receiver: its state (R279). -/
def setChSlot (b : Block) (n slot : Nat) (st : ChState) : Block :=
  { b with chSlots := b.chSlots.map (fun e => if e.1 == n && e.2.1 == slot then (n, slot, st) else e) }

/-- The oldest filled and untaken slot of a channel, when no older claim is unfilled (R191, R279). -/
def takeable (b : Block) (n : Nat) : Option Nat :=
  match b.chSlots.find? (fun e => e.1 == n && (match e.2.2 with | .taken => false | _ => true)) with
  | some (_, j, .filled) => some j
  | _ => none

/-- The warps parked at CHRECV.take of a block take their slots as they fill (R191): the sub-braid granted longest ago first (DESIGN CHOICE,
log 105). -/
def wakeTakes (s : State) (bid n : Nat) : State :=
  match tget s.blocks bid with
  | none => s
  | some b =>
    match takeable b n with
    | none => s
    | some j =>
      let ws := (warpsOfBlock s bid).flatMap (fun e => e.2.parked.filterMap (fun p => match p.cond with
        | .chTake m sd => if m = n then some (p.lastGrant, e.1, p, sd) else none
        | _ => none))
      match (sortBy (fun a b => decide (a.1 ≤ b.1)) ws).head? with
      | none => s
      | some (_, wid, p, sd) =>
        let r := ((gridOfBlock s b).map (fun g => g.2.record)).getD []
        let s := modBlock s bid (fun b => setChSlot b n j .taken)
        let s := modWarp s wid (fun w => acquire (swriteOwed w (some p.lanes) sd (BitVec.ofNat 32 (chSlotOff r n j))) s.clock 2 (recSeam r))
        unpark s wid (fun q => q == p)

/-- A CHSEND whose last line is written fills its slot (R279). -/
def fillSlot (s : State) (c : CopyCmd) : State :=
  match c.kind with
  | .chan n j =>
    let r := c.recvs.headD ⟨⟨0, 0, 0⟩, 0, ⟨0, 0, 0⟩⟩
    if c.made < c.total || s.net.lines.any (fun e => e.2.copy == c.id) then s
    else match rankBlock s r.dst.cluster r.dst.rank with
      | none => s
      | some (bid, b) => if b.ended then s else wakeTakes (modBlock s bid (fun b => setChSlot b n j .filled)) bid n
  | _ => s

/-- Whether the engine has sent a line: its clear has reached the port (R265), its stream has released it (R315), and for a channel
every older claim is filled (R191). -/
def lineSent (s : State) (m : LineMsg) : Bool :=
  !m.held && (match tget s.net.copies m.copy with
    | none => true
    | some c => !c.uncleared.contains (lineKey m.place.rank (m.place.off / 128))
      && (match c.kind with
        | .chan n j => match rankBlock s m.place.cluster m.place.rank with
          | none => true
          | some (_, b) => ((b.chSlots.filter (fun e => e.1 == n)).takeWhile (fun e => e.2.1 != j)).all (fun e =>
              match e.2.2 with | .claimed _ => false | _ => true)
        | _ => true))

/-- Whether two lines go from one engine, or in streams through one seam port, to one core: order is kept (R264, R311, R315). -/
def sameRoute (s : State) (m n : LineMsg) : Bool :=
  match tget s.net.copies m.copy, tget s.net.copies n.copy, rankBlock s m.place.cluster m.place.rank,
      rankBlock s n.place.cluster n.place.rank with
  | some c, some d, some (_, a), some (_, b) => c.bay == d.bay && a.core == b.core && (dieOfCore c.core == dieOfCore a.core
      || ((copyStream c m.place.rank).isSome && (copyStream d n.place.rank).isSome))
  | _, _, _, _ => false

/-- Whether a line may be written: it is sent, its rank is placed (R471), its copy's earlier parts of the line are written, and so is
what came by its route before (R264, R265, R311). -/
def lineReady (s : State) (m : LineMsg) : Bool :=
  lineSent s m && (placedBlock s m.place.cluster m.place.rank).isSome && !s.net.lines.any (fun e =>
    (decide (e.1 < m.id) && e.2.copy == m.copy && e.2.place.cluster == m.place.cluster && e.2.place.rank == m.place.rank
          && e.2.place.off / 128 == m.place.off / 128)
      || (decide (e.2.out < m.out) && sameRoute s e.2 m && lineSent s e.2))

/-- One aligned piece of up to 16 bytes of a line is written at its receiver's port (R264 to R266); `final` with the copy's last byte
for the line. -/
def writeLine (s : State) (m : LineMsg) (n : Nat) (final : Bool) : State :=
  match rankBlock s m.place.cluster m.place.rank with
  | none => s
  | some (bid, b) =>
    if b.ended then s
    else
      let l := m.place.off / 128
      let key := lineKey m.place.rank l
      let c := tget s.net.copies m.copy
      let bad := (m.data.take n).any Prod.snd
      let s := if bad then modCopy s m.copy (fun c => { c with tainted := key :: c.tainted }) else s
      let stained := bad || (c.map (fun c => c.tainted.contains key)).getD false
      let whole := (c.map (fun c => c.recvs.any (fun r => r.dst.cluster == m.place.cluster && r.dst.rank == m.place.rank
        && decide (r.dst.off ≤ 128 * l) && decide (128 * l + 128 ≤ r.dst.off + c.total)))).getD false
      modBlock s bid (fun b =>
        let b := putScratch b m.place.off ((m.data.take n).map Prod.fst)
        let b := if bad ∧ !b.linePois.contains l then { b with linePois := l :: b.linePois }
          else if final ∧ whole ∧ !stained then { b with linePois := b.linePois.filter (fun k => k != l) } else b
        if final then dropCount b l else b)

/-- COPY_LINE_WRITE (R264, R265, R274): the next aligned 16 bytes of a line are written. -/
def execCopyLineWrite (id : Nat) (s : State) : Host.Outcome State Fault Refusal :=
  match tget s.net.lines id with
  | none => .next s
  | some m =>
    if !lineReady s m then .next s
    else
      let n := 16 - m.place.off % 16
      if n < m.data.length then
        .next (modNet (writeLine s m n false) (fun t => { t with
          lines := tput t.lines id { m with place := { m.place with off := m.place.off + n }, data := m.data.drop n } }))
      else
        let s := modNet (writeLine s m n m.last) (fun n => { n with lines := terase n.lines id })
        let s := wakeLines s
        let s := match tget s.net.copies m.copy with | some c => fillSlot s c | none => s
        .next (settleCopy s m.copy)

/-- STREAM_RELEASE (R315): the next packet of a stream leaves the reorder buffer of its port. -/
def execStreamRelease (id : Nat) (s : State) : Host.Outcome State Fault Refusal :=
  match tget s.net.lines id with
  | none => .next s
  | some m =>
    let key := fun (n : LineMsg) => (tget s.net.copies n.copy).bind (fun c => copyStream c n.place.rank)
    if !m.held || s.net.lines.any (fun e => decide (e.1 < id) && e.2.held && key e.2 == key m
        && e.2.place.rank == m.place.rank) then .next s
    else
      let (k, s) := nextId s
      .next (modNet s (fun n => { n with lines := tput n.lines id { m with held := false, out := k } }))

/-- RING_ARRIVAL (R267, R276, R471): bytes are counted at the placed rank's port once the lines they cover are written. -/
def execRingArrival (id : Nat) (s : State) : Host.Outcome State Fault Refusal :=
  match tget s.net.rings id with
  | none => .next s
  | some r =>
    let blocked := match tget s.net.copies r.copy with | some c => ordBlocked s c | none => false
    if blocked || r.after.any (fun k => (tget s.net.lines k).isSome) || (placedBlock s r.ring.cluster r.ring.rank).isNone then .next s
    else
      let s := modNet s (fun n => { n with rings := terase n.rings id })
      .next (settleCopy (ringArrive s r.ring r.slot r.bytes r.clamp) r.copy)

/-- The receiving blocks of a copy that have not ended: block, receiver. -/
def liveReceivers (s : State) (c : CopyCmd) : List (Nat × Block × Receiver) :=
  c.recvs.filterMap (fun r => match rankBlock s r.ring.cluster r.ring.rank with
    | none => none
    | some (bid, b) => if b.ended then none else some (bid, b, r))

/-- What a failed copy has counted falls (R229): CP, and its global writes' counters. -/
def uncountCopy (s : State) (c : CopyCmd) : State :=
  let s := if c.counts then modWarp s c.warp (fun w => { w with cp := w.cp - 1 }) else s
  match c.grp with | some g => ackGroup s g | none => s

/-- The lines that a failed copy has cleared and not written count it no more (R229, R265). -/
def dropLines (s : State) (c : CopyCmd) : State :=
  if writesGlobal c.kind then s
  else c.recvs.foldl (fun s r => match rankBlock s r.dst.cluster r.dst.rank with
    | none => s
    | some (bid, _) => modBlock s bid (fun b =>
        ((lineList (r.dst.off + c.made) (c.total - c.made)).filter (fun l =>
          !c.uncleared.contains (lineKey r.dst.rank l))).foldl dropCount b)) s

/-- Each receiver of a failed copy gets an entry of its fault table, and its slot fails (R229). -/
def failSlots (s : State) (rs : List (Nat × Block × Receiver)) (id : Nat) (e : Nat × Nat × Nat) : State :=
  rs.foldl (fun s r =>
    ringFail (modBlock s r.1 (fun b => { b with faults := b.faults ++ [⟨r.2.2.ring, r.2.2.slot, e.1, e.2.1, e.2.2, id, false⟩] }))
      r.2.2.ring r.2.2.slot) s

/-- COPY_FAILURE (R229): once what the copy has sent is done and every receiver's table has room, its lines become present,
its counters fall, and each slot is failed (DEDUCED, log 51). -/
def execCopyFailure (id : Nat) (s : State) : Host.Outcome State Fault Refusal :=
  match tget s.net.copies id with
  | none => .next s
  | some c =>
    match c.failed with
    | none => .next s
    | some e =>
      let busy := s.net.lines.any (fun e => e.2.copy == id) || s.net.rings.any (fun e => e.2.copy == id)
        || s.net.cpw.any (fun e => e.grp == id)
      let rs := liveReceivers s c
      if c.done || busy || rs.any (fun r => decide (16 ≤ r.2.1.faults.length) || onTheWay s r.2.1) then .next s
      else
        let s := modCopy (dropLines (uncountCopy s c) c) id (fun c => { c with done := true, counts := false, grp := none, uncleared := [] })
        .next (wakeLines (failSlots s rs id e))

/-- Commands that no copy-fault table names any more are forgotten. -/
def sweepCopies (s : State) : State :=
  modNet s (fun n => { n with copies := n.copies.filter (fun e =>
    !e.2.done || s.blocks.any (fun b => b.2.faults.any (fun f => f.copy == e.1))) })

/-- Whether lanes wait at RWAIT.full for a slot (R229). -/
def slotAwaited (s : State) (b : Block) (f : CopyFault) : Bool :=
  ringRp b f.ring.off == f.slot && !(ringWaiters s f.ring).all (fun e => e.2.2.1)

/-- COPY_REPLAY (R229): the RWAIT is executed again, and the engine replays the remaining work into the slot. -/
def execCopyReplay (block entry : Nat) (s : State) : Host.Outcome State Fault Refusal :=
  match (tget s.blocks block).bind (fun b => (b.faults[entry]?).map (fun f => (b, f))) with
  | none => .next s
  | some (b, f) =>
    match tget s.net.copies f.copy with
    | none => .next s
    | some c =>
      if !f.delivered || !slotAwaited s b f then .next s
      else
        let (id, s) := nextId s
        let s := modBlock s block (fun b => { b with faults := b.faults.erase f })
        let again := if f.cause = cILL then c.failed else none
        let recvs := c.recvs.filter (fun r => r.ring == f.ring && r.slot == f.slot)
        let c' := { c with
          id := id, recvs := recvs, failed := again, done := false, opened := false
          uncleared := if writesGlobal c.kind then [] else lineKeys recvs c.made c.total, buf := [], bufClamps := 0 }
        .next (sweepCopies (modNet s (fun n => { n with copies := tput n.copies id c' })))

end Sys2Proof.Machine
end

