-- ==== Sys2Proof/Machine/Channel.lean ====
section
/-! DEFINITION. Channels (R190, R191, R277 to R280). -/

namespace Sys2Proof.Machine

/-- The receiver cluster of a channel (R277), none for CHAN. -/
def chCluster (w : Word → Nat) (e cluster grid : Nat) (scalar : Word) : Option Nat :=
  match chRel e with
  | 0 => some ((cluster + 1) % grid)
  | 1 => some ((cluster + grid - 1) % grid)
  | 2 => some (wrapMod grid ((cluster : Int) + toSigned 16 (chArg e)))
  | _ => if w scalar < grid then some (w scalar) else none
where
  /-- Modulo the grid, from 0. -/
  wrapMod (n : Nat) (x : Int) : Nat := (x % n).toNat

/-- The issuing cluster's index in its grid. -/
def clusterIdx (s : State) (w : Warp) : Nat := ((clusterOf s w).map (fun c => c.2.index)).getD 0

/-- The block of a rank of a cluster of a grid, by the cluster's index. -/
def blockAt (s : State) (gid idx rank : Nat) : Option (Nat × Block) :=
  (s.clusters.find? (fun e => e.2.grid == gid && e.2.index == idx)).bind fun e => rankBlock s e.1 rank

/-- CHAN (R190). -/
def chanTrap (x : Issue) (n : Nat) : Trap := trapOf cCHAN x.b.lanes n

/-- The scalars that CHSEND reads: of REL 3 the receiver's too (R190). -/
def chsendUses (record : List Byte) (f : UB) : Uses :=
  let e := recChannel record (f.imm.toNat % 16)
  uniUses [] ([(f.sa.toNat, 1), (f.sb.toNat, 1)] ++ (if chV e && chRel e == 3 then [(chArg e, 1)] else []))

/-- CHSEND (R190, R191): after its release at .cls the sub-braid parks until its claim is granted. Its SCRB check covers the MLINE lines of a
valid entry, one byte of an invalid one (DESIGN CHOICE, log 123). -/
def execChsend (f : UB) (s : State) : Host.Outcome State Fault Refusal :=
  issue (.chsend f) s fun x s =>
    let n := f.imm.toNat % 16
    let e := recChannel x.record n
    let a := (sread x.w f.sa.toNat).toNat
    let size := chMline e * 128
    let u := chsendUses x.record f
    if waitsForLoad s x.wid u then (.stall, s)
    else match copyAlign x [(a, 128)] with
    | some t => (.trap t, s)
    | none =>
      match copyPlace x s a (if chV e then size else 1) with
      | .error t => (.trap t, s)
      | .ok src =>
        match poisUses x s u with
        | some r => r
        | none =>
          let bad := !chV e || rankOf s x.w != chSrank e || (sread x.w f.sb.toNat).toNat != size
          let dest := chCluster BitVec.toNat e (clusterIdx s x.w) (recGrid x.record) (sread x.w (chArg e))
          match if bad then none else dest with
          | none => (.trap (chanTrap x n), s)
          | some idx =>
            let gid := ((clusterOf s x.w).map (fun c => c.2.grid)).getD 0
            if (blockAt s gid idx (chDrank e)).any (fun b => b.2.ended) then (.trap (chanTrap x n), s)
            else
              let s := dropDescs s x.wid
              let (id, s) := nextId s
              let c := { newCopy x s (.chan n 0) false [] with id := id, src := src, total := size, count := idx, counts := false }
              parkAll (modNet s (fun t => { t with copies := tput t.copies id c })) x (.chSend id)

/-- The slot a claim takes (R279): the lowest free one or the one after the last claimed, none when no slot is free
(DESIGN CHOICE, log 23). -/
def freeSlot (s : State) (b : Block) (n slots : Nat) : Option Nat :=
  let used := (b.chSlots.filter (fun e => e.1 == n)).map (fun e => e.2.1)
  let next := (tget b.chNext n).getD 0
  ((List.range slots).find? (fun j => !used.contains j)).map (fun low =>
    if used.contains next then low else pickVal s.free low next)

/-- CHANNEL_CLAIM (R279, R280): a claim reaches the receiver and queues there; the oldest takes a free slot, whose lines are
cleared; the sender goes on. -/
def execChannelClaim (id : Nat) (s : State) : Host.Outcome State Fault Refusal :=
  match tget s.net.copies id with
  | none => .next s
  | some c =>
    match c.kind, (tget s.clusters c.cluster).bind (fun k => (tget s.grids k.grid).map (fun g => (k.grid, g))) with
    | .chan n _, some (gid, g) =>
      let e := recChannel g.record n
      match blockAt s gid c.count (chDrank e) with
      | none => .next s
      | some (bid, b) =>
        if !c.recvs.isEmpty || !b.started || (tget s.warps c.warp).isNone then .next s
        else if b.ended then
          .next (reissue (modNet s (fun t => { t with copies := terase t.copies id })) c.warp (fun p => p.cond == .chSend id))
        else if !b.chWait.contains (n, id) then .next (modBlock s bid (fun b => { b with chWait := b.chWait ++ [(n, id)] }))
        else
          let first := (b.chWait.find? (fun q => q.1 == n)) == some (n, id)
          let full := ((tget s.warps c.warp).map (fun w => decide (63 ≤ w.cp))).getD false
            || decide (16 ≤ coreCopies s c.core) || decide (128 ≤ bayCopies s c.bay)
          match if first && !full then freeSlot s b n (chSlotsN e) else none with
          | none => .next s
          | some j =>
            let dst : SPlace := ⟨b.cluster, b.rank, chSlotOff g.record n j⟩
            let recvs : List Receiver := [⟨dst, 0, dst⟩]
            let s := { s with free := s.free + 1 }
            let s := modBlock s bid (fun b => { b with
              chSlots := b.chSlots ++ [(n, j, .claimed id)]
              chNext := tput b.chNext n ((j + 1) % chSlotsN e)
              chWait := b.chWait.erase (n, id) })
            let t := recvs.foldl (fun (t : State × List Nat) r => clearAt t.1 r t.2) (s, lineKeys recvs 0 c.total)
            let s := t.1
            let old := ((sourceBytes s (copySources c)).getD []).map Prod.fst
            let s := modCopy s id (fun c => { c with
              kind := .chan n j, recvs := recvs, srcOld := old, counts := true, uncleared := t.2 })
            let s := modWarp s c.warp (fun w => { w with cp := w.cp + 1 })
            .next (unpark s c.warp (fun p => p.cond == .chSend id))
    | _, _ => .next s

/-- CHAN of a CHRECV (R190): the entry is not valid, or the block does not receive it. -/
def chrecvBad (x : Issue) (s : State) (n : Nat) : Bool :=
  !chV (recChannel x.record n) || rankOf s x.w != chDrank (recChannel x.record n)

/-- CHRECV.take (R191, R279). -/
def execChrecvTake (f : UB) (s : State) : Host.Outcome State Fault Refusal :=
  issueOp (.chrecvTake f) s fun x s =>
    let n := f.imm.toNat % 16
    if chrecvBad x s n then (.trap (chanTrap x n), s)
    else match (blockOf s x.w).bind (fun b => takeable b n) with
      | some j =>
        let s := modBlock s x.w.block (fun b => setChSlot b n j .taken)
        (.advance, modWarp s x.wid (fun w => acquire (swrite w f.sd.toNat (BitVec.ofNat 32 (chSlotOff x.record n j))) s.clock 2 x.seam))
      | none => parkAll s x (.chTake n f.sd.toNat)

/-- CHRECV.done (R191, R279): after its release at .cls the oldest taken slot is free. -/
def execChrecvDone (f : UB) (s : State) : Host.Outcome State Fault Refusal :=
  issueOp (.chrecvDone f) s fun x s =>
    let n := f.imm.toNat % 16
    let taken := (blockOf s x.w).bind (fun b => b.chSlots.find? (fun e => e.1 == n && e.2.2 == .taken))
    match if chrecvBad x s n then none else taken with
    | none => (.trap (chanTrap x n), s)
    | some e => (.advance, modBlock (dropDescs s x.wid) x.w.block (fun b => { b with chSlots := b.chSlots.erase e }))

end Sys2Proof.Machine
end

