-- ==== Sys2Proof/Machine/Queue.lean ====
section
/-! DEFINITION. Hardware queues (R359 to R366): packets in memory, DEQ, ENQ, LAUNCH (R147 to R149), and the queue engines'
KLAUNCH, WAITON, SIGNAL and WORK. -/

namespace Sys2Proof.Machine

/-- Capacity in packets (R360). -/
def queueCap (x : Queue) : Nat := 2 ^ x.lsize
/-- Packets held. -/
def queueCount (x : Queue) : Nat := (x.tail + 8192 - x.head) % 8192
/-- The physical address of packet i. -/
def packetAddr (x : Queue) (i : Nat) : Nat := x.baselo.toNat + 2 ^ 32 * x.basehi.toNat + 64 * (i % queueCap x)

/-- What a master of a die reads at a physical address (R380, R382, R385): the bytes and whether they are poisoned. A peer's answer
is free (R417) (DESIGN CHOICE, log 16). `own` is its requester port. -/
def masterPart (s : State) (die own mid : Nat) (ctx : Option Nat) (a n : Nat) : List Byte × Bool × State :=
  let none_ := List.replicate n (0 : Byte)
  if !permits s mid a true false then (none_, true, denyAccess s die mid ctx a (if (placeOf s a).isMmio then 2 else 0))
  else match placeOf s a with
    | .hbm _ | .tier _ _ => (homeBytes s a n, anyPois s a n, engTouchN s die own a n)
    | .unbacked => (none_, true, unbackedAccess s die mid ctx a false)
    | .mmio o => (none_, false, malformedBy s mid ctx o n 0)
    | .peer _ _ =>
      (toBytes n (Config.freeNat s.free), peerAnswer s s.free a != 0, { peerRead s s.free mid a n with free := s.free + 1 })

/-- Such a read, each part where migration leads it. -/
def masterBytes (s : State) (die own mid : Nat) (ctx : Option Nat) (a n : Nat) : List Byte × Bool × State :=
  (routedParts s a n).foldl (fun (t : List Byte × Bool × State) p =>
    let r := masterPart t.2.2 die own mid ctx p.1 p.2
    (t.1 ++ r.1, t.2.1 || r.2.1, r.2.2)) ([], false, s)

/-- What the queue's controller reads at a packet: the bytes and whether they are poisoned (R380, R385). -/
def readPacket (s : State) (q i : Nat) : List Byte × Bool × State :=
  let x := queueOf s q
  let a := packetAddr x i
  masterBytes s (q / 256) (devPort s (routed s a)) (masterOf s x.ctx 3) (some x.ctx) a 64

/-- A write of an engine of a die, a class in a context, leaves for MMIO or a peer package (R383), as the packet `grp`. -/
def sendStore (s : State) (die : Nat) (who : Nat × Nat) (grp a : Nat) (bs : List Byte) : State :=
  let (id, s) := nextId s
  modNet s (fun n => { n with
    cpw := n.cpw ++ [⟨id, 96 * die, 0, grp, .store, a / 32, [⟨a, bs⟩], false, false, 0, false, devPort s a, some who, false, false⟩] })

/-- A write of a queue engine in a context to a physical address (R380, R385): at its home at once; what goes to MMIO or to a peer
package is under way, and `some` names it. -/
def engineWrite (s : State) (q ctx a : Nat) (bs : List Byte) : Option Nat × State :=
  let mid := masterOf s ctx 3
  let die := q / 256
  let dest := routed s a
  match placeOf s dest with
  | .hbm _ | .tier _ _ =>
    (none, match (grainCuts (bs.length + 1) a bs).find? (fun c => !permits s mid (routed s c.1) false true) with
      | none => writeBytesBy s die (devPort s dest) a bs
      | some c => denyAccess s die mid (some ctx) (routed s c.1) 1)
  | .unbacked =>
    (none, if permits s mid dest false true then unbackedAccess s die mid (some ctx) dest true else denyAccess s die mid (some ctx) dest 1)
  | _ =>
    let (g, s) := nextId s
    (some g, sendStore s die (3, ctx) g dest bs)

/-- Writes a packet at the tail as one indivisible write (R361). -/
def enqueue (s : State) (q : Nat) (packet : List Byte) : State :=
  let x := queueOf s q
  let s := (engineWrite s q x.ctx (packetAddr x x.tail) packet).2
  modQueue s q (fun x => { x with tail := (x.tail + 1) % 8192 })

/-- The 16 words of a packet. -/
def packetWords (bs : List Byte) : List Word := (List.range 16).map (fun i => BitVec.ofNat 32 (recField bs (4 * i) 4))
/-- The bytes of 16 words. -/
def wordsPacket (ws : List Word) : List Byte := ws.flatMap (fun w => toBytes 4 w.toNat)

/-- Delivers the head packet of a queue to a warp (R148): an acquire at .sys. -/
def dequeue (s : State) (q wid : Nat) (m : Option Mask) (sd : Nat) : State :=
  let x := queueOf s q
  let r := readPacket s q x.head
  let s := modQueue r.2.2 q (fun x => { x with head := (x.head + 1) % 8192 })
  let age := s.clock
  modWarp s wid (fun w =>
    let w := ((packetWords r.1).zipIdx).foldl (fun w e =>
      let u := swriteOwed w m (sd + e.2) e.1
      if r.2.1 && takesOwed w m (sd + e.2) then { u with sregs := w.sregs, smarks := tput w.smarks (sd + e.2) ⟨0, age⟩ } else u) w
    acquire w s.clock 5 false)

/-- The first entry of a queue's waits whose lanes are parked there and not in an image, with the lanes: a saved warp keeps its place
in the order (R148, R401). -/
def firstWait (s : State) (l : List (Nat × Nat)) (c : Nat → Parked → Bool) : Option ((Nat × Nat) × Parked) :=
  l.findSome? (fun e =>
    if s.saved.any (fun v => v.warps.any (fun k => k.1 == e.1)) then none
    else ((tget s.warps e.1).bind (fun w => w.parked.find? (c e.2))).map (fun p => (e, p)))

/-- Parked DEQs are served in the order in which they parked (R148), also where their queue has been disabled and enabled again
meanwhile (DESIGN CHOICE, log 130). -/
def serveDeq (q : Nat) : Nat → State → State
  | 0, s => s
  | n + 1, s =>
    let x := queueOf s q
    match if queueCount x = 0 then none else firstWait s x.deqWait (fun sd p => p.cond == .deq q sd) with
    | none => s
    | some (e, p) =>
      let s := modQueue s q (fun x => { x with deqWait := x.deqWait.erase e })
      serveDeq q n (unpark (dequeue s q e.1 (some p.lanes) e.2) e.1 (fun y => y == p))

/-- Parked ENQs are served in the order in which they parked (R148). -/
def serveEnq (q : Nat) : Nat → State → State
  | 0, s => s
  | n + 1, s =>
    let x := queueOf s q
    let is := fun (sd : Nat) (p : Parked) => match p.cond with | .enq k d _ _ => k == q && sd == d | _ => false
    match if queueCap x ≤ queueCount x then none else firstWait s x.enqWait is with
    | none => s
    | some (e, p) =>
      let s := modQueue s q (fun x => { x with enqWait := x.enqWait.erase e })
      let s := match p.cond with
        | .enq _ sd _ ws => modWarp (enqueue s q (wordsPacket ws)) e.1 (fun w => swriteOwed w (some p.lanes) sd 1)
        | _ => s
      serveEnq q n (unpark s e.1 (fun y => y == p))

/-- After a packet has come or gone: parked ENQs and DEQs in turn. -/
def serveQueue (s : State) (q : Nat) : State :=
  let x := queueOf s q
  let n := x.deqWait.length + x.enqWait.length + 1
  (List.range n).foldl (fun s _ => serveEnq q 1 (serveDeq q 1 s)) s

/-- QUEUE (R148, R366). -/
def queueFault (x : Issue) (s : State) (q : Nat) (deq : Bool) (type0 : Bool) : Bool :=
  !queueAllowed s (masterOf s x.ctx 0) q || !(queueOf s q).en || (queueOf s q).ctx != x.ctx
    || (deq && !(queueOf s q).mode) || type0

/-- DEQ (R148). -/
def execDeq (f : UB) (s : State) : Host.Outcome State Fault Refusal :=
  issueOp (.deq f) s fun x s =>
    let v := (sread x.w f.sa.toNat).toNat
    let sd := f.sd.toNat
    if queueFault x s v true false then (.trap (trapOf cQUEUE x.b.lanes v), s)
    else if 0 < queueCount (queueOf s v) then (.advance, serveQueue (dequeue s v x.wid none sd) v)
    else if f.sub == 1 then parkAll (modQueue s v (fun y => { y with deqWait := y.deqWait ++ [(x.wid, sd)] })) x (.deq v sd)
    else (.advance, modWarp s x.wid (fun w => (List.range 16).foldl (fun w k => swrite w (sd + k) 0) w))

/-- ENQ (R148): after its release. -/
def execEnq (f : UB) (s : State) : Host.Outcome State Fault Refusal :=
  issueOp (.enq f) s fun x s =>
    let v := (sread x.w f.sa.toNat).toNat
    let ws := (List.range 16).map (fun k => sread x.w (f.sb.toNat + k))
    if queueFault x s v false ((ws.headD 0).toNat % 256 == 0) then (.trap (trapOf cQUEUE x.b.lanes v), s)
    else
      let s := dropDescs s x.wid
      if queueCount (queueOf s v) < queueCap (queueOf s v) then
        (.advance, serveQueue (modWarp (enqueue s v (wordsPacket ws)) x.wid (fun w => swrite w f.sd.toNat 1)) v)
      else if f.sub == 1 then
        parkAll (modQueue s v (fun y => { y with enqWait := y.enqWait ++ [(x.wid, f.sd.toNat)] })) x
          (.enq v f.sd.toNat (f.imm == 1) ws)
      else (.advance, modWarp s x.wid (fun w => swrite w f.sd.toNat 0))

/-- The parts of a launch record, page by page (R380, R382, R385): bytes with their poison. -/
def recordParts (core ctx cls : Nat) : List (Nat × Nat) → State → List (List Byte × Bool) × State
  | [], s => ([], s)
  | (pa, n) :: l, s =>
    let r := masterBytes s (dieOfCore core) (if cls = 3 then devPort s pa else core % 96) (masterOf s ctx cls) (some ctx) pa n
    let t := recordParts core ctx cls l r.2.2
    ((r.1, r.2.1) :: t.1, t.2)

/-- A launch record as its reader finds it at a virtual address: the cause, address and ETVAL of a fault, else the bytes; none where
some are poisoned. A denial is PERM to LAUNCH, and to a queue engine as any other denied read (R385). -/
def readRecord (s : State) (core ctx cls va : Nat) : Except (Nat × Nat × Nat) (Option (List Byte)) × State :=
  let pages := pagesOf 3 va 384
  let t := pages.foldl (fun s p => cacheVa s core ctx p.1) s
  match firstFault (pages.filterMap (fun p => match xlate s core ctx p.1 true false false with
      | .error e => some (p.1, e)
      | .ok _ => none)) with
  | some e => (.error (e.2.1, e.1, e.2.2), t)
  | none =>
    let parts := pages.filterMap (fun p => match xlatePa s core ctx p.1 true false false with
      | .error _ => none
      | .ok (pa, _) => some (pa, p.2))
    let denied := fun (p : Nat × Nat) => (routedParts s p.1 p.2).any (fun c => !permits s (masterOf s ctx cls) c.1 true false)
    if cls = 0 ∧ parts.any denied then (.error (cPERM, va, 0), t)
    else
      let r := recordParts core ctx cls parts t
      (.ok (if r.1.any Prod.snd then none else some (r.1.flatMap Prod.fst)), r.2)

/-- Whether a cooperative record would be placed whole on what is free now (R371). -/
def tryFits (s : State) (die ctx prio : Nat) (r : List Byte) : Bool :=
  let t := enterLaunch s die ctx prio r none true
  ((tget t.2.grids t.1).map (fun g => fitsWhole t.2 die t.1 g)).getD false

/-- The pass that LAUNCH.try of a cooperative record makes (R370, R371, R374), behind the halves that the peer distributor has sent:
whether it placed the grid, which else leaves the list. -/
def tryWhole (s : State) (die gid : Nat) : Bool × State :=
  let s := placementPass (takeHalves s (1 - die)) die
  match (dieOf s die).launches.find? (fun l => l.grid == gid), tget s.grids gid with
  | some l, some g => (false, notAdmitted s die l g)
  | _, g => (g.isSome, s)

/-- LAUNCH (R149, R367, R371): after its release. A cooperative record that does not fit gives 2 even where the list is full
(DESIGN CHOICE, log 94). -/
def execLaunch (f : UB) (s : State) : Host.Outcome State Fault Refusal :=
  issue (.launch f) s fun x s =>
    let va := spair x.w f.sa.toNat
    let die := dieOfCore x.w.core
    let give := fun (s : State) (v : Word) => (Verdict.advance, modWarp s x.wid (fun w => swrite w f.sd.toNat v))
    if va % 64 ≠ 0 then (.trap ⟨cALIGN, x.b.lanes, va, 64, false, false⟩, s)
    else
      let r := readRecord s x.w.core x.ctx 0 va
      match r.1 with
      | .error (code, a, etval) => (.trap ⟨code, x.b.lanes, a, etval, decide (code = cPAGE), false⟩, r.2)
      | .ok bytes =>
        match poisOf x r.2 with
        | some r => r
        | none =>
          let s := dropDescs r.2 x.wid
          let rec_ := bytes.getD []
          let prio := (((blockOf s x.w).bind (gridOfBlock s)).map (fun g => g.2.prio)).getD 0
          let full := decide (64 ≤ (dieOf s die).launches.length)
          if recordRefused s die rec_ false then give s 1
          else if f.sub == 1 then
            if full then parkAll s x (.launch f.sd.toNat va)
            else give (enterLaunch s die x.ctx prio rec_ none false).2 0
          else if full then give s (if recCoop rec_ && !tryFits s die x.ctx prio rec_ then 2 else 3)
          else
            let t := enterLaunch s die x.ctx prio rec_ none (recCoop rec_)
            if !recCoop rec_ then give t.2 0
            else
              let r := tryWhole t.2 die t.1
              give r.2 (if r.1 then 0 else 2)

/-- CCNT after completions (R364): it counts every completed packet that no open one precedes. -/
def countDone (x : Queue) : Queue :=
  let done := x.completed.filter (fun i => x.started.all (fun p => decide (i < p.idx)))
  { x with
    completed := x.completed.filter (fun i => !done.contains i)
    ccnt := (x.ccnt + done.length) % 2 ^ 32 }

/-- A started packet has completed (R364). -/
def completePacket (s : State) (q idx : Nat) : State :=
  modQueue s q (fun x =>
    countDone { x with started := x.started.filter (fun p => p.idx != idx), completed := idx :: x.completed })

/-- A packet that could not be carried out (R363): BADP and a record of type 0x0A with its index (DEDUCED, log 41). -/
def badPacket (s : State) (q idx : Nat) : State :=
  let s := modQueue s q (fun x => { x with badp := true })
  report s (q / 256) ⟨0x0A, 1, some (queueOf s q).ctx, none, ⟨6, q⟩, q, idx % 8192⟩

/-- Whether the head of a queue may start (R363). -/
def startable (s : State) (q : Nat) : Bool :=
  let x := queueOf s q
  let p := (readPacket s q x.head).1
  x.en && !x.mode && decide (0 < queueCount x) && !x.started.any (fun k => recField k.bytes 0 1 == 2)
    && (!bit (recField p 0 4) 8 || x.started.isEmpty)

/-- The queue whose head the engine of a die starts next (R363): highest PRIO, then round robin after the last. -/
def nextQueue (s : State) (die : Nat) : Option Nat :=
  let last := (dieOf s die).lastQueue
  let qs := ((List.range 256).map (fun i => 256 * die + (last + 1 + i) % 256)).filter (startable s)
  qs.foldl (fun (acc : Option Nat) q =>
    match acc with
    | none => some q
    | some a => if (queueOf s a).prio < (queueOf s q).prio then some q else some a) none

/-- Starts the head packet of a queue: HEAD advances (R363). Poisoned bytes of a packet count as they are stored (DESIGN CHOICE,
log 128). -/
def startPacket (s : State) (q : Nat) : Packet × State :=
  let x := queueOf s q
  let r := readPacket s q x.head
  let p : Packet := ⟨x.next, x.ctx, r.1, 0, none, none, none⟩
  let s := modQueue r.2.2 q (fun x => { x with head := (x.head + 1) % 8192, next := x.next + 1, started := x.started ++ [p] })
  (p, serveQueue (modDie s (q / 256) (fun d => { d with lastQueue := q % 256 })) q)

/-- Changes a started packet. -/
def modPacket (s : State) (q idx : Nat) (f : Packet → Packet) : State :=
  modQueue s q (fun x => { x with started := x.started.map (fun p => if p.idx == idx then f p else p) })

/-- The type of the packet at a queue's head, when it is this queue's turn. -/
def headType (s : State) (q : Nat) : Option Nat :=
  if nextQueue s (q / 256) = some q then some (recField (readPacket s q (queueOf s q).head).1 0 1) else none

/-- The reserved fields of types 1 to 3 (R362): bytes 4 to 7 and the rest of the table, NOWAIT outside KLAUNCH, [15:10]; a KLAUNCH's ARG
counts as one (DESIGN CHOICE, log 126). -/
def packetOk (p : List Byte) : Bool :=
  let h := recField p 0 4
  let zero := fun off n => recField p off n == 0
  bits h 10 6 == 0 && zero 4 4 &&
    (match h % 256 with
     | 1 => bits h 16 16 == 0 && zero 0x18 40 && recField p 8 8 % 64 == 0
     | 2 => !bit h 9 && decide (bits h 16 16 < 512) && zero 0x0C 52
     | 3 =>
       let op := bits h 16 3
       !bit h 9 && bits h 19 13 == 0 && decide (op ≤ 4) && zero 0x28 24
         && (op == 4 || zero 0x18 8) && (op == 3 || zero 0x20 8)
         && (op != 3 || (zero 8 8 && bits (recField p 0x20 8) 31 1 == 0 && bits (recField p 0x20 8) 38 26 == 0))
     | _ => true)

/-- A context that takes no packets (R388). -/
def ctxClosed (s : State) (c : Nat) : Bool := !bit (ctxOf s c).cctl.toNat 0 || bit (ctxOf s c).cstat.toNat 0

/-- The core through which a queue's engine translates (the model's own: the engine has no translation cache). -/
def engineCore (q : Nat) : Nat := 96 * (q / 256)

/-- KLAUNCH (R363): the head packet starts; its record is read and checked, and the launch enters the list, before which it
waits while the list is full. One with invalid fields completes at once (R389). -/
def execKlaunch (q : Nat) (s : State) : Host.Outcome State Fault Refusal :=
  if headType s q ≠ some 1 then .next s
  else
    let die := q / 256
    let ctx := (queueOf s q).ctx
    let (p, s1) := startPacket s q
    if !packetOk p.bytes then .next (badPacket (restartWatchdog (completePacket s1 q p.idx) ctx) q p.idx)
    else
      let stop := fun (s : State) (st : Nat) => Host.Outcome.next (modPacket s q p.idx (fun k => { k with stage := st }))
      if ctxClosed s1 ctx then stop s1 3
      else
        let r := readRecord s1 (engineCore q) ctx 3 (recField p.bytes 8 8 % 2 ^ 57)
        match r.1 with
        | .error _ => stop (badPacket r.2 q p.idx) 1
        | .ok none => stop r.2 1
        | .ok (some rec_) =>
          if recordRefused r.2 die rec_ true then stop r.2 1
          else
            let t := enterLaunch r.2 die ctx (queueOf s q).prio rec_ (some (q, p.idx)) (bit (recField p.bytes 0 4) 9)
            .next (modPacket t.2 q p.idx (fun k => { k with grid := some t.1 }))

/-- WAITON (R363): the head packet starts and holds the later ones back. -/
def execWaiton (q : Nat) (s : State) : Host.Outcome State Fault Refusal :=
  if headType s q ≠ some 2 then .next s
  else
    let (p, s) := startPacket s q
    if packetOk p.bytes then .next s else .next (badPacket (completePacket s q p.idx) q p.idx)

/-- WAITON_SATISFIED (R363): the target's count has reached VALUE. -/
def execWaitonSatisfied (q idx : Nat) (s : State) : Host.Outcome State Fault Refusal :=
  match (queueOf s q).started.find? (fun p => p.idx == idx) with
  | none => .next s
  | some p =>
    let t := bits (recField p.bytes 0 4) 16 16
    let ahead := ((queueOf s t).ccnt + 2 ^ 32 - recField p.bytes 8 4) % 2 ^ 32
    if recField p.bytes 0 1 = 2 ∧ ahead < 2 ^ 31 then .next (completePacket s q idx) else .next s

/-- WORK and the types 5 to 255 in an engine queue (R363): complete at once with BADP and a record. -/
def execWork (q : Nat) (s : State) : Host.Outcome State Fault Refusal :=
  match headType s q with
  | some t =>
    if t = 1 ∨ t = 2 ∨ t = 3 then .next s
    else
      let (p, s) := startPacket s q
      .next (badPacket (completePacket s q p.idx) q p.idx)
  | none => .next s

/-- Whether a grid's writes have all been acknowledged (R363): its warps, which have returned their slots, and its
copies. -/
def gridQuiet (s : State) (gid : Nat) : Bool :=
  let mine := fun (b : Nat) => ((tget s.blocks b).bind (fun k => (tget s.clusters k.cluster).map (·.grid))) == some gid
  !s.warps.any (fun e => mine e.2.block)
    && !s.net.groups.any (fun e => ((tget s.warps e.2.warp).map (fun w => mine w.block)).getD false)
    && !s.net.copies.any (fun e => mine e.2.block)

/-- The status word of a KLAUNCH (R364): a fault sets BADP and writes nothing (R397) (DEDUCED, log 79). Where it goes to MMIO or to
a peer package the packet waits for it. -/
def writeStatus (s : State) (q idx ctx : Nat) (va status : Nat) : State :=
  if va = 0 then s
  else if va % 4 ≠ 0 then badPacket s q idx
  else
    let core := engineCore q
    let t := cacheVa s core ctx (va % 2 ^ 57)
    match xlate s core ctx (va % 2 ^ 57) false true false with
    | .error _ => badPacket t q idx
    | .ok (pa, _) =>
      let r := engineWrite t q ctx pa (toBytes 4 status)
      match r.1 with
      | none => r.2
      | some g => modPacket r.2 q idx (fun p => { p with grp := some g })

/-- Whether the status word of a KLAUNCH is still under way. -/
def statusAway (s : State) (p : Packet) : Bool := (p.grp.map (fun g => s.net.cpw.any (fun e => e.grp == g))).getD false

/-- A KLAUNCH ends with a status (R364): the status word is performed before CCNT counts the packet. -/
def endKlaunch (s : State) (q : Nat) (p : Packet) (st : Nat) : State :=
  let t := if p.grp.isSome then s else writeStatus s q p.idx p.ctx (recField p.bytes 0x10 8) st
  match (queueOf t q).started.find? (fun x => x.idx == p.idx) with
  | none => t
  | some x => if statusAway t x then t else restartWatchdog (completePacket t q p.idx) p.ctx

/-- KLAUNCH_COMPLETE (R363, R364): every block of the grid has ended and its writes are acknowledged, or the packet has a
status already. -/
def execKlaunchComplete (q idx : Nat) (s : State) : Host.Outcome State Fault Refusal :=
  match (queueOf s q).started.find? (fun p => p.idx == idx) with
  | none => .next s
  | some p =>
    if recField p.bytes 0 1 ≠ 1 then .next s
    else
      if p.stage ≠ 0 ∨ p.grp.isSome then .next (endKlaunch s q p p.stage)
      else match p.grid.bind (fun g => (tget s.grids g).map (fun r => (g, r))) with
        | none => .next s
        | some (gid, g) =>
          if g.ended = recGrid g.record * recCsize g.record ∧ gridQuiet s gid then
            let dead := (s.clusters.filter (fun e => e.2.grid == gid)).map Prod.fst
            .next (endKlaunch { s with
              grids := terase s.grids gid
              clusters := s.clusters.filter (fun e => e.2.grid != gid)
              blocks := s.blocks.filter (fun e => !dead.contains e.2.cluster) } q p 0)
          else .next s

end Sys2Proof.Machine
end

