-- ==== Sys2Proof/Machine/Slice.lean ====
section
/-! DEFINITION. The global memory system on its way from a warp to a home and back (R281 to R309, R317 to R337): the core
store order, the bay write window, loads, gap fills, leases, splice buffers, flushes and acknowledgements. The accesses to
MMIO and to peer packages join them in Machine/Memory.lean. -/

namespace Sys2Proof.Machine

/-- The packet with an identity: of a bay's write window, of the STNTs, or of the copies and SIGNALs. -/
def findEnt (s : State) (id : Nat) : Option WinEnt :=
  match (s.bays.flatMap (·.window)).find? (fun e => e.id == id) with
  | some e => some e
  | none => (s.net.nts ++ s.net.cpw).find? (fun e => e.id == id)

/-- A packet retires. -/
def dropEnt (s : State) (id : Nat) : State := mapEnts s (fun l => l.filter (fun e => e.id != id))

/-- An earlier load of the warp has not been performed (R285). -/
def loadBefore (s : State) (wid id : Nat) : Bool :=
  s.net.loads.any (fun e => e.2.warp == wid && decide (e.1 < id) && e.2.atom.isNone && !allPerformed e.2)

/-- Whether a bay's write window takes `n` more pieces (R286). -/
def windowRoom (s : State) (bay n : Nat) : Bool :=
  decide ((bayOf s bay).window.foldl (fun acc e => acc + e.pieces.length) 0 + n ≤ 1024)

/-- The pieces of an access enter the bay write window, those of one grain as one packet (R286, R323). -/
def enterWindow (s : State) (core wid grp : Nat) (kind : WKind) (ps : List Piece) : State :=
  (packetsOf ps).foldl (fun s p =>
    let (id, s) := nextId s
    let (port, s) := entPort s core false p.1
    let e : WinEnt := ⟨id, core, wid, grp, kind, p.1, p.2, false, false, 0, false, port, none, false, false⟩
    modBay s (bayOfCore core) (fun b => { b with window := b.window ++ [e] })) s

/-- Every piece of a write has entered the window: CW.cls falls for a global write (R288) (DEDUCED, log 64). -/
def enterGroup (s : State) (grp : Nat) : State :=
  match tget s.net.groups grp with
  | none => s
  | some g =>
    let s := modNet s (fun n => { n with groups := tput n.groups grp { g with toEnter := 0, cw := { g.cw with cls := false } } })
    if g.cw.cls then
      noteRelease (modWarp s g.warp (fun w => { w with cwCls := w.cwCls - 1 })) g.warp
    else s

/-- The head of a warp's store queue leaves it. -/
def popStore (s : State) (wid : Nat) : State := modWarp s wid (fun w => { w with storeQ := w.storeQ.drop 1 })

/-- CORE_STORE_ORDER_SEND (R284): the head of a warp's store queue goes to the window or to the crossbar, once the warp's
earlier loads are performed (R285) and the window has room. -/
def execCoreStoreOrderSend (core warp : Nat) (s : State) : Host.Outcome State Fault Refusal :=
  match tget s.warps warp with
  | none => .next s
  | some w =>
    match if w.core = core then w.storeQ.head? else none with
    | none => .next s
    | some (.port m) =>
      if loadBefore s warp m then .next s
      else match tget s.net.ports m with
        | none => .next (popStore s warp)
        | some msg =>
          let (id, s) := nextId s
          .next (popStore (modNet s (fun n => { n with
            ports := tput (terase n.ports m) id { msg with id := id, queued := false, sent := id } })) warp)
    | some (.global grp kind ps) =>
      if loadBefore s warp grp || !windowRoom s (bayOfCore core) ps.length then .next s
      else .next (popStore (enterGroup (enterWindow s core warp grp kind ps) grp) warp)

/-- What a load finds (R285, R286, R322). -/
inductive Served where
  | wait
  | got (bs : List Byte) (pois : Bool)
  /-- No store of its own side holds the bytes: the address is served by the memory system. -/
  | memory
  deriving DecidableEq, Repr

/-- Whether a piece and `n` bytes from `a` share a byte. -/
def meets (p : Piece) (a n : Nat) : Bool := decide (p.addr < a + n) && decide (a < p.addr + p.data.length)

/-- A load against the earlier stores of its warp's queue (R285), youngest first. -/
def fromQueue (id a n : Nat) (q : List StoreEnt) : Served :=
  let ps := q.flatMap (fun e => match e with
    | .global grp k l => if grp < id then l.map (fun p => (k == WKind.store, p)) else []
    | .port _ => [])
  match (ps.filter (fun e => meets e.2 a n)).getLast? with
  | none => .memory
  | some (plain, p) => if plain && p.addr == a && p.data.length == n then .got p.data false else .wait

/-- A load against the live entries of its bay's write window (R286). -/
def fromWindow (a n : Nat) (win : List WinEnt) : Served :=
  let ps := (win.filter (fun e => !e.retired)).flatMap (fun e => e.pieces.map (fun p => (e.kind == WKind.store, p)))
  let hit := ps.filter (fun e => meets e.2 a n)
  match hit.getLast? with
  | none => .memory
  | some (_, p) => if hit.all (fun e => e.1 && e.2.addr == a && e.2.data.length == n) then .got p.data false else .wait

/-- Whether a bay's window holds an entry in a grain (R299). -/
def windowHas (s : State) (bay g : Nat) : Bool := (bayOf s bay).window.any (fun e => e.grain == g && !e.retired)

/-- Whether an access that waits at a slice still exists. -/
def accessLives (s : State) (id : Nat) : Bool :=
  (tget s.net.reqs id).isSome || (findEnt s id).isSome || (tget s.net.partials id).isSome
    || s.slices.any (fun y => y.fills.any (fun f => f.id == id))

/-- Whether an access may be served at a slice: no other came to the grain before it and waits there (R324, R335). -/
def atTurn (s : State) (k g id : Nat) : Bool :=
  (((sliceOf s k).queue.filter (fun q => q.1 == g)).takeWhile (fun q => q.2 != id)).all (fun q => !accessLives s q.2)

/-- An access waits at a slice for a grain, in the order of arrival. -/
def waitAt (s : State) (k g id : Nat) : State :=
  if (sliceOf s k).queue.contains (g, id) then s else modSlice s k (fun y => { y with queue := y.queue ++ [(g, id)] })

/-- An access waits no more for a grain. -/
def leaveAt (s : State) (k g id : Nat) : State := modSlice s k (fun y => { y with queue := y.queue.filter (fun q => q != (g, id)) })

/-- An access waits for the recall of a grain's splice partials (R335): the recall begins. -/
def callSplice (s : State) (k g : Nat) : State :=
  modSlice s k (fun y => { y with splice := y.splice.map (fun d => if d.grain == g then { d with called := true } else d) })

/-- Bytes of one grain that a home slice holds, with poison. -/
def presentBytes (s : State) (k a n : Nat) : List Byte × Bool :=
  match findBlk s k false a with
  | none => ([], false)
  | some b => (bytesAt b.data (a % 512) n, b.pois.getLsbD (a % 512 / 32))

/-- A lease copy of a grain, as a proxy holds it. -/
def leaseBytes (s : State) (k a n : Nat) : Option (List Byte × Bool × Nat) :=
  (findBlk s k true a).map (fun b => (bytesAt b.data (a % 512) n, b.pois.getLsbD (a % 512 / 32), b.began))

/-- Changes a request. -/
def modReq (s : State) (id : Nat) (f : L2Req → L2Req) : State := modNet s (fun n => { n with reqs := tmod n.reqs id f })

/-- The home has served grains of a request to a die that holds them under lease: the copies are replaced and their lease restarts
(R299, R328) (DEDUCED, log 57). -/
def refreshLease (s : State) (r : L2Req) (m : BitVec 16) : State :=
  let die := dieOfCore r.core
  match homeOf s (r.region * 512) with
  | none => s
  | some k =>
    let q := 64 * die + k % 64
    let at' := fun (g : Nat) => r.region * 512 + 32 * g
    let m := if k / 64 = die then 0
      else maskOfGrains ((grainsOfMask m).filter (fun g => grainPresent s q true (at' g) && grainPresent s k false (at' g)))
    if m = 0 then s
    else
      let f : Fill := ⟨0, r.region, m, true, r.core % 96, 0, s.clock, none, [], 0, 0⟩
      let data := gatherGrains r.region m (storedByte s)
      let pois := maskOfGrains ((grainsOfMask m).filter (fun g => homePois s (at' g)))
      let s := (grainsOfMask m).foldl (fun s g => cutLease s q (at' g)) s
      (installAll q (fillBlks s f m data pois (s.clock + 4096)) s).getD s

/-- The grains that a request fills at a slice (R156, R322, R325): with SPAN 0 the predictor says how many, from the first grain
that the request touches; a request that has asked once asks again for what it touches only. -/
def fillOf (s : State) (r : L2Req) (slice port : Nat) : BitVec 16 :=
  if r.sent then r.touched
  else
    let f := r.region * 512 + 32 * ((grainsOfMask r.touched).headD 0)
    fillRange r.touched (if r.span = 0 then predictSpan s slice f port else r.span)

/-- A request asks a slice for its fills. -/
def askFills (s : State) (r : L2Req) (slice : Nat) (lease : Bool) (port : Nat) : State :=
  modReq (startFills s slice r.region lease port r.port (fillOf s r slice port)) r.id (fun r => { r with sent := true })

/-- A load served by the home slice `k` (R322, R324, R335): in its turn, a recall, a hit, or a gap fill to wait for. -/
def fromHome (s : State) (r : L2Req) (k a n : Nat) : Served × State :=
  let g := a / 32
  if !atTurn s k g r.id then (.wait, waitAt s k g r.id)
  else if (spliceOf s k g).isSome then (.wait, callSplice (waitAt s k g r.id) k g)
  else if grainPresent s k false a then
    let v := presentBytes s k a n
    (.got v.1 v.2, modReq (touchBlk s k false a) r.id (fun r => { r with home := r.home ||| runMask (g % 16) 1 }))
  else (.wait, askFills (waitAt s k g r.id) r k false r.port)

/-- A load served by the L2 (R318, R322, R328): by the home of its own die; else by a lease copy of the proxy that began no
earlier than the warp's last acquire, unless the bay's window holds an entry in the grain. -/
def fromSlices (s : State) (r : L2Req) (acq k a n : Nat) : Served × State :=
  let die := dieOfCore r.core
  let q := 64 * die + k % 64
  if k / 64 = die || windowHas s (bayOfCore r.core) (a / 32) || (sliceOf s q).fenced then fromHome s r k a n
  else match leaseBytes s q a n with
    | some (bs, p, began) => if acq ≤ began then (.got bs p, touchBlk s q true a) else fromHome s r k a n
    | none => (.wait, askFills s r q true (r.core % 96))

/-- A prefetch at its slice (R176): it starts fills. -/
def prefetchAt (s : State) (r : L2Req) : State :=
  match homeOf s (r.region * 512 + 32 * ((grainsOfMask r.touched).headD 0)) with
  | none => s
  | some k =>
    let die := dieOfCore r.core
    let lease := k / 64 != die
    let q := if lease then 64 * die + k % 64 else k
    if (sliceOf s q).fenced then s else askFills s r q lease (r.core % 96)

/-- A request that its slices have served is gone; what the home has served restarts leases, and a grain
keeps the request in its queue only for lanes that wait there, not for those that a store of their own side holds back (R286, R300). -/
def endVisit (s : State) (r : L2Req) (left : List LanePart) : State :=
  let home := ((tget s.net.reqs r.id).map (·.home)).getD 0
  let came := ((tget s.net.reqs r.id).map (·.came)).getD 0
  let stays := (left.filter (fun p => came &&& laneBit p.lane != 0)).map (fun p => routed s p.addr / 32)
  let s := refreshLease (modReq s r.id (fun r => { r with home := 0 })) r home
  match homeOf s (r.region * 512) with
  | none => s
  | some k => (grainsOfMask r.touched).foldl (fun s g =>
      if stays.contains (16 * r.region + g) then s else leaveAt s k (16 * r.region + g) r.id) s

/-- Removes a request. -/
def dropReq (s : State) (id : Nat) : State := modNet s (fun n => { n with reqs := terase n.reqs id })

/-- The value of one part of a load. -/
def setPart (s : State) (load lane : Nat) (bs : List Byte) (p : Bool) : State :=
  modLoad s load (fun l => { l with parts := l.parts.map (fun x =>
    if x.lane == lane then { x with value := some bs, pois := p } else x) })

/-- The slice that holds a fill, and the fill. -/
def findFill (s : State) (id : Nat) : Option (Nat × Fill) :=
  (s.slices.zipIdx).findSome? (fun y => (y.1.fills.find? (fun f => f.id == id)).map (fun f => (y.2, f)))

/-- A gap fill from memory arrives at its home slice (R324); `bad` grains have an uncorrectable error. -/
def fillHome (s : State) (k : Nat) (f : Fill) (bad : BitVec 16) : Option State :=
  let s := dropFill s k f.id
  let m := (grainsOfMask (f.grains &&& bad)).filter (fun g =>
    !grainPresent s k false (f.region * 512 + 32 * g) && homeOf s (f.region * 512 + 32 * g) == some k)
  fillGrains (m.foldl (fun s g => uncorrectedGrain s (f.region * 512 + 32 * g)) s) k f

/-- The home serves a lease fill (R299, R324, R328): each grain in its turn, present there and its partials combined; none while
one is not, with the state in which it is under way. -/
def serveLease (s : State) (f : Fill) : Option State × State :=
  (grainsOfMask f.grains).foldl (fun (r : Option State × State) g =>
    let a := f.region * 512 + 32 * g
    match homeOf r.2 a with
    | none => r
    | some k =>
      if !atTurn r.2 k (a / 32) f.id then (none, waitAt r.2 k (a / 32) f.id)
      else if (spliceOf r.2 k (a / 32)).isSome then (none, callSplice (waitAt r.2 k (a / 32) f.id) k (a / 32))
      else if grainPresent r.2 k false a then
        let t := touchBlk r.2 k false a
        (r.1.map (fun _ => t), t)
      else (none, startFills (waitAt r.2 k (a / 32) f.id) k f.region false f.seam f.seam f.grains)) (some s, s)

/-- A lease fill that its home has served waits there no more. -/
def leaveLease (s : State) (f : Fill) : State :=
  (grainsOfMask f.grains).foldl (fun s g => match homeOf s (f.region * 512) with
    | none => s
    | some k => leaveAt s k (16 * f.region + g) f.id) s

/-- A lease fill arrives at its proxy (R299, R324): stale grains are discarded, older copies of the others replaced. -/
def fillLease (s : State) (k : Nat) (f : Fill) (at' : Nat) : Option State :=
  let m := f.grains &&& ~~~f.stale
  let s1 := (grainsOfMask m).foldl (fun s g => cutLease s k (f.region * 512 + 32 * g)) (dropFill s k f.id)
  installAll k (fillBlks s1 f m (f.data.filter (fun d => m.getLsbD (d.1 / 32))) (f.pois &&& m) (at' + 4096)) s1

/-- GAP_FILL_ARRIVAL (R324, R328): a fill's data arrives; a lease fill is first served by its home. -/
def execGapFillArrival (id : Nat) (bad : BitVec 16) (s : State) : Host.Outcome State Fault Refusal :=
  match findFill s id with
  | none => .next s
  | some (k, f) =>
    if (homeOf s (f.region * 512 + 32 * ((grainsOfMask f.grains).headD 0))).isNone then .next (dropFill s k id)
    else if !f.lease then .next ((fillHome s k f bad).getD s)
    else match f.served with
      | some t => .next ((fillLease s k f t).getD s)
      | none => match serveLease s f with
        | (none, t) => .next t
        | (some t, _) =>
          let data := gatherGrains f.region f.grains (homeByte t)
          let pois := (grainsOfMask f.grains).foldl (fun (acc : BitVec 16) g =>
            if homePois t (f.region * 512 + 32 * g) then acc ||| runMask g 1 else acc) 0
          .next (modSlice (leaveLease t f) k (fun y => { y with fills := y.fills.map (fun x =>
            if x.id == id then { x with served := some t.clock, data := data, pois := pois } else x) }))

/-- The requester port at which a load's responses come back, and whether each of its lanes has one (R312, R313). -/
def loadPort (s : State) (l : PLoad) : Option Nat := (tget s.warps l.warp).map (fun w => w.core)
def allResponded (l : PLoad) : Bool := allPerformed l && l.resps.length == l.parts.length && !l.scratch

/-- The die from which a knot request comes. -/
def knotDie (s : State) (r : KnotReq) : Nat :=
  match r.taker, r.warp.bind (tget s.warps) with
  | .signal q _, _ => q / 256
  | _, some w => dieOfCore w.core
  | _, none => 0

/-- The requester port of a knot request (R312): its core's; the device itself comes by a hub port. -/
def knotPort (s : State) (r : KnotReq) : Nat :=
  match r.warp.bind (tget s.warps) with
  | some w => w.core % 96
  | none => devPort s r.krec

/-- Whether every response of `a` was sent before one of `b` by the same slice: at one port those come first (R313). -/
def respFirst (a b : List (Nat × Nat)) : Bool := a.all (fun x => b.any (fun y => y.1 == x.1 && decide (x.2 < y.2)))

/-- The response of a packet that a slice of its own die has performed, with the port to which it goes (R312, R313): none of a REDG
that its bay answers. -/
def entResp (s : State) (e : WinEnt) : Option (Nat × Nat × Nat) :=
  match homeOf s (32 * e.grain) with
  | some k => if e.performed ∧ !e.byBay ∧ k / 64 = dieOfCore e.core then some (e.port, k, e.stamp) else none
  | none => none

/-- The reply to a knot request under way from a slice of its own die, with the port to which it goes (R312, R313). -/
def knotResp (s : State) (r : KnotReq) : Option (Nat × Nat × Nat) :=
  match r.reply, homeOf s r.krec with
  | some (_, t), some k => if k / 64 = knotDie s r then some (knotPort s r, k, t) else none
  | _, _ => none

/-- Every packet under way. -/
def allEnts (s : State) : List WinEnt := s.bays.flatMap (·.window) ++ s.net.nts ++ s.net.cpw

/-- Whether responses to a port of a die come after others that have not arrived (R313). -/
def respBehind (s : State) (die port : Nat) (rs : List (Nat × Nat)) : Bool :=
  (allEnts s).any (fun e => dieOfCore e.core == die && (match entResp s e with
      | some (p, k, t) => p == port && respFirst [(k, t)] rs
      | none => false))
    || s.net.knots.any (fun e => knotDie s e.2 == die && (match knotResp s e.2 with
      | some (p, k, t) => p == port && respFirst [(k, t)] rs
      | none => false))
    || s.net.loads.any (fun e => (loadPort s e.2).any (fun c => dieOfCore c == die && c % 96 == port)
        && allResponded e.2 && respFirst e.2.resps rs)

/-- LOAD_RETURN (R156, R167, R313): a load or atomic whose every part is performed is written, in the order of its port's responses. -/
def execLoadReturn (id : Nat) (s : State) : Host.Outcome State Fault Refusal :=
  match tget s.net.loads id with
  | none => .next s
  | some l =>
    let behind := (loadPort s l).any (fun c => respBehind s (dieOfCore c) (c % 96) l.resps)
    if allPerformed l && !behind then .next (returnLoad s l) else .next s

/-- LEASE_EXPIRY (R320). -/
def execLeaseExpiry (slice : Nat) (s : State) : Host.Outcome State Fault Refusal := .next (purgeExpired s slice)

/-- The master id of a packet (R383): the one it names, a copy's, or a warp's. -/
def entMaster (s : State) (e : WinEnt) : Nat × Option Nat :=
  match e.actor with
  | some (cls, ctx) => (masterOf s ctx cls, some ctx)
  | none => match tget s.net.copies e.grp with
    | some c => (masterOf s c.ctx 1, some c.ctx)
    | none => match tget s.warps e.warp with
      | some w => (masterOf s (ctxOfWarp s w) 0, some (ctxOfWarp s w))
      | none => (0, none)

/-- Whether a packet reads as well as writes (R384). -/
def entAtomic (e : WinEnt) : Bool := match e.kind with | .redg _ | .atomic _ => true | _ => false

/-- The part of an atomic at one element of a present grain (R166): nothing changes when the grain is poisoned. -/
def atomAtHome (s : State) (k : Nat) (op : AtomOp) (p : LanePart) : State × LanePart :=
  let n := atomBytes op.ty
  let v := presentBytes s k p.addr n
  if v.2 then (s, { p with value := some v.1, pois := true })
  else
    let y := atomApply op.aop op.ty (ofBytes v.1) (ofBytes p.operand) (ofBytes p.swap)
    (blkWrite s k p.addr [⟨p.addr, toBytes n y⟩] false, { p with value := some v.1, pois := false })

/-- The parts of an atomic in one grain, in ascending lane order. -/
def atomsAtHome (k : Nat) (op : AtomOp) : List LanePart → State → State × List LanePart
  | [], s => (s, [])
  | p :: ps, s =>
    let r := atomAtHome s k op p
    let q := atomsAtHome k op ps r.1
    (q.1, r.2 :: q.2)

/-- A REDG's pieces at a present grain (R168, R323): discarded, with a record, when it is poisoned (R432); a SIGNAL's addition is
discarded with no record, as an atomic (R363, R432). -/
def redgAtHome (s : State) (k : Nat) (op : AtomOp) (mid : Nat) (e : WinEnt) : State :=
  let n := atomBytes op.ty
  if (presentBytes s k (32 * e.grain) 0).2 then
    if (e.actor.map Prod.fst) == some 3 then s
    else report s (k / 64) ⟨0x03, 1, none, some (32 * e.grain, false), noUnit, mid, 0⟩
  else e.pieces.foldl (fun s p =>
    let x := ofBytes (presentBytes s k p.addr n).1
    blkWrite s k p.addr [⟨p.addr, toBytes n (atomApply op.aop op.ty x (ofBytes p.data) 0)⟩] false) s

/-- A packet applied at its home slice (R323): none while it waits for a fill, with the state in which that is under way. -/
def applyEnt (s : State) (k mid : Nat) (e : WinEnt) : Option State × State :=
  let a := 32 * e.grain
  let full := coversGrain e.pieces e.grain
  let here := grainPresent s k false a
  let stain := fun (s : State) => if e.pois then poisonHome s a else s
  let fill := fun (_ : Unit) => ((none : Option State), startFills s k (a / 512) false e.port e.port (runMask (a % 512 / 32) 1))
  match e.kind with
  | .nt =>
    let t := e.pieces.foldl (fun s p => putGrain s p.addr p.data) s
    (some (if full then (match findBlk t k false a with
      | some b => putBlk t k b { b with pois := b.pois &&& ~~~(runMask (a % 512 / 32) 1) }
      | none => markWritten t e.grain false) else t), s)
  | .store =>
    if here then (some (stain (blkWrite s k a e.pieces full)), s)
    else if full then ((installBlk s k (fullBlk s e.grain e.port e.pieces)).map stain, s)
    else fill ()
  | .atomic l =>
    if !here then fill ()
    else match tget s.net.loads l with
      | none => (some s, s)
      | some p => match p.atom with
        | none => (some s, s)
        | some op =>
          let r := atomsAtHome k op (p.parts.filter (fun x => x.addr / 32 == e.grain)) s
          (some (modLoad r.1 l (fun p => { p with
            parts := p.parts.map (fun x => (r.2.find? (fun y => y.lane == x.lane)).getD x) })), s)
  | .redg op => if here then (some (redgAtHome s k op mid e), s) else fill ()

/-- Whether a packet does not wait for a fill (R323): a plain write of all 32 bytes, or a STNT. What is queued on a grain is served in
order of arrival once the grain is present (R324). -/
def passesFill (e : WinEnt) : Bool := match e.kind with | .store => coversGrain e.pieces e.grain | .nt => true | _ => false

/-- The response of an atomic's packet carries the values of its lanes in the grain (R313). -/
def respondEnt (s : State) (k : Nat) (e : WinEnt) : State :=
  match e.kind with
  | .atomic l =>
    if k / 64 = dieOfCore e.core then
      modLoad s l (fun p => { p with resps := p.resps ++ (p.parts.filter (fun x => x.addr / 32 == e.grain)).map (fun _ => (k, s.fresh)) })
    else s
  | _ => s

/-- A packet at a backed home: the reel job's copy goes first, then, in its turn, the recall of partials; a store into a knot
record leaves free bytes there (R181, R324, R335, R445). The packet is performed, or waits. -/
def homeWriteAt (s : State) (k mid : Nat) (e : WinEnt) : State :=
  let s := reelHook s (32 * e.grain)
  let held := (spliceOf s k e.grain).isSome
  if !(atTurn s k e.grain e.id || (passesFill e && !held && !grainPresent s k false (32 * e.grain))) then waitAt s k e.grain e.id
  else if held then callSplice (waitAt s k e.grain e.id) k e.grain
  else match applyEnt s k mid e with
    | (none, t) => waitAt t k e.grain e.id
    | (some t, _) =>
      let t := respondEnt t k e
      performEnt (e.pieces.foldl (fun t p => muddleRecords t p.addr p.data.length) (leaveAt t k e.grain e.id)) e.id

/-- Whether an earlier packet of the same window in the same grain (R155, R282) (DEDUCED, log 56), or of the same copy (R225), is not
performed yet. -/
def behindSame (s : State) (e : WinEnt) : Bool :=
  let before := fun (x : WinEnt) => decide (x.id < e.id) && x.grain == e.grain && !x.performed
  s.bays.any (fun b => b.window.any (fun x => x.id == e.id) && b.window.any before)
    || (s.net.cpw.any (fun x => x.id == e.id) && s.net.cpw.any (fun x => before x && x.grp == e.grp))

/-- The bay of a window entry. -/
def bayOfEnt (s : State) (id : Nat) : Option Nat :=
  (List.range 16).find? (fun b => (bayOf s b).window.any (fun e => e.id == id))

/-- An entry of a splice buffer for a grain. -/
def spliceEntOf (s : State) (bay g : Nat) : Option SpliceEnt := (bayOf s bay).splice.find? (fun e => e.grain == g)

/-- Whether a REDG of the window may still be absorbed into its bay's splice buffer (R168, R333): NSPL is 0, its home is
backed, and no entry of another AOP or AT is in the way. -/
def absorbable (s : State) (e : WinEnt) : Bool :=
  match e.kind, bayOfEnt s e.id with
  | .redg op, some b =>
    !op.nspl && (homeOf s (32 * e.grain)).isSome && permits s (entMaster s e).1 (32 * e.grain) true true
      && (match spliceEntOf s b e.grain with
          | none => true
          | some x => x.aop == op.aop && x.ty == op.ty)
  | _, _ => false

/-- Whether a REDG has been combined into an entry that is not confirmed yet. -/
def absorbed (s : State) (id : Nat) : Bool := s.bays.any (fun b => b.splice.any (fun x => x.waiters.contains id))
  || s.net.partials.any (fun p => p.2.2.waiters.contains id)

/-- Whether a live entry overlaps a REDG's grain and entered the window before it (R333). -/
def behindLive (s : State) (bay : Nat) (e : WinEnt) : Bool :=
  (bayOf s bay).window.any (fun x => decide (x.id < e.id) && x.grain == e.grain && !x.retired && !absorbed s x.id)

/-- Whether a packet is on its way to slice `k`: an STNT held in its core has not been sent, nor has a REDG that its bay may absorb. -/
def onWayTo (s : State) (k : Nat) (x : WinEnt) : Bool :=
  let redg := match x.kind with | .redg _ => true | _ => false
  !x.performed && !x.held && homeOf s (32 * x.grain) == some k && !(sliceOf s k).queue.contains (x.grain, x.id)
    && !(redg && (absorbed s x.id || absorbable s x || ((bayOfEnt s x.id).map (fun b => behindLive s b x)).getD false))

/-- The place of a knot request on its way in the order in which its die sent its requests. -/
def knotSent (r : KnotReq) : Option Nat := if r.queued || r.resendAt.isSome || r.reply.isSome then none else r.sent

/-- Whether what a port of a die sent to slice `k` of that die before place `n` has not all come there (R313). -/
def portBehind (s : State) (die port k n : Nat) : Bool :=
  k / 64 == die &&
    ((allEnts s).any (fun x => decide (x.id < n) && x.port == port && dieOfCore x.core == die && onWayTo s k x)
      || s.net.knots.any (fun e => (knotSent e.2).any (fun t => decide (t < n)) && knotDie s e.2 == die
        && knotPort s e.2 == port && homeOf s e.2.krec == some k))

/-- Whether an earlier message of the same port to the same slice of its own die has not come there yet (R313). -/
def behindPort (s : State) (e : WinEnt) : Bool :=
  (homeOf s (32 * e.grain)).any (fun k => portBehind s (dieOfCore e.core) e.port k e.id)

/-- A REDG's elements combined into a partial (R333): elements not held yet take the operand. -/
def mergePart (op : AtomOp) (e : WinEnt) (x : SpliceEnt) : SpliceEnt :=
  let n := atomBytes op.ty
  e.pieces.foldl (fun x p =>
    let i := p.addr % 32 / n
    let old := ofBytes ((x.data.drop (n * i)).take n)
    let v := if x.mask.getLsbD i then atomApply op.aop op.ty old (ofBytes p.data) 0 else ofBytes p.data
    { x with
      data := x.data.take (n * i) ++ toBytes n v ++ x.data.drop (n * i + n)
      mask := x.mask ||| BitVec.ofNat 8 (2 ^ i) }) x

/-- Changes the splice entry of a grain. -/
def modSplice (s : State) (bay g : Nat) (f : SpliceEnt → SpliceEnt) : State :=
  modBay s bay (fun b => { b with splice := b.splice.map (fun x => if x.grain == g then f x else x) })

/-- A splice entry on its way to its home (R333 to R335). -/
def sendPartial (s : State) (bay : Nat) (x : SpliceEnt) : State :=
  let (id, s) := nextId s
  let s := modBay s bay (fun b => { b with splice := b.splice.filter (fun y => y.grain != x.grain) })
  modNet s (fun n => { n with partials := tput n.partials id (bay, x) })

/-- SPLICE_ABSORB (R333). -/
def execSpliceAbsorb (id : Nat) (s : State) : Host.Outcome State Fault Refusal :=
  match findEnt s id, bayOfEnt s id with
  | some e, some bay =>
    match e.kind with
    | .redg op =>
      if e.performed || !absorbable s e || absorbed s id || behindLive s bay e then .next s
      else match spliceEntOf s bay e.grain with
        | some x =>
          let x' := { mergePart op e x with mid := (entMaster s e).1 }
          if x.confirmed then .next (performAtBay (modSplice s bay e.grain (fun _ => x')) id)
          else .next (modSplice s bay e.grain (fun _ => { x' with waiters := x'.waiters ++ [id] }))
        | none =>
          let old := (sortBy (fun (a b : SpliceEnt) => decide (a.age ≤ b.age)) (bayOf s bay).splice).head?
          let full := decide (512 ≤ (bayOf s bay).splice.length)
          let s := match if full then old else none with | some x => sendPartial s bay x | none => s
          let x : SpliceEnt := ⟨e.grain, op.aop, op.ty, List.replicate 32 0, 0, false, false, s.clock, [id], (entMaster s e).1⟩
          .next (modBay s bay (fun b => { b with splice := b.splice ++ [mergePart op e x] }))
    | _ => .next s
  | _, _ => .next s

/-- Whether an entry of the bay for the grain that its home has recorded is on its way back there (R335): what the bay sends for
the grain later comes after it. -/
def partialAway (s : State) (bay g : Nat) : Bool := s.net.partials.any (fun p => p.2.1 == bay && p.2.2.grain == g)

/-- The home records a bay's partial (R334). -/
def recordSplice (s : State) (k bay : Nat) (x : SpliceEnt) : State :=
  let bit1 : BitVec 16 := BitVec.ofNat 16 (2 ^ bay)
  let s := modSlice s k (fun y => { y with
    splice := if y.splice.any (fun d => d.grain == x.grain)
      then y.splice.map (fun d => if d.grain == x.grain then { d with bays := d.bays ||| bit1 } else d)
      else y.splice ++ [⟨x.grain, x.aop, x.ty, bit1, false⟩] })
  modSplice (setSplc s k x.grain true) bay x.grain (fun x => { x with recorded := true })

/-- Whether an access waits at a slice for a grain (R335). -/
def heldAt (s : State) (k g : Nat) : Bool := (sliceOf s k).queue.any (fun q => q.1 == g && accessLives s q.2)

/-- SPLICE_RECORD_REQUEST (R334): the directory sets the bay's bit, or the entry goes to the home as an ordinary REDG. Behind the
accesses that are held for the grain, and behind the bay's earlier entry for it, the request waits (R335). A chunk that the reel
job has yet to copy is copied first, so that no REDG recorded after its start is in the copy (R445). -/
def execSpliceRecordRequest (bay grain : Nat) (s0 : State) : Host.Outcome State Fault Refusal :=
  let s := reelHook s0 (32 * grain)
  match spliceEntOf s bay grain with
  | none => .next s0
  | some x =>
    match homeOf s (32 * grain) with
    | none => .next (sendPartial s0 bay x)
    | some k =>
      if x.recorded || partialAway s bay grain || heldAt s k grain then .next s0
      else match (sliceOf s k).splice.find? (fun d => d.grain == grain) with
        | some d =>
          if d.called then .next s0
          else .next (if d.aop = x.aop ∧ d.ty = x.ty then recordSplice s k bay x else sendPartial s bay x)
        | none => .next (if (sliceOf s k).splice.length < 512 then recordSplice s k bay x else sendPartial s bay x)

/-- SPLICE_CONFIRM (R333): the bay learns that the home has recorded its partial. -/
def execSpliceConfirm (bay grain : Nat) (s : State) : Host.Outcome State Fault Refusal :=
  match spliceEntOf s bay grain with
  | some x =>
    if x.confirmed || !x.recorded then .next s
    else .next (performEnts (modSplice s bay grain (fun x => { x with confirmed := true, waiters := [] })) x.waiters)
  | none => .next s

/-- A bay's bit of a directory entry is cleared; with the last one the entry is free and SPLC falls (R335). -/
def clearSpliceBit (s : State) (k bay g : Nat) : State :=
  let s := modSlice s k (fun y => { y with
    splice := (y.splice.map (fun d => if d.grain == g then { d with bays := d.bays &&& ~~~(BitVec.ofNat 16 (2 ^ bay)) } else d)).filter
      (fun d => d.bays != 0) })
  if (spliceOf s k g).isNone then setSplc s k g false else s

/-- SPLICE_RECALL (R335): an access waits at the home; the bay gives its confirmed entry, or answers empty. A recall comes to the
bay after the confirmation of what the home has recorded. -/
def execSpliceRecall (bay grain : Nat) (s : State) : Host.Outcome State Fault Refusal :=
  match homeOf s (32 * grain) with
  | none => .next s
  | some k =>
    if !((sliceOf s k).splice.any (fun d => d.grain == grain && d.called && d.bays.getLsbD bay)) || partialAway s bay grain then .next s
    else match spliceEntOf s bay grain with
      | none => .next (clearSpliceBit s k bay grain)
      | some x => .next (if x.confirmed then sendPartial s bay x else if x.recorded then s else clearSpliceBit s k bay grain)

/-- SPLICE_PARTIAL_COMBINE (R334, R335): a returned partial is combined into its grain, which is filled first, for the hub port
(DESIGN CHOICE, log 109). -/
def execSplicePartialCombine (id : Nat) (s : State) : Host.Outcome State Fault Refusal :=
  match tget s.net.partials id with
  | none => .next s
  | some (bay, x) =>
    let done := fun (s : State) => performEnts (modNet s (fun n => { n with partials := terase n.partials id })) x.waiters
    match homeOf s (32 * x.grain) with
    | none => .next (done s)
    | some k =>
      let s1 := reelHook s (32 * x.grain)
      if !x.recorded ∧ !atTurn s1 k x.grain id then .next (waitAt s1 k x.grain id)
      else if !x.recorded ∧ (spliceOf s1 k x.grain).isSome then .next (callSplice (waitAt s1 k x.grain id) k x.grain)
      else if !grainPresent s1 k false (32 * x.grain) then
        let p := portAt s1 (bay / 8) (hubPort k) k
        .next (startFills p.2 k (x.grain / 16) false p.1 p.1 (runMask (x.grain % 16) 1))
      else
        let s := leaveAt (done (applyPartial s1 x)) k x.grain id
        .next (if x.recorded then clearSpliceBit s k bay x.grain else s)

/-- TRANSLATION_WALK (R392, R395): the leaf found enters the caches. -/
def execTranslationWalk (core ctx : Nat) (va : VAddr) (s : State) : Host.Outcome State Fault Refusal := .next (cacheVa s core ctx va.toNat)

/-- The warp's own writes to a range that have not reached their homes (R175). -/
def writesBefore (s : State) (f : FlushCmd) (r : Nat × Nat) : Bool :=
  let in' := fun (g : Nat) => decide (r.1 ≤ g) && decide (g < r.1 + r.2)
  ((tget s.warps f.warp).map (fun w => w.storeQ.any (fun e => match e with
      | .global grp _ ps => decide (grp < f.id) && ps.any (fun p => in' (p.addr / 32))
      | .port _ => false))).getD false
    || (s.bays.flatMap (·.window) ++ s.net.nts).any (fun e => e.warp == f.warp && decide (e.grp < f.id) && !e.performed && in' e.grain)

/-- Splits a block at a grain boundary, sparing the blocks that are being split (R327): none when no tag can be freed. -/
def splitBlk (s : State) (slice : Nat) (keep : List L2Blk) (b : L2Blk) (g : Nat) : Option State :=
  if g ≤ b.start ∨ b.start + b.len ≤ g then some s
  else
    let set := setOf b.region
    (ensureRoom slice set 0 keep 17 (purgeExpired s slice)).map (fun s =>
      let part := fun (st n : Nat) => let p := partBlk b st n; { p with splc := spliceIn s slice p }
      let lo := part b.start (g - b.start)
      let hi := { part g (b.start + b.len - g) with tag := freeTag s slice set, pool := b.pool + (g - b.start) }
      modSlice s slice (fun y => { y with blocks := y.blocks.flatMap (fun x => if x == b then [lo, hi] else [x]) }))

/-- The block of a slice that straddles a physical grain's lower end. -/
def straddlers (s : State) (slice g : Nat) : List L2Blk :=
  (sliceOf s slice).blocks.filter (fun b => leaseLive s.clock b && b.region == g / 16 && decide (b.start < g % 16)
    && decide (g % 16 < b.start + b.len))

/-- The blocks of a slice that are some given blocks, or parts of them. -/
def partsIn (s : State) (slice : Nat) (bs : List L2Blk) : List L2Blk :=
  (sliceOf s slice).blocks.filter (fun x => bs.any (fun b => b.region == x.region && b.lease == x.lease
    && decide (b.start ≤ x.start) && decide (x.start + x.len ≤ b.start + b.len)))

/-- Splits the blocks of a slice that straddle the ends of a range of grains (R327): the upper end first, so that the lower part
is the block that may straddle the lower end too; no block that is split, nor a part of one, is evicted. None when no tag can be
freed. -/
def splitEnds (s : State) (slice lo hi : Nat) : Option State :=
  let keep := straddlers s slice lo ++ straddlers s slice hi
  let cut := fun (g : Nat) (o : Option State) => o.bind (fun s =>
    (straddlers s slice g).foldl (fun o b => o.bind (fun s => splitBlk s slice (partsIn s slice keep) b (g % 16))) (some s))
  cut lo (cut hi (some s))

/-- What a flush does to one block inside its range (R175, R325). -/
def flushBlk (op : Nat) (slice : Nat) (s : State) (b : L2Blk) : State :=
  if op = 2 then dropBlk s slice b
  else
    let s1 := if b.lease then s else writeBack s b (BitVec.allOnes 16)
    if op = 0 then putBlk s1 slice b { b with dirty := 0 }
    else dropBlk (if b.lease then s1 else trainPredictor s1 slice b) slice b

/-- The grains of a range for which a partial is recorded. -/
def spliceGrains (s : State) (r : Nat × Nat) : List Nat :=
  ((s.bays.flatMap (fun b => b.splice.map (·.grain)) ++ s.net.partials.map (fun p => p.2.2.grain)).dedup).filter (fun g =>
    decide (r.1 ≤ g) && decide (g < r.1 + r.2))

/-- Splice partials of a grain are dropped (FLUSH.discard). -/
def dropPartials (s : State) (g : Nat) : State :=
  let ps := partialsOf s g
  let s := { s with bays := s.bays.map (fun b => { b with splice := b.splice.filter (fun e => e.grain != g || !e.recorded) }) }
  let s := modNet s (fun n => { n with partials := n.partials.filter (fun e => e.2.2.grain != g || !e.2.2.recorded) })
  let s := performEnts s (ps.flatMap (·.waiters))
  match homeOf s (32 * g) with
  | none => s
  | some k => setSplc (modSlice s k (fun y => { y with splice := y.splice.filter (fun d => d.grain != g) })) k g false

/-- A flush of grains `r.1` to `r.1 + r.2 - 1` at one slice (R175, R327): none while a split finds no tag. -/
def flushSlice (s : State) (op : Nat) (r : Nat × Nat) (k : Nat) : Option State :=
  if (sliceOf s k).blocks.isEmpty && (sliceOf s k).fills.isEmpty then some s
  else (splitEnds s k r.1 (r.1 + r.2)).map (fun s =>
    let inside := (sliceOf s k).blocks.filter (fun b =>
      decide (r.1 ≤ 16 * b.region + b.start) && decide (16 * b.region + b.start + b.len ≤ r.1 + r.2))
    let s := inside.foldl (flushBlk op k) s
    if op = 0 then s
    else modSlice s k (fun y => { y with fills := y.fills.map (fun f =>
      if f.lease && f.served.isSome then { f with stale := f.stale ||| maskOfGrains ((List.range 16).filter (fun g =>
        decide (r.1 ≤ 16 * f.region + g) && decide (16 * f.region + g < r.1 + r.2))) }
      else f) }))

/-- A flush of grains `r.1` to `r.1 + r.2 - 1` (R175, R327): the blocks of both dies that hold them, partials first. -/
def flushRange (s : State) (op : Nat) (r : Nat × Nat) : Option State :=
  let s := (spliceGrains s r).foldl (fun s g => if op = 2 then dropPartials s g else settleGrain s g) s
  (List.range 128).foldl (fun o k => o.bind (fun s => flushSlice s op r k)) (some s)

/-- One part of a frame of a flush at its home; a denied or unbacked one has no effect but its record (R175, R380, R385). A chunk that
the reel job has yet to copy is copied before .discard loses its grains (R445). None while a split finds no tag. -/
def flushPart (s : State) (f : FlushCmd) (a n : Nat) : Option State :=
  let ctx := ((tget s.warps f.warp).map (ctxOfWarp s)).getD 0
  let core := ((tget s.warps f.warp).map (·.core)).getD 0
  let mid := masterOf s ctx 0
  let die := (homeDie s a).getD (dieOfCore core)
  if !permits s mid a (f.op != 2) (f.op == 2) then
    some (denyAccess s die mid (some ctx) a (if (placeOf s a).isMmio then 2 else if f.op = 2 then 1 else 0))
  else if placeOf s a == .unbacked then some (unbackedAccess s die mid (some ctx) a (f.op == 2))
  else if (homeOf s a).isNone then some s
  else flushRange (if f.op = 2 then reelHook s a else s) f.op (a / 32, n / 32)

/-- The first frame of 4 KiB, which one slice homes (R316), of a flush's next range, where migration leads it (R406): the warp's own
writes to it go first (R175). -/
def flushStep (s : State) (f : FlushCmd) : State :=
  match f.ranges with
  | [] => s
  | r :: rs =>
    let n := min r.2 (128 - r.1 % 128)
    let parts := routedParts s (32 * r.1) (32 * n)
    if writesBefore s f (r.1, n) || parts.any (fun p => writesBefore s f (p.1 / 32, p.2 / 32)) then s
    else
      let rest := if n = r.2 then rs else (r.1 + n, r.2 - n) :: rs
      ((parts.foldl (fun (o : Option State) p => o.bind (fun s => flushPart s f p.1 p.2)) (some s)).map (fun s =>
        modNet s (fun t => { t with flushes := tput t.flushes f.id { f with ranges := rest } }))).getD s

/-- What an acknowledged packet was part of: a copy's bytes count into its receivers' slots (R276); a write's group falls. -/
def ackEnt (s : State) (e : WinEnt) : State :=
  match tget s.net.copies e.grp with
  | some c =>
    let n := (e.pieces.map (fun p => p.data.length)).foldl (· + ·) 0
    let s := modCopy s c.id (fun c => { c with acked := c.acked + n, bufClamps := 0 })
    settleCopy (c.recvs.foldl (fun s r => sendRing s c.id r n c.bufClamps []) s) c.id
  | none => match s.queues.findIdx? (fun q => q.started.any (fun p => p.grp == some e.grp && recField p.bytes 0 1 == 3)) with
    | some q => modQueue s q (fun x => { x with started := x.started.map (fun p => if p.grp == some e.grp then { p with stage := 3 } else p) })
    | none => ackGroup s e.grp

/-- Whether a packet of a bay's window in the same grain was performed before and has not retired, or a response sent before it by its
slice to its port has not arrived: that goes first (R283, R300, R313). -/
def ackBehind (s : State) (e : WinEnt) : Bool :=
  s.bays.any (fun b => b.window.any (fun x => x.grain == e.grain && x.id != e.id && x.performed && decide (x.stamp < e.stamp)))
    || (match entResp s e with
      | some (p, k, t) => respBehind s (dieOfCore e.core) p [(k, t)]
      | none => false)

/-- HOME_ACK (R288, R299): a performed packet retires, its counters fall, and the writer's die drops its lease copy of the
grain; a flush whose every range is done ends. -/
def execHomeAck (id : Nat) (s : State) : Host.Outcome State Fault Refusal :=
  match tget s.net.flushes id with
  | some f =>
    if f.ranges.isEmpty then .next (ackGroup (modNet s (fun n => { n with flushes := terase n.flushes id })) id) else .next s
  | none => match findEnt s id with
    | none => .next s
    | some e =>
      if !e.performed || ackBehind s e then .next s
      else
        let s := dropLeaseGrain (dropEnt s id) (dieOfCore e.core) (32 * e.grain)
        .next (ackEnt (dropLeaseGrain s (dieOfCore e.core) (routed s (32 * e.grain))) e)

/-- Whether a message can be performed at its port now (R157, R264, R285, R471). -/
def portReady (s : State) (m : PortMsg) : Bool :=
  match placedBlock s m.place.cluster m.place.rank with
  | none => false
  | some (_, b) =>
    match m.op with
    | .load l | .atomic l => match tget s.net.loads l with
      | none => true
      | some p => !(p.atom.isNone && loadBefore s p.warp l) &&
          rankReady s m.place.cluster m.place.rank (p.parts.map (fun x => (x.addr, p.size)))
    | .store _ ps => b.ended || ps.all (fun p => linesPresent b p.1 p.2.length)
    | _ => true

/-- A ring operation at its port for lanes that wait for it (R186). -/
def ringAtPort (s : State) (m : PortMsg) : State :=
  let s := modNet s (fun n => { n with ports := terase n.ports m.id })
  match m.warp.bind (fun wid => (tget s.warps wid).bind (fun w => (w.parked.find? (fun p => p.cond == .port m.id)).map (fun p => (wid, p)))) with
  | none => s
  | some (wid, p) =>
    match ringPerform s wid p.lanes (some p.lanes) m.place m.op with
    | .done s => unpark s wid (fun q => q == p)
    | .trap t after => parkedTrap after wid p t
    | .waits => match m.op with
      | .ringWait free sd =>
        let (k, s) := nextId s
        modWarp s wid (fun w => { w with parked := w.parked.map (fun q => if q == p then { q with cond := .ring m.place free sd k } else q) })
      | _ => unpark s wid (fun q => q == p)

/-- A ring operation at its port; a release that waited for it alone has taken effect (R173, R186). -/
def portRing (s : State) (m : PortMsg) : State :=
  (m.warp.toList).foldl noteRelease (ringAtPort s m)

/-- The core to which a message goes. -/
def portCore (s : State) (m : PortMsg) : Option Nat := (rankBlock s m.place.cluster m.place.rank).map (·.2.core)

/-- Whether message `e` must be performed before message `m` of the same source (R155, R264, R285): sent before it to one of its
rank's lines, or by one warp to its own core; or sent before it to the same core of its die, and ready. Over the seam only one warp's
messages to a line keep their order (R314). -/
def portBefore (s : State) (m e : PortMsg) : Bool :=
  let near := (portCore s m).map dieOfCore == some (dieOfCore m.src)
  decide (e.sent < m.sent) && !e.queued && e.src == m.src
    && ((e.place.cluster == m.place.cluster && e.place.rank == m.place.rank && (near || e.warp == m.warp)
        && goesFirst s m.src m.warp (msgSpans s m) e)
      || (portReady s e && portCore s e == portCore s m && near))

/-- Whether some message goes first. -/
def behindPorts (s : State) (m : PortMsg) : Bool := s.net.ports.any (fun e => portBefore s m e.2)

/-- SCRATCH_PORT_ACCESS (R264): a load's message leaves its core; a message is performed at its port, in the order its source sent
those that can be. -/
def execScratchPortAccess (id : Nat) (s : State) : Host.Outcome State Fault Refusal :=
  match tget s.net.ports id with
  | none => .next s
  | some m =>
    if m.queued then (match m.op with
      | .load l => (match tget s.net.loads l with
        | none => .next s
        | some p => match tget s.warps p.warp with
          | none => .next s
          | some w => if loadBefore s p.warp l then .next s else .next (sendLoad s m p w))
      | _ => .next s)
    else if !portReady s m || behindPorts s m then .next s
    else
      let gone := fun (s : State) => modNet s (fun n => { n with ports := terase n.ports id })
      match m.op with
      | .load l | .atomic l => match tget s.net.loads l with
        | none => .next (gone s)
        | some p =>
          let r := performRank s m.place.cluster m.place.rank p
          .next (noteSources (gone (modLoad r.1 l (fun _ => r.2))))
      | .store grp ps => match rankBlock s m.place.cluster m.place.rank with
        | none => .next s
        | some (bid, b) =>
          let s := if b.ended then s else modBlock s bid (fun b => ps.foldl (fun b p => putScratch b p.1 p.2) b)
          .next (ackGroup (noteSources (gone s)) grp)
      | _ => .next (portRing s m)

end Sys2Proof.Machine
end

