-- ==== Sys2Proof/Machine/Knot.lean ====
section
/-! DEFINITION. Knots at their homes (R181 to R185, R330 to R332) and the SIGNAL packets of the queue engines (R363). -/

namespace Sys2Proof.Machine

/-- The knot of a record, with the slice that homes it. -/
def knotOf (s : State) (krec : Nat) : Option (Nat × Knot) :=
  (homeOf s krec).bind fun k => ((sliceOf s k).knots.find? (fun y => y.krec == krec)).map fun y => (k, y)

/-- Whether a slice that holds the record's home or one of its range entries is fenced (R183, R184). -/
def knotFenced (s : State) (krec : Nat) : Bool :=
  (homeOf s krec).isNone || s.slices.any (fun y => y.fenced && y.ranges.any (fun r => r.krec == krec))

/-- The device writes KSTATE and HOLDER (R331). -/
def writeKnot (s : State) (krec kstate : Nat) (holder : Option Taker) : State :=
  writeBytes s krec (toBytes 4 kstate ++ toBytes 4 (holderWord s holder))

/-- The home answers a knot request (R182, R331): the reply is sent; the device's own KGIVE needs none. -/
def replyKnot (s : State) (r : KnotReq) (v : Nat) : State :=
  match r.warp, r.taker with
  | none, .cluster _ => modNet s (fun n => { n with knots := terase n.knots r.id })
  | _, _ =>
    let (t, s) := nextId s
    modNet s (fun n => { n with knots := tput n.knots r.id { r with queued := false, resendAt := none, reply := some (v, t) } })

/-- The dies of a taker: a cluster bonded over a seam takes on both (DEDUCED, log 92). -/
def takerDies (s : State) (t : Taker) : List Nat :=
  match t with
  | .cluster c => ((tget s.clusters c).map (fun k => (k.cores.map dieOfCore).dedup)).getD []
  | .signal q _ => [q / 256]

/-- The entries of the knot range tables: those of a fenced slice are void (R433). -/
def liveRanges (s : State) : List KnotRange := (s.slices.filter (fun y => !y.fenced)).flatMap (·.ranges)

/-- The lease copies of a knot's ranges on the taker's die are dropped (R184, R329, R332). -/
def dropGuarded (s : State) (t : Taker) (krec : Nat) : State :=
  (takerDies s t).foldl (fun s die =>
    ((liveRanges s).filter (fun r => r.krec == krec)).foldl (fun s r =>
      (List.range r.len).foldl (fun s i => dropLeaseGrain s die (32 * (r.pbase + i))) s) s) s

/-- A started packet of a queue that is not complete. -/
def packetOf (s : State) (q idx : Nat) : Option Packet := (queueOf s q).started.find? (fun p => p.idx == idx)

/-- A SIGNAL's write goes to its home (R363). -/
def sendSignal (s : State) (q idx : Nat) (kind : WKind) (at' : Nat) (data : List Byte) : State :=
  let pa := routed s at'
  let (g, s) := nextId s
  let (id, s) := nextId s
  let p := ((homeOf s pa).map (fun k => portAt s (q / 256) (hubPort k) k)).getD (108, s)
  let ctx := ((packetOf s q idx).map (·.ctx)).getD (queueOf s q).ctx
  let s := p.2
  let e : WinEnt := ⟨id, engineCore q, 0, g, kind, pa / 32, [⟨pa, data⟩], false, false, 0, false, p.1, some (3, ctx), false, false⟩
  modPacket (modNet s (fun n => { n with cpw := n.cpw ++ [e] })) q idx (fun p => { p with stage := 2, grp := some g })

/-- The physical address of a SIGNAL's ADDR or KADDR in its context (R363): none when it faults. -/
def signalAddr (s : State) (q ctx va size : Nat) (rd : Bool) : Option Nat :=
  if va % size ≠ 0 then none
  else match xlatePa s (engineCore q) ctx (va % 2 ^ 57) rd true false with
    | .error _ => none
    | .ok (pa, _) => some pa

/-- The walk of a SIGNAL's address. -/
def signalWalk (s : State) (q ctx va size : Nat) : State :=
  if va % size ≠ 0 then s else cacheVa s (engineCore q) ctx (va % 2 ^ 57)

/-- A SIGNAL completes with BADP (R363). -/
def failSignal (s : State) (q idx : Nat) : State := badPacket (completePacket s q idx) q idx

/-- A token is granted (R332): the knot's record, and the lease copies of its ranges. -/
def grantToken (s : State) (krec : Nat) (t : Taker) : State := dropGuarded (writeKnot s krec 3 (some t)) t krec

/-- The store of a SIGNAL that holds its token goes out (R363); that its address lies in another knot's range is not checked (DESIGN
CHOICE, log 129). -/
def signalStore (s : State) (q idx : Nat) : State :=
  match packetOf s q idx with
  | none => s
  | some p => match signalAddr s q p.ctx (recField p.bytes 8 8) 4 false with
    | none => modPacket s q idx (fun p => { p with stage := 4 })
    | some pa => sendSignal s q idx .store pa (toBytes 4 (recField p.bytes 0x10 4))

/-- A reply comes back (R182, R184, R363): KTAKE's acquire at .dev, the status, and its lanes go on; a SIGNAL goes on with its store,
or completes with BADP where it is refused the token. -/
def knotAnswered (s : State) (r : KnotReq) (v : Nat) : State :=
  let s := modNet s (fun n => { n with knots := terase n.knots r.id })
  let took := (match r.op with | .take _ => true | _ => false) && v == 1
  match r.taker, r.warp with
  | .signal q n, _ => if took then signalStore s q n else if (packetOf s q n).isSome then failSignal s q n else s
  | _, none => s
  | _, some wid =>
    let s := modWarp s wid (fun w =>
      let w := if took then acquire w s.clock 4 false else w
      swriteOwed w ((w.parked.find? (fun p => p.cond == .knot r.id)).map (·.lanes)) r.sd (BitVec.ofNat 32 v))
    unpark s wid (fun p => p.cond == .knot r.id)

/-- KGIVE at the home (R331): the token passes to the oldest queued taker or is free, and then HOLDER reads 0 (DESIGN CHOICE, log 122); GEN
rises. -/
def giveToken (s : State) (k krec : Nat) : State :=
  match (sliceOf s k).knots.find? (fun y => y.krec == krec) with
  | none => s
  | some y =>
    let r := passToken y
    let s := modKnot s k krec (fun _ => r.1)
    let s := writeBytes s (krec + 8) (toBytes 4 ((recField (routedBytes s (krec + 8) 4) 0 4 + 1) % 2 ^ 32))
    match r.2 with
    | none => writeKnot s krec 1 none
    | some (t, id) =>
      let s := grantToken s krec t
      match tget s.net.knots id with
      | some q => replyKnot s q 1
      | none => s

/-- Whether two ranges of grains overlap. -/
def rangesMeet (a b : KnotRange) : Bool := decide (a.pbase < b.pbase + b.len) && decide (b.pbase < a.pbase + a.len)

/-- Whether some two ranges of a list overlap. -/
def selfMeet : List KnotRange → Bool
  | [] => false
  | r :: rs => rs.any (rangesMeet r) || selfMeet rs

/-- KINIT.reg at the home (R183): the status, and the state after it. -/
def regKnot (s : State) (krec : Nat) (rs : List KnotRange) (bad : Option Nat) : Nat × State :=
  let homes := rs.map (fun r => homeOf s (32 * r.pbase))
  if knotFenced s krec || homes.any Option.isNone then (5, s)
  else if (knotOf s krec).isSome then (4, s)
  else if bad.isSome then (3, s)
  else if selfMeet rs || (liveRanges s).any (fun r => rs.any (rangesMeet r)) then (2, s)
  else
    let count := fun (d : Nat) =>
      (((List.range 64).map (fun i => if (sliceOf s (64 * d + i)).fenced then 0 else (sliceOf s (64 * d + i)).ranges.length)).foldl (· + ·) 0)
        + (homes.filter (fun h => h.map (· / 64) == some d)).length
    if 256 < count 0 ∨ 256 < count 1 then (1, s)
    else
      let s := rs.foldl (fun s r => match homeOf s (32 * r.pbase) with
        | none => s
        | some h => modSlice s h (fun y => { y with ranges := y.ranges ++ [r] })) s
      let s := match homeOf s krec with
        | none => s
        | some h => modSlice s h (fun y => { y with knots := y.knots ++ [⟨krec, none, [], false⟩] })
      (0, writeBytes s krec (toBytes 4 1))

/-- KINIT.free at the home (R183). -/
def freeKnot (s : State) (krec : Nat) : Nat × State :=
  if knotFenced s krec then (5, s)
  else match knotOf s krec with
    | none => (2, s)
    | some (h, k) =>
      if k.holder.isSome then (1, s)
      else
        let s := { s with slices := s.slices.map (fun y => { y with ranges := y.ranges.filter (fun r => r.krec != krec) }) }
        let s := modSlice s h (fun y => { y with knots := y.knots.filter (fun x => x.krec != krec) })
        (0, writeBytes s krec (toBytes 4 0))

/-- Takers queued at a slice in all (R331). -/
def queuedAt (s : State) (k : Nat) : Nat := ((sliceOf s k).knots.map (fun x => x.queue.length)).foldl (· + ·) 0

/-- KTAKE at the home (R184, R331). -/
def takeKnot (s : State) (r : KnotReq) (wait_ : Bool) : State :=
  if knotFenced s r.krec then replyKnot s r 5
  else match knotOf s r.krec with
    | none => replyKnot s r 2
    | some (h, k) =>
      if k.holder.isNone then
        let s := modKnot s h r.krec (fun k => { k with holder := some r.taker, giving := false })
        replyKnot (grantToken s r.krec r.taker) r 1
      else if k.holder = some r.taker then
        replyKnot (dropGuarded (modKnot s h r.krec (fun k => { k with giving := false })) r.taker r.krec) r 1
      else if !wait_ then replyKnot s r 0
      else if queuedAt s h < 64 then
        let s := modKnot s h r.krec (fun k => { k with queue := k.queue ++ [(r.taker, r.id)] })
        modNet s (fun n => { n with knots := tput n.knots r.id { r with queued := true } })
      else modNet s (fun n => { n with knots := tput n.knots r.id { r with resendAt := some (s.clock + 256) } })

/-- A holder's KGIVE that comes undrained, issued while an earlier request of its cluster was under way: it ceases to hold the token
for the check of R170, and goes back until its release at .dev has taken effect (R185). -/
def drainFirst (s : State) (r : KnotReq) : State :=
  let s := startGive s r.taker r.krec
  let s := match r.warp with
    | none => s
    | some wid => modWarp s wid (fun w => { w with release := some (max 4 (w.release.getD 0)) })
  modNet s (fun n => { n with knots := tput n.knots r.id { r with sent := none } })

/-- KGIVE's request at the home (R185, R331). -/
def giveKnot (s : State) (r : KnotReq) : State :=
  if knotFenced s r.krec then replyKnot s r 5
  else match knotOf s r.krec with
    | none => replyKnot s r 2
    | some (h, k) =>
      if k.holder ≠ some r.taker then replyKnot s r 1
      else if r.drained then giveToken (replyKnot s r 0) h r.krec
      else drainFirst s r

/-- Whether a KGIVE's release at .dev has taken effect (R185 step 2). -/
def giveDrained (s : State) (r : KnotReq) : Bool :=
  ((r.warp.bind (tget s.warps)).map (fun w => releaseDone s (r.warp.getD 0) w 4)).getD true

/-- Whether a knot request on its way comes behind another: an earlier one of its record's stream from its die (R315), or what its
port has sent to the record's home on its own die (R313). -/
def knotBehind (s : State) (r : KnotReq) : Bool :=
  r.sent.any (fun n =>
    s.net.knots.any (fun e => e.2.krec == r.krec && knotDie s e.2 == knotDie s r && (knotSent e.2).any (fun t => decide (t < n)))
      || (homeOf s r.krec).any (fun k => portBehind s (knotDie s r) (knotPort s r) k n))

/-- Whether a reply comes behind another response: an earlier one of its record's stream to its die (R315), or of the same slice of its
own die to its port (R313). -/
def replyBehind (s : State) (r : KnotReq) (t : Nat) : Bool :=
  s.net.knots.any (fun e => e.2.krec == r.krec && knotDie s e.2 == knotDie s r && e.2.reply.any (fun x => decide (x.2 < t)))
    || (homeOf s r.krec).any (fun k => k / 64 == knotDie s r && respBehind s (knotDie s r) (knotPort s r) [(k, t)])

/-- The master and the context that a knot request's accesses to its record carry (R383): none for the device's own KGIVE. -/
def knotMaster (s : State) (r : KnotReq) : Option (Nat × Nat) :=
  match r.taker, r.warp.bind (tget s.warps) with
  | .signal q n, _ => (packetOf s q n).map (fun p => (masterOf s p.ctx 3, p.ctx))
  | _, some w => some (masterOf s (ctxOfWarp s w) 0, ctxOfWarp s w)
  | _, none => none

/-- A knot request acts at the record's home (R331). -/
def applyKnot (s : State) (r : KnotReq) : State :=
  match r.op with
  | .reg rs bad => let t := regKnot s r.krec rs bad; replyKnot t.2 r t.1
  | .free => let t := freeKnot s r.krec; replyKnot t.2 r t.1
  | .take w => takeKnot s r w
  | .give => giveKnot s r

/-- A knot request reaches the record's home: the device reads and writes the record (R182), so an access that the tables deny
fences the context and the request has no effect (R385); an unbacked record is reported (R380), and one in MMIO (R382), and counts as
fenced. -/
def arriveKnot (s : State) (r : KnotReq) : State :=
  match knotMaster s r with
  | none => applyKnot s r
  | some m =>
    let die := knotDie s r
    let recs := [routed s r.krec, routed s (r.krec + 32)]
    match recs.find? (fun a => !permits s m.1 a true true) with
    | some a => denyAccess (modNet s (fun n => { n with knots := terase n.knots r.id })) die m.1 (some m.2) a
        (if (placeOf s a).isMmio then 2 else 0)
    | none => match placeOf s (recs.headD 0) with
      | .unbacked => applyKnot (unbackedAccess s die m.1 (some m.2) (recs.headD 0) false) r
      | .mmio o => applyKnot (malformedBy s m.1 (some m.2) o 64 0) r
      | _ => applyKnot (recs.foldl (fun s a => engTouchN s die (knotPort s r) a 32) s) r

/-- KNOT_REQUEST (R331): a KGIVE whose release has taken effect is sent; a request is applied at the record's home, and its reply comes
back, each in the order of its stream and its port (R313, R315). -/
def execKnotRequest (id : Nat) (s : State) : Host.Outcome State Fault Refusal :=
  match tget s.net.knots id with
  | none => .next s
  | some r => match r.reply with
    | some (v, t) => if replyBehind s r t then .next s else .next (knotAnswered s r v)
    | none =>
    if r.queued || r.resendAt.isSome then .next s
    else if r.sent.isNone then
      if giveDrained s r then
        let (k, s) := nextId s
        .next (modNet s (fun n => { n with knots := tput n.knots id { r with sent := some k, drained := true } }))
      else .next (noteRelease s (r.warp.getD 0))
    else if knotBehind s r then .next s
    else .next (arriveKnot s r)

/-- KTAKE_RESEND (R331): a request that found no room is sent again after 256 clocks. -/
def execKtakeResend (id : Nat) (s : State) : Host.Outcome State Fault Refusal :=
  match tget s.net.knots id with
  | none => .next s
  | some r => match r.resendAt with
    | none => .next s
    | some t =>
      if t ≤ s.clock then
        let (k, s) := nextId s
        .next (modNet s (fun n => { n with knots := tput n.knots id { r with resendAt := none, sent := some k } }))
      else .next s

/-- A ring arrival of a SIGNAL (R363): the header's place, none for BADP. -/
def signalRing (s : State) (ctx ring : Nat) : Option (SPlace × Nat × Block) :=
  let off := bits ring 0 19
  let core := 96 * bits ring 30 1 + bits ring 23 7
  (s.blocks.find? (fun e => !e.2.ended && !onTheWay s e.2 && e.2.core == core && e.2.bslot == bits ring 19 4)).bind fun e =>
    (gridOfBlock s e.2).bind fun g =>
      let size := if ringValid e.2 off then 16 + 8 * ringSlots e.2 off else 16
      if g.2.ctx = ctx ∧ off % 16 = 0 ∧ off + size ≤ scratchBytes g.2.record ∧ bits ring 23 7 < 96 then
        some (⟨e.2.cluster, e.2.rank, off⟩, bits ring 32 6, e.2)
      else none

/-- What a SIGNAL does when it starts (R363) (DEDUCED, log 58). -/
def startSignal (s : State) (q : Nat) (p : Packet) : State :=
  let op := bits (recField p.bytes 0 4) 16 3
  let ctx := p.ctx
  let data := recField p.bytes 0x10 8
  let size := if op = 1 then 8 else 4
  if !packetOk p.bytes || ctxClosed s ctx then failSignal s q p.idx
  else if op = 3 then
    match signalRing s ctx (recField p.bytes 0x20 8) with
    | none => failSignal s q p.idx
    | some (at', slot, b) =>
      let bad := ringValid b at'.off && decide (ringSlots b at'.off ≤ slot)
      let s := ringArrive s at' slot (data % 2 ^ 22) 0
      if bad then failSignal s q p.idx else modPacket s q p.idx (fun p => { p with stage := 3 })
  else
    let addr := signalAddr s q ctx (recField p.bytes 8 8) size (op == 2)
    let s := signalWalk s q ctx (recField p.bytes 8 8) size
    match addr with
    | none => failSignal s q p.idx
    | some pa =>
      if op = 4 then
        let ka := recField p.bytes 0x18 8
        let s := signalWalk s q ctx ka 64
        match signalAddr s q ctx ka 64 true with
        | none => failSignal s q p.idx
        | some krec =>
          let (id, s) := nextId s
          let s := modPacket s q p.idx (fun p => { p with knot := some krec })
          modNet s (fun n => { n with knots := tput n.knots id ⟨id, none, .signal q p.idx, krec, 0, .take true, some id, false, none, false, none⟩ })
      else if (guardsOf s pa size).any (fun k => !holdsToken s (.signal q p.idx) k) then failSignal s q p.idx
      else if op = 2 then sendSignal s q p.idx (.redg ⟨0, 1, 0, 5, 0, true⟩) pa (toBytes 4 data)
      else sendSignal s q p.idx .store pa (toBytes size data)

/-- SIGNAL (R363): the head packet starts and performs its operation. -/
def execSignal (q : Nat) (s : State) : Host.Outcome State Fault Refusal :=
  if headType s q ≠ some 3 then .next s
  else
    let r := startPacket s q
    .next (startSignal r.2 q r.1)

/-- The queue engine's KGIVE of a SIGNAL's token (R363): it reads and writes the record, so tables that deny it leave the token
where it is and fence the context (R385). -/
def signalGive (s : State) (q k krec ctx : Nat) : State :=
  let m := masterOf s ctx 3
  if permits s m krec true true then giveToken s k krec else denyAccess s (q / 256) m (some ctx) krec 1

/-- SIGNAL_COMPLETE (R363, R331): the access is acknowledged; a guarded store's token is given at once. A store whose
address no longer translates is a fault: BADP. -/
def execSignalComplete (q idx : Nat) (s : State) : Host.Outcome State Fault Refusal :=
  match packetOf s q idx with
  | none => .next s
  | some p =>
    if recField p.bytes 0 1 ≠ 3 ∨ p.stage < 3 then .next s
    else
      let s := match p.knot.bind (knotOf s) with
        | some (k, y) => if y.holder = some (.signal q idx) then signalGive s q k y.krec p.ctx else s
        | none => s
      .next (if p.stage = 4 then failSignal s q idx else completePacket s q idx)

end Sys2Proof.Machine
end

