-- ==== Sys2Proof/Machine/Layout.lean ====
section
/-! DEFINITION. The parts of images and of the dump whose contents the manual names and whose layout it does not give (R403,
R443): each is some function, never known, of what it holds (DESIGN CHOICE, log 12). -/

namespace Sys2Proof

open Sys2Proof.Machine

/-- The first page of a save pool (R403): its allocation bitmap and image directory, of the images' cluster, page and pages. -/
opaque Config.poolDirectory : List (Nat × Nat × Nat) → Nat

/-- The header of a block's image (R403), of the block and its cluster. -/
opaque Config.imageHeader : Block → Option Cluster → Nat

/-- A warp's first section of an image (R403), of the warp. -/
opaque Config.imageWarp : Warp → Nat

/-- The presence and poison bits of a block's scratch in its image (R403). -/
opaque Config.imageLineBits : Block → Nat

/-- The dump's knot range tables, splice directories and buffers, format windows and migration channels (R443). -/
opaque Config.dumpTables :
  List (List KnotRange × List Knot × List SpliceDir) → List (List SpliceEnt) → List (List FmtWindow) → List Migration → Nat

end Sys2Proof
end

