-- ==== Sys2Proof/Machine/Matrix.lean ====
section
/-! DEFINITION. The plane array (R194 to R213, R216, R434, R435): hitches and signatures, the queue, the accumulators, what an
operation computes, mismatches and golden tests. -/

namespace Sys2Proof.Machine

/-- Registers of an A fragment (R198). -/
def fragRegs (ty ka width signers : Nat) : Nat := (if ty = 2 then ka + 1 else 16) * ((128 / signers + width - 1) / width)

/-- The compared fields of an MMA (R196, R197). -/
def mmaKey (w : Warp) (f : LB) : MmaKey :=
  let sb := f.vb.toNat
  { name := f.vd.toNat % 16
    hitch := bits f.vd.toNat 4 3
    zero := bit f.vd.toNat 7
    ty := f.sub.toNat % 4
    ka := f.vc.toNat % 8 + 1
    kb := f.vc.toNat / 8 % 8 + 1
    q := f.q
    b := if bit f.sub.toNat 2 then .tile (sread w sb).toNat (coordsAt w sb) else .scratch (sread w sb).toNat }

/-- Bytes of a B operand in the layout of R199. -/
def bBytes (k : MmaKey) : Nat := if k.ty = 2 then 512 * (k.kb + 1) else 8192

/-- The B operand's address, its alignment and its size in scratch (R199). -/
def bScratch (k : MmaKey) : Nat × Nat × Nat :=
  match k.b with
  | .scratch a => (a, 128, bBytes k)
  | .tile a _ => (a, 64, 64)

/-- A tile handle's descriptor that its MMA admits (R199); a .bp handle's coordinate 0 is checked as CPXF.prec checks it
(DEDUCED, log 98). -/
def tileOk (k : MmaKey) (bs : List Byte) (co : List Int) : Bool :=
  let d := parseDesc bs
  descCheck bs == 0 && d.fmt == (match k.ty with | 0 => 6 | 1 => 5 | _ => 11) && d.box == [32, 128, 1, 1, 1]
    && (k.ty != 2 || (decide (k.kb ≤ d.planes) && !coordsBad (.prec k.kb) d co))

/-- Where byte `o` of a tile handle's staged box comes from (R199): the swizzle has no effect (DEDUCED, log 54). -/
def tileSrc (k : MmaKey) (bs : List Byte) (co : List Int) (o : Nat) : Src :=
  if k.ty = 2 then (precSrc (parseDesc bs) co k.kb o).1 else (boxSrc (parseDesc bs) co o).1

/-- The virtual addresses of a staged box (R199). -/
def tileVas (k : MmaKey) (bs : List Byte) (co : List Int) : List Nat :=
  (List.range (bBytes k)).filterMap (fun o => match tileSrc k bs co o with
    | .const _ => none
    | .addr va => some va)

/-- The first page or permission fault of a staged box (R199). -/
def tileFault (s : State) (x : Issue) (vas : List Nat) : Option Trap :=
  (firstFault (vas.filterMap (fun va => match xlate s x.w.core x.ctx va true false false with
    | .error e => some (va, e)
    | .ok _ => none))).map (fun e => ⟨e.2.1, x.b.lanes, e.1, e.2.2, true, false⟩)

/-- Whether ACCREL of a name is queued or under way: later uses of the name wait for it (R207) (DEDUCED, log 55). -/
def relQueued (s : State) (bid : Nat) (b : Block) (n : Nat) : Bool :=
  (coreOf s b.core).queue.any (fun e => e.block == bid && (match e.work with | .accrel _ m => m == n | _ => false))
    || b.oddAccs.any (fun e => e.2.1 == n && e.2.2)

/-- The state of a name. -/
def nameState (b : Block) (n : Nat) : AccName := b.accs.getD n .unmapped
/-- Whether a name is poisoned. -/
def namePoisoned (b : Block) (n : Nat) : Bool := match nameState b n with | .poisoned _ => true | _ => false

/-- POIS of a name in some lanes (R30). -/
def accPois (lanes : Mask) : Trap := trapOf cPOIS lanes 0

/-- Changes a hitch of a block. -/
def modHitch (s : State) (bid k : Nat) (f : Hitch → Hitch) : State :=
  modBlock s bid (fun b => { b with hitches := lmod b.hitches k f })

/-- HITCH (R196): MSTAT.HERR is set. -/
def hitchTrap (x : Issue) (s : State) (k : Nat) : Verdict × State :=
  (.trap (trapOf cHITCH x.b.lanes k), modBlock s x.w.block (fun b => { b with mstat := b.mstat ||| 0x40000 }))

/-- A reset of a hitch (R196): its signatures are discarded and their warps' MX falls. -/
def resetHitch (s : State) (bid k : Nat) (h : Hitch) : State :=
  let s := h.sigs.foldl (fun s g => modWarp s g.warp (fun w => { w with mx := w.mx - 1 })) s
  modHitch s bid k (fun h => { h with key := none, sigs := [] })

/-- HSET (R195, R196). -/
def execHset (f : UB) (s : State) : Host.Outcome State Fault Refusal :=
  issueOp (.hset f) s fun x s =>
    let k := f.sd.toNat % 8
    let n := match f.sub.toNat with | 0 => 0 | c => 2 ^ (c - 1)
    match (blockOf s x.w).bind (fun b => b.hitches[k]?) with
    | none => (.advance, s)
    | some h =>
      if h.sigs.isEmpty then (.advance, modHitch s x.w.block k (fun h => { h with s := n }))
      else if h.s = n then (.advance, s)
      else hitchTrap x s k

/-- The first registers of an operation's signers, each once. -/
def latchVas (sigs : List Sig) : List Nat := (sigs.map (·.va)).dedup

/-- Whether a latch has the tag of an operation (R200): its va are the signers' first registers (DEDUCED, log 53). -/
def latchTag (bid : Nat) (k : MmaKey) (sigs : List Sig) (l : Latch) : Bool :=
  l.block == bid && l.hitch == k.hitch && l.va == latchVas sigs && l.ty == k.ty && l.ka == k.ka

/-- Whether some signer's fragment is not what it was when a latch was loaded: it has written its A registers since (R200). -/
def wroteSince (k : MmaKey) (sigs : List Sig) (l : Latch) : Bool :=
  sigs.any (fun g =>
    let n := fragRegs k.ty k.ka g.width sigs.length
    let cut := fun (t : Tbl Word) => t.filter (fun e => decide (g.va ≤ e.1 / 64) && decide (e.1 / 64 < g.va + n))
    !(tget l.seen g.warp).any (fun t => cut t == cut g.regs))

/-- The latches after operation `num` has issued, and the A it uses where a latch holds it: the operation that has loaded that latch, or
the rows (R200). On a match it is the latched A, unless a signer has written its registers since: then `old` says whether the
latch still stands. A miss loads the least recently used of four; an MMA without Q drops a match. -/
def useLatch (bid clock num : Nat) (k : MmaKey) (sigs : List Sig) (seen : Tbl (Tbl Word)) (ls : List Latch) (old : Bool) :
    List Latch × Option Nat × Tbl Frag :=
  let rest := ls.filter (fun l => !latchTag bid k sigs l)
  let load := fun (_ : Unit) =>
    let kept := if rest.length < 4 then rest else (sortBy (fun (a b : Latch) => decide (b.used ≤ a.used)) rest).take 3
    (kept ++ [⟨bid, k.hitch, latchVas sigs, k.ty, k.ka, clock, some num, [], seen⟩], (none : Option Nat), ([] : Tbl Frag))
  if !k.q then (rest, none, [])
  else match ls.find? (latchTag bid k sigs) with
    | some l => if old || !wroteSince k sigs l then (rest ++ [{ l with used := clock }], l.op, l.rows) else load ()
    | none => load ()

/-- The registers of a block's warps as a latch that is loaded now finds them: a signer's as at its signature. -/
def seenRegs (s : State) (bid : Nat) (sigs : List Sig) : Tbl (Tbl Word) :=
  sigs.foldl (fun t g => tput t g.warp g.regs) ((warpsOfBlock s bid).foldl (fun t e => tput t e.1 e.2.vregs) [])

/-- The place of a B operand in scratch, from the block's own rank. -/
def bPlace (s : State) (bid : Nat) (a n : Nat) : Option SPlace :=
  (tget s.blocks bid).bind fun b => (gridOfBlock s b).bind fun g =>
    (scratchPlace g.2.record b.rank a n).map (fun c => ⟨b.cluster, codeRank c, codeOff c⟩)

/-- The bytes of a scratch B with poison, none while a line of it is absent (R199). -/
def bRead (s : State) (bid : Nat) (k : MmaKey) : Option (List (Byte × Bool)) :=
  match k.b with
  | .tile .. => none
  | .scratch a => (bPlace s bid a (bBytes k)).bind fun p => sourceBytes s [(p, bBytes k)]

/-- An operation enters the plane array queue (R202): the core counts it, and its free choices are set aside; `a` is the A that a latch
holds for it (R200). -/
def enqueueWork (s : State) (core bid : Nat) (slot : Option Nat) (work : PlaneWork) (counts : Bool)
    (a : Option Nat × Tbl Frag) : State :=
  { modCore s core (fun c => { c with
      queue := c.queue ++ [⟨bid, slot, false, c.opCount + 1, [], work, s.free, a.2, [], a.1⟩]
      opCount := if counts then c.opCount + 1 else c.opCount }) with
    free := if counts then s.free + 60000 else s.free }

/-- A warp's signature (R196, R203): its registers as they stand. -/
def signature (x : Issue) (f : LB) : Sig := ⟨x.wid, x.w.widx, f.va.toNat, x.w.width, x.w.core, x.w.vregs⟩

/-- The last signature of a round (R201, R202): the operation issues. -/
def issueMma (x : Issue) (s : State) (b : Block) (k : MmaKey) (sigs : List Sig) (desc : List Byte) : Verdict × State :=
  let core := b.core
  let bid := x.w.block
  match nameState b k.name with
  | .mapped slot =>
    let sigs := sortBy (fun (p q : Sig) => decide (p.widx ≤ q.widx)) sigs
    let (old', s) := freePick s
    let r := useLatch bid s.clock ((coreOf s core).opCount + 1) k sigs (seenRegs s bid sigs) (coreOf s core).latches old'
    let old := (bRead s bid k).getD []
    let s := modCore s core (fun c => { c with latches := r.1 })
    let s := modHitch s bid k.hitch (fun h => { h with key := none, sigs := [] })
    let s := modWarp s x.wid (fun w => { w with mx := w.mx + 1 })
    (.advance, enqueueWork s core bid (some slot) (.mma k sigs desc old none) true r.2)
  | _ => (.stall, s)

/-- The name of an operation is mapped (R206), or the instruction waits in the resource queue: then none. -/
def mapFor (x : Issue) (s : State) (b : Block) (n : Nat) (hitch : Option Nat) : Option State :=
  match nameState b n with
  | .unmapped => requestNow s x b.core (.acc n hitch)
  | _ => some s

/-- MMA after the checks of its own registers (R196, R205): `desc` a tile handle's descriptor at the last signature. -/
def signMma (x : Issue) (s : State) (f : LB) (b : Block) (k : MmaKey) (h : Hitch) (desc : List Byte) :
    Verdict × State :=
  let bid := x.w.block
  if h.s = 0 then hitchTrap x s k.hitch
  else if h.key.any (fun r => r != k) || h.sigs.any (fun g => g.warp == x.wid) then
    hitchTrap x (resetHitch s bid k.hitch h) k.hitch
  else if h.sigs.length + 1 < h.s then
    let s := modHitch s bid k.hitch (fun h => { h with key := some k, sigs := h.sigs ++ [signature x f] })
    (.advance, modWarp s x.wid (fun w => { w with mx := w.mx + 1 }))
  else if 8 ≤ planeLoad (coreOf s b.core) ∨ relQueued s bid b k.name then (.stall, s)
  else match mapFor x s b k.name (some k.hitch) with
    | none => enqueueRequest s x b.core (.acc k.name (some k.hitch))
    | some s => issueMma x s ((tget s.blocks bid).getD b) k (h.sigs ++ [signature x f]) desc

/-- The checks of an MMA behind those of a tile handle (R205): REGW, ALIGN, PAGE and PERM, SCRB, POIS, then the signature.
`desc` is a tile handle's descriptor, `bad` the lowest poisoned byte of one that cannot be read. -/
def checkMma (x : Issue) (s : State) (f : LB) (b : Block) (k : MmaKey) (h : Hitch) (desc : Option (List Byte)) (bad : Option Nat) :
    Verdict × State :=
  let va := f.va.toNat
  let n := if h.s = 0 then 1 else fragRegs k.ty k.ka x.w.width h.s
  let (a, align, size) := bScratch k
  let co := match k.b with | .tile _ co => co | .scratch _ => []
  let vas := (desc.map (fun bs => tileVas k bs co)).getD []
  if x.w.win < va + n then (.trap (trapOf cREGW x.b.lanes (va + n - 1)), s)
  else if a % align ≠ 0 then (.trap ⟨cALIGN, x.b.lanes, a, align, false, false⟩, s)
  else match tileFault s x vas with
  | some t => (.trap t, walkPages s x.w.core x.ctx vas)
  | none =>
    let s := walkPages s x.w.core x.ctx vas
    if (scratchPlace x.record b.rank a size).isNone then (.trap (copyScrb x a), s)
    else match poisTrap x.w (widthMask x.w.width) [(va, n)] (usesOf x.w x.instr).ssrc with
    | some t => (.trap { t with lanes := x.b.lanes },
        modWarp s x.wid (fun w => clearMarks w (widthMask w.width) [(va, n)] (usesOf w x.instr).ssrc))
    | none => match bad with
      | some c => (.trap ⟨cPOIS, x.b.lanes, c, 0, false, false⟩, s)
      | none =>
        if namePoisoned b k.name then (.trap (accPois x.b.lanes), s)
        else signMma x s f b k h (desc.getD [])

/-- MMA (R196 to R206): a signature; the last one issues the operation. -/
def execMma (f : LB) (s : State) : Host.Outcome State Fault Refusal :=
  issue (.mma f) s fun x s =>
    let k := mmaKey x.w f
    match (blockOf s x.w).bind (fun b => (b.hitches[k.hitch]?).map (fun h => (b, h))) with
    | none => (.advance, s)
    | some (b, h) =>
      let n := if h.s = 0 then 1 else fragRegs k.ty k.ka x.w.width h.s
      let last := h.s != 0 && !h.key.any (fun r => r != k) && !h.sigs.any (fun g => g.warp == x.wid)
        && h.sigs.length + 1 == h.s
      if waitsForLoad s x.wid { noUses with vsrc := [(f.va.toNat, n)] } then (.stall, s)
      else match k.b, last with
        | .tile a co, true =>
          (match if a % 64 = 0 then bPlace s x.w.block a 64 else none with
           | none => checkMma x s f b k h none none
           | some p => match readDesc x s a p false with
             | .absent => parkAll s x (.lines [p])
             | .poison c => checkMma x s f b k h none (some c)
             | .got bs s =>
               if tileOk k bs co then checkMma x s f b k h (some bs) none
               else (.trap (trapOf cILL x.b.lanes (word0 x.instr).toNat), s))
        | _, _ => checkMma x s f b k h none none

/-- ACCZ and ACCREL at their issue (R204, R207): into the queue, or from the odd core on their way to it. -/
def queueAcc (x : Issue) (s : State) (b : Block) (n : Nat) (rel : Bool) : Verdict × State :=
  let s := modWarp s x.wid (fun w => { w with mx := w.mx + 1 })
  if x.w.core ≠ b.core then
    (.advance, modBlock s x.w.block (fun b => { b with oddAccs := b.oddAccs ++ [(x.wid, n, rel)] }))
  else (.advance, enqueueWork s b.core x.w.block
    (match nameState ((tget s.blocks x.w.block).getD b) n with | .mapped k | .poisoned k => some k | .unmapped => none)
    (if rel then .accrel x.wid n else .accz x.wid n) false (none, []))

/-- ACCZ (R206, R207). -/
def execAccz (f : UB) (s : State) : Host.Outcome State Fault Refusal :=
  issueOp (.accz f) s fun x s =>
    let n := f.sd.toNat % 16
    match blockOf s x.w with
    | none => (.advance, s)
    | some b =>
      if namePoisoned b n then (.trap (accPois x.b.lanes), s)
      else if relQueued s x.w.block b n then (.stall, s)
      else match mapFor x s b n none with
        | none => enqueueRequest s x b.core (.acc n none)
        | some s => queueAcc x s b n false

/-- ACCREL (R30, R207). -/
def execAccrel (f : UB) (s : State) : Host.Outcome State Fault Refusal :=
  issueOp (.accrel f) s fun x s =>
    match blockOf s x.w with
    | none => (.advance, s)
    | some b => queueAcc x s b (f.sd.toNat % 16) true

/-- PAIRED_ACC_COMMAND_ARRIVAL (R204): the oldest command of the odd core enters the even core's queue. -/
def execPairedAccCommandArrival (block : Nat) (s : State) : Host.Outcome State Fault Refusal :=
  match tget s.blocks block with
  | none => .next s
  | some b => match b.oddAccs with
    | [] => .next s
    | (wid, n, rel) :: rest =>
      if 8 ≤ planeLoad (coreOf s b.core) then .next s
      else
        let s := modBlock s block (fun b => { b with oddAccs := rest })
        let slot := match nameState b n with | .mapped k | .poisoned k => some k | .unmapped => none
        .next (enqueueWork s b.core block slot (if rel then .accrel wid n else .accz wid n) false (none, []))

/-- The old and the new values of one A element (R198, R203): rank, its register and lane. -/
def aOld (g : Sig) (r l : Nat) : Word := tgetD g.regs (r * 64 + l) 0
def aNew (s : State) (g : Sig) (r l : Nat) : Word :=
  match tget s.warps g.warp with
  | some w => vread w r l
  | none => aOld g r l

/-- Rank, lane and fragment index j of row i (R198). -/
def rowPlace (signers width i : Nat) : Nat × Nat × Nat :=
  let r := 128 / signers
  (i / r, i % r % width, i % r / width)

/-- The element values of row i of a .bf16 or .f16 A (R198): each element old or new (R203), by free choices from `p`. -/
def aRow16 (s : State) (p : Nat) (sigs : List Sig) (i : Nat) : List Nat :=
  let at' := rowPlace sigs.length ((sigs.map (·.width)).headD 32) i
  match sigs[at'.1]? with
  | none => List.replicate 32 0
  | some g => (List.range 32).map (fun k =>
      let r := g.va + 16 * at'.2.2 + k / 2
      pickVal (p + 64 * i + k) (bits (aOld g r at'.2.1).toNat (16 * (k % 2)) 16) (bits (aNew s g r at'.2.1).toNat (16 * (k % 2)) 16))

/-- The planes, scale and precision of row i of a .bp A (R198). -/
def aRowBp (s : State) (p : Nat) (k : MmaKey) (sigs : List Sig) (i : Nat) : Frag :=
  let at' := rowPlace sigs.length ((sigs.map (·.width)).headD 32) i
  match sigs[at'.1]? with
  | none => (List.replicate 32 0, 0xFF, k.ka)
  | some g =>
    let base := g.va + (k.ka + 1) * at'.2.2
    let el := fun (rd : Nat → Word) e => packBits k.ka (fun q => (rd (base + q)).getLsbD e)
    let sc := pickVal (p + 64 * i + 32) (aOld g (base + k.ka) at'.2.1) (aNew s g (base + k.ka) at'.2.1)
    ((List.range 32).map (fun e =>
      pickVal (p + 64 * i + e) (el (fun r => aOld g r at'.2.1) e) (el (fun r => aNew s g r at'.2.1) e)),
      bits sc.toNat 0 8, bits sc.toNat 8 4)

/-- A field of B bytes that carry their poison. -/
def poisField (bs : List (Byte × Bool)) (o n : Nat) : Nat × Bool :=
  let x := (bs.drop o).take n
  (ofBytes (x.map Prod.fst), x.any Prod.snd)

/-- The 32 elements of column n of a B in the layout of R199: each old or new, with the poison of what was taken (R212). -/
def bCol16 (p : Nat) (old new : List (Byte × Bool)) (n : Nat) : List (Nat × Bool) :=
  (List.range 32).map (fun k =>
    pickVal (p + 8192 + 64 * n + k) (poisField old (64 * n + 2 * k) 2) (poisField new (64 * n + 2 * k) 2))

/-- The planes, scale and precision of column n of a .bp B, and its poison. -/
def bColBp (p : Nat) (k : MmaKey) (old new : List (Byte × Bool)) (n : Nat) : Frag × Bool :=
  let words := fun (bs : List (Byte × Bool)) => (List.range k.kb).map (fun q => poisField bs (512 * q + 4 * n) 4)
  let el := fun (ws : List (Nat × Bool)) e => (packBits k.kb (fun q => bit (ws.getD q (0, false)).1 e), ws.any Prod.snd)
  let sc := pickVal (p + 8192 + 64 * n + 32) (poisField old (512 * k.kb + 4 * n) 4) (poisField new (512 * k.kb + 4 * n) 4)
  let ow := words old
  let nw := words new
  let es := (List.range 32).map (fun e => pickVal (p + 8192 + 64 * n + e) (el ow e) (el nw e))
  ((es.map Prod.fst, bits sc.1 0 8, bits sc.1 8 4), sc.2 || es.any Prod.snd)

/-- The scale byte of a row or column whose precision is out of range acts as NaN (R198, R199). -/
def scaleOf (e p k : Nat) : Nat := if p < 2 ∨ 8 < p ∨ p < k then 0xFF else e

/-- A list cut into rows of `n`. -/
def cut16 (l : List Nat) : List (List Nat) := [l.take 16, l.drop 16]

/-- One output element of an operation (R201): FP32 bits and flags. -/
def mmaElem (k : MmaKey) (a b : List Nat × Nat × Nat) (c : Nat) : Nat × Word :=
  match k.ty with
  | 2 => mmaStepBp c (scaleOf a.2.1 a.2.2 k.ka) a.2.2 k.ka (scaleOf b.2.1 b.2.2 k.kb) b.2.2 k.kb a.1 b.1
  | 0 => mmaStep c (a.1.map (fDecode bf16)) (b.1.map (fDecode bf16))
  | _ => ((cut16 a.1).zip (cut16 b.1)).foldl (fun (acc : Nat × Word) e =>
      let r := mmaStep acc.1 (e.1.map (fDecode fp16)) (e.2.map (fDecode fp16))
      (r.1, acc.2 ||| r.2)) (c, 0)

/-- Row i of an operation's A. -/
def mmaRow (s : State) (p : Nat) (k : MmaKey) (sigs : List Sig) (i : Nat) : Frag :=
  if k.ty = 2 then aRowBp s p k sigs i else (aRow16 s p sigs i, 0, 0)
/-- Column n of an operation's B, with its poison. -/
def mmaCol (p : Nat) (k : MmaKey) (old new : List (Byte × Bool)) (n : Nat) : Frag × Bool :=
  if k.ty = 2 then bColBp p k old new n
  else
    let es := bCol16 p old new n
    ((es.map Prod.fst, 0, 0), es.any Prod.snd)

/-- Element e of a slot (R30). -/
def accAt (c : Core) (slot e : Nat) : Word := tgetD c.accs (slot * 16384 + e) 0
/-- Writes an element of a slot. -/
def putAcc (slot : Nat) (t : Tbl Word) (e : Nat) (v : Word) : Tbl Word := tputD t (slot * 16384 + e) v 0

/-- An element that ACCWR wrote while the operation was queued (R209): the written value, or the operation's effect on it, or
on the value before; `k` numbers the choice. -/
def wroteValue (k : Nat) (f : Nat → Nat) (c w : Word) : Word :=
  pickVal k w (pickVal (k + 1) (BitVec.ofNat 32 (f c.toNat)) (BitVec.ofNat 32 (f w.toNat)))

/-- PLANE_STEPS_START (R216): the oldest entry that has not started reads its operands, when its B lines are present. -/
def execPlaneStepsStart (core : Nat) (s : State) : Host.Outcome State Fault Refusal :=
  match ((coreOf s core).queue.zipIdx).find? (fun e => !e.1.started) with
  | none => .next s
  | some (e, i) =>
    let go := fun (s : State) (work : PlaneWork) =>
      modCore s core (fun c => { c with queue := lmod c.queue i (fun e => { e with started := true, work := work }) })
    match e.work with
    | .accz .. | .accrel .. | .blockEnd => .next (go s e.work)
    | .mma k sigs desc old _ =>
      match k.b with
      | .tile _ co =>
        let ctx := (((tget s.blocks e.block).bind (gridOfBlock s)).map (fun g => g.2.ctx)).getD 0
        let mid := masterOf s ctx 1
        let rs := (List.range (bBytes k)).map (fun o => engRead s core ctx mid (tileSrc k desc co o))
        let bs := rs.map (fun r => match r with | .ok t => (t.1, t.2.1) | .error _ => (0, true))
        let pas := rs.filterMap (fun r => match r with | .ok t => t.2.2 | .error _ => none)
        let s := walkPages s core ctx (pas.map Prod.fst)
        .next (go (engNotes s (dieOfCore core) (enginePort core) mid (some ctx) (pas.map Prod.snd))
          (.mma k sigs desc bs (some bs)))
      | .scratch _ =>
        match bRead s e.block k with
        | some bs => .next (go s (.mma k sigs desc (if old.isEmpty then bs else old) (some bs)))
        | none => if ((tget s.blocks e.block).map (·.ended)).getD true then .next (go s e.work) else .next s

/-- A block's name for a slot. -/
def nameOf (b : Block) (slot : Nat) : Option Nat :=
  ((b.accs.zipIdx).find? (fun e => match e.1 with | .mapped k | .poisoned k => k == slot | .unmapped => false)).map Prod.snd

/-- A slot becomes poisoned (R30, R211, R212). -/
def poisonName (s : State) (bid n slot : Nat) : State :=
  modBlock s bid (fun b => { b with
    accs := lset b.accs n (.poisoned slot)
    mstat := b.mstat ||| BitVec.ofNat 32 (2 ^ n) })

/-- The index of a block in its grid (R37). -/
def blockIdx (s : State) (b : Block) : Nat :=
  (((tget s.clusters b.cluster).map (fun c => c.index * (((gridOfBlock s b).map (fun g => recCsize g.2.record)).getD 1)))).getD 0
    + b.rank

/-- Word 0 of MCHKRD's record (R213). -/
def mchkWord0 (r : MismatchRec) : Nat :=
  r.name + 16 * r.info.replay.toNat + 32 * r.hitch + 2 ^ 16 * min r.info.count 65535

/-- A core becomes drained (R434). -/
def drainCore (s : State) (core : Nat) : State :=
  let s := modCore s core (fun c => { c with drained := true, mismatches := 0, replayMisses := 0, windowStart := s.clock })
  let s := report s (dieOfCore core) ⟨0x06, 1, none, none, ⟨1, core⟩, 1, 4⟩
  fenceDrained s core

/-- The mismatch window of a core as it stands now (R434): windows of 2^32 clocks follow one another from the last drain or reset. -/
def mismatchWindow (clock : Nat) (c : Core) : Core :=
  if clock < c.windowStart + 2 ^ 32 then c
  else { c with
    mismatches := 0
    replayMisses := 0
    windowStart := c.windowStart + 2 ^ 32 * ((clock - c.windowStart) / 2 ^ 32) }

/-- The mismatch of a completed operation (R211, R213, R434): a signer keeps the name of the earliest mismatch not reported
(R137). -/
def noteMismatch (s : State) (core bid : Nat) (k : MmaKey) (sigs : List Sig) (slot : Nat) (m : Mismatch) : State :=
  let r : MismatchRec := ⟨k.name, k.hitch, m⟩
  let s := poisonName s bid k.name slot
  let s := modBlock s bid (fun b =>
    let n := min (bits b.mstat.toNat 24 8 + 1) 255
    { b with
      mstat := (b.mstat &&& 0x000FFFFF) ||| BitVec.ofNat 32 (2 ^ (16 + m.replay.toNat) + 2 ^ 20 * k.name + 2 ^ 24 * n)
      mlog := if b.mlog.length < 4 then b.mlog ++ [r] else b.mlog })
  let s := sigs.foldl (fun s g => modWarp s g.warp (fun w => { w with mchk := w.mchk.or (some k.name) })) s
  let b := tget s.blocks bid
  let ctx := (b.bind (gridOfBlock s)).map (fun g => g.2.ctx)
  let s := report s (dieOfCore core) ⟨0x04, 1, ctx, none, ⟨1, core⟩, mchkWord0 r, (b.map (blockIdx s)).getD 0⟩
  let s := modCore s core (mismatchWindow s.clock)
  let s := modCore s core (fun c => { c with
    mismatches := c.mismatches + (!m.replay).toNat, replayMisses := c.replayMisses + m.replay.toNat })
  let c := coreOf s core
  if !c.drained && (decide (8 ≤ c.mismatches) || decide (2 ≤ c.replayMisses)) then drainCore s core else s

/-- Whether an operation is one that is replayed (R210): its count is a multiple of 2^n. -/
def replayed (s : State) (bid num : Nat) : Bool :=
  let ctx := (((tget s.blocks bid).bind (gridOfBlock s)).map (fun g => g.2.ctx)).getD 0
  num % 2 ^ bits (ctxOf s ctx).cctl.toNat 16 5 == 0

/-- Whether a check can find such a mismatch in an entry (R210). -/
def badAllowed (s : State) (e : PlaneEnt) (bad : Option Mismatch) : Bool :=
  match bad, e.work with
  | none, _ => true
  | some m, .mma .. =>
    decide (m.row < 128) && decide (m.col < 128) && decide (1 ≤ m.count) && (!m.replay || replayed s e.block e.num)
  | some _, _ => false

/-- The entry whose operation reads the A that an entry uses (R200): the loader of its latch, or itself. -/
def loaderOf (s : State) (e : PlaneEnt) : PlaneEnt :=
  let q := ((tget s.blocks e.block).map (fun b => (coreOf s b.core).queue)).getD []
  (e.src.bind (fun n => q.find? (fun x => x.num == n && x.work.isMma))).getD e

/-- The rows of A and the columns of B that an operation uses (R203): what an ACCRD has shown, or a latch holds, stands; the rest
may still be old or new. -/
def planeOps (s : State) (e : PlaneEnt) : List Frag × List (Frag × Bool) :=
  let a := loaderOf s e
  match e.work, a.work with
  | .mma k _ _ old staged, .mma ka sigs _ _ _ =>
    let st := staged.getD []
    let new := match k.b with
      | .tile .. => st
      | .scratch _ => (bRead s e.block k).getD st
    ((List.range 128).map (fun i => ((tget e.rows i).or (tget a.rows i)).getD (mmaRow s a.pick ka sigs i)),
     (List.range 128).map (fun n => (tget e.cols n).getD (mmaCol e.pick k old new n)))
  | _, _ => ([], [])

/-- A completed operation has read its A: the latch that it loaded, and the entries that use that latch, hold the rows (R200). -/
def settleRows (s : State) (core : Nat) (e : PlaneEnt) : State :=
  if !e.work.isMma then s
  else
    let rows : Tbl Frag := ((planeOps s e).1.zipIdx).map (fun r => (r.2, r.1))
    modCore s core (fun c => { c with
      latches := c.latches.map (fun l => if l.op == some e.num then { l with op := none, rows := rows } else l)
      queue := c.queue.map (fun q => if q.src == some e.num then { q with src := none, rows := rows } else q) })

/-- Whether an operation uses poisoned bytes of B (R212). -/
def planePois (s : State) (e : PlaneEnt) : Bool := (planeOps s e).2.any Prod.snd

/-- What an entry does to its slot at completion (R201, R207): the slot's elements and the flags; `s` gives the values that may
have changed. -/
def workEffect (s : State) (e : PlaneEnt) (slot : Nat) (t : Tbl Word) : Tbl Word × Word :=
  match e.work with
  | .accz .. | .accrel .. => (t.filter (fun x => x.1 / 16384 != slot), 0)
  | .blockEnd => (t, 0)
  | .mma k _ _ _ _ =>
    let o := planeOps s e
    (o.1.zipIdx).foldl (fun acc r => (o.2.zipIdx).foldl (fun (acc : Tbl Word × Word) c =>
      let i := 128 * r.2 + c.2
      let f := fun y => mmaElem k r.1 c.1.1 (if k.zero then 0 else y)
      let now := tgetD t (slot * 16384 + i) 0
      let v := match tget e.wrote i with
        | none => BitVec.ofNat 32 (f now.toNat).1
        | some old => wroteValue (e.pick + 20000 + 2 * i) (fun y => (f y).1) old now
      (putAcc slot acc.1 i v, acc.2 ||| (f now.toNat).2)) acc) (t, 0)

/-- MX falls by one for each signature or command (R203), with the flags of the operation (R69). -/
def completeWarps (s : State) (ws : List Nat) (flags : Word) : State :=
  ws.foldl (fun s k => modWarp s k (fun w => orFlags { w with mx := w.mx - 1 } flags)) s

/-- MATRIX_COMPLETION (R203, R211, R212): the oldest started entry completes; `bad` is a mismatch that the residue check, or
the replay of an operation whose turn it is, has found. -/
def execMatrixCompletion (core : Nat) (bad : Option Mismatch) (s : State) : Host.Outcome State Fault Refusal :=
  match (coreOf s core).queue with
  | [] => .next s
  | e :: rest =>
    if !e.started || !badAllowed s e bad then .next s
    else
      let s := modCore s core (fun c => { c with queue := rest, idleSince := if rest.isEmpty then s.clock else c.idleSince })
      let s := settleRows s core e
      let live := (tget s.blocks e.block).bind (fun b => if b.ended then none else some b)
      match e.work, live with
      | .accrel wid n, live =>
        .next (completeWarps (if live.isSome then passDue (serveCore (unmapName s e.block n) core) else s) [wid] 0)
      | .blockEnd, _ => .next (passDue (serveCore (freeBlockSlots s e.block core) core))
      | .accz wid n, live =>
        let s := match live, e.slot with
          | some b, some k => if namePoisoned b n then s
              else modCore s core (fun c => { c with accs := (workEffect s e k c.accs).1 })
          | _, _ => s
        .next (completeWarps s [wid] 0)
      | .mma k sigs _ _ _, some b =>
        let slot := e.slot.getD 0
        let r := workEffect s e slot (coreOf s core).accs
        let bPois := planePois s e
        let pois := namePoisoned b k.name
        let s1 := if pois then s else modCore s core (fun c => { c with accs := r.1 })
        let s1 := if pois then s1
          else match bad with
            | some m => noteMismatch s1 core e.block k sigs slot m
            | none => if bPois then poisonName s1 e.block k.name slot else s1
        .next (completeWarps s1 (sigs.map (·.warp)) r.2)
      | .mma _ sigs _ _ _, none => .next (completeWarps s (sigs.map (·.warp)) 0)

/-- The lanes, registers and columns of ACCRD and ACCWR (R208): register i of lane l is element C[row][column]. -/
def accElem (f : LB) (i l : Nat) : Nat :=
  let idx := f.va.toNat % 16
  128 * (32 * (idx / 4) + i) + 32 * (idx % 4) + 16 * (f.va.toNat / 16 % 2) + l

/-- The places in the queue of a block's started entries on a slot: one that has not read its operands has no effect yet. -/
def accQueued (q : List PlaneEnt) (bid slot : Nat) : List Nat :=
  (((q.zipIdx).takeWhile (fun e => e.1.started)).filter (fun e => e.1.block == bid && e.1.slot == some slot)).map Prod.snd

/-- An entry whose effect on some rows and columns is shown: what it uses there stands from now on (R203; DESIGN CHOICE, log 116). -/
def showEnt (s : State) (rs cs : List Nat) (e : PlaneEnt) : PlaneEnt :=
  match e.work with
  | .mma .. =>
    let o := planeOps s e
    { e with
      rows := rs.foldl (fun t i => tput t i (o.1.getD i ([], 0, 0))) e.rows
      cols := cs.foldl (fun t n => tput t n (o.2.getD n (([], 0, 0), false))) e.cols }
  | _ => e

/-- A slot's contents after each prefix of a block's queued entries on it, as far as an ACCRD shows them (R203): the first is none
of them; a free choice says how many are shown. -/
def accShow (s : State) (core bid slot : Nat) (rs cs : List Nat) : List (Tbl Word) × State :=
  let q := (coreOf s core).queue
  match accQueued q bid slot with
  | [] => ([(coreOf s core).accs], s)
  | is =>
    let shown := is.take (Config.freeNat s.free % (is.length + 1))
    let loaders := shown.filterMap (fun i => (q[i]?).bind (·.src))
    let q := (q.zipIdx).map (fun e => if shown.contains e.2 then showEnt s rs cs e.1
      else if loaders.contains e.1.num then showEnt s rs [] e.1 else e.1)
    (shown.foldl (fun acc i => match acc.getLast?, q[i]? with
      | some t, some e => acc ++ [(workEffect s e slot t).1]
      | _, _ => acc) [(coreOf s core).accs],
     { modCore s core (fun c => { c with queue := q }) with free := s.free + 1 })

/-- The rows and the columns of C that ACCRD reads in some lanes (R208). -/
def accRows (f : LB) : List Nat := (List.range 32).map (fun i => accElem f i 0 / 128)
def accCols (f : LB) (act : Mask) : List Nat := (lanesOf act).map (fun l => accElem f 0 l % 128)

/-- The element as it stands after some prefix: `k` numbers the choice. -/
def accRead (ts : List (Tbl Word)) (slot e k : Nat) : Word :=
  match ts with
  | [] => 0
  | [t] => tgetD t (slot * 16384 + e) 0
  | t :: ts => tgetD ((t :: ts).getD (Config.freeNat k % (ts.length + 1)) t) (slot * 16384 + e) 0

/-- ACCRD (R208, R209): an unmapped name reads 0. -/
def execAccrd (f : LB) (s : State) : Host.Outcome State Fault Refusal :=
  issueOp (.accrd f) s fun x s =>
    let n := f.sub.toNat % 16
    let act := guardLanes x.w x.b.lanes f.gn f.gp.toNat
    match blockOf s x.w with
    | none => (.advance, s)
    | some b =>
      let put := fun (s : State) (v : Nat → Nat → Word) => modWarp s x.wid (fun w =>
        (lanesOf act).foldl (fun w l => (List.range 32).foldl (fun w i => vwrite w (f.vd.toNat + i) l (v i l)) w) w)
      match nameState b n with
      | .poisoned _ => if act = 0 then (.advance, s) else (.trap (accPois act), s)
      | .unmapped => (.advance, put s (fun _ _ => 0))
      | .mapped slot =>
        let (ts, s) := accShow s b.core x.w.block slot (accRows f) (accCols f act)
        (.advance, { put s (fun i l => accRead ts slot (accElem f i l) (s.free + 64 * i + l)) with
          free := if ts.length ≤ 1 then s.free else s.free + 2048 })

/-- Notes that elements were written while entries are queued on a slot (R209). -/
def noteWrote (slot : Nat) (t : Tbl Word) (es : List Nat) (q : List PlaneEnt) : List PlaneEnt :=
  q.map (fun e => if e.slot == some slot
    then { e with wrote := es.foldl (fun o k =>
      if (tget o k).isSome then o else tput o k (tgetD t (slot * 16384 + k) 0)) e.wrote }
    else e)

/-- ACCWR (R206, R208, R209). -/
def execAccwr (f : LB) (s : State) : Host.Outcome State Fault Refusal :=
  issueOp (.accwr f) s fun x s =>
    let n := f.sub.toNat % 16
    let act := guardLanes x.w x.b.lanes f.gn f.gp.toNat
    match blockOf s x.w with
    | none => (.advance, s)
    | some b =>
      if act = 0 then (.advance, s)
      else if namePoisoned b n then (.trap (accPois act), s)
      else if relQueued s x.w.block b n then (.stall, s)
      else match mapFor x s b n none with
        | none => enqueueRequest s x b.core (.acc n none)
        | some s =>
          match ((tget s.blocks x.w.block).map (fun b => nameState b n)).getD .unmapped with
          | .mapped slot =>
            let cells := (lanesOf act).flatMap (fun l => (List.range 32).map (fun i => (accElem f i l, vread x.w (f.vd.toNat + i) l)))
            (.advance, modCore s b.core (fun c => { c with
              accs := cells.foldl (fun t e => putAcc slot t e.1 e.2) c.accs
              queue := noteWrote slot c.accs (cells.map Prod.fst) c.queue }))
          | _ => (.stall, s)

/-- MCHKRD (R213). -/
def execMchkrd (f : UB) (s : State) : Host.Outcome State Fault Refusal :=
  issueOp (.mchkrd f) s fun x s =>
    let put := fun (s : State) (ws : List Nat) => modWarp s x.wid (fun w =>
      (ws.zipIdx).foldl (fun w e => swrite w (f.sd.toNat + e.2) (BitVec.ofNat 32 e.1)) w)
    match ((blockOf s x.w).map (·.mlog)).getD [] with
    | [] => (.advance, put s [0, 0, 0, 0])
    | r :: rest => (.advance, put (modBlock s x.w.block (fun b => { b with mlog := rest }))
        [mchkWord0 r, r.info.row + 2 ^ 8 * r.info.col, if r.info.replay then r.info.expected.toNat else 0,
          r.info.observed.toNat])

/-- MISMATCH_WINDOW (R434): the window of 2^32 clocks restarts. -/
def execMismatchWindow (core : Nat) (s : State) : Host.Outcome State Fault Refusal :=
  .next (modCore s core (mismatchWindow s.clock))

/-- GOLDEN_TEST (R435): after 1 024 idle clocks and 2^31 clocks from the last test, or 2^33 clocks in any case (DESIGN CHOICE, log 43). -/
def execGoldenTest (core test : Nat) (s : State) : Host.Outcome State Fault Refusal :=
  let c := coreOf s core
  let idle := c.queue.isEmpty && decide (c.idleSince + 1024 ≤ s.clock) && decide (c.goldenLast + 2 ^ 31 ≤ s.clock)
  let overdue := decide (max c.goldenLast c.idleSince + 2 ^ 33 ≤ s.clock)
  if c.goldenRun.isSome || c.fenced || decide (80 ≤ test) || !(idle || overdue) then .next s
  else .next (modCore s core (fun c => { c with goldenRun := some test }))

/-- GOLDEN_TEST_RESULT (R435): a mismatch fences the core and sends a record. -/
def execGoldenTestResult (core : Nat) (pass : Bool) (s : State) : Host.Outcome State Fault Refusal :=
  match (coreOf s core).goldenRun with
  | none => .next s
  | some t =>
    let s := modCore s core (fun c => { c with
      goldenRun := none
      goldenLast := s.clock
      goldenPass := c.goldenPass + pass.toNat, goldenFail := c.goldenFail + (!pass).toNat })
    if pass then .next s
    else .next (fenceCore (report s (dieOfCore core) ⟨0x05, 1, none, none, ⟨1, core⟩, t, 0⟩) core 5)

end Sys2Proof.Machine
end

