-- ==== Sys2Proof/Machine/Context.lean ====
section
/-! DEFINITION. Contexts: the end of a fence (R390), the watchdog (R389), translation invalidation (R396), pre-emption, the
save and the restore of clusters (R401 to R404). -/

namespace Sys2Proof.Machine

/-- The grids of a context. -/
def gridsOfCtx (s : State) (c : Nat) : List Nat := (s.grids.filter (fun e => e.2.ctx == c)).map Prod.fst

/-- The clusters of a context, saved ones included. -/
def clustersOfCtx (s : State) (c : Nat) : List Nat :=
  (s.clusters.filter (fun e => (gridsOfCtx s c).contains e.2.grid)).map Prod.fst

/-- Whether some quadrant runs one of these warps. -/
def anyRunOf (s : State) (ws : List Nat) : Bool :=
  s.cores.any (fun c => c.runs.any (fun r => (r.map (fun r => ws.contains r.warp)).getD false))

/-- Whether a copy can still make a step; a COLL until its contribution has reached the fabric reduction engine (R390 step 2). -/
def copyMoves (s : State) (c : CopyCmd) : Bool :=
  !c.done && c.failed.isNone && !c.recvs.isEmpty &&
    (match c.kind with
     | .chan .. => false
     | .coll .. => c.buf.isEmpty && !s.fabric.colls.any (fun e => e.2.copy == some c.id)
         && (c.srcRead.isSome || (sourceBytes s (copySources c)).isSome)
     | _ => (c.srcRead.isSome || (sourceBytes s (copySources c)).isSome))

/-- The scratch accesses for which parked lanes of a context wait at absent lines are dropped with them (R390 step 1), so that
what their warps issued behind them completes. -/
def dropHeld (s : State) (c : Nat) : State :=
  let ws := warpIdsOfCtx s c
  let ids := (s.warps.filter (fun e => ws.contains e.1)).flatMap (fun e => e.2.parked.filterMap (fun p =>
    match p.cond with | .port id => some id | _ => none))
  modNet s (fun n => { n with
    loads := n.loads.filter (fun e => !(e.2.scratch && ws.contains e.2.warp && ids.contains e.1))
    ports := n.ports.filter (fun e => !((e.2.warp.map (fun w => ws.contains w)).getD false && (ids.contains e.1
      || (match e.2.op with | .load l | .atomic l => ids.contains l | .store g _ => ids.contains g | _ => false)))) })

/-- Whether work that a context has issued still acts on memory (R390 step 2): loads, stores, atomics, copies. A copy of which
only absent lines are left to fill does not (DEDUCED, log 77). -/
def ctxBusy (s : State) (c : Nat) : Bool :=
  let ws := warpIdsOfCtx s c
  let mine := fun (k : Nat) => ws.contains k
  anyRunOf s ws
    || s.net.loads.any (fun e => mine e.2.warp && !e.2.scratch)
    || s.net.flushes.any (fun e => mine e.2.warp)
    || (s.bays.flatMap (·.window) ++ s.net.nts).any (fun e => mine e.warp)
    || s.warps.any (fun w => mine w.1 && w.2.storeQ.any (fun e => match e with
        | .global .. => true
        | .port _ => false))
    || s.net.copies.any (fun e => e.2.ctx == c && (copyMoves s e.2 || s.net.cpw.any (fun p => p.grp == e.1)))

/-- A fenced context's started packets complete: KLAUNCH with status 3, SIGNAL with BADP and without a store that is not
performed (R390 step 4). -/
def endPackets (s : State) (ctx q : Nat) : State :=
  ((queueOf s q).started.filter (fun p => p.ctx == ctx)).foldl (fun s p =>
    if recField p.bytes 0 1 = 1 then endKlaunch s q p 3
    else if recField p.bytes 0 1 = 3 then
      let s := modNet s (fun n => { n with
        cpw := n.cpw.filter (fun e => !(p.grp == some e.grp && !e.performed))
        knots := n.knots.filter (fun e => e.2.taker != .signal q p.idx) })
      let s := { s with slices := s.slices.map (fun y => { y with
        knots := y.knots.map (fun k => { k with queue := k.queue.filter (fun t => t.1 != .signal q p.idx) }) }) }
      let s := match p.knot.bind (knotOf s) with
        | some (k, y) => if y.holder = some (.signal q p.idx) then giveToken s k y.krec else s
        | none => s
      failSignal s q p.idx
    else s) s

/-- The tokens of a cluster that is no more are given, and its queued takers leave (R331). -/
def endTokens (s : State) (cid : Nat) : State := giveRequests (endTaker s (.cluster cid)) (.cluster cid)

/-- What the net still carries for warps and copies that are no more. -/
def sweepNet (s : State) (ws cps : List Nat) : State :=
  let loads := (s.net.loads.filter (fun e => ws.contains e.2.warp)).map Prod.fst
  modNet s (fun n => { n with
    loads := n.loads.filter (fun e => !ws.contains e.2.warp)
    groups := n.groups.filter (fun e => !ws.contains e.2.warp)
    reqs := n.reqs.filter (fun e => !(e.2.load.map (fun l => loads.contains l)).getD false)
    ports := n.ports.filter (fun e => !(e.2.warp.map (fun w => ws.contains w)).getD false)
    copies := n.copies.filter (fun e => !cps.contains e.1)
    lines := n.lines.filter (fun e => !cps.contains e.2.copy)
    rings := n.rings.filter (fun e => !cps.contains e.2.copy)
    knots := n.knots.filter (fun e => !(e.2.warp.map (fun w => ws.contains w)).getD false)
    flushes := n.flushes.filter (fun e => !ws.contains e.2.warp) })

/-- Removes blocks with their warps from the device, the plane array queues, latches and resource queues. -/
def clearBlocks (s : State) (bs : List Nat) : State :=
  let ws := (s.warps.filter (fun e => bs.contains e.2.block)).map Prod.fst
  let s := withoutBlocks s bs
  { s with
    cores := s.cores.map (fun c => { c with
      queue := c.queue.filter (fun e => !bs.contains e.block)
      latches := c.latches.filter (fun l => !bs.contains l.block)
      resQ := c.resQ.filter (fun e => !ws.contains e.warp) }) }

/-- Whether a context has a resident block (R389): a saved one is not resident. -/
def hasResident (s : State) (c : Nat) : Bool :=
  s.blocks.any (fun e => !e.2.ended && (clustersOfCtx s c).contains e.2.cluster
    && !s.saved.any (fun v => v.cluster == e.2.cluster))

/-- What clusters that leave have released is granted to what waits for it, before anything else (R249). -/
def servedAll (s : State) : State := (List.range 192).foldl serveCore s

/-- Every block of a context ends, saved ones are discarded with their pool pages (R390 step 3). -/
def endCtx (s : State) (c : Nat) : State :=
  let gs := gridsOfCtx s c
  let cs := clustersOfCtx s c
  let ws := warpIdsOfCtx s c
  let cps := (s.net.copies.filter (fun e => e.2.ctx == c)).map Prod.fst
  let s := if hasResident s c then restartWatchdog s c else s
  let s := cs.foldl endTokens s
  let gone := ws ++ (s.saved.filter (fun v => cs.contains v.cluster)).flatMap (fun v => v.warps.map Prod.fst)
  let s := clearBlocks (sweepNet s ws cps) ((s.blocks.filter (fun e => cs.contains e.2.cluster)).map Prod.fst)
  let s := { s with
    queues := s.queues.map (fun x => { x with
      deqWait := x.deqWait.filter (fun e => !gone.contains e.1)
      enqWait := x.enqWait.filter (fun e => !gone.contains e.1) })
    grids := s.grids.filter (fun e => !gs.contains e.1)
    clusters := s.clusters.filter (fun e => !cs.contains e.1)
    saved := s.saved.filter (fun v => !cs.contains v.cluster)
    saving := s.saving.filter (fun v => !cs.contains v.cluster && !gs.contains v.forGrid)
    dies := s.dies.map (fun d => { d with
      launches := d.launches.filter (fun l => !gs.contains l.grid)
      backlog := d.backlog.filter (fun l => !gs.contains l.grid)
      placing := d.placing.filter (fun p => !cs.contains p.cluster)
      forwarded := d.forwarded.filter (fun p => !cs.contains p.cluster)
      reserved := d.reserved.filter (fun p => !gs.contains p.2) })
    fabric := { s.fabric with colls := s.fabric.colls.map (fun e =>
      (e.1, { e.2 with copy := e.2.copy.filter (fun k => !cps.contains k) })) } }
  passDue ((List.range 192).foldl fenceDrained (servedAll (roomMade (roomMade s 0) 1)))

/-- FENCE_COMPLETE (R390 steps 3 to 5): what the context had issued is done; FENCED is set and a record sent. -/
def execFenceComplete (ctx : Nat) (s : State) : Host.Outcome State Fault Refusal :=
  if !(ctxOf s ctx).fencing then .next s
  else if ctxBusy s ctx then .next (dropHeld s ctx)
  else
    let mine := fun (p : Packet) => p.ctx == ctx && decide (recField p.bytes 0 1 = 1)
    let qs := (List.range 512).filter (fun q => (queueOf s q).started.any (fun p => p.ctx == ctx))
    let t := qs.foldl (fun s q => endPackets s ctx q) s
    if qs.any (fun q => (queueOf t q).started.any mine) then .next t
    else
    let s := endCtx t ctx
    let s := modCtx s ctx (fun x => { x with
      cstat := (x.cstat ||| 1#32) &&& ~~~(0x40#32)
      fencing := false
      pool := [] })
    .next (report s 0 ⟨0x0B, 1, some ctx, none, noUnit, (ctxOf s ctx).cstat.toNat, 0⟩)

/-- Whether a context has a halted block. -/
def hasHalted (s : State) (c : Nat) : Bool :=
  s.blocks.any (fun e => e.2.halted && !e.2.ended && (clustersOfCtx s c).contains e.2.cluster)

/-- One context at the end of a watchdog period (R389): it may have had a resident block at any moment of it. `at'` is the period's last
clock. -/
def watchCtx (at' : Nat) (s : State) (c : Nat) : State :=
  let x := ctxOf s c
  let n := if (x.blockSeen || hasResident s c) && !x.haltSeen && !hasHalted s c && !x.restarted then (x.cwcnt.toNat + 1) % 2 ^ 24 else x.cwcnt.toNat
  let hit := n != x.cwcnt.toNat && x.cwdog.toNat != 0 && n == x.cwdog.toNat
  let s := modCtx s c (fun x => { x with
    cwcnt := BitVec.ofNat 32 n, restarted := false, haltSeen := hasHalted s c, blockSeen := hasResident s c })
  if hit then modCtx (startFence s c (setBit 1)) c (fun x => { x with wdogAt := some at' }) else s

/-- The end of a watchdog period (R389). -/
def periodStep (s : State) : State := { (List.range 64).foldl (watchCtx (65536 * (s.watched + 1))) s with watched := s.watched + 1 }

/-- WATCHDOG_PERIOD (R389): the oldest period that is over and has not been counted. -/
def execWatchdogPeriod (s : State) : Host.Outcome State Fault Refusal :=
  if s.watched < s.clock / 65536 then .next (periodStep s) else .next s

/-- Whether a cached translation is of a page that CINV names (R396): NPG 0 names the whole space. -/
def inInval (x : Ctx) (ctx : Nat) (e : TlbEnt) : Bool :=
  let base := x.cinvlo.toNat / 65536 * 65536 + x.cinvhi.toNat % 2 ^ 25 * 2 ^ 32
  let lo := e.base * 2 ^ levelShift e.level
  e.ctx == ctx && (x.cinvn == 0 ||
    (decide (lo < base + 65536 * x.cinvn.toNat) && decide (base < lo + 2 ^ levelShift e.level)))

/-- The accesses of a context that are under way: loads, write groups, flushes, knot requests, those of SIGNALs included, and packets of
copies and of queue engines. -/
def accessesOf (s : State) (c : Nat) : List Nat :=
  let ws := warpIdsOfCtx s c
  (s.net.loads.filter (fun e => ws.contains e.2.warp)).map Prod.fst
    ++ (s.net.groups.filter (fun e => ws.contains e.2.warp)).map Prod.fst
    ++ (s.net.knots.filter (fun e => match e.2.taker, e.2.warp with
      | .signal q n, _ => (packetOf s q n).any (fun p => p.ctx == c)
      | _, w => w.any (fun w => ws.contains w))).map Prod.fst
    ++ (s.net.cpw.filter (fun e => (entMaster s e).2 == some c)).map (·.id)

/-- An invalidation starts (R396): the caches lose the context's entries of the range (DEDUCED, log 66). -/
def startInval (s : State) (c : Nat) : State :=
  let drop := fun (t : List TlbEnt) => t.filter (fun e => !inInval (ctxOf s c) c e)
  let ids := accessesOf s c
  let s := { s with
    cores := s.cores.map (fun k => { k with tlb := drop k.tlb })
    bays := s.bays.map (fun b => { b with tlb := drop b.tlb }) }
  modCtx s c (fun x => { x with go := true, invWait := ids })

/-- Whether an access is not yet performed at its ordering point (R396 step 3). -/
def accessOpen (s : State) (id : Nat) : Bool :=
  s.net.loads.any (fun e => e.1 == id && !e.2.scratch && !allPerformed e.2)
    || s.warps.any (fun w => w.2.storeQ.any (fun e => match e with | .global g _ _ => g == id | .port _ => false))
    || (s.bays.flatMap (·.window) ++ s.net.nts ++ s.net.cpw).any (fun e => (e.id == id || e.grp == id) && !e.performed)
    || s.net.flushes.any (fun e => e.1 == id && !e.2.ranges.isEmpty)
    || s.net.knots.any (fun e => e.1 == id && !e.2.queued && e.2.resendAt.isNone && e.2.reply.isNone)

/-- INVALIDATION_COMPLETE (R396): every access translated before GO is performed, and GO reads 0. -/
def execInvalidationComplete (ctx : Nat) (s : State) : Host.Outcome State Fault Refusal :=
  let x := ctxOf s ctx
  if !x.go || x.invWait.any (accessOpen s) then .next s
  else .next (modCtx s ctx (fun x => { x with go := false, invWait := [] }))

/-- The warps of a block whose image holds them. -/
def imageWarps (s : State) (bid : Nat) : List (Nat × Warp) := (warpsOfBlock s bid).filter (fun e => !e.2.ended)

/-- The bytes of a block's image (R403). -/
def imageBytes (s : State) (r : List Byte) (bid : Nat) (b : Block) : Nat :=
  4096 + ((imageWarps s bid).map (fun e => 2560 + e.2.win * 4 * e.2.width)).foldl (· + ·) 0 + recScrg r * 4160
    + 65536 * (b.accs.filterMap slotOf).length

/-- First fit of `n` pages in a pool of `pages` pages from its second one (R403). -/
def poolFit (pool : List (Nat × Nat × Nat)) (pages n : Nat) : Option Nat :=
  let starts := 1 :: pool.map (fun e => e.2.1 + e.2.2)
  let fits := starts.filter (fun p => decide (p + n ≤ pages)
    && !pool.any (fun e => decide (e.2.1 < p + n) && decide (p < e.2.1 + e.2.2)))
  (sortBy (fun (a b : Nat) => decide (a ≤ b)) fits).head?

/-- The save pool's base. -/
def poolBase (x : Ctx) : Nat := x.csavelo.toNat / 65536 * 65536 + x.csavehi.toNat % 2 ^ 23 * 2 ^ 32

/-- Words as an image holds them, each in 4 bytes. -/
def wordBytes (n : Nat) (f : Nat → Word) : List Byte := (List.range n).flatMap (fun i => toBytes 4 (f i).toNat)

/-- A warp's sections of an image (R403): the first one, s0 to s383, the window register by register (DEDUCED, log 12). -/
def warpImage (w : Warp) : List Byte :=
  toBytes 1024 (Config.imageWarp w) ++ wordBytes 384 (sread w) ++
    wordBytes (w.win * w.width) (fun i => vread w (i / w.width) (i % w.width))

/-- A block's image (R403): its sections in the table's order, warp by warp, the accumulators by name (DEDUCED, log 12). -/
def blockImage (s : State) (r : List Byte) (bid : Nat) (b : Block) : List Byte :=
  toBytes 4096 (Config.imageHeader b (tget s.clusters b.cluster)) ++ (imageWarps s bid).flatMap (fun e => warpImage e.2) ++
    (placeBytes b 0 (4096 * recScrg r)).map Prod.fst ++ toBytes (64 * recScrg r) (Config.imageLineBits b) ++
    (b.accs.filterMap slotOf).flatMap (fun k => wordBytes 16384 (accAt (coreOf s b.core) k))

/-- The save engine writes bytes to physical memory as the context's class 6 (R383, R403); what goes to a peer package or to MMIO is
sent there. -/
def writeImage (s : State) (ctx a : Nat) (bs : List Byte) : State :=
  let mid := masterOf s ctx 6
  (grainCuts (bs.length + 1) a bs).foldl (fun s c =>
    let pa := routed s c.1
    let die := (homeDie s pa).getD 0
    if !permits s mid pa false true then denyAccess s die mid (some ctx) pa 1
    else match placeOf s pa with
      | .hbm _ | .tier _ _ => homeStore s pa c.2
      | .unbacked => unbackedAccess s die mid (some ctx) pa true
      | _ =>
        let (g, s) := nextId s
        sendStore s die (6, ctx) g pa c.2) s

/-- The pool's first page holds its allocation bitmap and image directory (R403). -/
def writeDirectory (s : State) (ctx : Nat) : State :=
  writeImage s ctx (poolBase (ctxOf s ctx)) (toBytes 65536 (Config.poolDirectory (ctxOf s ctx).pool))

/-- The images of blocks one after another, then the directory: none when one finds no room. -/
def saveImages (ctx cid : Nat) (r : List Byte) : List (Nat × Block) → State → Option State
  | [], s => some (writeDirectory s ctx)
  | (bid, b) :: bs, s =>
    let pages := (imageBytes s r bid b + 65535) / 65536
    let x := ctxOf s ctx
    (poolFit x.pool (x.cssize.toNat % 2 ^ 24) pages).bind fun p =>
      let s := modCtx s ctx (fun x => { x with pool := x.pool ++ [(cid, p, pages)] })
      saveImages ctx cid r bs (writeImage s ctx (poolBase x + 65536 * p) (blockImage s r bid b))

/-- The blocks of a cluster that have not ended. -/
def liveBlocks (s : State) (cid : Nat) : List (Nat × Block) := s.blocks.filter (fun e => e.2.cluster == cid && !e.2.ended)

/-- Whether work of a cluster is under way (R401 steps 1 and 3). -/
def clusterBusy (s : State) (cid : Nat) : Bool :=
  let bs := liveBlocks s cid
  let ws := s.warps.filter (fun e => (bs.map Prod.fst).contains e.2.block)
  let ids := ws.map Prod.fst
  let here := fun (p : SPlace) => p.cluster == cid
  anyRunOf s ids
    || ws.any (fun e => e.2.ld != 0 || e.2.st != 0 || e.2.cp != 0 || !e.2.storeQ.isEmpty || e.2.arrives.any (fun a => a.2.pending))
    || s.net.ports.any (fun e => here e.2.place)
    || s.net.lines.any (fun e => here e.2.place)
    || s.net.rings.any (fun e => here e.2.ring)
    || s.net.copies.any (fun e => !e.2.done && !e.2.recvs.isEmpty && (e.2.cluster == cid || e.2.recvs.any (fun r => here r.ring)))
    || s.net.knots.any (fun e => !e.2.queued && e.2.resendAt.isNone && (e.2.warp.map (fun w => ids.contains w)).getD false)
    || s.cores.any (fun c => c.queue.any (fun q => (bs.map Prod.fst).contains q.block))
    || bs.any (fun b => !b.2.oddEvents.isEmpty || !b.2.oddAccs.isEmpty)

/-- Whether parked lanes wait with an instruction that is set back to be issued again (R401 step 2), or whose wait is over
with the work that is done. -/
def setBack (p : Parked) : Bool := match p.cond with | .resource | .knot _ | .lines _ => true | _ => false

/-- A warp as its image holds it (R401): waiting instructions set back, no counter, no sleep; of a sub-braid's ready clocks what has
passed of them (R242). -/
def savedWarp (clock : Nat) (w : Warp) : Warp :=
  let w := endSleeps { w with
    parked := w.parked.map (fun p => if setBack p then { p with next := p.pc } else p)
    mx := 0, cwCls := 0, cwDie := 0, cwDev := 0, cwSys := 0, release := none, drain := false, acqLoad := none }
  let w := releaseLanes w setBack (BitVec.allOnes 64) clock
  { w with braids := w.braids.map (fun b => { b with readySince := clock - b.readySince }) }

/-- A block as its image holds it (R401 step 2): the signatures of rounds that are not complete are withdrawn, to be made again. -/
def savedBlock (b : Block) : Block :=
  { b with
    again := b.again ++ (b.hitches.zipIdx).flatMap (fun h => match h.1.key with
      | none => []
      | some k => h.1.sigs.map (fun g => (h.2, k, g)))
    hitches := b.hitches.map (fun h => { h with key := none, sigs := [] }) }

/-- What the package holds of a cluster's waits is withdrawn (R401 step 2): knot requests, channel claims not granted, entries of the
resource queues (DEDUCED, log 65). Parked DEQs and ENQs keep their places (R148). -/
def withdraw (s : State) (ids : List Nat) : State :=
  let mine := fun (o : Option Nat) => (o.map (fun w => ids.contains w)).getD false
  let gone := (s.net.knots.filter (fun e => mine e.2.warp)).map Prod.fst
  let sends := (s.net.copies.filter (fun e => ids.contains e.2.warp && e.2.recvs.isEmpty)).map Prod.fst
  let s := { s with
    slices := s.slices.map (fun y => { y with
      knots := y.knots.map (fun k => { k with queue := k.queue.filter (fun t => !gone.contains t.2) }) })
    blocks := s.blocks.map (fun e => (e.1, { e.2 with chWait := e.2.chWait.filter (fun t => !sends.contains t.2) }))
    cores := s.cores.map (fun c => { c with resQ := c.resQ.filter (fun e => !ids.contains e.warp) }) }
  modNet s (fun n => { n with knots := n.knots.filter (fun e => !gone.contains e.1) })

/-- The accumulator contents of a block's names. -/
def accsOf (s : State) (bid : Nat) (b : Block) : List (Nat × Nat × Tbl Word) :=
  (b.accs.filterMap slotOf).map (fun k => (bid, k, (coreOf s b.core).accs.filter (fun e => e.1 / 16384 == k)))

/-- The names of a block whose slots are of its reservation (R206). -/
def reservedNames (s : State) (bid : Nat) (b : Block) : List (Nat × Nat) :=
  ((b.accs.zipIdx).filter (fun e => match slotOf e.1 with
    | some k => ((coreOf s b.core).accOwner.getD k none) == some (bid, 32 + e.2)
    | none => false)).map (fun e => (bid, e.2))

/-- A cluster as its images hold it. -/
def savedOf (s : State) (cid : Nat) : Saved :=
  let bs := liveBlocks s cid
  let ws := s.warps.filter (fun e => (bs.map Prod.fst).contains e.2.block && !e.2.ended)
  ⟨cid, bs.map (fun e => (e.1, savedBlock e.2)), ws.map (fun e => (e.1, savedWarp s.clock e.2)),
    bs.flatMap (fun e => accsOf s e.1 e.2), bs.flatMap (fun e => reservedNames s e.1 e.2)⟩

/-- PREEMPT_SAVE (R401 to R403): the cluster's work is done, its waits are set back and its images written. A save that finds
no room fences the context with SAVEF. -/
def execPreemptSave (cluster : Nat) (s : State) : Host.Outcome State Fault Refusal :=
  match (tget s.clusters cluster).bind (fun c => tget s.grids c.grid) with
  | none => .next s
  | some g =>
    let x := ctxOf s g.ctx
    if !s.saving.any (fun v => v.cluster == cluster) || s.saved.any (fun v => v.cluster == cluster) || x.fencing
        || clusterBusy s cluster then .next s
    else
      let v := savedOf s cluster
      match saveImages g.ctx cluster g.record v.blocks s with
      | none => .next (startFence s g.ctx (setBit 3))
      | some s => .next { withdraw s (v.warps.map Prod.fst) with saved := s.saved ++ [v] }

/-- A launch's saved clusters, the lowest-numbered first (R370): its first one has waited since it came to be first (DEDUCED, log 115). -/
def addSaved (s : State) (cid : Nat) (l : Launch) : Launch :=
  let index := fun (c : Nat) => ((tget s.clusters c).map (·.index)).getD 0
  let saved := sortBy (fun a b => decide (index a ≤ index b)) (l.saved.filter (fun c => c != cid) ++ [cid])
  { l with saved := saved, waitSince := if saved.head? = some cid then s.clock else l.waitSince }

/-- A launch goes on with a saved cluster, in its place of the list (R373); one that has left a list which is full now waits in front of
it (R363, R367). -/
def relaunch (s : State) (gid cid : Nat) (g : Grid) : State :=
  let mine := fun (l : Launch) => l.grid == gid
  let d := dieOf s g.die
  let back : Launch := ⟨gid, g.prio, recPrio g.record, g.entered, recGrid g.record, [cid], g.noWait, s.clock⟩
  if d.launches.any mine then modLaunch s g.die gid (addSaved s cid)
  else if d.backlog.any mine then
    modDie s g.die (fun d => { d with backlog := d.backlog.map (fun l => if mine l then addSaved s cid l else l) })
  else if 64 ≤ d.launches.length then modDie s g.die (fun d => { d with backlog := d.backlog ++ [back] })
  else modDie s g.die (fun d => { d with launches := sortBy launchBefore (d.launches ++ [back]) })

/-- Whether a write of a context's image is on its way to a peer package or to MMIO. -/
def imageAway (s : State) (ctx : Nat) : Bool := s.net.cpw.any (fun e => e.actor == some (6, ctx) && !e.performed)

/-- SAVE_COMPLETE (R401 step 5): the images are written, the cores' resources are released, and a pass is due. -/
def execSaveComplete (cluster : Nat) (s : State) : Host.Outcome State Fault Refusal :=
  match (tget s.clusters cluster).bind (fun c => (tget s.grids c.grid).map (fun g => (c.grid, g))) with
  | none => .next s
  | some (gid, g) =>
    if !s.saving.any (fun v => v.cluster == cluster) || !s.saved.any (fun v => v.cluster == cluster) || imageAway s g.ctx then .next s
    else
      let s := relaunch (clearBlocks s (liveOf s [cluster])) gid cluster g
      let s := { s with saving := s.saving.filter (fun v => v.cluster != cluster) }
      .next (passDue ((List.range 192).foldl fenceDrained (servedAll s)))

/-- A restored warp goes on (R297, R404): its counters are 0; what has come meanwhile ends its waits. -/
def resumeWarp (s : State) (wid : Nat) : State :=
  match tget s.warps wid with
  | none => s
  | some w =>
    let s := modWarp s wid (fun w => { w with
      mx := 0, acqClock := s.clock, braids := w.braids.map (fun b => { b with readySince := s.clock - b.readySince }) })
    let s := reissue s wid (fun p => match p.cond with | .launch .. => true | _ => false)
    let s := unpark s wid (fun p => match p.cond with | .phase .grid was => was != phaseOf s w .grid | _ => false)
    takeParked s wid .grid

/-- The save engine reads an image back as the context's class 6 (R383, R404): bytes with their poison, grain by grain. -/
def readImage (s : State) (ctx a n : Nat) : List (Byte × Bool) × State :=
  (List.range (n / 32)).foldl (fun (t : List (Byte × Bool) × State) i =>
    let pa := routed t.2 (a + 32 * i)
    let r := masterBytes t.2 ((homeDie t.2 pa).getD 0) (devPort t.2 pa) (masterOf t.2 ctx 6) (some ctx) (a + 32 * i) 32
    (t.1 ++ r.1.map (fun b => (b, r.2.1)), r.2.2)) ([], s)

/-- Word i of image bytes, and its poison. -/
def imageWord (bs : List (Byte × Bool)) (i : Nat) : Word × Bool :=
  let f := poisField bs (4 * i) 4
  (BitVec.ofNat 32 f.1, f.2)

/-- A warp's registers from an image (R404), `bs` from its s0 on at address `a`: a poisoned word leaves its register marked (R157)
(DESIGN CHOICE, log 12). -/
def fillWarp (clock a : Nat) (bs : List (Byte × Bool)) (w : Warp) : Warp :=
  let w := (List.range 384).foldl (fun w i =>
    let x := imageWord bs i
    if x.2 then { w with smarks := tput w.smarks i ⟨a + 4 * i, clock⟩ } else { w with sregs := tputD w.sregs i x.1 0 }) w
  (List.range (w.win * w.width)).foldl (fun w i =>
    let x := imageWord (bs.drop 1536) i
    let k := i / w.width * 64 + i % w.width
    if x.2 then { w with marks := tput w.marks k ⟨a + 1536 + 4 * i, clock⟩ } else { w with vregs := tputD w.vregs k x.1 0 }) w

/-- A block's scratch from an image (R404): a poisoned byte poisons its line. -/
def fillScratch (bs : List (Byte × Bool)) (b : Block) : Block :=
  { b with
    scratch := setBytes b.scratch 0 (bs.map Prod.fst)
    linePois := ((List.range (bs.length / 128)).filter (fun l =>
      !b.linePois.contains l && ((bs.drop (128 * l)).take 128).any Prod.snd)) ++ b.linePois }

/-- An accumulator name's elements from an image (R404): a poisoned one poisons the name (R212). -/
def fillAcc (s : State) (bid core n slot : Nat) (bs : List (Byte × Bool)) : State :=
  let s := modCore s core (fun c => { c with accs := (List.range 16384).foldl (fun t e => putAcc slot t e (imageWord bs e).1) c.accs })
  if bs.any Prod.snd then poisonName s bid n slot else s

/-- What a restored block holds is what its image, read at `a`, says (R404); the sections without a layout are as they were saved
(log 12). -/
def loadImage (s : State) (r : List Byte) (bid a : Nat) (bs : List (Byte × Bool)) : State :=
  let t := (imageWarps s bid).foldl (fun (t : Nat × State) e =>
    (t.1 + 2560 + e.2.win * 4 * e.2.width,
      modWarp t.2 e.1 (fillWarp s.clock (a + t.1 + 1024) (bs.drop (t.1 + 1024))))) (4096, s)
  let n := 4096 * recScrg r
  let s := modBlock t.2 bid (fillScratch ((bs.drop t.1).take n))
  match tget s.blocks bid with
  | none => s
  | some b =>
    let names := (b.accs.zipIdx).filterMap (fun e => (slotOf e.1).map (fun k => (e.2, k)))
    (names.zipIdx).foldl (fun s e => fillAcc s bid b.core e.1.1 e.1.2 ((bs.drop (t.1 + 4160 * recScrg r + 65536 * e.2)).take 65536)) s

/-- The images of a cluster's blocks are read from its pages of the pool, in the order in which they were saved. -/
def loadImages (s : State) (ctx cid : Nat) (r : List Byte) (bs : List Nat) : State :=
  (bs.zip ((ctxOf s ctx).pool.filter (fun e => e.1 == cid))).foldl (fun s e =>
    match tget s.blocks e.1 with
    | none => s
    | some b =>
      let a := poolBase (ctxOf s ctx) + 65536 * e.2.2.1
      let x := readImage s ctx a (imageBytes s r e.1 b)
      loadImage x.2 r e.1 a x.1) s

/-- RESTORE (R404): a saved cluster that stands on its new cores takes what its images hold and goes on; its pool pages are free and
HOLDER of its tokens is rewritten. It can be a victim from now on, so a pass is due (R372, R374) (DEDUCED, log 131). -/
def execRestore (cluster : Nat) (s : State) : Host.Outcome State Fault Refusal :=
  match s.saved.find? (fun v => v.cluster == cluster), (tget s.clusters cluster).bind (fun c => tget s.grids c.grid) with
  | some v, some g =>
    let bs := v.blocks.map Prod.fst
    if s.saving.any (fun x => x.cluster == cluster)
        || !bs.all (fun k => ((tget s.blocks k).map (fun b => !onTheWay s b)).getD false) then .next s
    else
      let s := loadImages s g.ctx cluster g.record bs
      let s := writeDirectory (modCtx s g.ctx (fun x => { x with pool := x.pool.filter (fun e => e.1 != cluster) })) g.ctx
      let s := { s with saved := s.saved.filter (fun x => x.cluster != cluster) }
      let s := bs.foldl (fun s k => modBlock s k (fun b => { b with started := true })) s
      let s := (s.slices.flatMap (·.knots)).foldl (fun s k =>
        if k.holder == some (.cluster cluster) then writeKnot s k.krec 3 k.holder else s) s
      let s := (v.warps.map Prod.fst).foldl resumeWarp s
      .next (passDue ((List.range 512).foldl (fun s q => serveQueue s q) s))
  | _, _ => .next s

end Sys2Proof.Machine
end

