-- ==== Sys2Proof/Machine/Control.lean ====
section
/-! DEFINITION. Control transfer, reconvergence, elastic warps, special registers and traps (R125 to R146), and NOP
(R86). -/

namespace Sys2Proof.Machine

/-- NOP (R86): only the PC advances. -/
def execNop (e : Bool) (s : State) : Host.Outcome State Fault Refusal := issueWarp (.nop e) s (fun _ w => w)

/-- BRA (R127): every issuing lane moves to the target. -/
def execBra (f : UJ) (s : State) : Host.Outcome State Fault Refusal :=
  issueOp (.bra f) s (fun x s => (.jump (relTarget x.b.pc (.bra f) f.off.toInt), s))

/-- The conditions of BRC (R127). -/
def brcCond (sub : Nat) (v : Word) : Bool :=
  match sub with
  | 0 => v == 0
  | 1 => v != 0
  | 2 => decide (v.toInt < 0)
  | 3 => decide (0 ≤ v.toInt)
  | 4 => decide (0 < v.toInt)
  | _ => decide (v.toInt ≤ 0)

/-- BRC (R127): every issuing lane moves when the condition holds. -/
def execBrc (f : UI) (s : State) : Host.Outcome State Fault Refusal :=
  issueOp (.brc f) s (fun x s =>
    if brcCond f.sub.toNat (sread x.w f.sa.toNat) then (.jump (relTarget x.b.pc (.brc f) f.imm.toInt), s)
    else (.advance, s))

/-- CALL (R128): the return address goes to s382 and s383. -/
def execCall (f : UJ) (s : State) : Host.Outcome State Fault Refusal :=
  issueOp (.call f) s (fun x s =>
    (.jump (relTarget x.b.pc (.call f) f.off.toInt),
      modWarp s x.wid (fun w => swriteN w 382 2 (nextPc x.b.pc (.call f)).toNat)))

/-- The transfer of RET and JMPI to the address in a scalar pair (R128). -/
def jumpPair (x : Issue) (sa : Nat) (s : State) : Verdict × State :=
  let t := spair x.w sa
  if t % 4 = 0 then (.jump (BitVec.ofNat 57 t), s) else (.trap ⟨cALIGN, x.b.lanes, t, 4, false, false⟩, s)

/-- ALIGN precedes POIS (R43); then RET's or JMPI's transfer. -/
def jumpOp (i : Instr) (sa : Nat) (s : State) : Host.Outcome State Fault Refusal :=
  issue i s (fun x s =>
    if spair x.w sa % 4 = 0 then (match poisOf x s with | some r => r | none => jumpPair x sa s) else jumpPair x sa s)

/-- RET (R128). -/
def execRet (f : UA) (s : State) : Host.Outcome State Fault Refusal := jumpOp (.ret f) f.sa.toNat s
/-- JMPI (R128). -/
def execJmpi (f : UA) (s : State) : Host.Outcome State Fault Refusal := jumpOp (.jmpi f) f.sa.toNat s

/-- The word offset of BRP (R129). -/
def brpOffset (f : LB) : Int := toSigned 24 (f.vd.toNat * 65536 + f.vb.toNat * 256 + f.vc.toNat)

/-- BRP (R129, R236): each active lane moves to the target; the sub-braid splits when some lanes do not. -/
def execBrp (f : LB) (s : State) : Host.Outcome State Fault Refusal :=
  issueOp (.brp f) s (fun x s =>
    let act := guardLanes x.w x.b.lanes f.gn f.gp.toNat
    let next := nextPc x.b.pc (.brp f)
    let tgt := relTarget x.b.pc (.brp f) (brpOffset f)
    if act = x.b.lanes then (.jump tgt, s)
    else if act = 0 then (.jump next, s)
    else (.placed true, modWarp s x.wid (fun w => splitBraid (advanceBraid w x.b.id next) x.b act next tgt s.clock)))

/-- EXIT (R130): ends every issuing lane. -/
def execExit (f : UA) (s : State) : Host.Outcome State Fault Refusal :=
  issueOp (.exit f) s (fun x s => (.placed true, exitOp s x.wid x.b.lanes))

/-- Lanes whose nesting counter stands at a value. -/
def nestAt (w : Warp) (m : Mask) (v : Nat) : Mask := maskOf ((lanesOf m).filter (fun l => nestOf w l == v))

/-- JOIN (R132). -/
def execJoin (f : UA) (s : State) : Host.Outcome State Fault Refusal :=
  issueOp (.join f) s (fun x s =>
    let full := nestAt x.w x.b.lanes 255
    if full != 0 then (.trap (trapOf cNEST full f.sd.toNat), s)
    else (.advance, modWarp s x.wid (fun w =>
      nestUp (mwrite w f.sd.toNat (mread w f.sd.toNat ||| x.b.lanes)) x.b.lanes)))

/-- LEAVE (R133). -/
def execLeave (f : UA) (s : State) : Host.Outcome State Fault Refusal :=
  issueOp (.leave f) s (fun x s =>
    let m := x.b.lanes &&& mread x.w f.sd.toNat
    let empty := nestAt x.w m 0
    if empty != 0 then (.trap (trapOf cNEST empty f.sd.toNat), s)
    else (.advance, settleWarp (modWarp s x.wid (fun w =>
      nestDown (mwrite w f.sd.toNat (mread w f.sd.toNat &&& ~~~m)) m)) x.wid))

/-- WAIT (R134): issuing members park; the others go on. -/
def execWait (f : UA) (s : State) : Host.Outcome State Fault Refusal :=
  issueOp (.wait f) s (fun x s =>
    let m := x.b.lanes &&& mread x.w f.sd.toNat
    if m = 0 then (.advance, settleWarp s x.wid)
    else (.placed (m == x.b.lanes), settleWarp (parkIssuing s x m (.mask f.sd.toNat)) x.wid))

/-- MOPS (R136): what it writes; then WAITs are re-examined (R134). -/
def mopsWarp (f : UA) (issuing : Mask) (w : Warp) : Warp :=
  let k := f.sd.toNat
  let j := mread w f.sa.toNat
  match f.sub.toNat with
  | 0 => mwrite w k 0
  | 1 => mwrite w k (liveMask w)
  | 2 => mwrite w k j
  | 3 => mwrite w k (mread w k &&& j)
  | 4 => mwrite w k (mread w k ||| j)
  | 5 => mwrite w k (mread w k &&& ~~~j)
  | 6 => mwrite w k issuing
  | 7 => swriteN w k 2 j.toNat
  | 8 => mwrite w k (BitVec.ofNat 64 (sreadN w f.sa.toNat 2))
  | _ => swrite w k (BitVec.ofNat 32 (lanesOf j).length)

/-- MOPS (R136). -/
def execMops (f : UA) (s : State) : Host.Outcome State Fault Refusal :=
  issueOp (.mops f) s (fun x s => (.advance, settleWarp (modWarp s x.wid (mopsWarp f x.b.lanes)) x.wid))

/-- BRK (R145). -/
def execBrk (f : UA) (s : State) : Host.Outcome State Fault Refusal :=
  issueOp (.brk f) s (fun x s => (.trap (trapOf cBRK x.b.lanes 0), s))

/-- TRAP (R145). -/
def execTrap (f : UB) (s : State) : Host.Outcome State Fault Refusal :=
  issueOp (.trap f) s (fun x s => (.trap (trapOf cTRAPI x.b.lanes f.imm.toNat), s))

/-- ERET (R146, R400). A deadlock that remains raises RECON again when the lanes execute their WAITs. -/
def execEret (f : UA) (s : State) : Host.Outcome State Fault Refusal :=
  issueOp (.eret f) s (fun x s =>
    (.placed true, eretDone x.wid x.w x.b.lastGrant (eretFetch s x.w)))

/-- YIELD (R138): the sub-braid counts as the most recently granted one. -/
def execYield (f : UA) (s : State) : Host.Outcome State Fault Refusal :=
  issueOp (.yield f) s (fun x s =>
    (.jump (nextPc x.b.pc (.yield f)),
      modWarp s x.wid (fun w => modBraid w x.b.id (fun b => { b with lastGrant := s.clock }))))

/-- SLEEPC (R138): the sub-braid sleeps, but in a halted block (R450). -/
def execSleepc (f : UB) (s : State) : Host.Outcome State Fault Refusal :=
  issueOp (.sleepc f) s (fun x s =>
    let d := min (f.imm.toNat + (if f.sub = 1 then (sread x.w f.sa.toNat).toNat else 0)) 1048575
    (.jump (nextPc x.b.pc (.sleepc f)),
      modWarp s x.wid (fun w => modBraid w x.b.id (fun b => { b with
        wake := if (blockOf s x.w).any (·.halted) then 0 else s.clock + d }))))

/-- WAITC (R137): it issues once its counter has fallen; on MX it delivers a pending MCHK, outside trap mode (R399). -/
def execWaitc (f : UB) (s : State) : Host.Outcome State Fault Refusal :=
  issueOp (.waitc f) s (fun x s =>
    match if f.sub.toNat = 3 ∧ !x.w.trapMode then x.w.mchk else none with
    | some n => (.trap (trapOf cMCHK x.b.lanes n), modWarp s x.wid (fun w => { w with mchk := none }))
    | none => (.advance, s))

/-- ATTACH (R139, R140). -/
def execAttach (f : UI) (s : State) : Host.Outcome State Fault Refusal :=
  issueOp (.attach f) s (fun x s =>
    let label := relTarget x.b.pc (.attach f) (toSigned 16 (f.imm.toNat % 65536))
    let members := f.imm.extractLsb' 16 16
    let args := (List.range 32).map (sread x.w)
    let c := (sread x.w f.sa.toNat).toNat
    if f.sub = 0 then
      let r := attachAll x.w label members args x.w.fctl (attachMax s x.w c) s
      (.advance, modWarp r.2 x.wid (fun w => swrite w f.sd.toNat (BitVec.ofNat 32 r.1)))
    else
      let q := ResReq.attach f.sd.toNat c label members args
      match requestNow s x x.w.core q with
      | some s => (.advance, s)
      | none => enqueueRequest s x x.w.core q)

/-- DETACH (R141). -/
def execDetach (f : UA) (s : State) : Host.Outcome State Fault Refusal :=
  issueOp (.detach f) s (fun x s => (.placed true, settleWarp (parkIssuing s x x.b.lanes .detach) x.wid))

/-- REGGROW (R142). -/
def execReggrow (f : UA) (s : State) : Host.Outcome State Fault Refusal :=
  issueOp (.reggrow f) s (fun x s =>
    if 8 * f.sa.toNat ≤ x.w.win then
      (.advance, modWarp s x.wid (fun w => swrite w f.sd.toNat (BitVec.ofNat 32 x.w.win)))
    else
      let q := ResReq.grow f.sd.toNat f.sa.toNat
      match requestNow s x x.w.core q with
      | some s => (.advance, s)
      | none => enqueueRequest s x x.w.core q)

/-- Loads of a warp still parked at a scratch port no longer reach registers that have left the window (R24). -/
def trimLoads (s : State) (wid win : Nat) : State :=
  modNet s (fun n => { n with loads := n.loads.map (fun e =>
    (e.1, if e.2.warp == wid then { e.2 with top := min e.2.top win } else e.2)) })

/-- REGSHRINK (R142): the granules that leave can serve a waiting request or a placement at once. -/
def execRegshrink (f : UA) (s : State) : Host.Outcome State Fault Refusal :=
  issueOp (.regshrink f) s (fun x s =>
    if x.w.win ≤ 8 * f.sa.toNat then
      (.advance, modWarp s x.wid (fun w => swrite w f.sd.toNat (BitVec.ofNat 32 x.w.win)))
    else
      let s := modWarp s x.wid (fun w =>
        swrite (setWindow w (8 * f.sa.toNat)) f.sd.toNat (BitVec.ofNat 32 (8 * f.sa.toNat)))
      (.advance, passDue (servePair (trimLoads s x.wid (8 * f.sa.toNat)) x.w.core)))

/-- The code of a width in WARP (R37). -/
def widthCode (width : Nat) : Nat := if width = 16 then 0 else if width = 32 then 1 else 2

/-- The special registers that are one value for the warp (R34 to R41). -/
def sregValue (s : State) (w : Warp) (n : Nat) : Nat :=
  match n with
  | 0x02 => w.widx + 2 ^ 8 * quadOf w.slot + 2 ^ 10 * widthCode w.width + 2 ^ 12 * w.slot
  | 0x03 => (((blockOf s w).bind (fun b => (tget s.clusters b.cluster).map (fun c =>
      c.index * recCsize (recordOf s w) + b.rank))).getD 0)
  | 0x04 => ((blockOf s w).map (·.rank)).getD 0
  | 0x05 => w.core % 96
  | 0x06 => bayOfCore w.core % 8
  | 0x07 => dieOfCore w.core
  | 0x08 => s.clock
  | 0x09 => w.clkhi.toNat
  | 0x10 => w.fstat.toNat
  | 0x11 => w.fctl.toNat
  | 0x18 => w.role
  | 0x19 => (48 - (slotsUsed s w.core).length) + 2 ^ 8 * sumTo 4 (granulesFree s w.core)
  | 0x1A => w.win
  | 0x20 => w.epc.toNat
  | 0x21 => w.epc.toNat / 2 ^ 32
  | 0x22 => w.ecause.toNat
  | 0x23 => w.emask.toNat
  | 0x24 => w.emask.toNat / 2 ^ 32
  | 0x25 => w.eaddr.toNat
  | 0x26 => w.eaddr.toNat / 2 ^ 32
  | 0x27 => w.etval.toNat
  | 0x28 => ((blockOf s w).map (fun b => b.mstat.toNat)).getD 0
  | 0x30 => w.cwCls
  | 0x31 => w.cwDie
  | 0x32 => w.cwDev
  | 0x33 => w.cwSys
  | _ => w.ld + 2 ^ 8 * w.st + 2 ^ 16 * w.cp + 2 ^ 24 * w.mx

/-- A special register as lane l reads it. -/
def sregLane (s : State) (w : Warp) (n l : Nat) : Word :=
  match n with
  | 0 => BitVec.ofNat 32 l
  | 1 => BitVec.ofNat 32 (nestOf w l)
  | n => BitVec.ofNat 32 (sregValue s w n)

/-- A read of CLKLO latches the high half (R36). -/
def latchClock (s : State) (w : Warp) (n : Nat) : Warp :=
  if n = 0x08 then { w with clkhi := BitVec.ofNat 32 (s.clock / 2 ^ 32) } else w

/-- SRD (R143). -/
def execSrd (f : UB) (s : State) : Host.Outcome State Fault Refusal :=
  issueOp (.srd f) s (fun x s =>
    let n := f.imm.toNat
    (.advance, modWarp s x.wid (fun w =>
      let w := latchClock s w n
      if f.sub = 0 then swrite w f.sd.toNat (sregLane s x.w n 0)
      else (lanesOf x.b.lanes).foldl (fun w l => vwrite w f.sd.toNat l (sregLane s x.w n l)) w)))

/-- Replaces the low or the high word of an address or mask. -/
def setHalf {n : Nat} (hi : Bool) (v : Word) (x : BitVec n) : BitVec n :=
  if hi then BitVec.ofNat n (x.toNat % 2 ^ 32 + v.toNat * 2 ^ 32)
  else BitVec.ofNat n (x.toNat / 2 ^ 32 * 2 ^ 32 + v.toNat)

/-- SWR's effect on the warp, field by field (R13, R38, R41). -/
def swrWarp (n : Nat) (v : Word) (w : Warp) : Warp :=
  match n with
  | 0x10 => { w with fstat := w.fstat &&& ~~~(v &&& 0x7F) }
  | 0x11 => { w with fctl := v &&& 7 }
  | 0x20 => { w with epc := setHalf false v w.epc }
  | 0x21 => { w with epc := setHalf true v w.epc }
  | 0x22 => { w with ecause := v &&& 0xFF }
  | 0x23 => { w with emask := setHalf false v w.emask }
  | 0x24 => { w with emask := setHalf true v w.emask }
  | 0x25 => { w with eaddr := setHalf false v w.eaddr }
  | 0x26 => { w with eaddr := setHalf true v w.eaddr }
  | 0x27 => { w with etval := v }
  | _ => w

/-- SWR (R143): MSTAT is the block's (R40). -/
def execSwr (f : UB) (s : State) : Host.Outcome State Fault Refusal :=
  issueOp (.swr f) s (fun x s =>
    let v := sread x.w f.sa.toNat
    if f.imm.toNat = 0x28 then
      (.advance, modBlock s x.w.block (fun b => { b with mstat := b.mstat &&& ~~~(v &&& 0x70000) }))
    else (.advance, modWarp s x.wid (swrWarp f.imm.toNat v)))

end Sys2Proof.Machine
end

