-- ==== Sys2Proof/Machine/Cross.lean ====
section
/-! DEFINITION. The cross-lane instructions (R114, R116, R118 to R122) and tile transposition (R214, R215). -/

namespace Sys2Proof.Machine

/-- The stochastic rounding key of an element (R65): s[b], s[b+1] and the index s[b+2] + k. -/
def srLaneKey (w : Warp) (b k : Nat) : Nat :=
  srKey (sread w b).toNat (sread w (b + 1)).toNat ((sread w (b + 2)).toNat + k)

/-- One K-block group of QPLANE (R114): lane l = 32g + j gets plane j, the scale (j = 8) or 0. -/
def qplaneGroup (w : Warp) (f : LB) (act : Mask) (g : Nat) : (Nat → Nat) × Word :=
  let p := f.sub.toNat % 8 + 1
  let xs := (List.range 32).map (fun j =>
    if inMask act (32 * g + j) then fOperand (fctlFtz w) fp32 (vread w f.va.toNat (32 * g + j)).toNat
    else FVal.fin false 0 0)
  let mode := fun j => if bit f.sub.toNat 3 then RMode.sr (srLaneKey w f.vb.toNat (32 * g + j)) else RMode.rne
  let r := quantise p mode xs
  (fun j => if j < p then planeImage p j r.2.1 else if j = 8 then r.1 else 0, r.2.2)

/-- QPLANE (R114): quantises each group of 32 lanes to planes and a scale. -/
def execQplane (f : LB) (s : State) : Host.Outcome State Fault Refusal :=
  issueWarp (.qplane f) s (fun x w =>
    let act := guardLanes w x.b.lanes f.gn f.gp.toNat
    let groups := (List.range (w.width / 32)).map (fun g => qplaneGroup w f act g)
    laneEffect w act (.regs f.vd.toNat 1) (fun l =>
      let g := groups.getD (l / 32) (fun _ => 0, 0)
      (g.1 (l % 32), g.2)))

/-- SRND (R116): rounds a lane's FP32 value stochastically. -/
def execSrnd (f : LB) (s : State) : Host.Outcome State Fault Refusal :=
  issueWarp (.srnd f) s (fun x w =>
    laneEffect w (guardLanes w x.b.lanes f.gn f.gp.toNat) (.regs f.vd.toNat 1) (fun l =>
      let d := ecOf f.sub.toNat
      let r := convElem (.flt fp32) d.num ⟨.sr (srLaneKey w f.vb.toNat l), fctlFtz w, f.sat⟩ (vread w f.va.toNat l).toNat
      (placeNarrow d.num r.1, r.2)))

/-- The source lane of XLANE (R118) for lane l with b in segments of `seg` lanes; l itself where there is none. -/
def xlaneSrc (mode seg l b : Nat) : Nat :=
  let base := l - l % seg
  let i := l % seg
  let n := b % seg
  match mode with
  | 0 => base + n
  | 1 => if b ≤ i then l - b else l
  | 2 => if i + b < seg then l + b else l
  | 3 => base + (i ^^^ n)
  | 4 => base + (i + seg - n) % seg
  | 5 => base + (i + n) % seg
  | _ => base + (seg - 1 - i)

/-- XLANE (R118): moves values between lanes within segments (DEDUCED, log 27). -/
def execXlane (f : LB) (s : State) : Host.Outcome State Fault Refusal :=
  issueWarp (.xlane f) s (fun x w =>
    let act := guardLanes w x.b.lanes f.gn f.gp.toNat
    let n := opdCount .byT f.t.toNat
    laneEffect w act (.regs f.vd.toNat n) (fun l =>
      let b := if f.sub.toNat % 8 = 6 then 0 else lbSource w f l n
      let k := xlaneSrc (f.sub.toNat % 8) (2 ^ (f.sub.toNat / 8)) l b
      (vreadN w f.va.toNat (if inMask act k then k else l) n, 0)))

/-- A result of PEER (R119): the mask, lead, count or rank of the lanes `g` that match lane l. -/
def peerResult (sub : Nat) (g : List Nat) (l : Nat) : Nat :=
  match sub with
  | 0 => (maskOf g).toNat
  | 1 => g.headD 0
  | 2 => g.length
  | _ => (g.filter (fun k => k < l)).length

/-- PEER (R119): finds the active lanes with the same value. -/
def execPeer (f : LB) (s : State) : Host.Outcome State Fault Refusal :=
  issueWarp (.peer f) s (fun x w =>
    let act := guardLanes w x.b.lanes f.gn f.gp.toNat
    let n := opdCount .byT f.t.toNat
    laneEffect w act (.regs f.vd.toNat (if f.sub == 0 && w.width == 64 then 2 else 1)) (fun l =>
      (peerResult f.sub.toNat
        ((lanesOf act).filter (fun k => vreadN w f.va.toNat k n == vreadN w f.va.toNat l n)) l, 0)))

/-- QPOLL (R120): polls a predicate over the active lanes. Under GP = 7 with GN = 1 QPOLL.maskm changes no mask (R79); another guard that
enables no lane writes 0 (DEDUCED, log 102). -/
def execQpoll (f : LB) (s : State) : Host.Outcome State Fault Refusal :=
  issueWarp (.qpoll f) s (fun x w =>
    let act := guardLanes w x.b.lanes f.gn f.gp.toNat
    let q := predMask w f.va.toNat
    let t := act &&& (if f.na then ~~~q else q)
    let all := if t = act then 1 else 0
    let some' := if t = 0 then 0 else 1
    match f.sub.toNat with
    | 0 => laneEffect w act (.pred f.vd.toNat) (fun _ => (all, 0))
    | 1 => laneEffect w act (.pred f.vd.toNat) (fun _ => (some', 0))
    | 2 => laneEffect w act (.pred f.vd.toNat) (fun _ => (if t = act ∨ t = 0 then 1 else 0, 0))
    | 3 => laneEffect w act (.regs f.vd.toNat (if w.width = 64 then 2 else 1)) (fun _ => (t.toNat, 0))
    | 4 => if f.gn ∧ f.gp.toNat = 7 then w else mwrite w f.vd.toNat t
    | 5 => laneEffect w act (.regs f.vd.toNat 1) (fun _ => ((lanesOf t).length, 0))
    | _ => laneEffect w act (.regs f.vd.toNat 1) (fun l => (((lanesOf t).filter (fun k => k < l)).length, 0)))

/-- A step of a float reduction (R121) (DEDUCED, log 26). -/
def reduceStep (op : Nat) (f : FFmt) (c : RoundCtl) (a b : Nat) : Nat × Word :=
  if op = 0 then fAddVal f c (fOperand c.ftz f a) (fOperand c.ftz f b) else fMinMax f (op == 2) a b

/-- The value of REDX and SCAN over the active values of a segment in ascending lane order (R121). -/
def reduceVals (op : Nat) (n : Num) (c : RoundCtl) (vs : List Nat) : Nat × Word :=
  match n with
  | .flt f =>
    match vs.map (fFlush c.ftz f) with
    | [] => ((match op with | 0 => 0 | 1 => 0x7F800000 | _ => 0xFF800000), 0)
    | v :: vs => vs.foldl (fun acc y => let r := reduceStep op f c acc.1 y; (r.1, acc.2 ||| r.2)) (v, 0)
  | .int sg w =>
    let val := valueOf sg w
    match op with
    | 0 => wrapSat c.sat sg w (vs.foldl (fun acc v => acc + val v) 0)
    | 1 => (wrap w (vs.foldl (fun acc v => min acc (val v)) (greatestOf sg w)), 0)
    | 2 => (wrap w (vs.foldl (fun acc v => max acc (val v)) (leastOf sg w)), 0)
    | 3 => (vs.foldl (fun acc v => acc &&& v) (2 ^ w - 1), 0)
    | 4 => (vs.foldl (fun acc v => acc ||| v) 0, 0)
    | _ => (vs.foldl (fun acc v => acc ^^^ v) 0, 0)

/-- The active lanes of l's segment that take part in l's result. -/
def reduceLanes (act : Mask) (seg l : Nat) (upTo excl : Bool) : List Nat :=
  (lanesOf act).filter (fun k => k / seg == l / seg && (!upTo || (if excl then decide (k < l) else decide (k ≤ l))))

/-- REDX and SCAN (R121) with segments of `seg` lanes: of a float type the flags are those of every step, the last one, which .excl
gives to no lane, with the others. -/
def reduceBody (f : LB) (seg : Nat) (upTo excl : Bool) (x : Issue) (w : Warp) : Warp :=
  let act := guardLanes w x.b.lanes f.gn f.gp.toNat
  let n := opdCount .byT f.t.toNat
  laneEffect w act (.regs f.vd.toNat n) (fun l =>
    let go := fun excl => reduceVals (f.sub.toNat % 8) (tyOf f.t.toNat).num (lbCtl w f)
      ((reduceLanes act seg l upTo excl).map (fun k => vreadN w f.va.toNat k n))
    ((go excl).1, if f.t == 2 then (go false).2 else (go excl).2))

/-- REDX (R121): a segment's reduction in every active lane. -/
def execRedx (f : LB) (s : State) : Host.Outcome State Fault Refusal :=
  issueWarp (.redx f) s (reduceBody f (2 ^ (f.sub.toNat / 8)) false false)

/-- SCAN (R121): a prefix in every active lane. -/
def execScan (f : LB) (s : State) : Host.Outcome State Fault Refusal :=
  issueWarp (.scan f) s (fun x w =>
    reduceBody f (if f.sub.toNat / 8 % 4 = 0 then w.width else 4 * 2 ^ (f.sub.toNat / 8 % 4)) true (bit f.sub.toNat 5) x w)

/-- PLOP (R122): a table over three predicates. -/
def execPlop (f : LB) (s : State) : Host.Outcome State Fault Refusal :=
  issueWarp (.plop f) s (fun x w =>
    let p := fun (q : BitVec 8) l => (inMask (predMask w q.toNat) l).toNat
    laneEffect w (guardLanes w x.b.lanes f.gn f.gp.toNat) (.pred (f.vd.toNat % 8)) (fun l =>
      ((bit (f.sub.toNat + 64 * (f.vd.toNat / 64)) (p f.va l + 2 * p f.vb l + 4 * p f.vc l)).toNat, 0)))

/-- TDEF (R214, R29): defines a view of 32 registers, or clears its valid bit. -/
def execTdef (f : UB) (s : State) : Host.Outcome State Fault Refusal :=
  issueOp (.tdef f) s (fun x s =>
    let b := f.imm.toNat % 256
    if f.sub = 1 then
      (.advance, modWarp s x.wid (fun w => { w with tiles := lmod w.tiles f.sd.toNat (fun t => { t with valid := false }) }))
    else if x.w.win ≤ b + 31 then (.trap (trapOf cREGW x.b.lanes (b + 31)), s)
    else (.advance, modWarp s x.wid (fun w => { w with tiles := lset w.tiles f.sd.toNat ⟨true, b⟩ })))

/-- The index of a tile operand (R29): s[sidx] + imm5 as a 32-bit unsigned value. -/
def tileIndex (w : Warp) (f : LT) : Nat := ((sread w f.sidx.toNat).toNat + f.imm5.toNat) % 2 ^ 32

/-- The register and lane that lane l's element of a tile operand is (R215). -/
def tileCell (w : Warp) (f : LT) (l : Nat) : Nat × Nat :=
  let b := (w.tiles.getD f.tn.toNat ⟨false, 0⟩).base
  let x := tileIndex w f
  if f.rc then (b + (if w.width = 16 then 16 * f.sub.toNat + l else l % 32), x) else (b + x, l)

/-- REGW of a tile index (R29). -/
def tileBad (w : Warp) (f : LT) : Bool :=
  if f.rc then decide (w.width ≤ tileIndex w f) else decide (32 ≤ tileIndex w f)

/-- The guard of an LT instruction (R80). -/
def ltLanes (w : Warp) (issuing : Mask) (f : LT) : Mask := guardLanes w issuing false (4 + f.gq.toNat)

/-- Whether a pending load writes a register of the view. -/
def tilePending (s : State) (x : Issue) (f : LT) : Bool :=
  waitsForLoad s x.wid { noUses with vsrc := [((x.w.tiles.getD f.tn.toNat ⟨false, 0⟩).base, 32)] }

/-- Lanes whose element of the tile is marked poisoned, with the marks (R157). -/
def tileMarks (w : Warp) (f : LT) (act : Mask) : List (Nat × Mark) :=
  (lanesOf act).filterMap (fun l =>
    let c := tileCell w f l
    (tget w.marks (c.1 * 64 + c.2)).map (fun m => (l, m)))

/-- TRD (R215): reads a row or a column of a tile. -/
def execTrd (f : LT) (s : State) : Host.Outcome State Fault Refusal :=
  issue (.trd f) s (fun x s =>
    let act := ltLanes x.w x.b.lanes f
    if tileBad x.w f then (.trap (trapOf cREGW x.b.lanes (tileIndex x.w f)), s)
    else if tilePending s x f then (.stall, s)
    else if let some r := poisOf x s then r
    else
      let ms := tileMarks x.w f act
      match oldestMark (ms.map Prod.snd) with
      | some m =>
        (.trap ⟨cPOIS, maskOf (ms.map Prod.fst), m.addr, 0, false, false⟩, modWarp s x.wid (fun w =>
          { w with marks := (ms.map Prod.fst).foldl (fun t l =>
              let c := tileCell x.w f l
              terase t (c.1 * 64 + c.2)) w.marks }))
      | none => (.advance, modWarp s x.wid (fun w =>
          laneEffect w act (.regs f.vd.toNat 1) (fun l =>
            let c := tileCell w f l
            ((vread w c.1 c.2).toNat, 0)))))

/-- TWR (R215): writes a row or a column of a tile; in width 64 a column is written by lanes 0 to 31 only. -/
def execTwr (f : LT) (s : State) : Host.Outcome State Fault Refusal :=
  issue (.twr f) s (fun x s =>
    let act := ltLanes x.w x.b.lanes f
    if tileBad x.w f then (.trap (trapOf cREGW x.b.lanes (tileIndex x.w f)), s)
    else if tilePending s x f then (.stall, s)
    else if let some r := poisOf x s then r
    else (.advance, modWarp s x.wid (fun w =>
      ((lanesOf act).filter (fun l => !f.rc || decide (l < 32))).foldl (fun acc l =>
        let c := tileCell w f l
        vwrite acc c.1 c.2 (vread w f.va.toNat l)) w)))

end Sys2Proof.Machine
end

