-- ==== Sys2Proof/Machine/Ras.lean ====
section
/-! DEFINITION. Page migration (R405 to R407), corrected and uncorrected errors and fenced units (R410, R431 to R433), the
host event queue (R438 to R440), fatal errors and the dump (R443), the checkpoint drain (R445, R446), clock steps (R467,
R468). -/

namespace Sys2Proof.Machine

/-- Changes a migration channel. -/
def modMig (s : State) (ch : Nat) (f : Migration → Migration) : State :=
  { s with memsys := { s.memsys with migs := lmod s.memsys.migs ch f } }

/-- The bytes of a migration page. -/
def migSize (m : Migration) : Nat := if m.lg then 2 ^ 27 else 2 ^ 16

/-- Whether two byte ranges overlap. -/
def spansMeet (a n b m : Nat) : Bool := decide (a < b + m) && decide (b < a + n)

/-- Whether bytes lie wholly in HBM or in the second-tier window (R379). -/
def inMemory (a n : Nat) : Bool :=
  decide (a + n ≤ 2 ^ 41) || (decide (tierBase ≤ a) && decide (a + n ≤ tierBase + 8 * expanderSize))

/-- Whether GO is refused (R405). -/
def migRefused (s : State) (ch : Nat) (m : Migration) : Bool :=
  let n := migSize m
  m.busy || m.src % n != 0 || m.dst % n != 0 || !inMemory m.src n || !inMemory m.dst n || spansMeet m.src n m.dst n
    || (s.memsys.migs.zipIdx).any (fun e => e.2 != ch && e.1.busy &&
        [m.src, m.dst].any (fun a => spansMeet a n e.1.src (migSize e.1) || spansMeet a n e.1.dst (migSize e.1)))
    || (liveRanges s).any (fun r => spansMeet m.src n (32 * r.pbase) (32 * r.len))

/-- MCTL.GO (R405). -/
def migGo (s : State) (ch : Nat) : State :=
  match s.memsys.migs[ch]? with
  | none => s
  | some m => modMig s ch (fun m' =>
    if migRefused s ch m then { m' with ref := true } else { m' with busy := true, bnd := 0, ended := none })

/-- MCTL.CLR (R405): steering ends and the channel is idle. -/
def migClr (s : State) (ch : Nat) : State := modMig s ch (fun m => { m with busy := false, ended := none })

/-- The migration engine's master id (R383). -/
def migMid : Nat := 16 * 224 + 5

/-- Drops a grain of a home block without write-back (R406). -/
def cutHome (s : State) (slice a : Nat) : State :=
  match findBlk s slice false a with
  | none => s
  | some b =>
    let set := setOf b.region
    let tag := if (setBlocks s slice set).length < 16 then some (freeTag s slice set) else none
    let s := match tag with
      | none => writeBack s b (b.dirty &&& ~~~(runMask (a % 512 / 32) 1))
      | some _ => s
    modSlice s slice (fun y => { y with blocks := y.blocks.flatMap (fun x => if x == b then cutBlk s slice b (a % 512 / 32) tag else [x]) })

/-- MIGRATION_GRAIN (R406): the engine moves the next grain, with its poison. -/
def execMigrationGrain (ch : Nat) (s : State) : Host.Outcome State Fault Refusal :=
  match s.memsys.migs[ch]? with
  | none => .next s
  | some m =>
    if !m.busy || decide (migSize m / 32 ≤ m.bnd) then .next s
    else
      let a := m.src + 32 * m.bnd
      let d := m.dst + 32 * m.bnd
      let s := settleGrain s (a / 32)
      let rd := permits s migMid a true false
      let bytes := if rd then (List.range 32).map (fun i => storedByte s (a + i)) else List.replicate 32 0
      let bad := !rd || homePois s a
      let s := engNote s ((homeDie s a).getD 0) migMid none false a
      let s := engNote s ((homeDie s d).getD 0) migMid none true d
      let s := if permits s migMid d false true then
          let s := homeStore s d bytes
          if bad then poisonHome s d else s
        else s
      let s := match homeOf s a with | some k => cutHome s k a | none => s
      let last := decide (m.bnd + 1 = migSize m / 32)
      .next (modMig s ch (fun m => { m with bnd := m.bnd + 1, ended := if last then some s.clock else none }))

/-- MIGRATION_DONE (R407): 4 096 clocks after the last grain. -/
def execMigrationDone (ch : Nat) (s : State) : Host.Outcome State Fault Refusal :=
  match s.memsys.migs[ch]?.bind (·.ended) with
  | none => .next s
  | some t =>
    if t + 4096 ≤ s.clock then
      .next (report (modMig s ch (fun m => { m with done := true, ended := none })) 0
        ⟨0x0D, 0, none, none, noUnit, ch, 0⟩)
    else .next s

/-- The compute die whose store takes a unit's records (R408, R439). -/
def unitDie (u : ErrUnit) : Nat :=
  match u.kind with
  | 1 => u.idx / 96
  | 2 => u.idx / 64
  | 3 => u.idx / 16
  | 4 => u.idx / 4
  | 5 => u.idx / 16
  | 6 => u.idx / 256
  | 8 => u.idx / 8
  | 9 => u.idx / 2
  | _ => 0

/-- The key of a unit and structure in a die's table of corrected errors. -/
def errKey (u : ErrUnit) (code : Nat) : Nat := u.kind * 2 ^ 24 + u.idx * 2 ^ 8 + code

/-- CORRECTED_ERROR (R431): it changes no value and is counted (DESIGN CHOICE, log 80). -/
def execCorrectedError (u : ErrUnit) (code n : Nat) (s : State) : Host.Outcome State Fault Refusal :=
  .next (modDie s (unitDie u) (fun d =>
    let e := (tget d.corrected (errKey u code)).getD (0, 0)
    { d with corrected := tput d.corrected (errKey u code) (e.1, e.2 + n) }))

/-- CORRECTED_ERROR_REPORT (R431): the count since the last report, at most once every 2^24 clocks. -/
def execCorrectedErrorReport (u : ErrUnit) (code : Nat) (s : State) : Host.Outcome State Fault Refusal :=
  let die := unitDie u
  match tget (dieOf s die).corrected (errKey u code) with
  | none => .next s
  | some (last, n) =>
    if n = 0 ∨ (last ≠ 0 ∧ s.clock < last - 1 + 2 ^ 24) then .next s
    else
      let s := modDie s die (fun d => { d with corrected := tput d.corrected (errKey u code) (s.clock + 1, 0) })
      .next (report s die ⟨0x01, 0, none, none, u, code, n⟩)

/-- A fatal error (R443): every core stops, every context is fenced, the dump begins; `e` is its cause record. -/
def fatal (s : State) (e : EventRec) : State :=
  if s.sec.fatal.isSome then s
  else
    let s := { s with
      cores := s.cores.map (fun c => { c with runs := [none, none, none, none] })
      sec := { s.sec with fatal := some e.typ, fatalRecord := eventBytes e s.clock, dump := some 0 } }
    (List.range 64).foldl (fun s c => startFence s c id) s

/-- A fatal error of a TYPE without unit or address, whose information words R437 does not give (DESIGN CHOICE, log 5). -/
def fatalType (s : State) (typ : Nat) : State :=
  fatal { s with free := s.free + 2 }
    ⟨typ, 2, none, none, noUnit, Config.freeNat s.free % 2 ^ 32, Config.freeNat (s.free + 1) % 2 ^ 32⟩

/-- FATAL_ERROR (R443). -/
def execFatalError (cause : Nat) (s : State) : Host.Outcome State Fault Refusal := .next (fatalType s cause)

/-- Whether an address lies in the event queue's region (R438). -/
def inEventQueue (s : State) (a : Nat) : Bool := decide (s.port.evbase ≤ a) && decide (a < s.port.evbase + 2 ^ 18)

/-- An uncorrected error in the event queue's region is fatal besides (R431, R443). -/
def queueError (s : State) (a : Nat) (u : ErrUnit) (code : Nat) : State :=
  if inEventQueue s a then fatal s ⟨0x02, 2, none, some (a / 32 * 32, false), u, code, 0⟩ else s

/-- A slice is fenced (R433): its blocks and lease copies are gone. -/
def fenceSlice (s : State) (k : Nat) : State :=
  if (sliceOf s k).fenced then s
  else
    let s := modSlice s k (fun y => { y with fenced := true, blocks := [], fills := [], splice := [] })
    report s (k / 64) ⟨0x06, 1, none, none, ⟨2, k⟩, 0, 2⟩

/-- The context of a warp fenced by an uncorrected error in its registers (R431). -/
def fenceWarpCtx (s : State) (wid code : Nat) : State :=
  match tget s.warps wid with
  | none => s
  | some w =>
    let c := ctxOfWarp s w
    startFence (report s (dieOfCore w.core) ⟨0x02, 1, some c, none, ⟨1, w.core⟩, code, 0⟩) c id

/-- UNCORRECTED_ERROR (R431, R433, R443). -/
def execUncorrectedError (site : ErrSite) (s : State) : Host.Outcome State Fault Refusal :=
  match site with
  | .hbm a => match placeOf s a with
    | .hbm _ => .next (queueError (uncorrectedGrain s (a / 32 * 32)) a (memUnit a) 1)
    | _ => .next s
  | .tier2 a => match placeOf s a with
    | .tier .. => .next (queueError (uncorrectedGrain s (a / 32 * 32)) a (memUnit a) 2)
    | _ => .next s
  | .l2 k a => match (sliceOf s k).blocks.find? (fun b => covers s.clock b.lease a b) with
    | none => .next s
    | some b =>
      let s := putBlk s k b { b with pois := b.pois ||| runMask (a % 512 / 32) 1 }
      let s := report s (k / 64) ⟨0x02, 1, none, some (a / 32 * 32, false), ⟨2, k⟩, 3, 0⟩
      .next (queueError s a ⟨2, k⟩ 3)
  | .tags k =>
    if 128 ≤ k then .next s else .next (fenceSlice (report s (k / 64) ⟨0x02, 1, none, none, ⟨2, k⟩, 4, 0⟩) k)
  | .scratch bid l => match tget s.blocks bid with
    | none => .next s
    | some b =>
      let s := modBlock s bid (fun b => { b with linePois := if b.linePois.contains l then b.linePois else l :: b.linePois })
      .next (report s (dieOfCore b.core) ⟨0x02, 1, (gridOfBlock s b).map (fun g => g.2.ctx), none, ⟨1, b.core⟩, 5, 0⟩)
  | .vreg w => .next (fenceWarpCtx s w 6)
  | .sreg w => .next (fenceWarpCtx s w 7)
  | .acc core slot => match ((coreOf s core).accOwner.getD slot none).bind (fun o => (tget s.blocks o.1).map (fun b => (o.1, b))) with
    | none => .next s
    | some (bid, b) =>
      let ctx := (gridOfBlock s b).map (fun g => g.2.ctx)
      let s := match nameOf b slot with
        | some n => poisonName s bid n slot
        | none => s
      .next (report s (dieOfCore core) ⟨0x02, 1, ctx, none, ⟨1, core⟩, 8, 0⟩)
  | .icache core n => .next (modCore s core (fun c => { c with icache := c.icache.eraseIdx n }))
  | .coreTlb core n => .next (modCore s core (fun c => { c with tlb := c.tlb.eraseIdx n }))
  | .bayTlb bay n => .next (modBay s bay (fun b => { b with tlb := b.tlb.eraseIdx n }))
  | .link => .next (fatal s ⟨0x02, 2, none, none, noUnit, 11, 0⟩)
  | .sequencer core =>
    if 192 ≤ core then .next s
    else .next (fenceCore (report s (dieOfCore core) ⟨0x02, 1, none, none, ⟨1, core⟩, 0, 0⟩) core 2)

/-- EXPANDER_FENCE (R410): the window slot becomes unbacked, and a record is sent. -/
def execExpanderFence (x : Nat) (s : State) : Host.Outcome State Fault Refusal :=
  if s.memsys.expFenced.getD x true then .next s
  else
    let s := { s with memsys := { s.memsys with expFenced := lset s.memsys.expFenced x true } }
    .next (report s (x / 4) ⟨0x06, 1, none, none, ⟨4, x⟩, 0, 0⟩)

/-- HBM_STACK_LOSS (R433): the stack's addresses are unbacked. -/
def execHbmStackLoss (stack : Nat) (s : State) : Host.Outcome State Fault Refusal :=
  if 32 ≤ stack || s.memsys.lostStacks.contains stack then .next s
  else
    let s := { s with memsys := { s.memsys with lostStacks := stack :: s.memsys.lostStacks } }
    .next (report s (stack / 16) ⟨0x06, 1, none, none, ⟨3, stack⟩, 0, 0⟩)

/-- Records that the host event queue holds (R438). -/
def evCount (s : State) : Nat := (s.port.evtail + 16384 - s.port.evhead) % 16384

/-- Whether a function's gap since its last message has passed (R440). -/
def gapPassed (s : State) (fn : Nat) : Bool :=
  ((tget s.port.lastMsg fn).map (fun t => decide (t + 256 * s.port.gap ≤ s.clock))).getD true

/-- A record is written at its home, then TAIL counts it, and its function is owed a message, which it shares with the records that
wait for the same gap (R438, R440). -/
def pushEvent (s : State) (bs : List Byte) : State :=
  let s := writeBytes s (s.port.evbase + 32 * (s.port.evtail % 8192)) bs
  let fn := if bit (recField bs 2 1) 0 then (ctxOf s (recField bs 3 1)).fn else 0
  { s with port := { s.port with
      evtail := (s.port.evtail + 1) % 16384
      owed := if s.port.owed.contains fn && !gapPassed s fn then s.port.owed else s.port.owed ++ [fn] } }

/-- EVENT_STORE_RETRY (R439): a die's oldest record goes to the queue when it has room; after drops a record of type 0x0F goes
first. -/
def execEventStoreRetry (die : Nat) (s : State) : Host.Outcome State Fault Refusal :=
  if 8192 ≤ evCount s then .next s
  else match (dieOf s die).store with
    | [] => .next s
    | r :: rs =>
      if s.port.drops = 0 then .next (pushEvent (modDie s die (fun d => { d with store := rs })) r)
      else
        let e : EventRec := ⟨0x0F, 1, none, none, noUnit, s.port.drops, s.port.fencedDrops⟩
        let s := pushEvent s (eventBytes e s.clock)
        .next { s with port := { s.port with drops := 0, fencedDrops := 0 } }

/-- A message of a function is sent (R440): with a gap, those still owed wait and become one. -/
def paidMessage (gap fn : Nat) (owed : List Nat) : List Nat :=
  let rest := owed.erase fn
  if gap = 0 ∨ !rest.contains fn then rest else rest.filter (fun f => f != fn) ++ [fn]

/-- MSIX_MESSAGE (R440): once the gap since the function's last message has passed. A virtual function that is disabled has no
message to send (DEDUCED, log 69). -/
def execMsixMessage (fn : Nat) (s : State) : Host.Outcome State Fault Refusal :=
  if !s.port.owed.contains fn || !gapPassed s fn then .next s
  else if s.port.vfs < fn then .next { s with port := { s.port with owed := s.port.owed.filter (fun f => f != fn) } }
  else .next { s with port := { s.port with
    owed := paidMessage s.port.gap fn s.port.owed
    messages := fn :: s.port.messages
    lastMsg := tput s.port.lastMsg fn s.clock } }

/-- The 17 bytes of a tag (R320); an invalid one is 0. -/
def tagBytes (b : Option L2Blk) : List Byte :=
  match b with
  | none => toBytes 17 0
  | some b => toBytes 17 (b.region + 2 ^ 46 * b.start + 2 ^ 50 * (b.len - 1) + 2 ^ 54 * b.pool
      + 2 ^ 60 * (if b.lease then 0 else b.dirty.toNat) + 2 ^ 76 * b.pois.toNat + 2 ^ 92 * b.acc.toNat + 2 ^ 108 * b.lease.toNat
      + 2 ^ 109 * (b.lexp % 2 ^ 16) + 2 ^ 125 * b.splc.toNat + 2 ^ 126 * b.freq + 2 ^ 133)

/-- The tags of a slice, by set and tag. -/
def sliceTags (s : State) (k : Nat) : List Byte :=
  (List.range 1024).flatMap (fun set => (List.range 16).flatMap (fun t =>
    tagBytes ((setBlocks s k set).find? (fun b => b.tag == t))))

/-- Where the dump lies (R443). -/
def dumpBase : Nat := 0x01FFE0000000

/-- The dump's copy of the tables that have no layout (R443). -/
def dumpTables (s : State) : List Byte :=
  toBytes (2 ^ 20) (Config.dumpTables (s.slices.map (fun y => (y.ranges, y.knots, y.splice))) (s.bays.map (·.splice))
    s.memsys.windows s.memsys.migs)

/-- A core's part of the dump (R443): its blocks' images, one after another (DEDUCED, log 12), in 2 MiB. -/
def dumpCore (s : State) (core : Nat) : List Byte :=
  let bs := (blocksOnCore s core).filterMap (fun k => (tget s.blocks k).map (fun b => (k, b)))
  let l := (bs.filter (fun e => e.2.core == core)).flatMap (fun e =>
    ((gridOfBlock s e.2).map (fun g => blockImage s g.2.record e.1 e.2)).getD [])
  (l ++ List.replicate (2 ^ 21 - l.length) 0).take (2 ^ 21)

/-- A part of the dump: of a partial one a unit's bytes may read 0, which unit's is free (R443) (DESIGN CHOICE, log 12). -/
def dumpPart (status k : Nat) (bs : List Byte) : List Byte :=
  if status = 2 ∧ Config.freeBit k then List.replicate bs.length 0 else bs

/-- The dump of a fatal error (R443): its parts are written, STATUS last, and a record of type 0x0E sent. -/
def writeDump (s : State) (cause status : Nat) : State :=
  let k := s.free
  let s := { s with free := k + 512 }
  let put := fun (s : State) (off : Nat) (bs : List Byte) => writeBytes s (dumpBase + off) bs
  let stores := (s.dies.zipIdx).flatMap (fun d => dumpPart status (k + 128 + d.2) (d.1.store.flatten ++ List.replicate (512 - 32 * d.1.store.length) 0))
  let ctxs := s.ctxs.flatMap (fun x => ((ctxWords x).flatMap (fun w => toBytes 4 w.toNat)) ++ List.replicate 196 0)
  let queues := s.queues.flatMap (fun x => ((queueWords x).flatMap (fun w => toBytes 4 w.toNat)) ++ List.replicate 36 0)
  let tags := (List.range 128).flatMap (fun i => dumpPart status (k + i) (sliceTags s i))
  let tables := dumpPart status (k + 130) (dumpTables s)
  let cores := (List.range 192).flatMap (fun c => dumpPart status (k + 256 + c) (dumpCore s c))
  let s := put s 0x1000 stores
  let s := put s 0x2000 ctxs
  let s := put s 0x6000 queues
  let s := put s 0x10000 tables
  let s := put s 0x01000000 tags
  let s := put s 0x04000000 cores
  let s := put s 0 ([0x4C, 0x4E, 0x44, 0x50] ++ toBytes 4 1 ++ toBytes 4 status ++ toBytes 4 0 ++ s.sec.fatalRecord)
  let s := { s with sec := { s.sec with dump := some status } }
  report s 0 ⟨0x0E, 2, none, none, noUnit, cause, status⟩

/-- DUMP_COMPLETE (R443): a fatal error's dump, under way, is complete or has failed. -/
def execDumpComplete (status : Nat) (s : State) : Host.Outcome State Fault Refusal :=
  match s.sec.fatal, s.sec.dump with
  | some cause, some 0 => if status ≠ 1 ∧ status ≠ 2 then .next s else .next (writeDump s cause status)
  | _, _ => .next s

/-- At 115 degrees (R468): the board management controller is asked to remove power, and the error is fatal; the TYPE of its cause
is not given (DESIGN CHOICE, log 5). -/
def overheated (s : State) : State :=
  if s.power.temp < 115 then s
  else fatalType { s with free := s.free + 1, power := { s.power with removal := true } } (Config.freeNat s.free % 2 ^ 32)

/-- OVER_TEMPERATURE (R468): the temperature read (DESIGN CHOICE, log 68). -/
def execOverTemperature (temp : Nat) (s : State) : Host.Outcome State Fault Refusal :=
  let s := { s with power := { s.power with temp := temp } }
  .next (overheated s)

/-- The step that holds PWR at CAPW, at most one from the current one (R468): which lower power suffices is not given (log
5). -/
def powerStep (k : Nat) (p : Power) (pwr : Nat) : Nat :=
  if p.capw < pwr then min 5 (p.stp + 1) else if Config.freeBit k then p.stp - 1 else p.stp

/-- POWER_STEP_SELECT (R468): the power and temperature read, and the step chosen from them. -/
def execPowerStepSelect (pwr temp : Nat) (s : State) : Host.Outcome State Fault Refusal :=
  if s.power.changing then .next s
  else
    let new := max (powerStep s.free s.power pwr) (if 105 ≤ temp then 5 else 0)
    let s := { s with
      free := s.free + 1
      power := { s.power with pwr := pwr, temp := temp, next := new, changing := new != s.power.stp } }
    .next (overheated s)

/-- CLOCK_STEP_CHANGE (R467): the change ends, and runs are granted again. -/
def execClockStepChange (s : State) : Host.Outcome State Fault Refusal :=
  if s.power.changing then .next { s with power := { s.power with stp := s.power.next, changing := false } } else .next s

/-- The index of a chunk in its range of the job. -/
def chunkIndex (j : ReelJob) (src : Nat) : Nat :=
  match j.ranges.find? (fun r => decide (r.1 ≤ src) && decide (src < r.1 + 65536 * r.2.2)) with
  | some r => (src - r.1) / 65536
  | none => 0

/-- Whether a hub die's engine copies a chunk (R444). -/
def hubChunk (j : ReelJob) (hub src : Nat) : Bool := bits src 40 1 == hub / 2 && chunkIndex j src % 2 == hub % 2

/-- REEL_CHUNK (R445): a reel engine copies its next chunk. -/
def execReelChunk (hub : Nat) (s : State) : Host.Outcome State Fault Refusal :=
  match s.sec.reel.bind (fun j => j.left.find? (fun c => hubChunk j hub c.1)) with
  | none => .next s
  | some c => .next (reelCopy s c.1 c.2)

/-- The WORK packet of a job (R446): JOBID, status, chunks copied, chunks that hold poison. -/
def reelPacket (jobid status copied poisoned : Nat) : List Byte :=
  toBytes 4 4 ++ toBytes 4 jobid ++ toBytes 4 status ++ toBytes 4 copied ++ toBytes 4 poisoned ++ List.replicate 44 0

/-- Each completion packet, the oldest first, goes to its queue when that is enabled and has room (R446). -/
def reelPost (s : State) : State :=
  s.sec.reelDone.foldl (fun s e =>
    if (queueOf s e.1).en && decide (queueCount (queueOf s e.1) < queueCap (queueOf s e.1)) then
      serveQueue (enqueue { s with sec := { s.sec with reelDone := s.sec.reelDone.erase e } } e.1 e.2) e.1
    else s) s

/-- REEL_COMPLETE (R446): every chunk is copied; the packet with the status goes to the queue. -/
def execReelComplete (s : State) : Host.Outcome State Fault Refusal :=
  match s.sec.reel with
  | none => .next s
  | some j =>
    if !j.left.isEmpty then .next s
    else
      let p := reelPacket j.jobid (if j.fenced then 2 else 0) j.copied j.poisoned
      .next (reelPost { s with sec := { s.sec with reel := none, reelDone := s.sec.reelDone ++ [(j.queue, p)] } })

/-- REEL_ENQUEUE_RETRY (R446). -/
def execReelEnqueueRetry (s : State) : Host.Outcome State Fault Refusal := .next (reelPost s)

end Sys2Proof.Machine
end

