-- ==== Sys2Proof/Machine/Debug.lean ====
section
/-! DEFINITION. The debug mailbox and its commands (R447 to R453). -/

namespace Sys2Proof.Machine

/-- A command fails (R448, R449). -/
def debugErr (s : State) (c code : Nat) : State := modDebug s c (fun d => { d with err := true, ecode := code })

/-- A command has its result. -/
def debugDone (s : State) (c n : Nat) : State :=
  modDebug s c (fun d => { d with drsp0 := BitVec.ofNat 32 n, drsp1 := 0, ecode := 0 })

/-- DARGn. -/
def darg (s : State) (c n : Nat) : Nat := ((ctxOf s c).dbox.dargs.getD n 0).toNat

/-- The blocks that a locator matches (R449). -/
def located (s : State) (c : Nat) : List (Nat × Block) :=
  let core := 96 * bits (darg s c 0) 7 1 + bits (darg s c 0) 0 7
  let on := if bits (darg s c 0) 0 7 < 96 then blocksOnCore s core else []
  s.blocks.filter (fun e => on.contains e.1 && (clustersOfCtx s c).contains e.2.cluster
    && !s.saved.any (fun v => v.cluster == e.2.cluster) && blockIdx s e.2 == darg s c 1)

/-- A command that names blocks (R449): a reserved locator bit, no match, or the command on the matched blocks. -/
def onLocated (s : State) (c : Nat) (argsOk : Bool) (go : List (Nat × Block) → State) : State :=
  if 256 ≤ darg s c 0 || !argsOk then debugErr s c 3
  else match located s c with
    | [] => debugErr s c 4
    | bs => go bs

/-- SLEEPC ends in a halted block (R450). -/
def wakeBlock (s : State) (bid : Nat) : State :=
  (warpsOfBlock s bid).foldl (fun s e => modWarp s e.1 endSleeps) s

/-- HALT (R450). -/
def debugHalt (s : State) (c : Nat) : State :=
  onLocated s c true fun bs =>
    let s := bs.foldl (fun s e => wakeBlock (modBlock s e.1 (fun b => { b with halted := true })) e.1) s
    let s := modCtx s c (fun x => { x with haltSeen := true })
    modDebug (debugDone s c bs.length) c (fun d => { d with busy := true, halting := bs.map Prod.fst })

/-- RESUME (R449): until now its blocks were halted (R389). -/
def debugResume (s : State) (c : Nat) : State :=
  onLocated s c true fun bs =>
    let s := modCtx s c (fun x => { x with haltSeen := x.haltSeen || bs.any (fun e => e.2.halted) })
    debugDone (bs.foldl (fun s e => modBlock s e.1 (fun b => { b with halted := false })) s) c bs.length

/-- STEP (R449, R451). -/
def debugStep (s : State) (c : Nat) : State :=
  let a := darg s c 2
  onLocated s c (bits a 7 1 == 0 && a / 512 == 0) fun bs =>
    let ws := bs.flatMap (fun e => (warpsOfBlock s e.1).filter (fun w => w.2.widx == bits a 0 7 && !w.2.ended))
    if ws.isEmpty then debugErr s c 4
    else
      let on := bit a 8
      debugDone (ws.foldl (fun s e => modWarp s e.1 (fun w => { w with stepping := on, stepCredit := none })) s) c ws.length

/-- WATCH (R449, R452). -/
def debugWatch (s : State) (c : Nat) : State :=
  let a := darg s c 3
  let n := bits a 0 20
  onLocated s c (a / 2 ^ 24 == 0 && decide (n ≤ 524288)) fun bs =>
    let places := bs.map (fun e =>
      (e.1, scratchPlace (((gridOfBlock s e.2).map (fun g => g.2.record)).getD []) e.2.rank (darg s c 2) (max n 1)))
    if n ≠ 0 ∧ places.any (fun p => p.2.isNone) then debugErr s c 3
    else
      let put := fun (s : State) (p : Nat × Option Nat) => modBlock s p.1 (fun b => { b with
        watches := lset b.watches (bits a 20 2)
          ⟨n != 0, p.2.getD 0, n, bits a 22 2⟩ })
      debugDone (places.foldl put s) c bs.length

/-- ICINV (R449): in progress until no instruction cache holds a line of the context. -/
def debugIcinv (s : State) (c : Nat) : State := modDebug (debugDone s c 0) c (fun d => { d with busy := true, halting := [] })

/-- A DCMD write (R448, R449). -/
def debugCmd (s : State) (c op : Nat) : State :=
  if (ctxOf s c).dbox.busy then debugErr s c 1
  else
    let s := modDebug s c (fun d => { d with dcmd := BitVec.ofNat 32 op })
    match op with
    | 1 => debugHalt s c
    | 2 => debugResume s c
    | 3 => debugStep s c
    | 4 => debugWatch s c
    | 5 => debugIcinv s c
    | _ => debugErr s c 2

/-- A write to a mailbox register (R448). -/
def debugWrite (s : State) (c off : Nat) (v : Word) : State :=
  match off with
  | 0x00 => debugCmd s c (v.toNat % 256)
  | 0x04 | 0x08 | 0x0C | 0x10 => modDebug s c (fun d => { d with dargs := lset d.dargs (off / 4 - 1) v })
  | 0x1C => modDebug s c (fun d => { d with
      err := d.err && !v.getLsbD 1
      post := d.post && !v.getLsbD 2
      free := d.free || (d.post && v.getLsbD 2) })
  | 0x20 | 0x24 | 0x28 | 0x2C => modDebug s c (fun d =>
      if d.post then d else { d with dposts := lset d.dposts (off / 4 - 8) v, post := d.post || off == 0x2C })
  | _ => s

/-- Whether the issued work of a block is under way (R450). -/
def blockBusy (s : State) (bid : Nat) : Bool :=
  match tget s.blocks bid with
  | none => false
  | some b =>
    let ws := warpsOfBlock s bid
    !b.ended && (anyRunOf s (ws.map Prod.fst)
      || ws.any (fun e => e.2.ld != 0 || e.2.st != 0 || e.2.cp != 0 || !e.2.storeQ.isEmpty)
      || s.net.copies.any (fun e => e.2.block == bid && !e.2.done && !e.2.recvs.isEmpty)
      || s.cores.any (fun c => c.queue.any (fun q => q.block == bid)) || !b.oddAccs.isEmpty)

/-- HALT_COMPLETE (R450). -/
def execHaltComplete (ctx : Nat) (s : State) : Host.Outcome State Fault Refusal :=
  let d := (ctxOf s ctx).dbox
  if !d.busy || d.dcmd != 1 || d.halting.any (blockBusy s) then .next s
  else .next (modDebug s ctx (fun d => { d with busy := false, halting := [] }))

/-- ICINV_COMPLETE (R449, R74): no instruction cache of the package holds a line of the context. -/
def execIcinvComplete (ctx : Nat) (s : State) : Host.Outcome State Fault Refusal :=
  let d := (ctxOf s ctx).dbox
  if !d.busy || d.dcmd != 5 then .next s
  else
    let s := dropCode s ctx
    .next (modDebug s ctx (fun d => { d with busy := false }))

end Sys2Proof.Machine
end

