-- ==== Sys2Proof/Machine/Crypto.lean ====
section
/-! DEFINITION. SHA-256 and the verification of an ECDSA P-256 signature, which the security processor uses (R462). The spec
names the algorithms; their constants and steps are those of FIPS 180-4, FIPS 186-5 and SP 800-186 (PRESUMED, log 24). -/

namespace Sys2Proof.Machine

/-- The largest number whose `k`-th power is at most `n`, for roots below 2^40. -/
def rootFloor (k n : Nat) : Nat :=
  (List.range 40).foldl (fun r i => if (r + 2 ^ (39 - i)) ^ k ≤ n then r + 2 ^ (39 - i) else r) 0

/-- The primes below 312: 64 of them. -/
def smallPrimes : List Nat :=
  (List.range 312).filter (fun p => decide (2 ≤ p) && (List.range 16).all (fun d => p % (d + 2) != 0 || p == d + 2))

/-- The first 32 bits behind the point of the `k`-th root of a prime: square roots give the initial hash value, cube roots the
round constants. -/
def rootBits (k p : Nat) : Nat := rootFloor k (p * 2 ^ (32 * k)) % 2 ^ 32

/-- A 32-bit rotation to the right. -/
def rotr32 (x n : Nat) : Nat := x / 2 ^ n + x % 2 ^ n * 2 ^ (32 - n)

/-- The exclusive or of rotations of a word. -/
def rotations (x : Nat) (ns : List Nat) : Nat := ns.foldl (fun acc n => acc ^^^ rotr32 x n) 0

/-- The hash state as two histories, newest first: the last four values of the leading and of the middle register; and the next
sixteen words of the schedule. -/
structure ShaState where
  lead : List Nat
  mid : List Nat
  window : List Nat
  deriving DecidableEq, Repr

/-- The schedule's word behind a window of sixteen. -/
def shaNext (w : List Nat) : Nat :=
  let near := w.getD 14 0
  let far := w.getD 1 0
  (w.headD 0 + w.getD 9 0 + (rotations far [7, 18] ^^^ far / 8) + (rotations near [17, 19] ^^^ near / 1024)) % 2 ^ 32

/-- One round with a constant: each history gains a value, the window moves on by a word. -/
def shaRound (t : ShaState) (k : Nat) : ShaState :=
  match t.lead, t.mid with
  | [a, b, c, d], [e, f, g, h] =>
    let sum := h + k + t.window.headD 0 + rotations e [6, 11, 25] + (g ^^^ (e &&& (f ^^^ g)))
    let top := rotations a [2, 13, 22] + ((a &&& b) ||| (c &&& (a ||| b)))
    ⟨[(sum + top) % 2 ^ 32, a, b, c], [(d + sum) % 2 ^ 32, e, f, g], t.window.drop 1 ++ [shaNext t.window]⟩
  | _, _ => t

/-- The value of big-endian bytes. -/
def ofBytesBe (bs : List Byte) : Nat := ofBytes bs.reverse
/-- Big-endian bytes. -/
def toBytesBe (n x : Nat) : List Byte := (toBytes n x).reverse

/-- One 64-byte block on a hash of eight words. -/
def shaBlock (h : List Nat) (bs : List Byte) : List Nat :=
  let words := (List.range 16).map (fun i => ofBytesBe ((bs.drop (4 * i)).take 4))
  let t := smallPrimes.foldl (fun t p => shaRound t (rootBits 3 p)) ⟨h.take 4, h.drop 4, words⟩
  List.zipWith (fun x y => (x + y) % 2 ^ 32) h (t.lead ++ t.mid)

/-- The padded message. -/
def shaPad (bs : List Byte) : List Byte :=
  bs ++ [0x80] ++ List.replicate ((119 - bs.length % 64) % 64) 0 ++ toBytesBe 8 (8 * bs.length)

/-- SHA-256, 32 bytes. -/
def sha256 (bs : List Byte) : List Byte :=
  let m := shaPad bs
  let start := (smallPrimes.take 8).map (rootBits 2)
  ((List.range (m.length / 64)).foldl (fun h i => shaBlock h ((m.drop (64 * i)).take 64)) start).flatMap (toBytesBe 4)

/-- The prime field, the curve's b, its base point and order. -/
def p256P : Nat := 2 ^ 256 - 2 ^ 224 + 2 ^ 192 + 2 ^ 96 - 1
def p256B : Nat := 0x5ac635d8aa3a93e7b3ebbd55769886bc651d06b0cc53b0f63bce3c3e27d2604b
def p256G : Nat × Nat :=
  (0x6b17d1f2e12c4247f8bce6e563a440f277037d812deb33a0f4a13945d898c296,
   0x4fe342e2fe1a7f9b8ee7eb4a7c0f9e162bce33576b315ececbb6406837bf51f5)
def p256N : Nat := 0xffffffff00000000ffffffffffffffffbce6faada7179e84f3b9cac2fc632551

/-- A power modulo `m`, exponents below 2^256. -/
def powMod (m b e : Nat) : Nat :=
  ((List.range 256).map (fun i => 255 - i)).foldl (fun acc i =>
    let q := acc * acc % m
    if e.testBit i then q * b % m else q) (1 % m)

/-- The inverse modulo a prime. -/
def invMod (m x : Nat) : Nat := powMod m (x % m) (m - 2)

/-- The sum of two points; none is the point at infinity. -/
def ecAdd : Option (Nat × Nat) → Option (Nat × Nat) → Option (Nat × Nat)
  | none, q => q
  | p, none => p
  | some a, some b =>
    let sub := fun (x y : Nat) => (x + p256P - y % p256P) % p256P
    if a.1 = b.1 ∧ (a.2 + b.2) % p256P = 0 then none
    else
      let l := if a = b then 3 * (a.1 * a.1 + p256P - 1) * invMod p256P (2 * a.2) % p256P
        else sub b.2 a.2 * invMod p256P (sub b.1 a.1) % p256P
      let x := sub (l * l) (a.1 + b.1)
      some (x, sub (l * sub a.1 x) a.2)

/-- A multiple of a point, scalars below 2^256. -/
def ecMul (k : Nat) (p : Option (Nat × Nat)) : Option (Nat × Nat) :=
  ((List.range 256).map (fun i => 255 - i)).foldl (fun acc i =>
    let q := ecAdd acc acc
    if k.testBit i then ecAdd q p else q) none

/-- Whether (x, y) is a valid point of the curve. -/
def ecValid (x y : Nat) : Bool :=
  decide (x < p256P) && decide (y < p256P) && y * y % p256P == (x * x % p256P * x + (p256P - 3) * x + p256B) % p256P

/-- Whether (r, s) is a signature over a hash by the key (x, y). -/
def ecdsaOk (x y r s hash : Nat) : Bool :=
  let w := invMod p256N s
  ecValid x y && decide (1 ≤ r) && decide (r < p256N) && decide (1 ≤ s) && decide (s < p256N)
    && (match ecAdd (ecMul (hash * w % p256N) (some p256G)) (ecMul (r * w % p256N) (some (x, y))) with
        | none => false
        | some p => p.1 % p256N == r)

end Sys2Proof.Machine
end

