-- ==== Sys2Proof/Machine/Sec.lean ====
section
/-! DEFINITION. The security processor (R457 to R466): its mailboxes and command queue, life cycle, firmware, attestation,
the checkpoint job's submission (R444) and the device reset. The commands for the fabric are in Machine/Fabric.lean. -/

namespace Sys2Proof.Machine

/-- Changes the security processor's state. -/
def modSec (s : State) (f : Sec → Sec) : State := { s with sec := f s.sec }
/-- Changes a function's mailbox. -/
def modBox (s : State) (fn : Nat) (f : SecBox → SecBox) : State := modSec s (fun x => { x with boxes := lmod x.boxes fn f })
/-- A command ends: STATUS, then DONE (R460). -/
def endCmd (s : State) (fn status : Nat) : State :=
  modBox (modSec s (fun x => { x with queue := x.queue.filter (fun e => e.1 != fn) })) fn
    (fun b => { b with busy := false, done := true, status := status })

/-- Results of a command. -/
def setRsp (s : State) (fn i v : Nat) : State := modBox s fn (fun b => { b with rsps := lset b.rsps i (BitVec.ofNat 32 v) })

/-- Whether OP names a command (R460). -/
def secKnown (op : Nat) : Bool := decide (1 ≤ op) && decide (op ≤ 13)

/-- Unknown commands at the head of the queue end with STATUS 3 (R460). -/
def skipUnknown : Nat → State → State
  | 0, s => s
  | n + 1, s => match s.sec.queue with
    | (fn, op) :: _ => if secKnown op then s else skipUnknown n (endCmd s fn 3)
    | [] => s

/-- An SCMD write (R460). -/
def secCmd (s : State) (fn op : Nat) : State :=
  if (boxOf s fn).busy then modBox s fn (fun b => { b with done := true, status := 4 })
  else
    let s := modBox s fn (fun b => { b with scmd := BitVec.ofNat 32 op, busy := true })
    skipUnknown 33 (modSec s (fun x => { x with queue := x.queue ++ [(fn, op)] }))

/-- SARGn of a function. -/
def sarg (s : State) (fn n : Nat) : Nat := ((boxOf s fn).args.getD n 0).toNat
/-- An address in SARGn and the one after it. -/
def sargAddr (s : State) (fn n : Nat) : Nat := sarg s fn n + 2 ^ 32 * sarg s fn (n + 1)

/-- Bytes that the security processor reads (R383: it is not checked): none when some are unbacked (R460) or poisoned (DEDUCED, log 74). -/
def secBytes (s : State) (a n : Nat) : Option (List Byte) :=
  let as := (List.range n).map (fun i => routed s (a + i))
  if (((as.map (fun x => x / 32)).dedup).all (fun g => (homeOf s (32 * g)).isSome && !homePois s (32 * g))) then
    some (as.map (homeByte s)) else none

/-- Whether every byte of a range is backed (R380). -/
def secBacked (s : State) (a n : Nat) : Bool := (List.range n).all (fun i => (homeOf s (routed s (a + i))).isSome)

/-- Bytes that it writes. -/
def secPut (s : State) (a : Nat) (bs : List Byte) : State :=
  (grainCuts (bs.length + 1) a bs).foldl (fun s c => homeStore s (routed s c.1) c.2) s

/-- Whether a command is permitted from a function in this state (R458, R460): else its STATUS. -/
def secRefused (s : State) (fn op : Nat) : Option Nat :=
  if fn ≠ 0 ∧ [0x01, 0x08, 0x0B, 0x0C, 0x0D].contains op then some 2
  else if s.sec.recov ∧ op ≠ 0x09 ∧ op ≠ 0x0B then some 2
  else if s.sec.lc ≠ 2 ∧ !([0x09, 0x0A, 0x0B, 0x0C].contains op) then some 2
  else none

/-- A command runs when it heads the queue (R460): `go` gives its STATUS and effect. -/
def secRun (s : State) (fn op : Nat) (go : State → Nat × State) : Host.Outcome State Fault Refusal :=
  if s.sec.queue.head? ≠ some (fn, op) then .next s
  else match secRefused s fn op with
    | some st => .next (skipUnknown 33 (endCmd s fn st))
    | none =>
      let r := go s
      .next (skipUnknown 33 (endCmd r.2 fn r.1))

/-- Whether bits of an argument outside a field list are 0: `mask` the bits that are used. -/
def onlyBits (v mask : Nat) : Bool := v &&& mask == v

/-- The reserved bits of an access-table entry, and what ATAB refuses (R384, R460): HBM bits with no used range grant all of HBM, the
dump region too. -/
def atabOk (mid : Nat) (e : List Byte) : Bool :=
  let perm := recField e 0 8
  let mblk := recField e 8 8
  let rs := (List.range 4).map (fun i => (recField e (0x10 + 16 * i) 8, recField e (0x18 + 16 * i) 8))
  let field := fun (v : Nat) => bits v 16 39 * 65536
  decide (perm < 256) && decide (mblk < 256) && (!bit mblk 7 || decide (224 ≤ mid / 16))
    && rs.all (fun r => field r.1 == r.1 && field r.2 == r.2)
    && recField e 0x90 112 == 0
    && !(perm % 4 != 0 && (rs.all (fun r => r.1 == r.2)
      || rs.any (fun r => r.1 != r.2 && decide (r.1 < dumpBase + 2 ^ 29) && decide (dumpBase < r.2))))

/-- ATAB (R384, R460). -/
def execAtab (fn : Nat) (s : State) : Host.Outcome State Fault Refusal :=
  secRun s fn 0x01 fun s =>
    let mid := sarg s fn 0
    let a := sargAddr s fn 1
    if !onlyBits mid 0xFFF || a % 256 != 0 then (1, s)
    else match secBytes s a 256 with
      | none => (1, s)
      | some e =>
        if atabOk mid e then (0, modSec s (fun x => { x with atab := tputD x.atab mid e (List.replicate 256 0) })) else (1, s)

/-- CTXASN (R415, R460). -/
def execCtxasn (fn : Nat) (s : State) : Host.Outcome State Fault Refusal :=
  secRun s fn 0x02 fun s =>
    let a := sarg s fn 0
    let c := a % 64
    let f := if fn = 0 then bits a 8 5 else fn
    if !onlyBits a 0x1F3F then (1, s)
    else if (ctxOf s c).fn ≠ f ∧ bit (ctxOf s c).cctl.toNat 0 then (1, s)
    else (0, modCtx s c (fun x => { x with fn := f }))

/-- The ranges of a job descriptor (R444): source, destination, chunks. -/
def jobRanges (bs : List Byte) (n : Nat) : List (Nat × Nat × Nat) :=
  (List.range n).map (fun i => (recField bs (0x10 + 24 * i) 8, recField bs (0x18 + 24 * i) 8, recField bs (0x20 + 24 * i) 8))

/-- Whether some two spans of a list overlap. -/
def anyMeet : List (Nat × Nat) → Bool
  | [] => false
  | x :: xs => xs.any (fun y => spansMeet x.1 x.2 y.1 y.2) || anyMeet xs

/-- Whether every address of a second-tier span is backed: it lies in the fitted part of unfenced expanders, and no page of it is homed
on a fenced slice (R380, R433). -/
def tierBacked (s : State) (a n : Nat) : Bool :=
  decide (tierBase ≤ a) && decide (a + n ≤ tierBase + 8 * expanderSize) &&
    (List.range 8).all (fun i =>
      let lo := tierBase + i * expanderSize
      let cap := if s.memsys.expFenced.getD i true then 0 else s.memsys.expCap.getD i 0
      !spansMeet a n (lo + cap) (expanderSize - cap))
    && (!s.slices.any (·.fenced) || (List.range (n / 4096)).all (fun i => (homeOf s (a + 4096 * i)).isSome))

/-- Whether a queue is an enabled worker queue. -/
def workerQueue (s : State) (q : Nat) : Bool := decide (q < 512) && (queueOf s q).en && (queueOf s q).mode

/-- Whether a job is accepted (R444). -/
def jobOk (s : State) (hd : List Byte) (rs : List (Nat × Nat × Nat)) : Bool :=
  let spans := rs.flatMap (fun r => [(r.1, 65536 * r.2.2), (r.2.1, 65536 * r.2.2)])
  workerQueue s (recField hd 4 2) && decide (1 ≤ rs.length) && decide (rs.length ≤ 256) && recField hd 8 8 == 0
    && s.sec.reel.isNone
    && rs.all (fun r => r.1 % 65536 == 0 && r.2.1 % 65536 == 0 && decide (1 ≤ r.2.2) && decide (r.2.2 ≤ 2 ^ 25)
        && decide (r.1 + 65536 * r.2.2 ≤ 2 ^ 41) && tierBacked s r.2.1 (65536 * r.2.2)
        && !s.memsys.migs.any (fun m => m.busy &&
            (spansMeet r.1 (65536 * r.2.2) m.src (migSize m) || spansMeet r.1 (65536 * r.2.2) m.dst (migSize m))))
    && !anyMeet spans

/-- The job that starts (R444, R445): its start is T0. -/
def newJob (hd : List Byte) (rs : List (Nat × Nat × Nat)) : ReelJob :=
  { jobid := recField hd 0 4, queue := recField hd 4 2, ranges := rs,
    left := rs.flatMap (fun r => (List.range r.2.2).map (fun i => (r.1 + 65536 * i, r.2.1 + 65536 * i))),
    copied := 0, poisoned := 0, fenced := false }

/-- A job starts (R445): at its start instant the partials that the homes of its chunks have recorded are recalled and combined. -/
def startJob (s : State) (j : ReelJob) : State :=
  let gs := (s.bays.flatMap (fun b => b.splice.map (·.grain)) ++ s.net.partials.map (fun p => p.2.2.grain)).dedup
  let mine := gs.filter (fun g => j.left.any (fun c => c.1 / 65536 == 32 * g / 65536))
  modSec (mine.foldl settleGrain s) (fun x => { x with reel := some j })

/-- REEL (R444, R446, R460): a refused job completes at once; where its QUEUE is no enabled worker queue there is nowhere to
say so (DEDUCED, log 76). -/
def execReel (fn : Nat) (s : State) : Host.Outcome State Fault Refusal :=
  secRun s fn 0x05 fun s =>
    let a := sargAddr s fn 0
    match secBytes s a 16 with
    | none => (1, setRsp s fn 0 1)
    | some hd =>
      let n := recField hd 6 2
      match secBytes s a (16 + 24 * min n 256) with
      | none => (1, setRsp s fn 0 1)
      | some bs =>
        let rs := jobRanges bs n
        if a % 64 == 0 && decide (n ≤ 256) && jobOk s hd rs then
          (0, setRsp (startJob s (newJob hd rs)) fn 0 0)
        else
          let q := recField hd 4 2
          let s := if workerQueue s q then
              reelPost (modSec s (fun x => { x with reelDone := x.reelDone ++ [(q, reelPacket (recField hd 0 4) 1 0 0)] }))
            else s
          (0, setRsp s fn 0 1)

/-- Bytes 0x00 to 0x7F of the attestation report (R464). -/
def attestBytes (x : Sec) (nonce : List Byte) : List Byte :=
  [0x4C, 0x4E, 0x41, 0x54] ++ toBytes 2 1 ++ toBytes 1 x.lc ++ toBytes 1 x.dieok.toNat ++ toBytes 8 x.devid
    ++ toBytes 4 (activeImage x).version ++ toBytes 4 x.rollback ++ toBytes 8 0 ++ (activeImage x).digest ++ x.repairDigest ++ nonce

/-- ATTEST (R464): the identity key is not given, so the signature is free (DESIGN CHOICE, log 5). -/
def execAttest (fn : Nat) (s : State) : Host.Outcome State Fault Refusal :=
  secRun s fn 0x09 fun s =>
    let a := sargAddr s fn 2
    match secBytes s (sargAddr s fn 0) 32, secBacked s a 192 with
    | some nonce, true =>
      (0, { secPut s a (attestBytes s.sec nonce ++ toBytes 64 (Config.freeNat s.free)) with free := s.free + 1 })
    | _, _ => (1, s)

/-- GVCNT (R435, R460). -/
def execGvcnt (fn : Nat) (s : State) : Host.Outcome State Fault Refusal :=
  secRun s fn 0x0A fun s =>
    let k := sarg s fn 0
    if 192 ≤ k then (1, s)
    else (0, setRsp (setRsp s fn 0 (coreOf s k).goldenPass) fn 1 (coreOf s k).goldenFail)

/-- An image is valid no longer when its version lies below the anti-rollback count (R463, R465). -/
def stillValid (rollback : Nat) (i : FwImage) : FwImage := { i with valid := i.valid && decide (rollback ≤ i.version) }

/-- FWUPD (R463, R465): whether the signature verifies, and the version and floor in the header, are free values: the spec gives
neither the header's layout nor the key (DESIGN CHOICE, log 5). -/
def execFwupd (fn : Nat) (s : State) : Host.Outcome State Fault Refusal :=
  secRun s fn 0x0B fun s =>
    let flags := sarg s fn 3
    if !onlyBits flags 1 then (1, s)
    else match secBytes s (sargAddr s fn 0) (sarg s fn 2) with
      | none => (1, s)
      | some bs =>
        let version := Config.freeNat s.free % 2 ^ 32
        let floor := Config.freeNat (s.free + 1) % 2 ^ 32
        let ok := Config.freeBit s.free && decide (floor ≤ version) && decide (s.sec.rollback ≤ version)
        let s := { s with free := s.free + 2 }
        if !ok then (5, s)
        else
          let count := max s.sec.rollback floor
          let s := modSec s (fun x => { x with
            images := (lset x.images (1 - x.active) ⟨version, floor, sha256 bs, true, Config.freeBit (s.free - 1)⟩).map (stillValid count)
            rollback := count
            resetDue := x.resetDue || bit flags 0 })
          (0, s)

/-- The message that LCSET's signature covers (R462). -/
def lcMessage (x : Sec) (target : Nat) : List Byte :=
  toBytes 8 x.devid ++ toBytes 1 target ++ toBytes 3 0 ++ toBytes 4 x.rollback

/-- The transition of R462 that a key may sign: the owner hash after it. -/
def lcTransition (x : Sec) (target : Nat) (keyHash : List Byte) : Option (List Byte) :=
  match x.lc, target with
  | 0, 1 => if keyHash = x.rootHash then some x.ownerHash else none
  | 1, 2 => some keyHash
  | 2, 3 => if keyHash = x.ownerHash then some x.ownerHash else none
  | 3, 1 => if keyHash = x.rootHash then some (List.replicate 32 0) else none
  | _, _ => none

/-- LCSET (R461, R462): an accepted transition fences every context and asks for a device reset. -/
def execLcset (fn : Nat) (s : State) : Host.Outcome State Fault Refusal :=
  secRun s fn 0x0C fun s =>
    let target := sarg s fn 0
    if !onlyBits target 3 || sarg s fn 5 != 0 then (1, s)
    else match secBytes s (sargAddr s fn 1) 64, secBytes s (sargAddr s fn 3) 64 with
      | some sig, some key =>
        let be := fun (l : List Byte) (i : Nat) => ofBytesBe ((l.drop (32 * i)).take 32)
        let hash := ofBytesBe (sha256 (lcMessage s.sec target))
        (match lcTransition s.sec target (sha256 key) with
         | none => (5, s)
         | some owner =>
           if ecdsaOk (be key 0) (be key 1) (be sig 0) (be sig 1) hash then
             let s := modSec s (fun x => { x with lc := target, ownerHash := owner, resetDue := true })
             (0, (List.range 64).foldl (fun s c => startFence s c id) s)
           else (5, s))
      | _, _ => (1, s)

/-- CAP (R468). -/
def execCap (fn : Nat) (s : State) : Host.Outcome State Fault Refusal :=
  secRun s fn 0x0D fun s =>
    let v := sarg s fn 0
    if 65536 ≤ v ∨ v < 1800 ∨ 3600 < v then (1, s) else (0, { s with power := { s.power with capw := v } })

/-- A write in block 7 by a host function (R459, R460). -/
def secWrite (s : State) (fn off : Nat) (v : Word) : State :=
  if off / 256 ≠ fn then s
  else
    let r := off % 256
    if r = 0 then secCmd s fn (v.toNat % 256)
    else if r ≤ 0x18 then (if (boxOf s fn).busy then s else modBox s fn (fun b => { b with args := lset b.args (r / 4 - 1) v }))
    else if r = 0x2C then modBox s fn (fun b => { b with done := b.done && !v.getLsbD 1 })
    else s

/-- Whether a core's or a slice's fence is one of its own: a die that the last reset held has none (R457). -/
def fencedOwn (s : State) (die : Nat) (fenced : Bool) : Bool := s.sec.dieok.getLsbD die && fenced

/-- The core entries of the repair table at a reset, and the numbers that stay fenced (R441): a fenced core takes its bay's spare if
that is unused. -/
def repairCoresAt (s : State) (x : Sec) : List Nat × List Nat :=
  (List.range 192).foldl (fun acc c =>
    if !fencedOwn s (c / 96) (coreOf s c).fenced || acc.2.contains c then acc
    else if acc.1.any (fun k => bayOfCore k == bayOfCore c) then (acc.1, acc.2 ++ [c])
    else (acc.1 ++ [c], acc.2)) (x.repairCores, x.repairDead)

/-- The slices that are fenced at a reset (R442): the table's and those fenced since. -/
def fencedSlicesAt (s : State) (x : Sec) : List Nat :=
  x.repairSlices ++ (List.range 128).filter (fun k => fencedOwn s (k / 64) (sliceOf s k).fenced && !x.repairSlices.contains k)

/-- The slice entries at a reset (R441): up to 8 a die; a ninth is not remembered (DESIGN CHOICE, log 121). -/
def repairSlicesAt (l : List Nat) : List Nat :=
  (l.filter (fun k => k / 64 == 0)).take 8 ++ (l.filter (fun k => k / 64 == 1)).take 8

/-- Whether a compute die leaves reset (R457 step 3): at most 8 fenced slices and 8 core entries. -/
def dieLeaves (cores slices : List Nat) (die : Nat) : Bool :=
  decide ((slices.filter (fun k => k / 64 == die)).length ≤ 8) && decide ((cores.filter (fun c => c / 96 == die)).length ≤ 8)

/-- The image that becomes active (R463): valid, the higher version, the lower slot on a tie. -/
def pickImage (imgs : List FwImage) : Option Nat :=
  (imgs.zipIdx).foldl (fun (acc : Option (Nat × Nat)) e =>
    if !e.1.valid then acc
    else match acc with
      | none => some (e.1.version, e.2)
      | some a => if a.1 < e.1.version then some (e.1.version, e.2) else acc) none |>.map Prod.snd

/-- The package after the steps of R457: what is kept is flash, fuses, the power and temperature, and the model's own
counters. A repair table that fails is ignored (R463); entries for the fences since the last reset make a valid one (R441). -/
def bootState (s : State) (up : Bool) : State :=
  let x := repairTable s.sec
  let cores := repairCoresAt s x
  let found := fencedSlicesAt s x
  let slices := repairSlicesAt found
  let ok := fun (d : Nat) => dieLeaves cores.1 found d
  let added := decide (cores ≠ (x.repairCores, x.repairDead)) || decide (slices.length ≠ x.repairSlices.length)
  let img := pickImage s.sec.images
  let run := up && img.isSome
  let r := State.reset
  { r with
    fresh := s.fresh
    free := s.free + 1
    agenda := s.agenda
    cores := (List.range 192).map (fun c => { resetCore with
      fenced := !ok (c / 96) || cores.2.contains c })
    slices := (List.range 128).map (fun k => { resetSlice with fenced := !ok (k / 64) || slices.contains k })
    memsys := { resetMemSys with retired := x.repairFrames, lostStacks := s.memsys.lostStacks, expCap := s.memsys.expCap }
    power := { resetPower with pwr := s.power.pwr, temp := s.power.temp }
    sec := { resetSec with
      lc := s.sec.lc
      ready := run
      fwok := run
      recov := up && img.isNone
      dieok := if run then BitVec.ofNat 2 ((ok 0).toNat + 2 * (ok 1).toNat) else 0
      rootHash := s.sec.rootHash
      ownerHash := s.sec.ownerHash
      rollback := s.sec.rollback
      devid := s.sec.devid
      images := s.sec.images
      active := img.getD s.sec.active
      repairDigest := if added || decide (s.sec.repairValid ∧ s.memsys.retired ≠ x.repairFrames)
        then toBytes 32 (Config.freeNat s.free) else s.sec.repairDigest
      repairValid := s.sec.repairValid || added
      repairCores := if added then cores.1 else s.sec.repairCores
      repairDead := if added then cores.2 else s.sec.repairDead
      repairSlices := if added then slices else s.sec.repairSlices
      repairFrames := if added then x.repairFrames else s.sec.repairFrames } }

/-- DEVICE_RESET (R457): 0 main power coming up, 1 a reset of the host link, 2 a life-cycle change, 3 FWUPD's reset request. -/
def execDeviceReset (source : Nat) (s : State) : Host.Outcome State Fault Refusal :=
  if 4 ≤ source || (2 ≤ source && !s.sec.resetDue) then .next s else .next (bootState s true)

/-- MAIN_POWER_LOSS (R457): all state but flash and fuses is lost, and nothing runs until power comes up. -/
def execMainPowerLoss (s : State) : Host.Outcome State Fault Refusal :=
  let t := bootState s false
  .next { t with power := resetPower, memsys := { t.memsys with lostStacks := [] } }

end Sys2Proof.Machine
end

