-- ==== Sys2Proof/Machine/Fabric.lean ====
section
/-! DEFINITION. The fabric: collective groups and COLL (R230, R231, R420 to R425), the domain (R414), Lanyard requests to and
from peer packages (R416 to R418), and RDMA (R426, R427, R466). Other packages and networks are outside: what reaches this
package from them is an event, what leaves it stands in the outbox. -/

namespace Sys2Proof.Machine

/-- The registered group of an index in a context. -/
def findGroup (s : State) (ctx g : Nat) : Option CollGroup :=
  s.fabric.groups.find? (fun x => x.ctx == ctx && x.group == g)

/-- The COLL of a group in flight in this package (R421). -/
def collsOf (s : State) (ctx g : Nat) : List CopyCmd :=
  (tvals s.net.copies).filter (fun c => c.ctx == ctx && !c.done && (match c.kind with | .coll _ _ _ k _ => k == g | _ => false))

/-- Registrations and removals whose group has no COLL in flight take effect (R420). -/
def settleGroups (s : State) : State :=
  let idle := fun (e : CollGroup × Bool) => (collsOf s e.1.ctx e.1.group).isEmpty
  let now := s.fabric.groupWait.filter idle
  let s := modFab s (fun f => { f with groupWait := f.groupWait.filter (fun e => !idle e) })
  now.foldl (fun s e => modFab s (fun f =>
    let rest := f.groups.filter (fun x => !(x.ctx == e.1.ctx && x.group == e.1.group))
    { f with groups := if e.2 then rest ++ [e.1] else rest })) s

/-- The group that a descriptor describes (R420). -/
def parseGroup (ctx g : Nat) (bs : List Byte) : CollGroup :=
  let n := recField bs 0 2
  ⟨ctx, g, recField bs 2 2, recField bs 4 2, recField bs 6 1, recField bs 8 2,
    (List.range n).map (fun r => recField bs (0x10 + 2 * r) 2)⟩

/-- Whether a registration is accepted (R420). -/
def groupOk (s : State) (bs : List Byte) (x : CollGroup) : Bool :=
  let n := recField bs 0 2
  decide (1 ≤ n) && decide (n ≤ 576) && decide (x.myRank < n) && decide (x.root < n) && decide (x.mode ≤ 1)
    && recField bs 7 1 == 0 && recField bs 0x0A 6 == 0 && (x.mode == 1 || x.swgrp == 0)
    && x.members.all (fun m => decide (m < 576)) && x.members.getD x.myRank 0xFFFF == s.fabric.pkgn
    && x.members.dedup.length == x.members.length && s.fabric.pkgv

/-- CGREG (R420, R460) (DEDUCED, log 75). -/
def execCgreg (fn : Nat) (s : State) : Host.Outcome State Fault Refusal :=
  secRun s fn 0x03 fun s =>
    let a := sarg s fn 0
    let c := a % 64
    let pa := sargAddr s fn 1
    if !onlyBits a 0xFF3F || (ctxOf s c).fn != fn || pa % 16 != 0 then (1, s)
    else match (secBytes s pa 16).bind (fun hd => secBytes s pa (16 + 2 * recField hd 0 2)) with
      | none => (1, s)
      | some bs =>
        let x := parseGroup c (bits a 8 8) bs
        if groupOk s bs x then (0, settleGroups (modFab s (fun f => { f with groupWait := f.groupWait ++ [(x, true)] })))
        else (1, s)

/-- CGDEL (R420, R460). -/
def execCgdel (fn : Nat) (s : State) : Host.Outcome State Fault Refusal :=
  secRun s fn 0x04 fun s =>
    let a := sarg s fn 0
    let s := settleGroups s
    if !onlyBits a 0xFF3F || (ctxOf s (a % 64)).fn != fn then (1, s)
    else match findGroup s (a % 64) (bits a 8 8) with
      | none => (1, s)
      | some x => (0, settleGroups (modFab s (fun f => { f with groupWait := f.groupWait ++ [(x, false)] })))

/-- DOMAIN (R414, R460). -/
def execDomain (fn : Nat) (s : State) : Host.Outcome State Fault Refusal :=
  secRun s fn 0x08 fun s =>
    let n := sarg s fn 0
    if !onlyBits n 0x3FF || decide (576 ≤ n) || s.fabric.domainClosed then (1, s)
    else match secBytes s (sargAddr s fn 1) 72 with
      | none => (1, s)
      | some bs => (0, modFab s (fun f => { f with pkgn := n, pkgv := true, domainClosed := true, present := bs }))

/-- Bytes of a COLL's element (R230). -/
def collSize (ty : Nat) : Nat := if ty = 1 ∨ ty = 4 then 2 else 4

/-- Source and destination elements of a kind (R230). -/
def collElems (kind n c : Nat) : Nat × Nat :=
  match kind with
  | 1 => (c, n * c)
  | 2 => (n * c, c)
  | _ => (c, c)

/-- COLL (R230, R231, R421). -/
def execColl (f : UB) (s : State) : Host.Outcome State Fault Refusal :=
  issue (.coll f) s fun x s =>
    let w := x.w
    let kind := f.sub.toNat % 4
    let op := f.imm.toNat % 4
    let ty := bits f.imm.toNat 2 4
    let g := (sread w f.sa.toNat).toNat
    let stp := (sread w (f.sa.toNat + 1)).toNat
    let src := (sread w f.sb.toNat).toNat
    let dst := (sread w (f.sb.toNat + 1)).toNat
    let c := (sread w (f.sb.toNat + 2)).toNat
    let hdr := (sread w f.sc.toNat).toNat
    match copyAlign x [(src, 128), (dst, 128), (hdr, 16)] with
    | some t => (.trap t, s)
    | none =>
      let s := settleGroups s
      match if g < 256 then findGroup s x.ctx g else none with
      | none => (.trap (trapOf cPERM x.b.lanes 0), s)
      | some grp =>
        let e := collElems kind grp.members.length c
        let n := collSize ty
        let own := fun (a m : Nat) => match copyPlace x s a m with
          | .error t => Except.error t
          | .ok p => if p.rank = rankOf s w then .ok p else .error (copyScrb x a)
        match own src (e.1 * n), own dst (e.2 * n), copyPlace x s hdr 16 with
        | .error t, _, _ => (.trap t, s)
        | _, .error t, _ => (.trap t, s)
        | _, _, .error t => (.trap t, s)
        | .ok sp, .ok dp, .ok ring =>
          match poisOf x s with
          | some r => r
          | none =>
            let live := collsOf s x.ctx g
            let again := live.any (fun k => match k.kind with | .coll _ _ _ _ t => t == stp | _ => false)
            if 8 ≤ live.length then (.stall, s)
            else startCopy x s { newCopy x s (.coll kind op ty g stp) false [⟨ring, (sread w f.sd.toNat).toNat, dp⟩] with
              src := sp, count := e.1 * n, total := e.2 * n
              failed := if again then some (cILL, 0, (word0 x.instr).toNat) else none }

/-- The COLL of this package for a step of a group, its source read. -/
def ownColl (s : State) (ctx g stp : Nat) : Option CopyCmd :=
  (collsOf s ctx g).find? (fun c => c.srcRead.isSome && c.failed.isNone && c.buf.isEmpty && c.made == 0
    && (match c.kind with | .coll _ _ _ _ t => t == stp | _ => false))

/-- This package's contribution (R421): its source bytes, the elements that hold poison. -/
def ownPart (c : CopyCmd) (rank n : Nat) : CollPart :=
  let bs := c.srcRead.getD []
  match c.kind with
  | .coll kind op ty g stp =>
    let sz := collSize ty
    ⟨c.ctx, g, stp, rank, kind, op, ty, c.count / sz / (if kind = 2 then n else 1), 0, bs.map Prod.fst,
      (List.range (bs.length / sz)).filter (fun i => ((bs.drop (sz * i)).take sz).any Prod.snd)⟩
  | _ => ⟨c.ctx, 0, 0, rank, 0, 0, 0, 0, 0, [], []⟩

/-- Whether a run is a step of a group. -/
def runOfStep (ctx g stp : Nat) (r : CollRun) : Bool := r.ctx == ctx && r.group == g && r.stp == stp

/-- The run of a step of a group. -/
def findRun (s : State) (ctx g stp : Nat) : Option (Nat × CollRun) := s.fabric.colls.find? (fun e => runOfStep ctx g stp e.2)

/-- Adds a packet to the run of its step; a newer one of the same rank and offset replaces an older (DEDUCED, log 72). -/
def addPart (s : State) (p : CollPart) : State :=
  match findRun s p.ctx p.group p.step with
  | some (k, r) => modFab s (fun f => { f with
      colls := tput f.colls k { r with parts := r.parts.filter (fun q => !(q.rank == p.rank && q.offset == p.offset)) ++ [p] } })
  | none =>
    let (id, s) := nextId s
    modFab s (fun f => { f with
      colls := tput f.colls id ⟨none, none, false, p.ctx, p.group, p.step, p.kind, p.op, p.ty, p.count, [p]⟩ })

/-- comb of R422 on two elements, none when poisoned. -/
def collComb (op ty node stp index : Nat) (x y : Option Nat) : Option Nat :=
  match x, y with
  | some x, some y =>
    let num : Num := match ty with | 0 => .flt fp32 | 1 => .flt bf16 | 2 => .int true 32 | 3 => .int false 32 | _ => .flt fp16
    some (match num with
      | .int sg w =>
        let a := valueOf sg w x
        let b := valueOf sg w y
        if op = 0 then (x + y) % 2 ^ w else if op = 1 then (if a < b then y else x) else (if b < a then y else x)
      | .flt f =>
        if op = 0 then
          (fAddVal f ⟨if ty = 0 then .rne else .sr (srKey node stp index), false, false⟩ (fDecode f x) (fDecode f y)).1
        else (fMinMax f (op == 1) x y).1)
  | _, _ => none

/-- Elements of a packet's bytes. -/
def partLen (p : CollPart) : Nat := p.data.length / collSize p.ty

/-- Element i of a rank's packets: none while it has not come, else its value, none when poisoned. -/
def partElem (ps : List CollPart) (rank i : Nat) : Option (Option Nat) :=
  (ps.find? (fun p => p.rank == rank && decide (p.offset ≤ i) && decide (i < p.offset + partLen p))).map (fun p =>
    if p.lost.contains (i - p.offset) then none
    else some (ofBytes ((p.data.drop (collSize p.ty * (i - p.offset))).take (collSize p.ty))))

/-- The first n elements of a rank, when all have come. -/
def rankElems (ps : List CollPart) (rank n : Nat) : Option (List (Option Nat)) :=
  if (List.range n).all (fun i => (partElem ps rank i).isSome) then some ((List.range n).map (fun i => (partElem ps rank i).getD none))
  else none

/-- The node steps of a member in the tree of R422: s with a member a + s whose value it combines. -/
def nodeSteps (n a : Nat) : List Nat := ((List.range 10).map (2 ^ ·)).filter (fun d => a % (2 * d) == 0 && decide (a + d < n))

/-- The member that takes a member's node value (R424). -/
def parentOf (a : Nat) : Nat := match (List.range 10).find? (fun k => bit a k) with | none => 0 | some k => a - 2 ^ k

/-- The members whose elements a member's node value holds. -/
def treeSpan (n a : Nat) : Nat := min (if a = 0 then n else a - parentOf a) (n - a)

/-- Whether a kind combines (R423): .ar and .rs. -/
def combines (kind : Nat) : Bool := kind == 0 || kind == 2

/-- The elements of member q's node value (R422, R424): a tree's value, or, where nothing is combined, the elements of its members one
after another (DEDUCED, log 72). -/
def nodeLen (kind n c q : Nat) : Nat := match kind with | 0 => c | 2 => n * c | _ => treeSpan n q * c

/-- A step of R422's tree at member a, node a + d: elements i of both combined, or appended. -/
def nodeStep (kind op ty stp node : Nat) (w v : List (Option Nat)) : List (Option Nat) :=
  if combines kind then (w.zipIdx).map (fun e => collComb op ty node stp e.2 e.1 (v.getD e.2 none)) else w ++ v

/-- The value of a member's node, from its own elements and those that its node steps' members have sent: none while one is missing
(R422, R424). -/
def nodeValue (own : CollPart) (n : Nat) (ps : List CollPart) : Option (List (Option Nat)) :=
  (nodeSteps n own.rank).foldl (fun acc d => acc.bind fun w =>
    (rankElems ps (own.rank + d) (nodeLen own.kind n own.count (own.rank + d))).map
      (nodeStep own.kind own.op own.ty own.step (own.rank + d) w)) (rankElems ps own.rank (partLen own))

/-- The result that member 0 sends to every member: of .bc only ROOT's elements. -/
def resultOf (x : CollGroup) (own : CollPart) (w : List (Option Nat)) : List (Option Nat) :=
  if own.kind = 3 then (w.drop (x.root * own.count)).take own.count else w

/-- The elements of a result (R423). -/
def resultLen (kind n c : Nat) : Nat := match kind with | 1 | 2 => n * c | _ => c

/-- A member's destination elements of a result (R423). -/
def ownResult (x : CollGroup) (own : CollPart) (w : List (Option Nat)) : List (Option Nat) :=
  if own.kind = 2 then (w.drop (x.myRank * own.count)).take own.count else w

/-- Elements as bytes, and which are poisoned. -/
def elemBytes (ty : Nat) (w : List (Option Nat)) : List Byte := w.flatMap (fun e => toBytes (collSize ty) (e.getD 0))
def elemLost (w : List (Option Nat)) : List Nat := ((w.zipIdx).filter (fun e => e.1.isNone)).map Prod.snd

/-- Whether a packet says another operation than the member's own (R421). -/
def differs (own p : CollPart) : Bool := p.kind != own.kind || p.op != own.op || p.ty != own.ty || p.count != own.count

/-- The header of a collective packet (R315, R424): the stream identity (group, step, this package, the engine's die) with its sequence
number, SWGRP, step, rank and element offset, and the operation. -/
def collHead (s : State) (x : CollGroup) (hub : Nat) (p : CollPart) (seq : Nat) : List Byte :=
  toBytes 1 4 ++ toBytes 1 x.group ++ toBytes 4 p.step ++ toBytes 2 s.fabric.pkgn ++ toBytes 1 (hub / 2) ++ toBytes 2 (seq % 4096)
    ++ toBytes 2 x.swgrp ++ toBytes 2 p.rank ++ toBytes 4 p.offset ++ toBytes 1 (p.kind + 16 * p.op) ++ toBytes 1 p.ty ++ toBytes 4 p.count

/-- The elements of the result that depend on a packet's elements, first and count (R423): of a contribution lost. -/
def resultSpan (x : CollGroup) (p : CollPart) : Nat × Nat :=
  let at' := p.rank * p.count + p.offset
  match p.kind with
  | 1 => (at', partLen p)
  | 3 =>
    let lo := max at' (x.root * p.count)
    (lo - x.root * p.count, min (at' + partLen p) ((x.root + 1) * p.count) - lo)
  | _ => (p.offset, partLen p)

/-- A collective packet is lost (R418), with a record: the elements of this package's result that depend on a contribution are poisoned
(R424); a disagreement fails its slot all the same (DEDUCED, log 72). -/
def loseColl (s : State) (x : CollGroup) (dst : Nat) (p : CollPart) : State :=
  let n := x.members.length
  let s := report s 0 ⟨0x0C, 1, none, none, noUnit, dst, 0⟩
  let r := resultSpan x p
  if p.rank = n || (findRun s p.ctx p.group p.step).isNone then s
  else if p.kind = 4 then addPart s { p with rank := n }
  else if r.2 = 0 then s
  else addPart s { p with rank := n, offset := r.1, data := List.replicate (collSize p.ty * r.2) 0, lost := List.range r.2 }

/-- A packet of a collective stream leaves for a member or the switches, by the least-loaded link that is up: which one that is is
free (R416) (DESIGN CHOICE, log 5). With no link up it is lost (R418). -/
def sendColl (s : State) (x : CollGroup) (hub dst : Nat) (p : CollPart) (seq : Nat) : State :=
  match (upLinks s)[Config.freeNat s.free % (upLinks s).length]? with
  | none => loseColl s x dst p
  | some l =>
    let m : OutMsg := ⟨l, dst, flit (collHead s x hub p seq), p.data, p.lost⟩
    modFab (sendMsg { s with free := s.free + 1 } m) (fun f => { f with
      collsOut := f.collsOut.filter (fun c => decide (s.clock < c.at' + 4194304)) ++ [⟨s.clock, hub, seq, p, m⟩] })

/-- A message cut into packets of at most 512 bytes, each with its element offset; `n` bounds their number. -/
def cutPart : Nat → CollPart → List CollPart
  | 0, _ => []
  | n + 1, p =>
    let k := 512 / collSize p.ty
    if p.data.length ≤ 512 then [p]
    else { p with data := p.data.take 512, lost := p.lost.filter (fun i => decide (i < k)) } ::
      cutPart n { p with
        offset := p.offset + k, data := p.data.drop 512
        lost := (p.lost.filter (fun i => decide (k ≤ i))).map (fun i => i - k) }

/-- A message of a collective leaves for some destinations. -/
def sendPart (s : State) (x : CollGroup) (hub : Nat) (dsts : List Nat) (p : CollPart) : State :=
  dsts.foldl (fun s d => ((cutPart (p.data.length + 1) p).zipIdx).foldl (fun s e => sendColl s x hub d e.1 e.2) s) s

/-- The engine's step in MODE 0 (R424): once its members' values have come, a member's node value goes to the member that takes it; member
0's is the result, and goes to every member. A disagreement takes the same way (R421). -/
def collStep (s : State) (x : CollGroup) (ctx stp : Nat) : State :=
  match (findRun s ctx x.group stp).bind (fun e => (e.2.parts.find? (fun p => p.rank == x.myRank)).map (fun p => (e, p))) with
  | none => s
  | some ((id, r), own) =>
    let n := x.members.length
    let bad := r.parts.any (fun p => decide (p.rank < n) && differs own p)
    if x.mode = 1 || r.sent then s
    else
      let w := if bad then some [] else nodeValue own n r.parts
      match w with
      | none => s
      | some w =>
        let w := if x.myRank = 0 then resultOf x own w else w
        let p : CollPart := { own with
          rank := if x.myRank = 0 then n else x.myRank
          kind := if bad then 4 else own.kind
          offset := 0, data := elemBytes own.ty w, lost := elemLost w }
        let s := modFab s (fun f => { f with colls := tput f.colls id { r with sent := true } })
        let hub := r.hub.getD 0
        if x.myRank = 0 then addPart (sendPart s x hub ((x.members.drop 1)) p) p
        else sendPart s x hub [x.members.getD (parentOf x.myRank) 0] p

/-- The fabric reduction engine that serves a group for a core's die (R408). -/
def collHub (core g : Nat) : Nat := 2 * dieOfCore core + g % 2

/-- This package's own contribution reaches its engine; in MODE 1 it leaves for the switches (R424). -/
def enterOwn (s : State) (x : CollGroup) (k : CopyCmd) : State :=
  let p := ownPart k x.myRank x.members.length
  let hub := collHub k.core x.group
  let s := addPart s p
  let s := modFab s (fun f => { f with colls := f.colls.map (fun e =>
    if runOfStep p.ctx p.group p.step e.2 then (e.1, { e.2 with copy := some k.id, hub := some hub }) else e) })
  if x.mode = 1 then sendPart s x hub [2 ^ 16 + x.swgrp] p else s

/-- COLL_CONTRIBUTION (R421, R424): this package's contribution, a member's node value, or the result, from member 0 or the switches,
reaches this package's fabric reduction engine. -/
def execCollContribution (c : CollPart) (s : State) : Host.Outcome State Fault Refusal :=
  let s := settleGroups s
  match findGroup s c.ctx c.group with
  | none => .next s
  | some x =>
    if x.members.length < c.rank then .next s
    else if c.rank = x.myRank then
      match ownColl s c.ctx c.group c.step with
      | none => .next s
      | some k =>
        if s.fabric.colls.any (fun e => e.2.copy == some k.id) then .next s
        else .next (collStep (enterOwn s x k) x c.ctx c.step)
    else .next (collStep (addPart s c) x c.ctx c.step)

/-- COLL_RESULT (R421 to R424): the result has come, and the engine writes it, or the slot fails where the members' kind, op, type or
c differ. -/
def execCollResult (id : Nat) (s : State) : Host.Outcome State Fault Refusal :=
  match (tget s.fabric.colls id).bind (fun r => r.copy.bind (fun k => (tget s.net.copies k).map (fun c => (r, c)))) with
  | none => .next s
  | some (r, c) =>
    match (findGroup s r.ctx r.group).bind (fun x => (r.parts.find? (fun p => p.rank == x.myRank)).map (fun p => (x, p))) with
    | none => .next s
    | some (x, own) =>
      let n := x.members.length
      let done := modFab s (fun f => { f with colls := terase f.colls id })
      if r.parts.any (fun p => p.rank == n && differs own p) then .next (failCopy done c.id (cILL, 0, c.w0))
      else match rankElems r.parts n (resultLen own.kind n own.count) with
        | none => .next s
        | some w =>
          let bs := (ownResult x own w).flatMap (fun e => (toBytes (collSize own.ty) (e.getD 0)).map (fun b => (b, e.isNone)))
          .next (modCopy done c.id (fun c => { c with buf := bs }))

/-- A request to a peer package leaves (R416 to R418). -/
def sendLanyard (s : State) (load grp : Option Nat) (a : Nat) (head body : List Byte) : State :=
  let (id, s) := nextId s
  let s := modFab s (fun f => { f with
    lanyard := tput f.lanyard id ⟨load, grp, peerOf a, a, s.clock, linkFor s (peerOf a) a, head, body⟩ })
  sendLink s (peerOf a) a head body

/-- The bytes of the lanes of an atomic's returned values in one grain, in ascending lane order. -/
def cutParts (n : Nat) : List LanePart → List Byte → List (Nat × List Byte)
  | [], _ => []
  | p :: ps, bs => (p.lane, bs.take n) :: cutParts n ps (bs.drop n)

/-- A Lanyard request completes (R417, R418): a load's lanes at its address have their bytes; a packet counts as performed, and an
atomic's lanes have the values returned. -/
def lanyardDone (s : State) (id : Nat) (r : LyReq) (bs : List Byte) (poison : Bool) : State :=
  let s := modFab s (fun f => { f with lanyard := terase f.lanyard id })
  match r.load, r.grp with
  | some l, _ => modLoad s l (fun l => { l with parts := l.parts.map (fun p =>
      if p.addr == r.addr && p.value.isNone then { p with value := some (bs.take l.size), pois := poison } else p) })
  | none, some e => match findEnt s e with
    | none => s
    | some e =>
      let s := match e.kind with
        | .atomic l => match tget s.net.loads l with
          | none => s
          | some p =>
            let vs := cutParts p.size (p.parts.filter (fun x => x.addr / 32 == e.grain)) bs
            vs.foldl (fun s v => setPart s l v.1 v.2 poison) s
        | _ => s
      performEnt s e.id
  | none, none => s

/-- LANYARD_RESPONSE (R418): discarded when its request is no more, or has timed out. -/
def execLanyardResponse (id : Nat) (data : List Byte) (poison : Bool) (s : State) : Host.Outcome State Fault Refusal :=
  match tget s.fabric.lanyard id with
  | none => .next s
  | some r =>
    if r.sent + 4194304 ≤ s.clock then .next s else .next (lanyardDone s id r (data ++ List.replicate 512 0) poison)

/-- LANYARD_TIMEOUT (R418): 4 194 304 clocks, or no link is up: poison is delivered, a write counts as acknowledged. -/
def execLanyardTimeout (id : Nat) (s : State) : Host.Outcome State Fault Refusal :=
  match tget s.fabric.lanyard id with
  | none => .next s
  | some r =>
    if s.clock < r.sent + 4194304 ∧ s.fabric.lyup ≠ 0 then .next s
    else
      let s := lanyardDone s id r (List.replicate 512 0) true
      .next (report s 0 ⟨0x0C, 1, none, none, noUnit, r.pkg, 0⟩)

/-- A request sent on a link that has failed (R416): it is replayed on another link that is up, or its timeout comes (R418); which of
the two is free (DESIGN CHOICE, log 5). -/
def replayReq (s : State) (id : Nat) (r : LyReq) : State :=
  let (again, s) := freePick s
  match again, linkFor s r.pkg r.addr with
  | true, some l =>
    sendBy (modFab s (fun f => { f with lanyard := tput f.lanyard id { r with link := some l } })) l r.pkg r.head r.data
  | _, _ => s

/-- A collective packet sent on a link that has failed (R416): it is sent again on another link, or lost (R418), by a free choice
(DESIGN CHOICE, log 5). -/
def replayColl (s : State) (c : CollSent) : State :=
  match findGroup s c.part.ctx c.part.group with
  | none => s
  | some x =>
    let (again, s) := freePick s
    if again then sendColl s x c.hub c.msg.dst c.part c.seq else loseColl s x c.msg.dst c.part

/-- LANYARD_LINK_FAIL (R416): the link carries no traffic any more; the requests and the collective packets sent on it are replayed or
fall under R418. -/
def execLanyardLinkFail (link : Nat) (s : State) : Host.Outcome State Fault Refusal :=
  let s := modFab s (fun f => { f with lyup := f.lyup &&& ~~~(BitVec.ofNat 32 (2 ^ link)) })
  let s := (s.fabric.lanyard.filter (fun e => e.2.link == some link)).foldl (fun s e => replayReq s e.1 e.2) s
  let lost := s.fabric.collsOut.filter (fun c => c.msg.link == link && decide (s.clock < c.at' + 4194304))
  let s := modFab s (fun f => { f with collsOut := f.collsOut.filter (fun c => c.msg.link != link) })
  .next (lost.foldl replayColl s)

/-- ETHERNET_LINK_CHANGE (R414). -/
def execEthernetLinkChange (port : Nat) (up : Bool) (s : State) : Host.Outcome State Fault Refusal :=
  .next (modFab s (fun f => { f with
    enup := if up then f.enup ||| BitVec.ofNat 8 (2 ^ port) else f.enup &&& ~~~(BitVec.ofNat 8 (2 ^ port)) }))

/-- A read of local memory by a master from outside through a hub die (R312, R380, R385): bytes, poison, and whether it was permitted. -/
def outRead (s : State) (hub mid : Nat) (ctx : Option Nat) (a n : Nat) : List Byte × Bool × Bool × State :=
  let as := (List.range n).map (fun i => routed s (a + i))
  let grains := (as.map (fun x => x / 32 * 32)).dedup
  let ok := grains.all (fun g => permits s mid g true false)
  let t := grains.foldl (fun s g => engTouch (engNote s ((homeDie s g).getD 0) mid ctx false g) (hub / 2) (108 + hub % 2)
    (if permits s mid g true false then [g] else [])) s
  let gone := grains.any (fun g => (homeOf s g).isNone || homePois s g)
  (if ok then as.map (homeByte s) else List.replicate n 0, !ok || gone, ok, t)

/-- A write of local memory by a master from outside through a hub die: whether it was permitted. -/
def outWrite (s : State) (hub mid : Nat) (ctx : Option Nat) (a : Nat) (bs : List Byte) : Bool × State :=
  let cuts := grainCuts (bs.length + 1) a bs
  let ok := cuts.all (fun c => permits s mid (routed s c.1) false true)
  (ok, cuts.foldl (fun s c =>
    let pa := routed s c.1
    let s1 := engNote s ((homeDie s pa).getD 0) mid ctx true pa
    if permits s mid pa false true then homeStoreBy s1 (hub / 2) (108 + hub % 2) pa c.2 else s1) s)

/-- The local address of an offset in this package's aperture (R379). -/
def apertureAddr (o : Nat) : Nat := if o < 2 ^ 41 then o else tierBase + (o - 2 ^ 41)

/-- The answer to a peer's request leaves (R416, R417). -/
def answerPeer (s : State) (r : PeerReq) (poison : Bool) (bs : List Byte) : State :=
  sendLink s r.pkg r.addr (toBytes 1 5 ++ toBytes 1 poison.toNat ++ toBytes 8 (r.addr % 2 ^ 43)) bs

/-- PEER_REQUEST (R417): checked against entry MID * 16 + 9 and performed at its home; `addr` is an offset in this package's
aperture. The answer leaves for the peer: a header that says whether it is poisoned, then the bytes. -/
def execPeerRequest (r : PeerReq) (s : State) : Host.Outcome State Fault Refusal :=
  if s.sec.fatal.isSome || !s.fabric.pkgv || !s.sec.ready then .next s
  else
    let mid := 16 * (r.mid % 256) + 9
    let a := apertureAddr (r.addr % 2 ^ 43)
    match r.op with
    | .read =>
      let t := outRead s (r.link / 8 % 4) mid none a r.size
      .next (answerPeer t.2.2.2 r t.2.1 t.1)
    | .write =>
      let t := outWrite s (r.link / 8 % 4) mid none a (r.data.take r.size)
      .next (answerPeer t.2 r false [])
    | .atomic aop ty v w =>
      let n := atomBytes ty
      let pa := routed s a
      let die := (homeDie s pa).getD 0
      if !permits s mid pa true true then
        .next (answerPeer (denyAccess s die mid none pa 1) r true (List.replicate n 0))
      else if (homeOf s pa).isNone then
        .next (answerPeer (unbackedAccess s die mid none pa true) r true (List.replicate n 0))
      else
        let hub := r.link / 8 % 4
        let s := homeFill s (hub / 2) (108 + hub % 2) pa
        let old := (List.range n).map (fun i => storedByte s (pa + i))
        if homePois s pa then .next (answerPeer s r true old)
        else
          let y := atomApply aop ty (ofBytes old) (v.toNat % 2 ^ (8 * n)) (w.toNat % 2 ^ (8 * n))
          .next (answerPeer (dropLeaseGrain (putGrain s pa (toBytes n y)) (hub / 2) pa) r false old)

/-- Changes a queue pair. -/
def modQp (s : State) (qp : Nat) (f : QPair → QPair) : State := modFab s (fun x => { x with qps := tmod x.qps qp f })

/-- The master id of a queue pair (R427). -/
def qpMaster (s : State) (p : QPair) : Nat := masterOf s p.ctx 10
/-- The hub die of a queue pair's Ethernet port (R408, R426). -/
def qpHub (p : QPair) : Nat := p.port / 2 % 4

/-- The pass parity of a ring index (R427): 1 on the first pass. -/
def passParity (idx log : Nat) : Nat := (idx / 2 ^ log + 1) % 2

/-- A completion record (R427). -/
def completeReq (s : State) (qp : Nat) (recv : Bool) (idx : Nat) (req : List Byte) (status bytes : Nat) : State :=
  match tget s.fabric.qps qp with
  | none => s
  | some p =>
    if !bit (recField req 1 1) 1 then s
    else
      let bs := toBytes 4 (passParity p.compIdx p.compLog + 2 * status) ++ toBytes 4 qp ++ toBytes 4 (idx % 2 ^ (if recv then p.recvLog else p.sendLog))
        ++ toBytes 4 bytes ++ List.replicate 16 0
      let s := (outWrite s (qpHub p) (qpMaster s p) (some p.ctx) (p.compBase + 32 * (p.compIdx % 2 ^ p.compLog)) bs).2
      modQp s qp (fun p => { p with compIdx := p.compIdx + 1 })

/-- Whether a work request is well formed (R427) for its ring: the receive ring takes RECV, the send ring WRITE, READ and SEND;
a datagram queue pair only SEND. -/
def workOk (p : QPair) (recv : Bool) (r : List Byte) : Bool :=
  let opc := recField r 0 1
  let len := recField r 4 4
  (if recv then opc == 4 else opc == 3 || (!p.datagram && (opc == 1 || opc == 2)))
    && bits (recField r 1 1) 2 6 == 0 && recField r 2 2 == 0 && recField r 0x1C 36 == 0 && decide (1 ≤ len) && decide (len ≤ 2 ^ 31)

/-- A taken send request (R427): its data is read and leaves; a READ leaves as a request. The layout of what leaves is the model's own
(DESIGN CHOICE, log 132). -/
def sendWork (s : State) (qp : Nat) (p : QPair) (idx : Nat) (r : List Byte) : State :=
  let len := recField r 4 4
  let wait_ := fun (s : State) => modQp s qp (fun p => { p with pending := p.pending ++ [(idx, r)] })
  if recField r 0 1 = 2 then sendEth (wait_ s) p.port (toBytes 4 p.remoteQp ++ r)
  else
    let t := outRead s (qpHub p) (qpMaster s p) (some p.ctx) (recField r 8 8) len
    if !t.2.2.1 then completeReq t.2.2.2 qp false idx r 3 0
    else if t.2.1 then completeReq t.2.2.2 qp false idx r 2 0
    else
      let s := sendEth t.2.2.2 p.port (toBytes 4 p.remoteQp ++ r ++ t.1)
      if p.datagram then completeReq s qp false idx r 0 len else wait_ s

/-- Whether a send request must wait for those before it (R427): while a READ's data is not written, and, where it completes at once
with a status, while any is pending. -/
def workWaits (s : State) (p : QPair) (r : List Byte) : Bool :=
  let t := outRead s (qpHub p) (qpMaster s p) (some p.ctx) (recField r 8 8) (recField r 4 4)
  let sends := workOk p false r && (recField r 0 1 == 2 || (t.2.2.1 && !t.2.1))
  p.pending.any (fun e => recField e.2 0 1 == 2) || (!p.pending.isEmpty && !sends)

/-- RDMA_RING_POLL (R427): the next entry of the send ring (0) or the receive ring (1), when its PH is the pass parity (DEDUCED, log 73). -/
def execRdmaRingPoll (qp ring : Nat) (s : State) : Host.Outcome State Fault Refusal :=
  match tget s.fabric.qps qp with
  | none => .next s
  | some p =>
    let recv := ring == 1
    let (base, idx, log) := if recv then (p.recvBase, p.recvIdx, p.recvLog) else (p.sendBase, p.sendIdx, p.sendLog)
    if 2 ≤ ring ∨ s.sec.fatal.isSome ∨ (!recv ∧ s.fabric.enup.getLsbD p.port = false) then .next s
    else
      let t := outRead s (qpHub p) (qpMaster s p) (some p.ctx) (base + 64 * (idx % 2 ^ log)) 64
      let r := t.1
      if t.2.1 ∨ recField r 1 1 % 2 ≠ passParity idx log ∨ (!recv ∧ workWaits s p r) then .next t.2.2.2
      else
        let s := modQp t.2.2.2 qp (fun p => if recv then { p with recvIdx := idx + 1 } else { p with sendIdx := idx + 1 })
        if !workOk p recv r then .next (completeReq s qp recv idx r 2 0)
        else if recv then .next (modQp s qp (fun p => { p with recvs := p.recvs ++ [(idx, r)] }))
        else .next (sendWork s qp p idx r)

/-- RDMA_RESPONSE (R427): the answer to the oldest pending request, for requests are performed in ring order: status 0, with the data
of a READ, or 1. -/
def execRdmaResponse (qp idx status : Nat) (data : List Byte) (s : State) : Host.Outcome State Fault Refusal :=
  match (tget s.fabric.qps qp).bind (fun p => (p.pending.head?.filter (fun e => e.1 == idx)).map (fun e => (p, e.2))) with
  | none => .next s
  | some (p, r) =>
    let len := recField r 4 4
    let s := modQp s qp (fun p => { p with pending := p.pending.filter (fun e => e.1 != idx) })
    if status ≠ 0 then .next (completeReq s qp false idx r 1 0)
    else if recField r 0 1 = 2 then
      let t := outWrite s (qpHub p) (qpMaster s p) (some p.ctx) (recField r 8 8) (data.take len)
      .next (completeReq t.2 qp false idx r (if t.1 then 0 else 3) len)
    else .next (completeReq s qp false idx r 0 len)

/-- RDMA_INBOUND_SEND (R426, R427): the next RECV entry takes the data; data longer than its LEN is an invalid request. -/
def execRdmaInboundSend (qp : Nat) (data : List Byte) (s : State) : Host.Outcome State Fault Refusal :=
  match (tget s.fabric.qps qp).bind (fun p => p.recvs.head?.map (fun e => (p, e))) with
  | none => .next s
  | some (p, idx, r) =>
    if s.fabric.enup.getLsbD p.port = false ∨ s.sec.fatal.isSome then .next s
    else
      let s := modQp s qp (fun p => { p with recvs := p.recvs.drop 1 })
      if recField r 4 4 < data.length then .next (completeReq s qp true idx r 2 0)
      else
        let t := outWrite s (qpHub p) (qpMaster s p) (some p.ctx) (recField r 8 8) data
        .next (completeReq t.2 qp true idx r (if t.1 then 0 else 3) data.length)

/-- RDMA_INBOUND (R466): a WRITE or READ that carries the queue pair's RKEY acts on its context. -/
def execRdmaInbound (r : RdmaReq) (s : State) : Host.Outcome State Fault Refusal :=
  match tget s.fabric.qps r.qp with
  | none => .next s
  | some p =>
    if p.rkey ≠ r.rkey ∨ p.datagram ∨ s.fabric.enup.getLsbD p.port = false ∨ s.sec.fatal.isSome then .next s
    else if r.write then .next (outWrite s (qpHub p) (qpMaster s p) (some p.ctx) r.addr (r.data.take r.size)).2
    else
      let t := outRead s (qpHub p) (qpMaster s p) (some p.ctx) r.addr r.size
      .next (sendEth t.2.2.2 p.port (toBytes 4 p.remoteQp ++ toBytes 1 t.2.1.toNat ++ t.1))

/-- RDMA_RETRY_TIMEOUT (R427): retries of the oldest pending request are exhausted. -/
def execRdmaRetryTimeout (qp idx : Nat) (s : State) : Host.Outcome State Fault Refusal :=
  match (tget s.fabric.qps qp).bind (fun p => p.pending.head?.filter (fun e => e.1 == idx)) with
  | none => .next s
  | some e =>
    let s := modQp s qp (fun p => { p with pending := p.pending.filter (fun x => x.1 != idx) })
    .next (completeReq s qp false idx e.2 4 0)

/-- The ranges and reserved fields of a QPNEW record (R466). -/
def qpOk (bs : List Byte) : Bool :=
  [0x00, 0x08, 0x10].all (fun o => recField bs o 8 % 4096 == 0)
    && [0x18, 0x19, 0x1A].all (fun o => decide (4 ≤ recField bs o 1) && decide (recField bs o 1 ≤ 16))
    && decide (recField bs 0x1B 1 < 2) && recField bs 0x30 16 == 0

/-- QPNEW (R460, R466): the number is the first unused one from a free value on, the RKEY a free value (DESIGN CHOICE, log 5). -/
def execQpnew (fn : Nat) (s : State) : Host.Outcome State Fault Refusal :=
  secRun s fn 0x06 fun s =>
    let a := sarg s fn 0
    let pa := sargAddr s fn 1
    if !onlyBits a 0x73F || (ctxOf s (a % 64)).fn != fn || pa % 64 != 0 then (1, s)
    else match secBytes s pa 64 with
      | none => (1, s)
      | some bs =>
        if !qpOk bs then (1, s)
        else
          let n := s.fabric.qps.length
          let start := Config.freeNat s.free
          let qp := ((List.range (n + 1)).map (fun i => (start + i) % 2 ^ 24)).find? (fun k => (tget s.fabric.qps k).isNone)
          let key := Config.freeNat (s.free + 1) % 2 ^ 32
          let f := recField bs
          let p : QPair := {
            ctx := a % 64, port := bits a 8 3, fn := fn, sendBase := f 0 8, recvBase := f 8 8, compBase := f 0x10 8,
            sendLog := f 0x18 1, recvLog := f 0x19 1, compLog := f 0x1A 1, datagram := bit (f 0x1B 1) 0,
            remoteQp := f 0x1C 4, remoteIp := (bs.drop 0x20).take 16, rkey := key, sendIdx := 0, recvIdx := 0, compIdx := 0,
            pending := [], recvs := [] }
          let k := qp.getD 0
          let s := modFab { s with free := s.free + 2 } (fun x => { x with qps := tput x.qps k p })
          (0, setRsp (setRsp s fn 0 k) fn 1 key)

/-- QPDEL (R460): pending requests complete with status 4. -/
def execQpdel (fn : Nat) (s : State) : Host.Outcome State Fault Refusal :=
  secRun s fn 0x07 fun s =>
    let k := sarg s fn 0
    match tget s.fabric.qps k with
    | none => (1, s)
    | some p =>
      if p.fn ≠ fn then (1, s)
      else
        let s := p.recvs.foldl (fun s e => completeReq s k true e.1 e.2 4 0)
          (p.pending.foldl (fun s e => completeReq s k false e.1 e.2 4 0) s)
        (0, modFab s (fun f => { f with qps := terase f.qps k }))

end Sys2Proof.Machine
end

