-- ==== Sys2Proof/Machine/Mmio.lean ====
section
/-! DEFINITION. The MMIO range (R13, R14, R381, R382): every register of its blocks, who reaches it, and the host's accesses
(R411 to R415, R361). -/

namespace Sys2Proof.Machine

/-- Whether a context has a started KLAUNCH that has not completed: its queue may have another context by now (R360). -/
def klaunchOpen (s : State) (c : Nat) : Bool :=
  s.queues.any (fun q => q.started.any (fun p => p.ctx == c && recField p.bytes 0 1 == 1))

/-- Whether a context has a resident or saved block (R388). -/
def hasBlocks (s : State) (c : Nat) : Bool :=
  hasResident s c || s.saved.any (fun v => (clustersOfCtx s c).contains v.cluster)

/-- RPL as stored (R387): 21 to 31 store 20. -/
def storedRpl (v : Nat) : Nat := min (bits v 16 5) 20

/-- A CCTL write (R388, R461). -/
def writeCctl (s : State) (c : Nat) (v : Nat) : State :=
  let old := (ctxOf s c).cctl.toNat
  let soft := 2 * bits v 1 1 + 2 ^ 8 * bits v 8 8 + 2 ^ 16 * storedRpl v
  let set := fun (s : State) (en mid : Nat) => modCtx s c (fun x => { x with cctl := BitVec.ofNat 32 (en + soft + 2 ^ 24 * mid) })
  if bit old 0 then
    let stays := bit v 0 || hasBlocks s c || klaunchOpen s c
    set s stays.toNat (bits old 24 8)
  else
    let mid := bits v 24 8
    if bit v 0 && decide (mid < 224) && s.sec.lc == 2 then
      let s := modCtx (set s 1 mid) c (fun x => { x with cstat := x.cstat &&& 0xFFFFFFC0, cwcnt := 0, dbox := resetDebugBox })
      modFab s (fun f => { f with domainClosed := true })
    else set s 0 mid

/-- A CSTAT write (R387, R389, R390): WDOG stays where the watchdog sets it at this clock (R13). -/
def writeCstat (s : State) (c : Nat) (v : Word) : State :=
  let s := modCtx s c (fun x => { x with cstat := x.cstat &&& ~~~(v &&& (if x.wdogAt = some s.clock then 0x3C else 0x3E)) })
  let s := if v.getLsbD 6 && !(ctxOf s c).cstat.getLsbD 0 then startFence s c (setBit 6) else s
  if v.getLsbD 7 then restartWatchdog s c else s

/-- A write to a context register (R387, R388). -/
def ctxWrite (s : State) (c reg : Nat) (v : Word) : State :=
  let x := ctxOf s c
  let free := !x.cctl.getLsbD 0
  let put := fun (ok : Bool) (f : Ctx → Ctx) => if ok then modCtx s c f else s
  match reg with
  | 0x00 => put free (fun x => { x with rootlo := v &&& 0xFFFFE000 })
  | 0x04 => put free (fun x => { x with roothi := v &&& 0x7FFFFF })
  | 0x08 => put free (fun x => { x with tveclo := v &&& 0xFFFFFFFD })
  | 0x0C => put free (fun x => { x with tvechi := v &&& 0x1FFFFFF })
  | 0x10 => writeCctl s c v.toNat
  | 0x14 => put true (fun x => { x with cwdog := v &&& 0xFFFFFF })
  | 0x1C => put free (fun x => { x with csavelo := v &&& 0xFFFF0000 })
  | 0x20 => put free (fun x => { x with csavehi := v &&& 0x7FFFFF })
  | 0x24 => put free (fun x => { x with cssize := v &&& 0xFFFFFF })
  | 0x28 => put (!x.go) (fun x => { x with cinvlo := v &&& 0xFFFF0000 })
  | 0x2C => put (!x.go) (fun x => { x with cinvhi := v &&& 0x1FFFFFF })
  | 0x30 => put (!x.go) (fun x => { x with cinvn := v })
  | 0x34 => if v.getLsbD 0 && !x.go then startInval s c else s
  | 0x38 => writeCstat s c v
  | _ => s

/-- A QCTL write (R360): setting EN resets HEAD and TAIL. -/
def writeQctl (s : State) (q v : Nat) : State :=
  modQueue s q (fun x =>
    let x := { x with prio := bits v 8 8 }
    if x.en then { x with en := bit v 0 }
    else
      let x := { x with mode := bit v 1, lsize := min (bits v 2 4) 12, ctx := bits v 16 6 }
      if bit v 0 then { x with en := true, head := 0, tail := 0, next := (x.next / 8192 + 1) * 8192 } else x)

/-- A write to a queue register (R360). -/
def queueWrite (s : State) (q reg : Nat) (v : Word) : State :=
  if !queueThere s q then s
  else match reg with
    | 0x00 => modQueue s q (fun x => if x.en then x else { x with baselo := v &&& 0xFFFFFFC0 })
    | 0x04 => modQueue s q (fun x => if x.en then x else { x with basehi := v &&& 0x7FFFFF })
    | 0x08 => writeQctl s q v.toNat
    | 0x18 => modQueue s q (fun x => { x with
        ovf := x.ovf && !v.getLsbD 0, badw := x.badw && !v.getLsbD 1, badp := x.badp && !v.getLsbD 2 })
    | _ => s

/-- A format window's registers (R336). -/
def fmtWrite (s : State) (h w reg : Nat) (v : Word) : State :=
  { s with memsys := { s.memsys with windows := lmod s.memsys.windows h (fun l => lmod l w (fun x =>
      match reg with
      | 0x0 => { x with lo := v &&& 0xFFFFFFE0 }
      | 0x4 => { x with hi := v &&& 0x7FFFFF }
      | 0x8 => { x with cnt := v }
      | _ => { x with ctl := v &&& 0x1F })) } }

/-- A write to a migration channel (R405) (DEDUCED, log 70). -/
def migWrite (s : State) (ch reg : Nat) (v : Word) : State :=
  let idle := fun (f : Migration → Migration) => modMig s ch (fun m => if m.busy then m else f m)
  match reg with
  | 0x00 => idle (fun m => { m with src := m.src / 2 ^ 32 * 2 ^ 32 + v.toNat / 65536 * 65536 })
  | 0x04 => idle (fun m => { m with src := v.toNat % 2 ^ 23 * 2 ^ 32 + m.src % 2 ^ 32 })
  | 0x08 => idle (fun m => { m with dst := m.dst / 2 ^ 32 * 2 ^ 32 + v.toNat / 65536 * 65536 })
  | 0x0C => idle (fun m => { m with dst := v.toNat % 2 ^ 23 * 2 ^ 32 + m.dst % 2 ^ 32 })
  | 0x10 =>
    let s := idle (fun m => { m with lg := v.getLsbD 1 })
    let s := if v.getLsbD 0 then migGo s ch else s
    if v.getLsbD 2 then migClr s ch else s
  | 0x18 => modMig s ch (fun m => { m with done := m.done && !v.getLsbD 1, ref := m.ref && !v.getLsbD 2 })
  | _ => s

/-- A write to the event queue's registers (R438). -/
def evWrite (s : State) (reg : Nat) (v : Word) : State :=
  match reg with
  | 0x08 =>
    let h := v.toNat % 16384
    if 8192 < (s.port.evtail + 16384 - h) % 16384 then s else { s with port := { s.port with evhead := h } }
  | 0x10 => { s with port := { s.port with evovf := s.port.evovf && !v.getLsbD 0 } }
  | 0x14 => { s with port := { s.port with gap := v.toNat % 65536 } }
  | _ => s

/-- A write of one register by a master (R381). -/
def regWrite (s : State) (m : Master) (off : Nat) (v : Word) : State :=
  let o := off % 65536
  match off / 65536 with
  | 0 => if o < 0x4000 then ctxWrite s (o / 256) (o % 256) v else s
  | 1 => if o < 0x4000 && debugReach s m (o / 256) then debugWrite s (o / 256) (o % 256) v else s
  | 2 => if o < 0x8000 then queueWrite s (o / 64) (o % 64) v else s
  | 4 => if o < 0x400 then fmtWrite s (o / 256) (o % 256 / 16) (o % 16) v else s
  | 5 => if o < 0x100 then migWrite s (o / 32) (o % 32) v else s
  | 6 => evWrite s o v
  | 7 => if m.cls = 8 then secWrite s m.who o v else s
  | _ => s

/-- A permitted MMIO write (R382): two consecutive registers for 8 bytes, low offset first. After a fatal error nothing is written
(R443). -/
def mmioWrite (s : State) (m : Master) (off size : Nat) (v : Nat) : State :=
  if !blockServed s off || s.sec.fatal.isSome then s
  else if !mmioShape off size || inWindow off then malformed s m off size 0
  else
    let s := regWrite s m off (BitVec.ofNat 32 v)
    if size = 8 then regWrite s m (off + 4) (BitVec.ofNat 32 (v / 2 ^ 32)) else s

/-- A write by a master, checked first (R384, R385). -/
def masterWrite (s : State) (m : Master) (off size v : Nat) : State :=
  if 2 ^ 26 ≤ off then s
  else if !permits s (midOf s m) (mmioBase + off) false true then denyAccess s 0 (midOf s m) (ctxOfMaster m) (mmioBase + off) 2
  else mmioWrite s m off size v

/-- What a host function sees of a read. -/
def hostReply (s : State) (fn : Nat) (bs : List Byte) (poison : Bool) : State :=
  { s with port := { s.port with responses := (fn, bs, poison) :: s.port.responses } }

/-- A read by a master, checked first: a host function sees the value. -/
def masterRead (s : State) (m : Master) (off size : Nat) : State :=
  let reply := fun (s : State) (v : Nat) (p : Bool) => if m.cls = 8 then hostReply s m.who (toBytes size v) p else s
  if !permits s (midOf s m) (mmioBase + off) true false then
    reply (denyAccess s 0 (midOf s m) (ctxOfMaster m) (mmioBase + off) 2) 0 true
  else
    let r := mmioRead s m off size
    reply r.2 r.1 false

/-- CCTL_WRITE (R388). -/
def execCctlWrite (m : Master) (ctx : Nat) (v : Word) (s : State) : Host.Outcome State Fault Refusal :=
  if 64 ≤ ctx then .next s else .next (masterWrite s m (0x100 * ctx + 0x10) 4 v.toNat)

/-- KILL (R390): CSTAT.KILL is written. -/
def execKill (m : Master) (ctx : Nat) (s : State) : Host.Outcome State Fault Refusal :=
  if 64 ≤ ctx then .next s else .next (masterWrite s m (0x100 * ctx + 0x38) 4 0x40)

/-- WKICK (R389): CSTAT.WKICK is written. -/
def execWkick (m : Master) (ctx : Nat) (s : State) : Host.Outcome State Fault Refusal :=
  if 64 ≤ ctx then .next s else .next (masterWrite s m (0x100 * ctx + 0x38) 4 0x80)

/-- CINV_GO (R396): CINVCTL.GO is written. -/
def execCinvGo (m : Master) (ctx : Nat) (s : State) : Host.Outcome State Fault Refusal :=
  if 64 ≤ ctx then .next s else .next (masterWrite s m (0x100 * ctx + 0x34) 4 1)

/-- QCTL_WRITE (R360). -/
def execQctlWrite (m : Master) (q : Nat) (v : Word) (s : State) : Host.Outcome State Fault Refusal :=
  if 512 ≤ q then .next s else .next (masterWrite s m (0x20000 + 0x40 * q + 0x08) 4 v.toNat)

/-- MIGRATION_GO (R405): MCTL.GO is written, LG as it stands. -/
def execMigrationGo (m : Master) (ch : Nat) (s : State) : Host.Outcome State Fault Refusal :=
  if 8 ≤ ch then .next s
  else .next (masterWrite s m (0x50000 + 0x20 * ch + 0x10) 4 (1 + 2 * ((s.memsys.migs.getD ch resetMigration).lg.toNat)))

/-- MIGRATION_CLR (R405): MCTL.CLR is written. -/
def execMigrationClr (m : Master) (ch : Nat) (s : State) : Host.Outcome State Fault Refusal :=
  if 8 ≤ ch then .next s
  else .next (masterWrite s m (0x50000 + 0x20 * ch + 0x10) 4 (4 + 2 * ((s.memsys.migs.getD ch resetMigration).lg.toNat)))

/-- EVHEAD_WRITE (R438). -/
def execEvheadWrite (m : Master) (v : Word) (s : State) : Host.Outcome State Fault Refusal :=
  .next (masterWrite s m 0x60008 4 v.toNat)

/-- EVSTAT_LOST_READ (R438). -/
def execEvstatLostRead (m : Master) (s : State) : Host.Outcome State Fault Refusal := .next (masterRead s m 0x60010 4)

/-- HALT (R450): DCMD is written with 1. -/
def execHalt (m : Master) (ctx : Nat) (s : State) : Host.Outcome State Fault Refusal :=
  if 64 ≤ ctx then .next s else .next (masterWrite s m (0x10000 + 0x100 * ctx) 4 1)

/-- RESUME (R449). -/
def execResume (m : Master) (ctx : Nat) (s : State) : Host.Outcome State Fault Refusal :=
  if 64 ≤ ctx then .next s else .next (masterWrite s m (0x10000 + 0x100 * ctx) 4 2)

/-- STEP (R451). -/
def execStep (m : Master) (ctx : Nat) (s : State) : Host.Outcome State Fault Refusal :=
  if 64 ≤ ctx then .next s else .next (masterWrite s m (0x10000 + 0x100 * ctx) 4 3)

/-- WATCH (R452). -/
def execWatch (m : Master) (ctx : Nat) (s : State) : Host.Outcome State Fault Refusal :=
  if 64 ≤ ctx then .next s else .next (masterWrite s m (0x10000 + 0x100 * ctx) 4 4)

/-- ICINV (R449). -/
def execIcinv (m : Master) (ctx : Nat) (s : State) : Host.Outcome State Fault Refusal :=
  if 64 ≤ ctx then .next s else .next (masterWrite s m (0x10000 + 0x100 * ctx) 4 5)

/-- DPOST3_WRITE (R448). -/
def execDpost3Write (m : Master) (ctx : Nat) (v : Word) (s : State) : Host.Outcome State Fault Refusal :=
  if 64 ≤ ctx then .next s else .next (masterWrite s m (0x10000 + 0x100 * ctx + 0x2C) 4 v.toNat)

/-- DSTAT_POST_CLEAR (R448). -/
def execDstatPostClear (m : Master) (ctx : Nat) (s : State) : Host.Outcome State Fault Refusal :=
  if 64 ≤ ctx then .next s else .next (masterWrite s m (0x10000 + 0x100 * ctx + 0x1C) 4 4)

/-- DCLAIM_READ (R448). -/
def execDclaimRead (m : Master) (ctx : Nat) (s : State) : Host.Outcome State Fault Refusal :=
  if 64 ≤ ctx then .next s else .next (masterRead s m (0x10000 + 0x100 * ctx + 0x30) 4)

/-- REGISTER_WRITE (R13, R382). -/
def execRegisterWrite (m : Master) (off size : Nat) (v : BitVec 64) (s : State) : Host.Outcome State Fault Refusal :=
  .next (masterWrite s m off size v.toNat)

/-- A host window write (R361, R385): one aligned write of 64 bytes; else, or of type 0, or with EN = 0, BADW; to a full queue
OVF; each with a record; of several reasons
the record gives the first of these (DESIGN CHOICE, log 118). A write that QMASK or the MMIO grant denies sets no QSTAT bit. -/
def windowWrite (s : State) (fn q size : Nat) (words : List Word) : State :=
  let m : Master := ⟨8, fn⟩
  let off := 0x30000 + 0x40 * q
  let bad := fun (reason : Nat) => malformed (modQueue s q (fun x => { x with badw := true })) m off size reason
  if !permits s (midOf s m) (mmioBase + off) false true || !queueAllowed s (midOf s m) q then
    denyAccess s 0 (midOf s m) none (mmioBase + off) 2
  else if !queueThere s q || !s.sec.ready || s.sec.fatal.isSome then s
  else if size ≠ 64 ∨ words.length ≠ 16 then bad 0
  else if (words.headD 0).toNat % 256 = 0 then bad 1
  else if !(queueOf s q).en then bad 2
  else if queueCap (queueOf s q) ≤ queueCount (queueOf s q) then
    malformed (modQueue s q (fun x => { x with ovf := true })) m off size 3
  else serveQueue (enqueue s q (wordsPacket words)) q

/-- Whether the host port presents a function (R411). -/
def fnPresent (s : State) (fn : Nat) : Bool :=
  (s.sec.ready || s.sec.recov) && (fn == 0 || (decide (fn ≤ s.port.vfs) && s.sec.ready))

/-- ENQUEUE_WINDOW_WRITE (R361). -/
def execEnqueueWindowWrite (fn q size : Nat) (words : List Word) (s : State) : Host.Outcome State Fault Refusal :=
  if !fnPresent s fn || decide (512 ≤ q) then .next s else .next (windowWrite s fn q size words)

/-- A BAR0 request (R382, R412). -/
def bar0Access (s : State) (r : HostReq) : State :=
  if 2 ^ 26 ≤ r.off then s
  else if r.write then
    if r.off / 65536 = 3 ∧ r.off % 65536 < 0x8000 then
      let q := r.off % 65536 / 64
      let whole := r.off % 64 == 0 && r.size == 64
      windowWrite s r.fn q r.size (if whole then (packetWords r.data) else [])
    else masterWrite s ⟨8, r.fn⟩ r.off r.size (ofBytes (r.data.take r.size))
  else masterRead s ⟨8, r.fn⟩ r.off r.size

/-- The physical address of a BAR2 or BAR4 offset (R412). -/
def barAddr (bar off : Nat) : Option Nat :=
  if bar = 2 ∧ off < 2 ^ 41 then some off else if bar = 4 ∧ off < 2 ^ 43 then some (tierBase + off) else none

/-- Whether function 0 may read the dump through BAR2 (R443). -/
def dumpOpen (s : State) (r : HostReq) : Bool :=
  r.fn == 0 && r.bar == 2 && !r.write && (s.sec.dump == some 1 || s.sec.dump == some 2)
    && decide (dumpBase ≤ r.off) && decide (r.off + r.size ≤ dumpBase + 2 ^ 29)

/-- XUP (R414): the expanders that are present and not fenced. -/
def expandersUp (s : State) : Nat :=
  ((List.range 8).map (fun i =>
    if s.memsys.expCap.getD i 0 != 0 && !s.memsys.expFenced.getD i true then 2 ^ i else 0)).foldl (· + ·) 0

/-- A word of a function's configuration space (R411, R412, R414): class code, three 64-bit BARs in memory space of which the last two
are prefetchable, the host's addresses in them, 512-byte payload, FLR and one MSI-X vector; of function 0 AER,
SR-IOV with 31 virtual functions and the vendor capability. Where the capabilities stand and how their headers are laid out is
PCI Express's (PRESUMED, log 119); every other word is free (DESIGN CHOICE, log 120). -/
def configWord (s : State) (fn o : Nat) : Nat :=
  let other := Config.configWord fn o % 2 ^ 32
  let head := fun (id next : Nat) => id + 2 ^ 16 + 2 ^ 20 * next
  let bar := fun (size : Nat) => other / size * size
  match o with
  | 0x08 => 0x12000000 + other % 256
  | 0x10 => 0x4 + bar (2 ^ 26)
  | 0x18 => 0xC
  | 0x1C => bar (2 ^ 9)
  | 0x20 => 0xC
  | 0x24 => bar (2 ^ 11)
  | 0x34 => 0x40
  | 0x40 => 0x8010 + other / 2 ^ 16 * 2 ^ 16
  | 0x44 => other / 8 % 2 ^ 25 * 8 + 2 + 2 ^ 28
  | 0x80 => 0x0011 + other / 2 ^ 27 * 2 ^ 27
  | 0x100 => head 0x0001 (if fn = 0 then 0x180 else 0)
  | 0x180 => if fn = 0 then head 0x0010 0x200 else other
  | 0x18C => if fn = 0 then 31 + 2 ^ 16 * 31 else other
  | 0x190 => if fn = 0 then s.port.vfs else other
  | 0x1A4 => if fn = 0 then 0x4 + bar (2 ^ 26) else other
  | 0x1AC => if fn = 0 then 0xC else other
  | 0x1B0 => if fn = 0 then bar (2 ^ 9) else other
  | 0x1B4 => if fn = 0 then 0xC else other
  | 0x1B8 => if fn = 0 then bar (2 ^ 11) else other
  | 0x200 => if fn = 0 then head 0x0023 0 else other
  | 0x204 => if fn = 0 then 0x01C00000 + other % 2 ^ 20 else other
  | 0x208 => if fn = 0 then 0x0001 else other
  | 0x20C => if fn = 0 then s.fabric.pkgn % 2 ^ 10 + 2 ^ 10 * s.fabric.pkgv.toNat else other
  | 0x210 => if fn = 0 then s.fabric.lyup.toNat else other
  | 0x214 => if fn = 0 then s.fabric.enup.toNat else other
  | 0x218 => if fn = 0 then expandersUp s else other
  | _ => other

/-- A request to a function's configuration space (R411): a write changes no register described here. -/
def configAccess (s : State) (r : HostReq) : State :=
  if r.write then s
  else hostReply s r.fn ((List.range r.size).map (fun i =>
    BitVec.ofNat 8 (configWord s r.fn ((r.off + i) % 4096 / 4 * 4) / 256 ^ ((r.off + i) % 4)))) false

/-- HOST_ACCESS (R411 to R413): the request is checked as class 8 and performed at its homes. -/
def execHostAccess (r : HostReq) (s : State) : Host.Outcome State Fault Refusal :=
  if !fnPresent s r.fn then .next s
  else if r.bar = 7 then .next (configAccess s r)
  else if r.bar = 0 then .next (bar0Access s r)
  else match barAddr r.bar r.off with
    | none => .next s
    | some a =>
      if s.sec.recov then .next s
      else if dumpOpen s r then .next (hostReply s r.fn ((List.range r.size).map (fun i => homeByte s (a + i))) (anyPois s a r.size))
      else if r.write then
        if s.sec.fatal.isSome then .next s else .next (outWrite s 0 (hostMaster r.fn) none a (r.data.take r.size)).2
      else
        let t := outRead s 0 (hostMaster r.fn) none a r.size
        .next (hostReply t.2.2.2 r.fn t.1 t.2.1)

/-- FLR_VIRTUAL (R415). -/
def execFlrVirtual (fn : Nat) (s : State) : Host.Outcome State Fault Refusal :=
  if fn = 0 ∨ s.port.vfs < fn then .next s
  else .next ((List.range 64).foldl (fun s c => if (ctxOf s c).fn = fn then startFence s c id else s) s)

/-- FLR_FUNCTION0 (R415): memory is kept. -/
def execFlrFunction0 (s : State) : Host.Outcome State Fault Refusal :=
  let s := (List.range 64).foldl (fun s c => startFence s c id) s
  .next { s with
    queues := s.queues.map (fun q => { q with en := false })
    port := { s.port with vfs := 0 } }

/-- VIRTUAL_FUNCTION_ENABLE (R411). -/
def execVirtualFunctionEnable (n : Nat) (s : State) : Host.Outcome State Fault Refusal :=
  if 31 < n then .next s else .next { s with port := { s.port with vfs := n } }

end Sys2Proof.Machine
end

