-- ==== Sys2Proof/Machine/Memory.lean ====
section
/-! DEFINITION. A load and a write packet at the place that serves them (R282 to R286, R322, R323, R380 to R385, R417): a home
slice, a register of the MMIO range, or a peer package. -/

namespace Sys2Proof.Machine

/-- The register block of an MMIO address. -/
def mmioBlock (s : State) (a : Nat) : Option Nat := match placeOf s a with | .mmio o => some (o / 65536) | _ => none

/-- Whether a write of the warp to a register block was sent before access `id` and is not performed (R382: one master's accesses
to a block are performed in the order it sent them) (DEDUCED, log 62). -/
def mmioBehind (s : State) (wid id blk : Nat) : Bool :=
  let hits := fun (ps : List Piece) => ps.any (fun p => mmioBlock s p.addr == some blk)
  ((tget s.warps wid).map (fun w => w.storeQ.any (fun e => match e with
      | .global grp _ ps => decide (grp < id) && hits ps
      | .port _ => false))).getD false
    || (s.bays.flatMap (·.window) ++ s.net.nts).any (fun e => e.warp == wid && decide (e.grp < id) && !e.performed && hits e.pieces)

/-- Whether a packet that a copy or a queue engine's master sent before to a register block is not performed (R382). -/
def mmioBehindEnt (s : State) (e : WinEnt) (blk : Nat) : Bool :=
  s.net.cpw.any (fun x => decide (x.id < e.id) && !x.performed && (entMaster s x).1 == (entMaster s e).1
    && x.pieces.any (fun p => mmioBlock s p.addr == some blk))

/-- The value that a lane's load finds where its address is served (R322, R380, R382, R385, R417): none while it waits. `first` marks
the first lane of its grain: one access, one record. -/
def servePart (s : State) (r : L2Req) (l : PLoad) (ctx : Nat) (first : Bool) (a : Nat) : Served × State :=
  let mid := masterOf s ctx 0
  let die := (homeDie s a).getD (dieOfCore r.core)
  let bad := Served.got (List.replicate l.size 0) true
  if !permits s mid a true false then
    (bad, if first then denyAccess s die mid (some ctx) a (if (mmioBlock s a).isSome then 2 else 0) else s)
  else match placeOf s a with
    | .unbacked => (bad, if first then unbackedAccess s die mid (some ctx) a false else s)
    | .mmio o =>
      if mmioBehind s l.warp l.id (o / 65536) then (.wait, s)
      else
        let t := mmioRead s ⟨0, ctx⟩ o l.size
        (.got (toBytes l.size t.1) false, t.2)
    | .peer _ _ =>
      if s.fabric.lanyard.any (fun e => e.2.load == some l.id && e.2.addr == a) then (.wait, s)
      else (.wait, sendLanyard s (some l.id) none a (lanyardHead 0 mid a l.size 0 0) [])
    | .hbm k => fromSlices s r l.acq k a l.size
    | .tier _ k => fromSlices s r l.acq k a l.size

/-- What a lane's answer from the memory system leaves: its value, with the response of a slice of its own die (R313), or a lane that
waits at its home. -/
def noteServed (s : State) (r : L2Req) (l : PLoad) (p : LanePart) (a : Nat) (v : Served) : State :=
  let die := dieOfCore r.core
  let waits := ((homeOf s a).map (fun k => (sliceOf s k).queue.contains (a / 32, r.id))).getD false
  match v, homeOf s a with
  | .got bs pois, some k =>
    let lease := k / 64 != die && ((tget s.net.reqs r.id).map (fun q => !q.home.getLsbD (a % 512 / 32))).getD false
    let (t, s) := nextId s
    let s := setPart s l.id p.lane bs pois
    if k / 64 = die ∨ lease then modLoad s l.id (fun l => { l with resps := l.resps ++ [(64 * die + k % 64, t)] }) else s
  | .got bs pois, none => setPart s l.id p.lane bs pois
  | _, _ => if waits then modReq s r.id (fun q => { q with came := q.came ||| laneBit p.lane }) else s

/-- One lane of a load: its own warp's queue, its bay's window, then the memory system (R285, R286); a lane that has come to its
slice waits there. -/
def serveLane (s : State) (r : L2Req) (l : PLoad) (w : Warp) (p : LanePart) : State :=
  let a := routed s p.addr
  let first := (l.parts.find? (fun x => x.addr / 32 == p.addr / 32)).map (·.lane) == some p.lane
  let own := if r.came &&& laneBit p.lane != 0 then Served.memory
    else match fromQueue l.id p.addr l.size w.storeQ with
      | .memory => fromWindow p.addr l.size (bayOf s (bayOfCore r.core)).window
      | o => o
  match own with
  | .memory =>
    let t := servePart s r l (ctxOfWarp s w) first a
    noteServed t.2 r l p a t.1
  | .got bs pois => setPart s l.id p.lane bs pois
  | .wait => s

/-- The lanes of a load in a region that have no value yet. -/
def openParts (l : PLoad) (region : Nat) : List LanePart :=
  l.parts.filter (fun p => p.addr / 512 == region && p.value.isNone)

/-- L2_REQUEST (R156, R285, R286, R322): the lanes of a load in one region look for their values; a prefetch starts fills. -/
def execL2Request (id : Nat) (s : State) : Host.Outcome State Fault Refusal :=
  match tget s.net.reqs id with
  | none => .next s
  | some r =>
    match r.load with
    | none => .next (dropReq (prefetchAt s r) id)
    | some lid =>
      match tget s.net.loads lid with
      | none => .next (dropReq s id)
      | some l =>
        match tget s.warps l.warp with
        | none => .next (dropReq s id)
        | some w =>
          if loadBefore s l.warp l.id then .next s
          else
            let t := (openParts l r.region).foldl (fun s p => serveLane s r l w p) s
            let left := ((tget t.net.loads lid).map (fun l => openParts l r.region)).getD []
            let t := endVisit t r left
            .next (if left.isEmpty then dropReq t id else t)

/-- The lanes of an atomic in a packet's grain. -/
def atomLanes (s : State) (e : WinEnt) : List (Nat × LanePart) :=
  match e.kind with
  | .atomic l => ((tget s.net.loads l).map (fun p => (p.parts.filter (fun x => x.addr / 32 == e.grain)).map (fun x => (l, x)))).getD []
  | _ => []

/-- A packet that has no effect at its target (R380, R385): its write is discarded, its atomic's values are poisoned. -/
def discardEnt (s : State) (e : WinEnt) : State :=
  let s := (atomLanes s e).foldl (fun s x => setPart s x.1 x.2.lane (List.replicate (((tget s.net.loads x.1).map (·.size)).getD 4) 0) true) s
  performEnt s e.id

/-- One lane of an atomic on a register: an aligned read, then an aligned write (R382). -/
def mmioAtomic (s : State) (m : Master) (op : AtomOp) (x : Nat × LanePart) : State :=
  let n := atomBytes op.ty
  let o := x.2.addr - mmioBase
  let t := mmioRead s m o n
  let y := atomApply op.aop op.ty t.1 (ofBytes x.2.operand) (ofBytes x.2.swap)
  setPart (mmioWrite t.2 m o n y) x.1 x.2.lane (toBytes n t.1) false

/-- A packet at the MMIO range: its pieces one after another. -/
def mmioPacket (s : State) (m : Master) (e : WinEnt) : State :=
  let s := match e.kind with
    | .atomic l => match (tget s.net.loads l).bind (·.atom) with
      | some op => (atomLanes s e).foldl (fun s x => mmioAtomic s m op x) s
      | none => s
    | .redg op => e.pieces.foldl (fun s p =>
        let n := atomBytes op.ty
        let t := mmioRead s m (p.addr - mmioBase) n
        mmioWrite t.2 m (p.addr - mmioBase) n (atomApply op.aop op.ty t.1 (ofBytes p.data) 0)) s
    | _ => e.pieces.foldl (fun s p => mmioWrite s m (p.addr - mmioBase) p.data.length (ofBytes p.data)) s
  performEnt s e.id

/-- A packet moved with its page (R406): its bytes, and the lanes of its atomic, lie at the destination. -/
def steerEnt (s : State) (e : WinEnt) : WinEnt × State :=
  let a := routed s (32 * e.grain)
  if a = 32 * e.grain then (e, s)
  else
    let go := fun (x : Nat) => a + x % 32
    let s := match e.kind with
      | .atomic l => modLoad s l (fun p => { p with parts := p.parts.map (fun x =>
          if x.addr / 32 == e.grain then { x with addr := go x.addr } else x) })
      | _ => s
    ({ e with grain := a / 32, pieces := e.pieces.map (fun p => { p with addr := go p.addr }) }, s)

/-- A STNT leaves its core, once the warp's earlier loads are performed (R159, R285). -/
def sendNt (s : State) (e : WinEnt) : State :=
  if loadBefore s e.warp e.grp then s
  else
    let (k, s) := nextId s
    modNet s (fun n => { n with nts := n.nts.map (fun x => if x.id == e.id then { x with id := k, held := false } else x) })

/-- Whether a packet may be performed now: the earlier packets of its window in its grain are, those of its port have come (R313),
and a REDG that its bay may absorb is absorbed (R155, R333); on registers the warp's earlier writes to the block are (R382). -/
def entReady (s : State) (e : WinEnt) : Bool :=
  let redg := match e.kind with | .redg _ => true | _ => false
  !e.performed && !e.held && !behindSame s e && !behindPort s e
    && !(redg && (absorbed s e.id || absorbable s e
        || ((bayOfEnt s e.id).map (fun b => behindLive s b e)).getD false))
    && !((mmioBlock s (routed s (32 * e.grain))).map (fun b =>
      if s.net.cpw.any (fun x => x.id == e.id) then mmioBehindEnt s e b else mmioBehind s e.warp e.grp b)).getD false

/-- A packet as the request to a peer package that asks for it (R417): its bytes, or of an atomic the operation, its type and its
operands, the swap operand of .cas included. -/
def lanyardOf (s : State) (mid : Nat) (e : WinEnt) : List Byte × List Byte :=
  let a := 32 * e.grain
  let bytes := e.pieces.flatMap (fun p => toBytes 1 (p.addr % 32) ++ toBytes 1 p.data.length ++ p.data)
  match e.kind with
  | .atomic l => match (tget s.net.loads l).bind (fun p => p.atom.map (fun o => (p, o))) with
    | none => (lanyardHead 2 mid a 0 0 0, [])
    | some (p, o) =>
      let xs := p.parts.filter (fun x => x.addr / 32 == e.grain)
      (lanyardHead 2 mid a xs.length o.aop o.ty, xs.flatMap (fun x => toBytes 1 (x.addr % 32) ++ x.operand ++ x.swap))
  | .redg o => (lanyardHead 3 mid a e.pieces.length o.aop o.ty, bytes)
  | _ => (lanyardHead 1 mid a e.pieces.length 0 0, bytes)

/-- A packet performed where its address is served. -/
def placeEnt (s : State) (e : WinEnt) : State :=
  let (e, s) := steerEnt s e
  let a := 32 * e.grain
  let (mid, ctx) := entMaster s e
  let die := (homeDie s a).getD (dieOfCore e.core)
  if !permits s mid a (entAtomic e) true then
    discardEnt (denyAccess s die mid ctx a (if (mmioBlock s a).isSome then 2 else 1)) e
  else match placeOf s a with
    | .unbacked => discardEnt (unbackedAccess s die mid ctx a true) e
    | .mmio _ => mmioPacket s ⟨mid % 16, ctx.getD 0⟩ e
    | .peer _ _ =>
      if s.fabric.lanyard.any (fun x => x.2.grp == some e.id) then s
      else
        let m := lanyardOf s mid e
        sendLanyard s none (some e.id) a m.1 m.2
    | .hbm k => homeWriteAt s k mid e
    | .tier _ k => homeWriteAt s k mid e

/-- HOME_WRITE (R155, R284, R323): a packet, or the next range of a flush, at its home; a STNT is first sent. -/
def execHomeWrite (id : Nat) (s : State) : Host.Outcome State Fault Refusal :=
  match tget s.net.flushes id with
  | some f => .next (flushStep s f)
  | none => match findEnt s id with
    | none => .next s
    | some e =>
      if e.held then .next (sendNt s e) else if entReady s e then .next (placeEnt s e) else .next s

end Sys2Proof.Machine
end

