-- ==== Sys2Proof/Machine/Grant.lean ====
section
/-! DEFINITION. When a sub-braid is ready, how long it has been so, and the grant of a quadrant's issue slot (R239 to R242, R451);
the clocks that pass, with the watchdog's periods (R389). -/

namespace Sys2Proof.Machine

/-- The meanings that hold their instruction back for a reason of their own, behind the checks that every instruction has: a full
counter (R32), a queue of the plane array (R202), a copy engine (R271), a tile (R211), a held line (R264). -/
def holdsBack (i : Instr) : Option (State → Host.Outcome State Fault Refusal) :=
  match i with
  | .chsend f => some (execChsend f)
  | .cpyS2g f => some (execCpyS2g f)
  | .cpsct f => some (execCpsct f)
  | .coll f => some (execColl f)
  | .trd f => some (execTrd f)
  | .twr f => some (execTwr f)
  | .stg f => some (execStg f)
  | .sstg f => some (execSstg f)
  | .stnt f => some (execStnt f)
  | .redg f => some (execRedg f)
  | .mma f => some (execMma f)
  | .accz f => some (execAccz f)
  | .accrd f => some (execAccrd f)
  | .accwr f => some (execAccwr f)
  | .attach f => some (execAttach f)
  | .reggrow f => some (execReggrow f)
  | .lds f => some (execLds f)
  | .slds f => some (execSlds f)
  | .tdchk f => some (execTdchk f)
  | .atoms f => some (execAtoms f)
  | .sts f => some (execSts f)
  | .ssts f => some (execSsts f)
  | .kinitReg f => some (execKinitReg f)
  | _ => none

/-- Whether the meaning of a sub-braid's next instruction would hold it back: its run would end with it. -/
def bodyStalls (s : State) (wid : Nat) (w : Warp) (b : SubBraid) (i : Instr) : Bool :=
  match holdsBack i with
  | none => false
  | some f => match f { s with focus := some ⟨wid, b.id⟩ } with
    | .next t => (coreOf t w.core).runBrk != (coreOf s w.core).runBrk
    | _ => false

/-- Whether a sub-braid could issue but for a sleep: nothing halts it and its next instruction has no unsatisfied dependence
(R239). -/
def wouldIssue (s : State) (wid : Nat) (w : Warp) (b : SubBraid) : Bool :=
  !w.ended && mayIssue s w && creditAllows w b &&
    (match (fetchInstr s w.core (ctxOfWarp s w) b.pc b.lanes).1 with
     | .error _ => true
     | .ok i => prologue s ⟨wid, w, b, ctxOfWarp s w, recordOf s w, i⟩ != some .stall && !bodyStalls s wid w b i)

/-- Whether a sub-braid is ready (R239). -/
def ready (s : State) (wid : Nat) (w : Warp) (b : SubBraid) : Bool :=
  decide (b.wake ≤ s.clock) && wouldIssue s wid w b

/-- The warps of a quadrant of a core. -/
def quadWarps (s : State) (core quad : Nat) : List (Nat × Warp) :=
  s.warps.filter (fun e => e.2.core == core && quadOf e.2.slot == quad && !e.2.ended)

/-- The sub-braids of a quadrant. -/
def quadBraids (s : State) (core quad : Nat) : List (Nat × Warp × SubBraid) :=
  (quadWarps s core quad).flatMap (fun e => e.2.braids.map (fun b => (e.1, e.2, b)))

/-- The sub-braids of a quadrant that are ready. -/
def readyBraids (s : State) (core quad : Nat) : List (Nat × Warp × SubBraid) :=
  (quadBraids s core quad).filter (fun e => ready s e.1 e.2.1 e.2.2)

/-- Whether a sub-braid has been ready and ungranted for 4 096 clocks (R239 key 1). -/
def guarded (s : State) (b : SubBraid) : Bool := decide (b.readySince + 4096 ≤ s.clock)

/-- The keys of R239, the first to decide first: smaller goes first. -/
def grantKey (s : State) (e : Nat × Warp × SubBraid) : List Nat :=
  let w := e.2.1
  let b := e.2.2
  [if guarded s b then 0 else 1, if guarded s b then b.readySince else 0,
    255 - bits (ctxOf s (ctxOfWarp s w)).cctl.toNat 8 8, 255 - recPrio (recordOf s w), b.lastGrant, w.slot,
    lowestLane b.lanes]

/-- Lexicographic order of keys. -/
def keyLt : List Nat → List Nat → Bool
  | [], _ => false
  | _ :: _, [] => false
  | x :: xs, y :: ys => decide (x < y) || (x == y && keyLt xs ys)

/-- The sub-braid of least key. -/
def bestOf (s : State) : List (Nat × Warp × SubBraid) → Option (Nat × Warp × SubBraid)
  | [] => none
  | e :: es => match bestOf s es with
    | none => some e
    | some f => if keyLt (grantKey s f) (grantKey s e) then some f else some e

/-- The merge test of R238 on a warp. While STEP is on, groups that meet merge, as R238 says, or stay apart until a later grant, as
R455's table shows, by a free choice (DESIGN CHOICE, log 113). -/
def mergeTest (s : State) (wid : Nat) (w : Warp) : State :=
  let (now, s) := if w.stepping && !w.trapMode then freePick s else (true, s)
  if now then modWarp s wid (fun w => mergeWarp w s.clock) else s

/-- The merge test of R238 on every warp of a quadrant. -/
def mergeQuad (s : State) (core quad : Nat) : State :=
  (quadWarps s core quad).foldl (fun s e => mergeTest s e.1 e.2) s

/-- The run that a quadrant's slot holds. -/
def runOf (s : State) (core quad : Nat) : Option Run := (coreOf s core).runs.getD quad none

/-- The signatures that a save has set back are made again when a warp of the restored block first issues (R401): each round has
its record and its signatures again, and each signer's MX rises (DEDUCED, log 65). -/
def resign (s : State) (bid : Nat) : State :=
  match tget s.blocks bid with
  | none => s
  | some b =>
    b.again.foldl (fun s e =>
      let w := tget s.warps e.2.2.warp
      let g := { e.2.2 with core := (w.map (·.core)).getD b.core }
      let s := modBlock s bid (fun b => { b with
        hitches := lmod b.hitches e.1 (fun h => { h with key := some e.2.1, sigs := h.sigs ++ [g] }) })
      modWarp s g.warp (fun w => { w with mx := w.mx + 1 })) (modBlock s bid (fun b => { b with again := [] }))

/-- The grant to a sub-braid: a run of it begins; STEP without a credit is raised instead of the first instruction
(R451) (DEDUCED, log 32). -/
def grantRun (s : State) (core quad wid : Nat) (w : Warp) (b : SubBraid) : State :=
  let s := resign (modWarp s wid (fun w => modBraid w b.id (fun b => { b with lastGrant := s.clock, wake := 0 }))) w.block
  if w.stepping && !w.trapMode && !w.stepCredit.any (inMask b.lanes) then
    trapAtIssue s wid w { b with lastGrant := s.clock } (trapOf cSTEP b.lanes 0)
  else modCore s core (fun c => { c with runs := lset c.runs quad (some ⟨wid, b.id, 0⟩) })

/-- A free quadrant's slot goes to the best of its ready sub-braids of a kind, after the merge test of a run boundary. -/
def grantBest (s : State) (core quad : Nat) (kind : State → SubBraid → Bool) : State :=
  if (runOf s core quad).isSome then s
  else
    let t := mergeQuad s core quad
    match bestOf t ((readyBraids t core quad).filter (fun e => kind t e.2.2)) with
    | none => s
    | some (wid, w, b) => grantRun t core quad wid w b

/-- RUN_GRANT (R238, R239): at a run boundary the slot of a quadrant goes to one ready sub-braid. -/
def execRunGrant (core quad : Nat) (s : State) : Host.Outcome State Fault Refusal :=
  .next (grantBest s core quad (fun _ _ => true))

/-- READY_WAIT_GUARD (R239 key 1): of the sub-braids that have been ready and ungranted for 4 096 clocks the one waiting longest
takes the slot. -/
def execReadyWaitGuard (core quad : Nat) (s : State) : Host.Outcome State Fault Refusal :=
  .next (grantBest s core quad guarded)

/-- SLEEP_END (R138): a sleep whose clocks are over ends; the sub-braid competes at the next run boundary. -/
def execSleepEnd (warp sub : Nat) (s : State) : Host.Outcome State Fault Refusal :=
  match (tget s.warps warp).bind (fun w => braidOf w sub) with
  | none => .next s
  | some b =>
    if b.wake = 0 ∨ s.clock < b.wake then .next s
    else .next (modWarp s warp (fun w => modBraid w sub (fun b => { b with wake := 0, readySince := max b.readySince b.wake })))

/-- Whether a sub-braid holds its quadrant's run. -/
def inRun (s : State) (wid : Nat) (w : Warp) (b : SubBraid) : Bool :=
  match runOf s w.core (quadOf w.slot) with
  | none => false
  | some r => r.warp == wid && r.sub == b.id

/-- Whether clocks are left out of a warp's ready time (R242): a clock-step change, or the save of its block. -/
def clocksLeftOut (s : State) (w : Warp) : Bool :=
  s.power.changing || (blockOf s w).any (fun b => s.saving.any (fun v => v.cluster == b.cluster))

/-- The clock since which a sub-braid is ready (R239 key 1, R242), `n` clocks from now: it stays where the sub-braid stays ready, moves
along over clocks left out, and begins anew in a run, in a sleep and where something holds the sub-braid back, a halt too. A block
that has not begun keeps what its image holds (DEDUCED, log 33). -/
def readyAfter (s : State) (n wid : Nat) (w : Warp) (b : SubBraid) : Nat :=
  if !(blockOf s w).any (·.started) then b.readySince
  else if inRun s wid w b then s.clock + n
  else if clocksLeftOut s w then b.readySince + n
  else if wouldIssue s wid w b && decide (b.wake ≤ s.clock + n) then max b.readySince b.wake
  else s.clock + n

/-- Every watchdog period that is over is counted (R389). -/
def countPeriods (s : State) : State := (List.range (s.clock / 65536 - s.watched)).foldl (fun s _ => periodStep s) s

/-- Clocks pass (DESIGN CHOICE, log 2): the ready times of the sub-braids go on. -/
def advanceClock (n : Nat) (s : State) : State :=
  { s with
    clock := s.clock + n
    warps := s.warps.map (fun e => (e.1, { e.2 with braids := e.2.braids.map (fun b =>
      { b with readySince := readyAfter s n e.1 e.2 b }) })) }

end Sys2Proof.Machine
end

