-- ==== Sys2Proof/Machine/Lane.lean ====
section
/-! DEFINITION. The lane arithmetic, conversion and movement instructions (R99 to R117): each is one operation of
`aluEval` applied in every active lane. -/

namespace Sys2Proof.Machine

/-- A per-lane instruction in LB form (R99, R100). -/
def laneLb (op : AluOp) (i : Instr) (f : LB) (s : State) : Host.Outcome State Fault Refusal :=
  issueWarp i s (fun x w =>
    laneEffect w (guardLanes w x.b.lanes f.gn f.gp.toNat) (lbDst op f) (fun l => aluEval op (lbInput op w f l)))

/-- A per-lane instruction in LA form (R76, R101): the guard is q7. -/
def laneLa (op : AluOp) (i : Instr) (f : LA) (s : State) : Host.Outcome State Fault Refusal :=
  issueWarp i s (fun x w =>
    laneEffect w (guardLanes w x.b.lanes false 7) (laDst op f) (fun l => aluEval op (laInput op w f l)))

/-- IADD (R105): Long-form integer add per element, wrapping or saturating, with guard, immediate, scalar and negate options. -/
def execIadd (f : LB) (s : State) : Host.Outcome State Fault Refusal := laneLb .iadd (.iadd f) f s

/-- IADD_SHORT (R101): Short LA-form integer add of va and the old vd in every live lane. -/
def execIaddShort (f : LA) (s : State) : Host.Outcome State Fault Refusal := laneLa .iadd (.iaddShort f) f s

/-- ISUB (R105): Long-form integer subtract per element, wrapping or saturating. -/
def execIsub (f : LB) (s : State) : Host.Outcome State Fault Refusal := laneLb .isub (.isub f) f s

/-- ISUB_SHORT (R101): Short LA-form integer subtract using the old vd as the second source. -/
def execIsubShort (f : LA) (s : State) : Host.Outcome State Fault Refusal := laneLa .isub (.isubShort f) f s

/-- IMUL (R105): Long-form integer multiply, low part, wrapping or saturating. -/
def execImul (f : LB) (s : State) : Host.Outcome State Fault Refusal := laneLb .imul (.imul f) f s

/-- IMUL_SHORT (R101): Short LA-form integer multiply of va by the old vd. -/
def execImulShort (f : LA) (s : State) : Host.Outcome State Fault Refusal := laneLa .imul (.imulShort f) f s

/-- IMULH (R105): Long-form exact high half of an integer product. -/
def execImulh (f : LB) (s : State) : Host.Outcome State Fault Refusal := laneLb .imulh (.imulh f) f s

/-- IMULH_SHORT (R101): Short LA-form high half of the product of va and the old vd. -/
def execImulhShort (f : LA) (s : State) : Host.Outcome State Fault Refusal := laneLa .imulh (.imulhShort f) f s

/-- IMAD (R105): Long-form integer multiply-add a*b+c, wrapping or saturating. -/
def execImad (f : LB) (s : State) : Host.Outcome State Fault Refusal := laneLb .imad (.imad f) f s

/-- IMAD_SHORT (R101): Short LA-form multiply-add with the old vd as both b and c. -/
def execImadShort (f : LA) (s : State) : Host.Outcome State Fault Refusal := laneLa .imad (.imadShort f) f s

/-- IMIN (R105): Long-form integer minimum per element. -/
def execImin (f : LB) (s : State) : Host.Outcome State Fault Refusal := laneLb .imin (.imin f) f s

/-- IMIN_SHORT (R101): Short LA-form integer minimum of va and the old vd. -/
def execIminShort (f : LA) (s : State) : Host.Outcome State Fault Refusal := laneLa .imin (.iminShort f) f s

/-- IMAX (R105): Long-form integer maximum per element. -/
def execImax (f : LB) (s : State) : Host.Outcome State Fault Refusal := laneLb .imax (.imax f) f s

/-- IMAX_SHORT (R101): Short LA-form integer maximum of va and the old vd. -/
def execImaxShort (f : LA) (s : State) : Host.Outcome State Fault Refusal := laneLa .imax (.imaxShort f) f s

/-- IABS (R105): Long-form integer absolute value of signed types, wrapping or saturating. -/
def execIabs (f : LB) (s : State) : Host.Outcome State Fault Refusal := laneLb .iabs (.iabs f) f s

/-- IABS_SHORT (R101): Short LA-form integer absolute value of va. -/
def execIabsShort (f : LA) (s : State) : Host.Outcome State Fault Refusal := laneLa .iabs (.iabsShort f) f s

/-- IDP4 (R105): Long-form four-byte dot product added to a 32-bit accumulator. -/
def execIdp4 (f : LB) (s : State) : Host.Outcome State Fault Refusal := laneLb .idp4 (.idp4 f) f s

/-- IDP4_SHORT (R101): Short LA-form four-byte dot product accumulated into the old vd. -/
def execIdp4Short (f : LA) (s : State) : Host.Outcome State Fault Refusal := laneLa .idp4 (.idp4Short f) f s

/-- SHL (R105): Long-form left shift, wrapping or saturating. -/
def execShl (f : LB) (s : State) : Host.Outcome State Fault Refusal := laneLb .shl (.shl f) f s

/-- SHL_SHORT (R101): Short LA-form left shift of va by the old vd. -/
def execShlShort (f : LA) (s : State) : Host.Outcome State Fault Refusal := laneLa .shl (.shlShort f) f s

/-- SHR (R105): Long-form logical right shift. -/
def execShr (f : LB) (s : State) : Host.Outcome State Fault Refusal := laneLb .shr (.shr f) f s

/-- SHR_SHORT (R101): Short LA-form logical right shift of va by the old vd. -/
def execShrShort (f : LA) (s : State) : Host.Outcome State Fault Refusal := laneLa .shr (.shrShort f) f s

/-- SAR (R105): Long-form arithmetic right shift. -/
def execSar (f : LB) (s : State) : Host.Outcome State Fault Refusal := laneLb .sar (.sar f) f s

/-- SAR_SHORT (R101): Short LA-form arithmetic right shift of va by the old vd. -/
def execSarShort (f : LA) (s : State) : Host.Outcome State Fault Refusal := laneLa .sar (.sarShort f) f s

/-- SHF (R106): Long-form 64-bit funnel shift of c:a, left or right, clamped or wrapped. -/
def execShf (f : LB) (s : State) : Host.Outcome State Fault Refusal := laneLb .shf (.shf f) f s

/-- SHF_SHORT (R101): Short LA-form funnel shift using the old vd as b and c. -/
def execShfShort (f : LA) (s : State) : Host.Outcome State Fault Refusal := laneLa .shf (.shfShort f) f s

/-- KNIT (R106): Any bitwise function of three sources from an 8-bit table; long form only. -/
def execKnit (f : LB) (s : State) : Host.Outcome State Fault Refusal := laneLb .knit (.knit f) f s

/-- LOGIC (R105): Long-form bitwise and, or, xor, andn, orn, xnor or not. -/
def execLogic (f : LB) (s : State) : Host.Outcome State Fault Refusal := laneLb .logic (.logic f) f s

/-- LOGIC_SHORT (R101): Short LA-form bitwise operation selected by s2 on va and the old vd. -/
def execLogicShort (f : LA) (s : State) : Host.Outcome State Fault Refusal := laneLa .logic (.logicShort f) f s

/-- BFE (R106): Long-form bit-field extract, sign or zero extended. -/
def execBfe (f : LB) (s : State) : Host.Outcome State Fault Refusal := laneLb .bfe (.bfe f) f s

/-- BFE_SHORT (R101): Short LA-form bit-field extract with position and length from the old vd. -/
def execBfeShort (f : LA) (s : State) : Host.Outcome State Fault Refusal := laneLa .bfe (.bfeShort f) f s

/-- BFI (R106): Long-form bit-field insert of a into c. -/
def execBfi (f : LB) (s : State) : Host.Outcome State Fault Refusal := laneLb .bfi (.bfi f) f s

/-- BFI_SHORT (R101): Short LA-form bit-field insert using the old vd. -/
def execBfiShort (f : LA) (s : State) : Host.Outcome State Fault Refusal := laneLa .bfi (.bfiShort f) f s

/-- POPC (R105): Long-form population count written as .n32. -/
def execPopc (f : LB) (s : State) : Host.Outcome State Fault Refusal := laneLb .popc (.popc f) f s

/-- POPC_SHORT (R101): Short LA-form population count of va. -/
def execPopcShort (f : LA) (s : State) : Host.Outcome State Fault Refusal := laneLa .popc (.popcShort f) f s

/-- CLZ (R105): Long-form count of leading zero or sign bits. -/
def execClz (f : LB) (s : State) : Host.Outcome State Fault Refusal := laneLb .clz (.clz f) f s

/-- CLZ_SHORT (R101): Short LA-form leading-bit count of va. -/
def execClzShort (f : LA) (s : State) : Host.Outcome State Fault Refusal := laneLa .clz (.clzShort f) f s

/-- BREV (R105): Long-form bit reversal. -/
def execBrev (f : LB) (s : State) : Host.Outcome State Fault Refusal := laneLb .brev (.brev f) f s

/-- BREV_SHORT (R101): Short LA-form bit reversal of va. -/
def execBrevShort (f : LA) (s : State) : Host.Outcome State Fault Refusal := laneLa .brev (.brevShort f) f s

/-- FFS (R105): Long-form index of the lowest or highest set bit. -/
def execFfs (f : LB) (s : State) : Host.Outcome State Fault Refusal := laneLb .ffs (.ffs f) f s

/-- FFS_SHORT (R101): Short LA-form find-first-set of va. -/
def execFfsShort (f : LA) (s : State) : Host.Outcome State Fault Refusal := laneLa .ffs (.ffsShort f) f s

/-- ICMP (R105): Long-form integer comparison writing a predicate. -/
def execIcmp (f : LB) (s : State) : Host.Outcome State Fault Refusal := laneLb .icmp (.icmp f) f s

/-- ICMP_SHORT (R101): Short LA-form integer comparison of va with zero into a predicate. -/
def execIcmpShort (f : LA) (s : State) : Host.Outcome State Fault Refusal := laneLa .icmp (.icmpShort f) f s

/-- SEL (R105): Long-form select of a or b by a predicate. -/
def execSel (f : LB) (s : State) : Host.Outcome State Fault Refusal := laneLb .sel (.sel f) f s

/-- SEL_SHORT (R105): Short LA-form select of va or the old vd by q0-q3. -/
def execSelShort (f : LA) (s : State) : Host.Outcome State Fault Refusal := laneLa .sel (.selShort f) f s

/-- ISAD (R105): Long-form sum of absolute differences added to c. -/
def execIsad (f : LB) (s : State) : Host.Outcome State Fault Refusal := laneLb .isad (.isad f) f s

/-- ISAD_SHORT (R101): Short LA-form sum of absolute differences with the old vd. -/
def execIsadShort (f : LA) (s : State) : Host.Outcome State Fault Refusal := laneLa .isad (.isadShort f) f s

/-- BMIX (R106): Long-form byte mix of c:a under control bytes of b. -/
def execBmix (f : LB) (s : State) : Host.Outcome State Fault Refusal := laneLb .bmix (.bmix f) f s

/-- BMIX_SHORT (R101): Short LA-form byte mix using the old vd as control and pool. -/
def execBmixShort (f : LA) (s : State) : Host.Outcome State Fault Refusal := laneLa .bmix (.bmixShort f) f s

/-- FADD (R107): Long-form float add with a chosen rounding mode. -/
def execFadd (f : LB) (s : State) : Host.Outcome State Fault Refusal := laneLb .fadd (.fadd f) f s

/-- FADD_SHORT (R101): Short LA-form float add rounding by FCTL.RM. -/
def execFaddShort (f : LA) (s : State) : Host.Outcome State Fault Refusal := laneLa .fadd (.faddShort f) f s

/-- FSUB (R107): Long-form float subtract. -/
def execFsub (f : LB) (s : State) : Host.Outcome State Fault Refusal := laneLb .fsub (.fsub f) f s

/-- FSUB_SHORT (R101): Short LA-form float subtract rounding by FCTL.RM. -/
def execFsubShort (f : LA) (s : State) : Host.Outcome State Fault Refusal := laneLa .fsub (.fsubShort f) f s

/-- FMUL (R107): Long-form float multiply. -/
def execFmul (f : LB) (s : State) : Host.Outcome State Fault Refusal := laneLb .fmul (.fmul f) f s

/-- FMUL_SHORT (R101): Short LA-form float multiply rounding by FCTL.RM. -/
def execFmulShort (f : LA) (s : State) : Host.Outcome State Fault Refusal := laneLa .fmul (.fmulShort f) f s

/-- FFMA (R107): Long-form fused multiply-add with one rounding. -/
def execFfma (f : LB) (s : State) : Host.Outcome State Fault Refusal := laneLb .ffma (.ffma f) f s

/-- FFMA_SHORT (R101): Short LA-form fused multiply-add with the old vd as b and c. -/
def execFfmaShort (f : LA) (s : State) : Host.Outcome State Fault Refusal := laneLa .ffma (.ffmaShort f) f s

/-- FMIN (R49): Long-form IEEE minimum. -/
def execFmin (f : LB) (s : State) : Host.Outcome State Fault Refusal := laneLb .fmin (.fmin f) f s

/-- FMIN_SHORT (R101): Short LA-form IEEE minimum of va and the old vd. -/
def execFminShort (f : LA) (s : State) : Host.Outcome State Fault Refusal := laneLa .fmin (.fminShort f) f s

/-- FMAX (R49): Long-form IEEE maximum. -/
def execFmax (f : LB) (s : State) : Host.Outcome State Fault Refusal := laneLb .fmax (.fmax f) f s

/-- FMAX_SHORT (R101): Short LA-form IEEE maximum of va and the old vd. -/
def execFmaxShort (f : LA) (s : State) : Host.Outcome State Fault Refusal := laneLa .fmax (.fmaxShort f) f s

/-- FCMP (R108): Long-form float comparison into a predicate. -/
def execFcmp (f : LB) (s : State) : Host.Outcome State Fault Refusal := laneLb .fcmp (.fcmp f) f s

/-- FCMP_SHORT (R101): Short LA-form float comparison of va with zero into a predicate. -/
def execFcmpShort (f : LA) (s : State) : Host.Outcome State Fault Refusal := laneLa .fcmp (.fcmpShort f) f s

/-- FRCP (R54): Long-form correctly rounded reciprocal. -/
def execFrcp (f : LB) (s : State) : Host.Outcome State Fault Refusal := laneLb .frcp (.frcp f) f s

/-- FRCP_SHORT (R101): Short LA-form reciprocal rounding by FCTL.RM. -/
def execFrcpShort (f : LA) (s : State) : Host.Outcome State Fault Refusal := laneLa .frcp (.frcpShort f) f s

/-- FRSQ (R54): Long-form correctly rounded reciprocal square root. -/
def execFrsq (f : LB) (s : State) : Host.Outcome State Fault Refusal := laneLb .frsq (.frsq f) f s

/-- FRSQ_SHORT (R101): Short LA-form reciprocal square root. -/
def execFrsqShort (f : LA) (s : State) : Host.Outcome State Fault Refusal := laneLa .frsq (.frsqShort f) f s

/-- FSQRT (R53): Long-form square root. -/
def execFsqrt (f : LB) (s : State) : Host.Outcome State Fault Refusal := laneLb .fsqrt (.fsqrt f) f s

/-- FSQRT_SHORT (R101): Short LA-form square root. -/
def execFsqrtShort (f : LA) (s : State) : Host.Outcome State Fault Refusal := laneLa .fsqrt (.fsqrtShort f) f s

/-- FDIV (R53): Long-form float division. -/
def execFdiv (f : LB) (s : State) : Host.Outcome State Fault Refusal := laneLb .fdiv (.fdiv f) f s

/-- FDIV_SHORT (R101): Short LA-form division of va by the old vd. -/
def execFdivShort (f : LA) (s : State) : Host.Outcome State Fault Refusal := laneLa .fdiv (.fdivShort f) f s

/-- FEXP2 (R54): Long-form correctly rounded 2^x. -/
def execFexp2 (f : LB) (s : State) : Host.Outcome State Fault Refusal := laneLb .fexp2 (.fexp2 f) f s

/-- FEXP2_SHORT (R101): Short LA-form 2^x. -/
def execFexp2Short (f : LA) (s : State) : Host.Outcome State Fault Refusal := laneLa .fexp2 (.fexp2Short f) f s

/-- FLOG2 (R54): Long-form correctly rounded log2. -/
def execFlog2 (f : LB) (s : State) : Host.Outcome State Fault Refusal := laneLb .flog2 (.flog2 f) f s

/-- FLOG2_SHORT (R101): Short LA-form log2. -/
def execFlog2Short (f : LA) (s : State) : Host.Outcome State Fault Refusal := laneLa .flog2 (.flog2Short f) f s

/-- FSINPI (R54): Long-form correctly rounded sin(pi x). -/
def execFsinpi (f : LB) (s : State) : Host.Outcome State Fault Refusal := laneLb .fsinpi (.fsinpi f) f s

/-- FSINPI_SHORT (R101): Short LA-form sin(pi x). -/
def execFsinpiShort (f : LA) (s : State) : Host.Outcome State Fault Refusal := laneLa .fsinpi (.fsinpiShort f) f s

/-- FCOSPI (R54): Long-form correctly rounded cos(pi x). -/
def execFcospi (f : LB) (s : State) : Host.Outcome State Fault Refusal := laneLb .fcospi (.fcospi f) f s

/-- FCOSPI_SHORT (R101): Short LA-form cos(pi x). -/
def execFcospiShort (f : LA) (s : State) : Host.Outcome State Fault Refusal := laneLa .fcospi (.fcospiShort f) f s

/-- FTANH (R54): Long-form correctly rounded tanh. -/
def execFtanh (f : LB) (s : State) : Host.Outcome State Fault Refusal := laneLb .ftanh (.ftanh f) f s

/-- FTANH_SHORT (R101): Short LA-form tanh. -/
def execFtanhShort (f : LA) (s : State) : Host.Outcome State Fault Refusal := laneLa .ftanh (.ftanhShort f) f s

/-- FCLASS (R108): Long-form classification of a float encoding into a class mask. -/
def execFclass (f : LB) (s : State) : Host.Outcome State Fault Refusal := laneLb .fclass (.fclass f) f s

/-- FCLASS_SHORT (R101): Short LA-form classification of va. -/
def execFclassShort (f : LA) (s : State) : Host.Outcome State Fault Refusal := laneLa .fclass (.fclassShort f) f s

/-- FSCALE (R107): Long-form a times 2^b with one rounding. -/
def execFscale (f : LB) (s : State) : Host.Outcome State Fault Refusal := laneLb .fscale (.fscale f) f s

/-- FSCALE_SHORT (R101): Short LA-form scaling of va by 2^(old vd). -/
def execFscaleShort (f : LA) (s : State) : Host.Outcome State Fault Refusal := laneLa .fscale (.fscaleShort f) f s

/-- FRND (R108): Long-form rounding to an integral value in the float format. -/
def execFrnd (f : LB) (s : State) : Host.Outcome State Fault Refusal := laneLb .frnd (.frnd f) f s

/-- FRND_SHORT (R101): Short LA-form rounding of va to integral. -/
def execFrndShort (f : LA) (s : State) : Host.Outcome State Fault Refusal := laneLa .frnd (.frndShort f) f s

/-- DADD (R109): FP64 add of register pairs. -/
def execDadd (f : LB) (s : State) : Host.Outcome State Fault Refusal := laneLb .dadd (.dadd f) f s

/-- DMUL (R109): FP64 multiply. -/
def execDmul (f : LB) (s : State) : Host.Outcome State Fault Refusal := laneLb .dmul (.dmul f) f s

/-- DFMA (R109): FP64 fused multiply-add. -/
def execDfma (f : LB) (s : State) : Host.Outcome State Fault Refusal := laneLb .dfma (.dfma f) f s

/-- DCMP (R109): FP64 comparison into a predicate. -/
def execDcmp (f : LB) (s : State) : Host.Outcome State Fault Refusal := laneLb .dcmp (.dcmp f) f s

/-- CVT (R111): Conversion between numeric types by element codes. -/
def execCvt (f : LB) (s : State) : Host.Outcome State Fault Refusal := laneLb .cvt (.cvt f) f s

/-- DQPLANE (R115): Read one element of a plane K-block at precision k as FP32. -/
def execDqplane (f : LB) (s : State) : Host.Outcome State Fault Refusal := laneLb .dqplane (.dqplane f) f s

/-- PACK (R112): Build one packed register from two sources. -/
def execPack (f : LB) (s : State) : Host.Outcome State Fault Refusal := laneLb .pack (.pack f) f s

/-- UNPACK (R113): Extract and widen one element of a packed register. -/
def execUnpack (f : LB) (s : State) : Host.Outcome State Fault Refusal := laneLb .unpack (.unpack f) f s

/-- MOV (R117): Long-form copy of a bit pattern, scalar or immediate. -/
def execMov (f : LB) (s : State) : Host.Outcome State Fault Refusal := laneLb .mov (.mov f) f s

/-- MOV_SHORT (R117): Short LA-form copy of va to vd. -/
def execMovShort (f : LA) (s : State) : Host.Outcome State Fault Refusal := laneLa .mov (.movShort f) f s

end Sys2Proof.Machine
end

