-- ==== Sys2Proof/Machine/Scalar.lean ====
section
/-! DEFINITION. The scalar arithmetic of the uniform set (R123), in its three forms. -/

namespace Sys2Proof.Machine

/-- The result of a UA form: x and z are the old sd, y and u are sa (R123). -/
def scalUaValue (op : ScalOp) (w : Warp) (f : UA) : Nat :=
  let d := (sread w f.sd.toNat).toNat
  let a := (sread w f.sa.toNat).toNat
  scalEval op (f.sub.toNat % 8) d a d a 0

/-- The result of a UB form: x and u are sa, y is sb, z is sc; imm14 sign-extended. -/
def scalUbValue (op : ScalOp) (w : Warp) (f : UB) : Nat :=
  let a := (sread w f.sa.toNat).toNat
  scalEval op (f.sub.toNat % 8) a (sread w f.sb.toNat).toNat (sread w f.sc.toNat).toNat a (toSigned 14 f.imm.toNat)

/-- The result of a UI form: x is sa, y and u are imm32, z is the old sd. -/
def scalUiValue (op : ScalOp) (w : Warp) (f : UI) : Nat :=
  scalEval op (f.sub.toNat % 8) (sread w f.sa.toNat).toNat f.imm.toNat (sread w f.sd.toNat).toNat f.imm.toNat 0

/-- A scalar instruction in UA form. -/
def scalUa (op : ScalOp) (i : Instr) (f : UA) (s : State) : Host.Outcome State Fault Refusal :=
  issueWarp i s (fun _ w => swrite w f.sd.toNat (BitVec.ofNat 32 (scalUaValue op w f)))
/-- A scalar instruction in UB form. -/
def scalUb (op : ScalOp) (i : Instr) (f : UB) (s : State) : Host.Outcome State Fault Refusal :=
  issueWarp i s (fun _ w => swrite w f.sd.toNat (BitVec.ofNat 32 (scalUbValue op w f)))
/-- A scalar instruction in UI form. -/
def scalUi (op : ScalOp) (i : Instr) (f : UI) (s : State) : Host.Outcome State Fault Refusal :=
  issueWarp i s (fun _ w => swrite w f.sd.toNat (BitVec.ofNat 32 (scalUiValue op w f)))

/-- SADD (R123): Scalar add in UA form. -/
def execSadd (f : UA) (s : State) : Host.Outcome State Fault Refusal := scalUa .sadd (.sadd f) f s

/-- SADD_UB (R123): Scalar add of two registers plus imm14 in UB form. -/
def execSaddUb (f : UB) (s : State) : Host.Outcome State Fault Refusal := scalUb .sadd (.saddUb f) f s

/-- SADD_UI (R123): Scalar add of a register and imm32. -/
def execSaddUi (f : UI) (s : State) : Host.Outcome State Fault Refusal := scalUi .sadd (.saddUi f) f s

/-- SSUB (R123): Scalar subtract in UA form. -/
def execSsub (f : UA) (s : State) : Host.Outcome State Fault Refusal := scalUa .ssub (.ssub f) f s

/-- SSUB_UB (R123): Scalar subtract in UB form. -/
def execSsubUb (f : UB) (s : State) : Host.Outcome State Fault Refusal := scalUb .ssub (.ssubUb f) f s

/-- SSUB_UI (R123): Scalar subtract of imm32. -/
def execSsubUi (f : UI) (s : State) : Host.Outcome State Fault Refusal := scalUi .ssub (.ssubUi f) f s

/-- SMUL (R123): Scalar multiply in UA form. -/
def execSmul (f : UA) (s : State) : Host.Outcome State Fault Refusal := scalUa .smul (.smul f) f s

/-- SMUL_UB (R123): Scalar multiply in UB form. -/
def execSmulUb (f : UB) (s : State) : Host.Outcome State Fault Refusal := scalUb .smul (.smulUb f) f s

/-- SMUL_UI (R123): Scalar multiply by imm32. -/
def execSmulUi (f : UI) (s : State) : Host.Outcome State Fault Refusal := scalUi .smul (.smulUi f) f s

/-- SMULH (R123): Scalar high product in UA form. -/
def execSmulh (f : UA) (s : State) : Host.Outcome State Fault Refusal := scalUa .smulh (.smulh f) f s

/-- SMULH_UB (R123): Scalar high product in UB form. -/
def execSmulhUb (f : UB) (s : State) : Host.Outcome State Fault Refusal := scalUb .smulh (.smulhUb f) f s

/-- SMULH_UI (R123): Scalar high product with imm32. -/
def execSmulhUi (f : UI) (s : State) : Host.Outcome State Fault Refusal := scalUi .smulh (.smulhUi f) f s

/-- SMAD (R123): Scalar multiply-add in UA form. -/
def execSmad (f : UA) (s : State) : Host.Outcome State Fault Refusal := scalUa .smad (.smad f) f s

/-- SMAD_UB (R123): Scalar multiply-add with sc in UB form. -/
def execSmadUb (f : UB) (s : State) : Host.Outcome State Fault Refusal := scalUb .smad (.smadUb f) f s

/-- SMAD_UI (R123): Scalar multiply-add with imm32. -/
def execSmadUi (f : UI) (s : State) : Host.Outcome State Fault Refusal := scalUi .smad (.smadUi f) f s

/-- SMIN (R123): Scalar minimum in UA form. -/
def execSmin (f : UA) (s : State) : Host.Outcome State Fault Refusal := scalUa .smin (.smin f) f s

/-- SMIN_UB (R123): Scalar minimum in UB form. -/
def execSminUb (f : UB) (s : State) : Host.Outcome State Fault Refusal := scalUb .smin (.sminUb f) f s

/-- SMIN_UI (R123): Scalar minimum with imm32. -/
def execSminUi (f : UI) (s : State) : Host.Outcome State Fault Refusal := scalUi .smin (.sminUi f) f s

/-- SMAX (R123): Scalar maximum in UA form. -/
def execSmax (f : UA) (s : State) : Host.Outcome State Fault Refusal := scalUa .smax (.smax f) f s

/-- SMAX_UB (R123): Scalar maximum in UB form. -/
def execSmaxUb (f : UB) (s : State) : Host.Outcome State Fault Refusal := scalUb .smax (.smaxUb f) f s

/-- SMAX_UI (R123): Scalar maximum with imm32. -/
def execSmaxUi (f : UI) (s : State) : Host.Outcome State Fault Refusal := scalUi .smax (.smaxUi f) f s

/-- SSHL (R123): Scalar left shift in UA form. -/
def execSshl (f : UA) (s : State) : Host.Outcome State Fault Refusal := scalUa .sshl (.sshl f) f s

/-- SSHL_UB (R123): Scalar left shift in UB form. -/
def execSshlUb (f : UB) (s : State) : Host.Outcome State Fault Refusal := scalUb .sshl (.sshlUb f) f s

/-- SSHL_UI (R123): Scalar left shift by imm32. -/
def execSshlUi (f : UI) (s : State) : Host.Outcome State Fault Refusal := scalUi .sshl (.sshlUi f) f s

/-- SSHR (R123): Scalar logical right shift in UA form. -/
def execSshr (f : UA) (s : State) : Host.Outcome State Fault Refusal := scalUa .sshr (.sshr f) f s

/-- SSHR_UB (R123): Scalar logical right shift in UB form. -/
def execSshrUb (f : UB) (s : State) : Host.Outcome State Fault Refusal := scalUb .sshr (.sshrUb f) f s

/-- SSHR_UI (R123): Scalar logical right shift by imm32. -/
def execSshrUi (f : UI) (s : State) : Host.Outcome State Fault Refusal := scalUi .sshr (.sshrUi f) f s

/-- SSAR (R123): Scalar arithmetic right shift in UA form. -/
def execSsar (f : UA) (s : State) : Host.Outcome State Fault Refusal := scalUa .ssar (.ssar f) f s

/-- SSAR_UB (R123): Scalar arithmetic right shift in UB form. -/
def execSsarUb (f : UB) (s : State) : Host.Outcome State Fault Refusal := scalUb .ssar (.ssarUb f) f s

/-- SSAR_UI (R123): Scalar arithmetic right shift by imm32. -/
def execSsarUi (f : UI) (s : State) : Host.Outcome State Fault Refusal := scalUi .ssar (.ssarUi f) f s

/-- SLOGIC (R123): Scalar bitwise operation in UA form. -/
def execSlogic (f : UA) (s : State) : Host.Outcome State Fault Refusal := scalUa .slogic (.slogic f) f s

/-- SLOGIC_UB (R123): Scalar bitwise operation in UB form. -/
def execSlogicUb (f : UB) (s : State) : Host.Outcome State Fault Refusal := scalUb .slogic (.slogicUb f) f s

/-- SLOGIC_UI (R123): Scalar bitwise operation with imm32. -/
def execSlogicUi (f : UI) (s : State) : Host.Outcome State Fault Refusal := scalUi .slogic (.slogicUi f) f s

/-- SBFE (R123): Scalar bit-field extract in UA form. -/
def execSbfe (f : UA) (s : State) : Host.Outcome State Fault Refusal := scalUa .sbfe (.sbfe f) f s

/-- SBFE_UB (R123): Scalar bit-field extract in UB form. -/
def execSbfeUb (f : UB) (s : State) : Host.Outcome State Fault Refusal := scalUb .sbfe (.sbfeUb f) f s

/-- SBFE_UI (R123): Scalar bit-field extract with imm32 control. -/
def execSbfeUi (f : UI) (s : State) : Host.Outcome State Fault Refusal := scalUi .sbfe (.sbfeUi f) f s

/-- SBFI (R123): Scalar bit-field insert in UA form. -/
def execSbfi (f : UA) (s : State) : Host.Outcome State Fault Refusal := scalUa .sbfi (.sbfi f) f s

/-- SBFI_UB (R123): Scalar bit-field insert in UB form. -/
def execSbfiUb (f : UB) (s : State) : Host.Outcome State Fault Refusal := scalUb .sbfi (.sbfiUb f) f s

/-- SBFI_UI (R123): Scalar bit-field insert with imm32 control. -/
def execSbfiUi (f : UI) (s : State) : Host.Outcome State Fault Refusal := scalUi .sbfi (.sbfiUi f) f s

/-- SPOPC (R123): Scalar population count in UA form. -/
def execSpopc (f : UA) (s : State) : Host.Outcome State Fault Refusal := scalUa .spopc (.spopc f) f s

/-- SPOPC_UB (R123): Scalar population count in UB form. -/
def execSpopcUb (f : UB) (s : State) : Host.Outcome State Fault Refusal := scalUb .spopc (.spopcUb f) f s

/-- SPOPC_UI (R123): Scalar population count of imm32. -/
def execSpopcUi (f : UI) (s : State) : Host.Outcome State Fault Refusal := scalUi .spopc (.spopcUi f) f s

/-- SCLZ (R123): Scalar leading-bit count in UA form. -/
def execSclz (f : UA) (s : State) : Host.Outcome State Fault Refusal := scalUa .sclz (.sclz f) f s

/-- SCLZ_UB (R123): Scalar leading-bit count in UB form. -/
def execSclzUb (f : UB) (s : State) : Host.Outcome State Fault Refusal := scalUb .sclz (.sclzUb f) f s

/-- SCLZ_UI (R123): Scalar leading-bit count of imm32. -/
def execSclzUi (f : UI) (s : State) : Host.Outcome State Fault Refusal := scalUi .sclz (.sclzUi f) f s

/-- SCMP (R123): Scalar comparison in UA form. -/
def execScmp (f : UA) (s : State) : Host.Outcome State Fault Refusal := scalUa .scmp (.scmp f) f s

/-- SCMP_UB (R123): Scalar comparison in UB form. -/
def execScmpUb (f : UB) (s : State) : Host.Outcome State Fault Refusal := scalUb .scmp (.scmpUb f) f s

/-- SCMP_UI (R123): Scalar comparison with imm32. -/
def execScmpUi (f : UI) (s : State) : Host.Outcome State Fault Refusal := scalUi .scmp (.scmpUi f) f s

/-- SSEL (R123): Scalar select in UA form. -/
def execSsel (f : UA) (s : State) : Host.Outcome State Fault Refusal := scalUa .ssel (.ssel f) f s

/-- SSEL_UB (R123): Scalar select by sc in UB form. -/
def execSselUb (f : UB) (s : State) : Host.Outcome State Fault Refusal := scalUb .ssel (.sselUb f) f s

/-- SSEL_UI (R123): Scalar select with imm32. -/
def execSselUi (f : UI) (s : State) : Host.Outcome State Fault Refusal := scalUi .ssel (.sselUi f) f s

/-- SMOV (R123): Scalar move of sa in UA form. -/
def execSmov (f : UA) (s : State) : Host.Outcome State Fault Refusal := scalUa .smov (.smov f) f s

/-- SMOV_UB (R123): Scalar move of sa plus imm14. -/
def execSmovUb (f : UB) (s : State) : Host.Outcome State Fault Refusal := scalUb .smov (.smovUb f) f s

/-- SMOV_UI (R123): Scalar move of imm32. -/
def execSmovUi (f : UI) (s : State) : Host.Outcome State Fault Refusal := scalUi .smov (.smovUi f) f s

end Sys2Proof.Machine
end

