-- ==== Sys2Proof/Machine/Dispatch.lean ====
section
/-! DEFINITION. One arm for every row of the opcode table: a direct call of its meaning. -/

namespace Sys2Proof.Machine

/-- The meaning of every instruction and event. -/
def exec (i : Instr) (s : State) : Host.Outcome State Fault Refusal :=
  match i with
  | .iadd f => Sys2Proof.Machine.execIadd f s
  | .iaddShort f => Sys2Proof.Machine.execIaddShort f s
  | .isub f => Sys2Proof.Machine.execIsub f s
  | .isubShort f => Sys2Proof.Machine.execIsubShort f s
  | .imul f => Sys2Proof.Machine.execImul f s
  | .imulShort f => Sys2Proof.Machine.execImulShort f s
  | .imulh f => Sys2Proof.Machine.execImulh f s
  | .imulhShort f => Sys2Proof.Machine.execImulhShort f s
  | .imad f => Sys2Proof.Machine.execImad f s
  | .imadShort f => Sys2Proof.Machine.execImadShort f s
  | .imin f => Sys2Proof.Machine.execImin f s
  | .iminShort f => Sys2Proof.Machine.execIminShort f s
  | .imax f => Sys2Proof.Machine.execImax f s
  | .imaxShort f => Sys2Proof.Machine.execImaxShort f s
  | .iabs f => Sys2Proof.Machine.execIabs f s
  | .iabsShort f => Sys2Proof.Machine.execIabsShort f s
  | .idp4 f => Sys2Proof.Machine.execIdp4 f s
  | .idp4Short f => Sys2Proof.Machine.execIdp4Short f s
  | .shl f => Sys2Proof.Machine.execShl f s
  | .shlShort f => Sys2Proof.Machine.execShlShort f s
  | .shr f => Sys2Proof.Machine.execShr f s
  | .shrShort f => Sys2Proof.Machine.execShrShort f s
  | .sar f => Sys2Proof.Machine.execSar f s
  | .sarShort f => Sys2Proof.Machine.execSarShort f s
  | .shf f => Sys2Proof.Machine.execShf f s
  | .shfShort f => Sys2Proof.Machine.execShfShort f s
  | .knit f => Sys2Proof.Machine.execKnit f s
  | .logic f => Sys2Proof.Machine.execLogic f s
  | .logicShort f => Sys2Proof.Machine.execLogicShort f s
  | .bfe f => Sys2Proof.Machine.execBfe f s
  | .bfeShort f => Sys2Proof.Machine.execBfeShort f s
  | .bfi f => Sys2Proof.Machine.execBfi f s
  | .bfiShort f => Sys2Proof.Machine.execBfiShort f s
  | .popc f => Sys2Proof.Machine.execPopc f s
  | .popcShort f => Sys2Proof.Machine.execPopcShort f s
  | .clz f => Sys2Proof.Machine.execClz f s
  | .clzShort f => Sys2Proof.Machine.execClzShort f s
  | .brev f => Sys2Proof.Machine.execBrev f s
  | .brevShort f => Sys2Proof.Machine.execBrevShort f s
  | .ffs f => Sys2Proof.Machine.execFfs f s
  | .ffsShort f => Sys2Proof.Machine.execFfsShort f s
  | .icmp f => Sys2Proof.Machine.execIcmp f s
  | .icmpShort f => Sys2Proof.Machine.execIcmpShort f s
  | .sel f => Sys2Proof.Machine.execSel f s
  | .selShort f => Sys2Proof.Machine.execSelShort f s
  | .isad f => Sys2Proof.Machine.execIsad f s
  | .isadShort f => Sys2Proof.Machine.execIsadShort f s
  | .bmix f => Sys2Proof.Machine.execBmix f s
  | .bmixShort f => Sys2Proof.Machine.execBmixShort f s
  | .fadd f => Sys2Proof.Machine.execFadd f s
  | .faddShort f => Sys2Proof.Machine.execFaddShort f s
  | .fsub f => Sys2Proof.Machine.execFsub f s
  | .fsubShort f => Sys2Proof.Machine.execFsubShort f s
  | .fmul f => Sys2Proof.Machine.execFmul f s
  | .fmulShort f => Sys2Proof.Machine.execFmulShort f s
  | .ffma f => Sys2Proof.Machine.execFfma f s
  | .ffmaShort f => Sys2Proof.Machine.execFfmaShort f s
  | .fmin f => Sys2Proof.Machine.execFmin f s
  | .fminShort f => Sys2Proof.Machine.execFminShort f s
  | .fmax f => Sys2Proof.Machine.execFmax f s
  | .fmaxShort f => Sys2Proof.Machine.execFmaxShort f s
  | .fcmp f => Sys2Proof.Machine.execFcmp f s
  | .fcmpShort f => Sys2Proof.Machine.execFcmpShort f s
  | .frcp f => Sys2Proof.Machine.execFrcp f s
  | .frcpShort f => Sys2Proof.Machine.execFrcpShort f s
  | .frsq f => Sys2Proof.Machine.execFrsq f s
  | .frsqShort f => Sys2Proof.Machine.execFrsqShort f s
  | .fsqrt f => Sys2Proof.Machine.execFsqrt f s
  | .fsqrtShort f => Sys2Proof.Machine.execFsqrtShort f s
  | .fdiv f => Sys2Proof.Machine.execFdiv f s
  | .fdivShort f => Sys2Proof.Machine.execFdivShort f s
  | .fexp2 f => Sys2Proof.Machine.execFexp2 f s
  | .fexp2Short f => Sys2Proof.Machine.execFexp2Short f s
  | .flog2 f => Sys2Proof.Machine.execFlog2 f s
  | .flog2Short f => Sys2Proof.Machine.execFlog2Short f s
  | .fsinpi f => Sys2Proof.Machine.execFsinpi f s
  | .fsinpiShort f => Sys2Proof.Machine.execFsinpiShort f s
  | .fcospi f => Sys2Proof.Machine.execFcospi f s
  | .fcospiShort f => Sys2Proof.Machine.execFcospiShort f s
  | .ftanh f => Sys2Proof.Machine.execFtanh f s
  | .ftanhShort f => Sys2Proof.Machine.execFtanhShort f s
  | .fclass f => Sys2Proof.Machine.execFclass f s
  | .fclassShort f => Sys2Proof.Machine.execFclassShort f s
  | .fscale f => Sys2Proof.Machine.execFscale f s
  | .fscaleShort f => Sys2Proof.Machine.execFscaleShort f s
  | .frnd f => Sys2Proof.Machine.execFrnd f s
  | .frndShort f => Sys2Proof.Machine.execFrndShort f s
  | .dadd f => Sys2Proof.Machine.execDadd f s
  | .dmul f => Sys2Proof.Machine.execDmul f s
  | .dfma f => Sys2Proof.Machine.execDfma f s
  | .dcmp f => Sys2Proof.Machine.execDcmp f s
  | .cvt f => Sys2Proof.Machine.execCvt f s
  | .qplane f => Sys2Proof.Machine.execQplane f s
  | .dqplane f => Sys2Proof.Machine.execDqplane f s
  | .pack f => Sys2Proof.Machine.execPack f s
  | .unpack f => Sys2Proof.Machine.execUnpack f s
  | .srnd f => Sys2Proof.Machine.execSrnd f s
  | .mov f => Sys2Proof.Machine.execMov f s
  | .movShort f => Sys2Proof.Machine.execMovShort f s
  | .xlane f => Sys2Proof.Machine.execXlane f s
  | .peer f => Sys2Proof.Machine.execPeer f s
  | .qpoll f => Sys2Proof.Machine.execQpoll f s
  | .redx f => Sys2Proof.Machine.execRedx f s
  | .scan f => Sys2Proof.Machine.execScan f s
  | .plop f => Sys2Proof.Machine.execPlop f s
  | .brp f => Sys2Proof.Machine.execBrp f s
  | .trd f => Sys2Proof.Machine.execTrd f s
  | .twr f => Sys2Proof.Machine.execTwr f s
  | .lds f => Sys2Proof.Machine.execLds f s
  | .sts f => Sys2Proof.Machine.execSts f s
  | .ldg f => Sys2Proof.Machine.execLdg f s
  | .stg f => Sys2Proof.Machine.execStg f s
  | .stnt f => Sys2Proof.Machine.execStnt f s
  | .atoms f => Sys2Proof.Machine.execAtoms f s
  | .atomg f => Sys2Proof.Machine.execAtomg f s
  | .redg f => Sys2Proof.Machine.execRedg f s
  | .prefg f => Sys2Proof.Machine.execPrefg f s
  | .mma f => Sys2Proof.Machine.execMma f s
  | .accrd f => Sys2Proof.Machine.execAccrd f s
  | .accwr f => Sys2Proof.Machine.execAccwr f s
  | .nop e => Sys2Proof.Machine.execNop e s
  | .sadd f => Sys2Proof.Machine.execSadd f s
  | .saddUb f => Sys2Proof.Machine.execSaddUb f s
  | .saddUi f => Sys2Proof.Machine.execSaddUi f s
  | .ssub f => Sys2Proof.Machine.execSsub f s
  | .ssubUb f => Sys2Proof.Machine.execSsubUb f s
  | .ssubUi f => Sys2Proof.Machine.execSsubUi f s
  | .smul f => Sys2Proof.Machine.execSmul f s
  | .smulUb f => Sys2Proof.Machine.execSmulUb f s
  | .smulUi f => Sys2Proof.Machine.execSmulUi f s
  | .smulh f => Sys2Proof.Machine.execSmulh f s
  | .smulhUb f => Sys2Proof.Machine.execSmulhUb f s
  | .smulhUi f => Sys2Proof.Machine.execSmulhUi f s
  | .smad f => Sys2Proof.Machine.execSmad f s
  | .smadUb f => Sys2Proof.Machine.execSmadUb f s
  | .smadUi f => Sys2Proof.Machine.execSmadUi f s
  | .smin f => Sys2Proof.Machine.execSmin f s
  | .sminUb f => Sys2Proof.Machine.execSminUb f s
  | .sminUi f => Sys2Proof.Machine.execSminUi f s
  | .smax f => Sys2Proof.Machine.execSmax f s
  | .smaxUb f => Sys2Proof.Machine.execSmaxUb f s
  | .smaxUi f => Sys2Proof.Machine.execSmaxUi f s
  | .sshl f => Sys2Proof.Machine.execSshl f s
  | .sshlUb f => Sys2Proof.Machine.execSshlUb f s
  | .sshlUi f => Sys2Proof.Machine.execSshlUi f s
  | .sshr f => Sys2Proof.Machine.execSshr f s
  | .sshrUb f => Sys2Proof.Machine.execSshrUb f s
  | .sshrUi f => Sys2Proof.Machine.execSshrUi f s
  | .ssar f => Sys2Proof.Machine.execSsar f s
  | .ssarUb f => Sys2Proof.Machine.execSsarUb f s
  | .ssarUi f => Sys2Proof.Machine.execSsarUi f s
  | .slogic f => Sys2Proof.Machine.execSlogic f s
  | .slogicUb f => Sys2Proof.Machine.execSlogicUb f s
  | .slogicUi f => Sys2Proof.Machine.execSlogicUi f s
  | .sbfe f => Sys2Proof.Machine.execSbfe f s
  | .sbfeUb f => Sys2Proof.Machine.execSbfeUb f s
  | .sbfeUi f => Sys2Proof.Machine.execSbfeUi f s
  | .sbfi f => Sys2Proof.Machine.execSbfi f s
  | .sbfiUb f => Sys2Proof.Machine.execSbfiUb f s
  | .sbfiUi f => Sys2Proof.Machine.execSbfiUi f s
  | .spopc f => Sys2Proof.Machine.execSpopc f s
  | .spopcUb f => Sys2Proof.Machine.execSpopcUb f s
  | .spopcUi f => Sys2Proof.Machine.execSpopcUi f s
  | .sclz f => Sys2Proof.Machine.execSclz f s
  | .sclzUb f => Sys2Proof.Machine.execSclzUb f s
  | .sclzUi f => Sys2Proof.Machine.execSclzUi f s
  | .scmp f => Sys2Proof.Machine.execScmp f s
  | .scmpUb f => Sys2Proof.Machine.execScmpUb f s
  | .scmpUi f => Sys2Proof.Machine.execScmpUi f s
  | .ssel f => Sys2Proof.Machine.execSsel f s
  | .sselUb f => Sys2Proof.Machine.execSselUb f s
  | .sselUi f => Sys2Proof.Machine.execSselUi f s
  | .smov f => Sys2Proof.Machine.execSmov f s
  | .smovUb f => Sys2Proof.Machine.execSmovUb f s
  | .smovUi f => Sys2Proof.Machine.execSmovUi f s
  | .bra f => Sys2Proof.Machine.execBra f s
  | .brc f => Sys2Proof.Machine.execBrc f s
  | .call f => Sys2Proof.Machine.execCall f s
  | .ret f => Sys2Proof.Machine.execRet f s
  | .jmpi f => Sys2Proof.Machine.execJmpi f s
  | .exit f => Sys2Proof.Machine.execExit f s
  | .join f => Sys2Proof.Machine.execJoin f s
  | .leave f => Sys2Proof.Machine.execLeave f s
  | .wait f => Sys2Proof.Machine.execWait f s
  | .mops f => Sys2Proof.Machine.execMops f s
  | .brk f => Sys2Proof.Machine.execBrk f s
  | .trap f => Sys2Proof.Machine.execTrap f s
  | .eret f => Sys2Proof.Machine.execEret f s
  | .yield f => Sys2Proof.Machine.execYield f s
  | .sleepc f => Sys2Proof.Machine.execSleepc f s
  | .waitc f => Sys2Proof.Machine.execWaitc f s
  | .attach f => Sys2Proof.Machine.execAttach f s
  | .detach f => Sys2Proof.Machine.execDetach f s
  | .reggrow f => Sys2Proof.Machine.execReggrow f s
  | .regshrink f => Sys2Proof.Machine.execRegshrink f s
  | .srd f => Sys2Proof.Machine.execSrd f s
  | .swr f => Sys2Proof.Machine.execSwr f s
  | .sldg f => Sys2Proof.Machine.execSldg f s
  | .sstg f => Sys2Proof.Machine.execSstg f s
  | .slds f => Sys2Proof.Machine.execSlds f s
  | .ssts f => Sys2Proof.Machine.execSsts f s
  | .satomg f => Sys2Proof.Machine.execSatomg f s
  | .fence f => Sys2Proof.Machine.execFence f s
  | .drainnt f => Sys2Proof.Machine.execDrainnt f s
  | .flush f => Sys2Proof.Machine.execFlush f s
  | .pref f => Sys2Proof.Machine.execPref f s
  | .bara f => Sys2Proof.Machine.execBara f s
  | .barw f => Sys2Proof.Machine.execBarw f s
  | .bars f => Sys2Proof.Machine.execBars f s
  | .cbara f => Sys2Proof.Machine.execCbara f s
  | .cbarw f => Sys2Proof.Machine.execCbarw f s
  | .gridbar f => Sys2Proof.Machine.execGridbar f s
  | .kinitReg f => Sys2Proof.Machine.execKinitReg f s
  | .kinitFree f => Sys2Proof.Machine.execKinitFree f s
  | .ktake f => Sys2Proof.Machine.execKtake f s
  | .kgive f => Sys2Proof.Machine.execKgive f s
  | .rinit f => Sys2Proof.Machine.execRinit f s
  | .rwaitFull f => Sys2Proof.Machine.execRwaitFull f s
  | .rwaitFree f => Sys2Proof.Machine.execRwaitFree f s
  | .rrel f => Sys2Proof.Machine.execRrel f s
  | .rarr f => Sys2Proof.Machine.execRarr f s
  | .chsend f => Sys2Proof.Machine.execChsend f s
  | .chrecvTake f => Sys2Proof.Machine.execChrecvTake f s
  | .chrecvDone f => Sys2Proof.Machine.execChrecvDone f s
  | .deq f => Sys2Proof.Machine.execDeq f s
  | .enq f => Sys2Proof.Machine.execEnq f s
  | .launch f => Sys2Proof.Machine.execLaunch f s
  | .hset f => Sys2Proof.Machine.execHset f s
  | .accz f => Sys2Proof.Machine.execAccz f s
  | .accrel f => Sys2Proof.Machine.execAccrel f s
  | .mchkrd f => Sys2Proof.Machine.execMchkrd f s
  | .tdef f => Sys2Proof.Machine.execTdef f s
  | .cpyG2s f => Sys2Proof.Machine.execCpyG2s f s
  | .cpyS2g f => Sys2Proof.Machine.execCpyS2g f s
  | .cpyS2s f => Sys2Proof.Machine.execCpyS2s f s
  | .cpgth f => Sys2Proof.Machine.execCpgth f s
  | .cpsct f => Sys2Proof.Machine.execCpsct f s
  | .cpxf f => Sys2Proof.Machine.execCpxf f s
  | .tdchk f => Sys2Proof.Machine.execTdchk f s
  | .coll f => Sys2Proof.Machine.execColl f s
  | .runGrant core quad => Sys2Proof.Machine.execRunGrant core quad s
  | .readyWaitGuard core quad => Sys2Proof.Machine.execReadyWaitGuard core quad s
  | .sleepEnd warp sub => Sys2Proof.Machine.execSleepEnd warp sub s
  | .loadReturn id => Sys2Proof.Machine.execLoadReturn id s
  | .coreStoreOrderSend core warp => Sys2Proof.Machine.execCoreStoreOrderSend core warp s
  | .homeAck id => Sys2Proof.Machine.execHomeAck id s
  | .scratchPortAccess id => Sys2Proof.Machine.execScratchPortAccess id s
  | .planeStepsStart core => Sys2Proof.Machine.execPlaneStepsStart core s
  | .matrixCompletion core bad => Sys2Proof.Machine.execMatrixCompletion core bad s
  | .mismatchWindow core => Sys2Proof.Machine.execMismatchWindow core s
  | .goldenTest core test => Sys2Proof.Machine.execGoldenTest core test s
  | .goldenTestResult core pass => Sys2Proof.Machine.execGoldenTestResult core pass s
  | .resourceQueueService core => Sys2Proof.Machine.execResourceQueueService core s
  | .resourceQueueAgeLimit core => Sys2Proof.Machine.execResourceQueueAgeLimit core s
  | .resourceRefusal core => Sys2Proof.Machine.execResourceRefusal core s
  | .warpResourceReturn warp => Sys2Proof.Machine.execWarpResourceReturn warp s
  | .warpArrival warp bar => Sys2Proof.Machine.execWarpArrival warp bar s
  | .pairedBarrierEvent block => Sys2Proof.Machine.execPairedBarrierEvent block s
  | .blockArrival block bar => Sys2Proof.Machine.execBlockArrival block bar s
  | .copyPiece id => Sys2Proof.Machine.execCopyPiece id s
  | .copySourceRead id => Sys2Proof.Machine.execCopySourceRead id s
  | .copyLineWrite id => Sys2Proof.Machine.execCopyLineWrite id s
  | .ringArrival id => Sys2Proof.Machine.execRingArrival id s
  | .copyFailure id => Sys2Proof.Machine.execCopyFailure id s
  | .copyReplay block entry => Sys2Proof.Machine.execCopyReplay block entry s
  | .channelClaim id => Sys2Proof.Machine.execChannelClaim id s
  | .l2Request id => Sys2Proof.Machine.execL2Request id s
  | .gapFillArrival id bad => Sys2Proof.Machine.execGapFillArrival id bad s
  | .homeWrite id => Sys2Proof.Machine.execHomeWrite id s
  | .leaseExpiry slice => Sys2Proof.Machine.execLeaseExpiry slice s
  | .spliceAbsorb id => Sys2Proof.Machine.execSpliceAbsorb id s
  | .spliceRecordRequest bay grain => Sys2Proof.Machine.execSpliceRecordRequest bay grain s
  | .spliceConfirm bay grain => Sys2Proof.Machine.execSpliceConfirm bay grain s
  | .spliceRecall bay grain => Sys2Proof.Machine.execSpliceRecall bay grain s
  | .splicePartialCombine id => Sys2Proof.Machine.execSplicePartialCombine id s
  | .knotRequest id => Sys2Proof.Machine.execKnotRequest id s
  | .ktakeResend id => Sys2Proof.Machine.execKtakeResend id s
  | .streamRelease id => Sys2Proof.Machine.execStreamRelease id s
  | .translationWalk core ctx va => Sys2Proof.Machine.execTranslationWalk core ctx va s
  | .enqueueWindowWrite fn q size words => Sys2Proof.Machine.execEnqueueWindowWrite fn q size words s
  | .qctlWrite m q v => Sys2Proof.Machine.execQctlWrite m q v s
  | .klaunch q => Sys2Proof.Machine.execKlaunch q s
  | .waiton q => Sys2Proof.Machine.execWaiton q s
  | .signal q => Sys2Proof.Machine.execSignal q s
  | .work q => Sys2Proof.Machine.execWork q s
  | .waitonSatisfied q idx => Sys2Proof.Machine.execWaitonSatisfied q idx s
  | .klaunchComplete q idx => Sys2Proof.Machine.execKlaunchComplete q idx s
  | .signalComplete q idx => Sys2Proof.Machine.execSignalComplete q idx s
  | .placementPass die => Sys2Proof.Machine.execPlacementPass die s
  | .placementAgeLimit die => Sys2Proof.Machine.execPlacementAgeLimit die s
  | .blockPlace die => Sys2Proof.Machine.execBlockPlace die s
  | .blockStart block => Sys2Proof.Machine.execBlockStart block s
  | .seamHalfForward die => Sys2Proof.Machine.execSeamHalfForward die s
  | .preemptSave cluster => Sys2Proof.Machine.execPreemptSave cluster s
  | .saveComplete cluster => Sys2Proof.Machine.execSaveComplete cluster s
  | .restore cluster => Sys2Proof.Machine.execRestore cluster s
  | .cctlWrite m ctx v => Sys2Proof.Machine.execCctlWrite m ctx v s
  | .kill m ctx => Sys2Proof.Machine.execKill m ctx s
  | .wkick m ctx => Sys2Proof.Machine.execWkick m ctx s
  | .watchdogPeriod => Sys2Proof.Machine.execWatchdogPeriod s
  | .fenceComplete ctx => Sys2Proof.Machine.execFenceComplete ctx s
  | .cinvGo m ctx => Sys2Proof.Machine.execCinvGo m ctx s
  | .invalidationComplete ctx => Sys2Proof.Machine.execInvalidationComplete ctx s
  | .migrationGo m ch => Sys2Proof.Machine.execMigrationGo m ch s
  | .migrationClr m ch => Sys2Proof.Machine.execMigrationClr m ch s
  | .migrationGrain ch => Sys2Proof.Machine.execMigrationGrain ch s
  | .migrationDone ch => Sys2Proof.Machine.execMigrationDone ch s
  | .hostAccess r => Sys2Proof.Machine.execHostAccess r s
  | .flrVirtual fn => Sys2Proof.Machine.execFlrVirtual fn s
  | .flrFunction0 => Sys2Proof.Machine.execFlrFunction0 s
  | .msixMessage fn => Sys2Proof.Machine.execMsixMessage fn s
  | .peerRequest r => Sys2Proof.Machine.execPeerRequest r s
  | .lanyardTimeout id => Sys2Proof.Machine.execLanyardTimeout id s
  | .lanyardResponse id data poison => Sys2Proof.Machine.execLanyardResponse id data poison s
  | .lanyardLinkFail link => Sys2Proof.Machine.execLanyardLinkFail link s
  | .expanderFence x => Sys2Proof.Machine.execExpanderFence x s
  | .hbmStackLoss stack => Sys2Proof.Machine.execHbmStackLoss stack s
  | .collContribution c => Sys2Proof.Machine.execCollContribution c s
  | .collResult id => Sys2Proof.Machine.execCollResult id s
  | .rdmaRingPoll qp ring => Sys2Proof.Machine.execRdmaRingPoll qp ring s
  | .rdmaInbound r => Sys2Proof.Machine.execRdmaInbound r s
  | .correctedError u code n => Sys2Proof.Machine.execCorrectedError u code n s
  | .correctedErrorReport u code => Sys2Proof.Machine.execCorrectedErrorReport u code s
  | .uncorrectedError site => Sys2Proof.Machine.execUncorrectedError site s
  | .eventStoreRetry die => Sys2Proof.Machine.execEventStoreRetry die s
  | .evheadWrite m v => Sys2Proof.Machine.execEvheadWrite m v s
  | .evstatLostRead m => Sys2Proof.Machine.execEvstatLostRead m s
  | .fatalError cause => Sys2Proof.Machine.execFatalError cause s
  | .dumpComplete status => Sys2Proof.Machine.execDumpComplete status s
  | .overTemperature temp => Sys2Proof.Machine.execOverTemperature temp s
  | .reelChunk hub => Sys2Proof.Machine.execReelChunk hub s
  | .reelComplete => Sys2Proof.Machine.execReelComplete s
  | .reelEnqueueRetry => Sys2Proof.Machine.execReelEnqueueRetry s
  | .halt m ctx => Sys2Proof.Machine.execHalt m ctx s
  | .haltComplete ctx => Sys2Proof.Machine.execHaltComplete ctx s
  | .resume m ctx => Sys2Proof.Machine.execResume m ctx s
  | .step m ctx => Sys2Proof.Machine.execStep m ctx s
  | .watch m ctx => Sys2Proof.Machine.execWatch m ctx s
  | .icinv m ctx => Sys2Proof.Machine.execIcinv m ctx s
  | .icinvComplete ctx => Sys2Proof.Machine.execIcinvComplete ctx s
  | .dpost3Write m ctx v => Sys2Proof.Machine.execDpost3Write m ctx v s
  | .dstatPostClear m ctx => Sys2Proof.Machine.execDstatPostClear m ctx s
  | .dclaimRead m ctx => Sys2Proof.Machine.execDclaimRead m ctx s
  | .atab fn => Sys2Proof.Machine.execAtab fn s
  | .ctxasn fn => Sys2Proof.Machine.execCtxasn fn s
  | .cgreg fn => Sys2Proof.Machine.execCgreg fn s
  | .cgdel fn => Sys2Proof.Machine.execCgdel fn s
  | .reel fn => Sys2Proof.Machine.execReel fn s
  | .qpnew fn => Sys2Proof.Machine.execQpnew fn s
  | .qpdel fn => Sys2Proof.Machine.execQpdel fn s
  | .domain fn => Sys2Proof.Machine.execDomain fn s
  | .attest fn => Sys2Proof.Machine.execAttest fn s
  | .gvcnt fn => Sys2Proof.Machine.execGvcnt fn s
  | .fwupd fn => Sys2Proof.Machine.execFwupd fn s
  | .lcset fn => Sys2Proof.Machine.execLcset fn s
  | .cap fn => Sys2Proof.Machine.execCap fn s
  | .deviceReset source => Sys2Proof.Machine.execDeviceReset source s
  | .powerStepSelect pwr temp => Sys2Proof.Machine.execPowerStepSelect pwr temp s
  | .clockStepChange => Sys2Proof.Machine.execClockStepChange s
  | .registerWrite m off size v => Sys2Proof.Machine.execRegisterWrite m off size v s
  | .mainPowerLoss => Sys2Proof.Machine.execMainPowerLoss s
  | .ethernetLinkChange port up => Sys2Proof.Machine.execEthernetLinkChange port up s
  | .virtualFunctionEnable n => Sys2Proof.Machine.execVirtualFunctionEnable n s
  | .rdmaResponse qp idx status data => Sys2Proof.Machine.execRdmaResponse qp idx status data s
  | .rdmaInboundSend qp data => Sys2Proof.Machine.execRdmaInboundSend qp data s
  | .rdmaRetryTimeout qp idx => Sys2Proof.Machine.execRdmaRetryTimeout qp idx s
  | .pairedAccCommandArrival block => Sys2Proof.Machine.execPairedAccCommandArrival block s

end Sys2Proof.Machine
end

