-- ==== Sys2Proof/Machine/Pending.lean ====
section
/-! DEFINITION. What can come next of itself: the run a quadrant holds, the grants, and the events under way, in the order
in which the model takes them when its agenda is empty (DESIGN CHOICE, log 1); and the state that has a given instruction next (DESIGN CHOICE, log 4). -/

namespace Sys2Proof.Machine

/-- Cores and quadrants on which a warp stands. -/
def busyQuads (s : State) : List (Nat × Nat) := (s.warps.map (fun e => (e.2.core, quadOf e.2.slot))).dedup

/-- What a move does to the state: an event, or the next instruction of a run. -/
abbrev Act := State → Host.Outcome State Fault Refusal

/-- Each id of a table as an event. -/
def perId {α : Type} (t : Tbl α) (f : Nat → Act) : List Act := t.map (fun e => f e.1)

/-- What a warp has under way. -/
def warpEvents (e : Nat × Warp) : List Act :=
  (e.2.braids.filter (fun b => b.wake != 0)).map (fun b => execSleepEnd e.1 b.id)
    ++ (if e.2.storeQ.isEmpty then [] else [execCoreStoreOrderSend e.2.core e.1])
    ++ (e.2.arrives.filter (fun a => a.2.pending)).map (fun a => execWarpArrival e.1 a.1)
    ++ (if e.2.ended then [execWarpResourceReturn e.1] else [])

/-- What a block has under way. -/
def blockEvents (e : Nat × Block) : List Act :=
  (if e.2.started then [] else [execBlockStart e.1])
    ++ (if e.2.oddEvents.isEmpty then [] else [execPairedBarrierEvent e.1])
    ++ (if e.2.oddAccs.isEmpty then [] else [execPairedAccCommandArrival e.1])
    ++ e.2.cbDone.map (fun c => execBlockArrival e.1 c.1)
    ++ (List.range e.2.faults.length).map (fun k => execCopyReplay e.1 k)

/-- What a core has under way: its plane array, its resource queue, its mismatch window and its golden tests. -/
def coreEvents (c : Core) (k : Nat) : List Act :=
  (if c.queue.isEmpty then [] else [execMatrixCompletion k none, execPlaneStepsStart k])
    ++ (if c.resQ.isEmpty then [] else [execResourceQueueService k, execResourceRefusal k])
    ++ [execMismatchWindow k, execGoldenTest k ((c.goldenPass + c.goldenFail) % 80), execGoldenTestResult k true]

/-- What is on its way between a bay and the homes. -/
def bayEvents (b : Bay) (k : Nat) : List Act :=
  b.window.flatMap (fun e => [execSpliceAbsorb e.id, execHomeWrite e.id, execHomeAck e.id])
    ++ (b.splice.filter (fun x => !x.confirmed)).flatMap (fun x => [execSpliceConfirm k x.grain, execSpliceRecordRequest k x.grain])

/-- What a slice has under way. -/
def sliceEvents (clock : Nat) (y : Slice) (k : Nat) : List Act :=
  y.fills.map (fun f => execGapFillArrival f.id 0)
    ++ (y.splice.filter (fun d => d.called)).flatMap (fun d =>
      ((List.range 16).filter (fun b => d.bays.getLsbD b)).map (fun b => execSpliceRecall b d.grain))
    ++ (if y.blocks.all (leaseLive clock) then [] else [execLeaseExpiry k])

/-- What the network carries: loads, requests, packets, messages, copies, knot requests, partials. -/
def netEvents (n : Net) : List Act :=
  perId n.loads execLoadReturn ++ perId n.reqs execL2Request ++ perId n.ports execScratchPortAccess
    ++ (n.nts ++ n.cpw).flatMap (fun e => [execHomeWrite e.id, execHomeAck e.id])
    ++ n.flushes.flatMap (fun e => [execHomeWrite e.1, execHomeAck e.1])
    ++ n.lines.flatMap (fun e => [execCopyLineWrite e.1, execStreamRelease e.1]) ++ perId n.rings execRingArrival
    ++ n.copies.flatMap (fun e => [execCopySourceRead e.1, execCopyPiece e.1, execCopyFailure e.1, execChannelClaim e.1])
    ++ n.knots.flatMap (fun e => [execKnotRequest e.1, execKtakeResend e.1]) ++ perId n.partials execSplicePartialCombine

/-- What a queue has under way: its head packet, and those that have started. -/
def queueEvents (q : Queue) (k : Nat) : List Act :=
  (if q.en && q.head != q.tail then [execKlaunch k, execWaiton k, execSignal k, execWork k] else [])
    ++ q.started.flatMap (fun p => [execWaitonSatisfied k p.idx, execKlaunchComplete k p.idx, execSignalComplete k p.idx])

/-- What a distributor has under way. -/
def dieEvents (d : Die) (k : Nat) : List Act :=
  (if d.passDue then [execPlacementPass k] else []) ++ (if d.placing.isEmpty then [] else [execBlockPlace k])
    ++ (if d.forwarded.isEmpty then [] else [execSeamHalfForward k]) ++ (if d.store.isEmpty then [] else [execEventStoreRetry k])
    ++ d.corrected.map (fun e => execCorrectedErrorReport ⟨e.1 / 2 ^ 24, e.1 / 2 ^ 8 % 2 ^ 16⟩ (e.1 % 2 ^ 8))

/-- What a context has under way. -/
def ctxEvents (x : Ctx) (k : Nat) : List Act :=
  (if x.fencing then [execFenceComplete k] else []) ++ (if x.go then [execInvalidationComplete k] else [])
    ++ (if x.dbox.busy then [execHaltComplete k, execIcinvComplete k] else [])

/-- The command that the security processor takes next. -/
def secEvents (q : List (Nat × Nat)) : List Act :=
  match q with
  | [] => []
  | (fn, op) :: _ => match op with
    | 0x01 => [execAtab fn]
    | 0x02 => [execCtxasn fn]
    | 0x03 => [execCgreg fn]
    | 0x04 => [execCgdel fn]
    | 0x05 => [execReel fn]
    | 0x06 => [execQpnew fn]
    | 0x07 => [execQpdel fn]
    | 0x08 => [execDomain fn]
    | 0x09 => [execAttest fn]
    | 0x0A => [execGvcnt fn]
    | 0x0B => [execFwupd fn]
    | 0x0C => [execLcset fn]
    | 0x0D => [execCap fn]
    | _ => []

/-- This package's own contribution of a COLL whose source is read. -/
def ownContribution (s : State) (c : CopyCmd) : List Act :=
  match c.kind with
  | .coll _ _ _ g stp => match findGroup s c.ctx g with
    | some x => [execCollContribution ⟨c.ctx, g, stp, x.myRank, 0, 0, 0, 0, 0, [], []⟩]
    | none => []
  | _ => []

/-- What the fabric, the host port, the security processor and the engines of the package have under way. -/
def packageEvents (s : State) : List Act :=
  s.net.copies.flatMap (fun e => ownContribution s e.2) ++ perId s.fabric.colls execCollResult
    ++ perId s.fabric.lanyard execLanyardTimeout ++ s.fabric.qps.flatMap (fun e => [execRdmaRingPoll e.1 0, execRdmaRingPoll e.1 1])
    ++ s.port.owed.dedup.map execMsixMessage ++ s.saving.flatMap (fun v => [execPreemptSave v.cluster, execSaveComplete v.cluster])
    ++ s.saved.map (fun v => execRestore v.cluster)
    ++ (s.memsys.migs.zipIdx.filter (fun m => m.1.busy)).flatMap (fun m => [execMigrationGrain m.2, execMigrationDone m.2])
    ++ (if s.sec.reel.isSome then [execReelChunk 0, execReelChunk 1, execReelChunk 2, execReelChunk 3, execReelComplete] else [])
    ++ (if s.sec.reelDone.isEmpty then [] else [execReelEnqueueRetry]) ++ (if s.sec.dump == some 0 then [execDumpComplete 1] else [])
    ++ secEvents s.sec.queue ++ (if s.sec.resetDue then [execDeviceReset 2] else [])
    ++ (if s.power.changing then [execClockStepChange] else [])

/-- The events that can come of themselves. -/
def pending (s : State) : List Act :=
  s.warps.flatMap warpEvents ++ s.blocks.flatMap blockEvents ++ netEvents s.net
    ++ s.bays.zipIdx.flatMap (fun b => bayEvents b.1 b.2) ++ s.slices.zipIdx.flatMap (fun y => sliceEvents s.clock y.1 y.2)
    ++ s.cores.zipIdx.flatMap (fun c => coreEvents c.1 c.2) ++ s.queues.zipIdx.flatMap (fun q => queueEvents q.1 q.2)
    ++ s.dies.zipIdx.flatMap (fun d => dieEvents d.1 d.2) ++ s.ctxs.zipIdx.flatMap (fun x => ctxEvents x.1 x.2)
    ++ packageEvents s ++ (busyQuads s).map (fun q => execRunGrant q.1 q.2)

/-- The next instruction of the run of a quadrant: fetched, decoded, executed with its sub-braid in the focus; a fetch or
decode that traps takes its trap (R73, R85); a run without lanes ends. -/
def issueNext (s : State) (core quad : Nat) : Host.Outcome State Fault Refusal :=
  match runOf s core quad with
  | none => .next s
  | some r =>
    match runBraid s r with
    | none => .next (modCore s core (fun c => { c with runs := lset c.runs quad none }))
    | some (w, b) =>
      match fetchInstr s core (ctxOfWarp s w) b.pc b.lanes with
      | (.error t, s) => .next (trapAtIssue s r.warp w b t)
      | (.ok i, s) => exec i { s with focus := some ⟨r.warp, r.sub⟩ }

/-- A handler's warp after the instruction of parked lanes `p` has been executed beside it (R398): the handler's own groups are as
they were, the lanes of `p` are held, parked lanes of theirs stay parked through the trap, and a stalled instruction is still due. -/
def rejoin (w : Warp) (p : Parked) (v : Warp) : Warp :=
  let mine := v.braids.filter (fun b => b.id == w.nextId)
  let others := w.parked.erase p
  let stalled := mine.any (fun b => b.pc == p.pc)
  { v with
    braids := w.braids ++ v.braids.filter (fun b => b.id != w.nextId)
    deferred := w.deferred ++ v.deferred
    held := w.held ++ v.held ++ (if stalled then [] else mine.map (fun b => ⟨b.lanes, b.pc, b.lastGrant, b.wake⟩))
    parked := v.parked.map (fun q => if others.contains q then q else { q with inTrap := false }) ++ (if stalled then [p] else []) }

/-- The instruction of parked lanes whose condition has been met in trap mode is executed (R398); a cause that it raises is a double
trap (R399). The quadrant's run is not its own. -/
def executeDue (s : State) (wid : Nat) (w : Warp) (p : Parked) : State :=
  let alone : Warp := { w with
    parked := w.parked.erase p, braids := [⟨w.nextId, p.lanes, p.pc, p.lastGrant, s.clock, 0⟩], deferred := [], held := []
    nextId := w.nextId + 1 }
  let back := fun (t : State) =>
    modCore (modWarp t wid (rejoin w p)) w.core (fun c =>
      { c with runs := (coreOf s w.core).runs, runBrk := (coreOf s w.core).runBrk, longRun := (coreOf s w.core).longRun })
  match fetchInstr (modWarp s wid (fun _ => alone)) w.core (ctxOfWarp s w) p.pc p.lanes with
  | (.error t, s1) => back (takeTrap s1 wid p.pc p.lastGrant t)
  | (.ok i, s1) => match exec i { s1 with focus := some ⟨wid, w.nextId⟩ } with
    | .next t => back t
    | _ => s

/-- Parked lanes whose instruction is due go on (R398): they execute it, or, once trap mode has ended, resume at it. -/
def settleParked (wid : Nat) (s : State) (p : Parked) : State :=
  match tget s.warps wid with
  | none => s
  | some w =>
    if p.cond != .due || !w.parked.contains p || !mayIssue s w then s
    else if w.trapMode then executeDue s wid w p
    else modWarp s wid (fun w => releaseLanes { w with parked := w.parked.map (fun q => if q == p then { q with next := q.pc } else q) }
      (fun q => q.cond == .due && q.next == q.pc) (BitVec.allOnes 64) s.clock)

/-- Every instruction that is due is executed, at the clock at which its condition was met and before anything else happens
(R398) (DESIGN CHOICE, log 99). -/
def settleDue (s : State) : State :=
  let t := s.warps.foldl (fun s e => e.2.parked.foldl (settleParked e.1) s) s
  { t with clock := s.clock, watched := s.watched, agenda := s.agenda, focus := s.focus }

/-- Clocks pass, behind what is due at once, and the watchdog's periods that end are counted (R389). -/
def passTime (n : Nat) (s : State) : State := countPeriods (advanceClock n (settleDue s))

/-- A move: an event, which does nothing where its condition does not hold (DESIGN CHOICE, log 3), or the next instruction of a run. -/
def doMove (s : State) : Move → Host.Outcome State Fault Refusal
  | .event i => exec i s
  | .issue core quad => issueNext s core quad

/-- What can come next, in the order in which the model tries it: every run and every event under way, beginning at a place that
moves on with the clock, so that none is passed over for ever (DESIGN CHOICE, log 1). -/
def moves (s : State) : List Act :=
  let runs := (busyQuads s).filter (fun q => (runOf s q.1 q.2).isSome)
  (runs.map (fun q t => issueNext t q.1 q.2) ++ pending s).rotate s.clock

/-- The first move of a list that changes the state; without one only a clock has passed. -/
def firstMove (s : State) : List Act → Host.Outcome State Fault Refusal
  | [] => .next s
  | m :: ms => match m s with
    | .next t => if t = s then firstMove s ms else .next t
    | o => o

/-- The access table entry that permits everything (DESIGN CHOICE, log 4). -/
def openEntry : List Byte := List.replicate 16 0xFF ++ List.replicate 64 0 ++ List.replicate 64 0xFF ++ List.replicate 112 0

/-- Where `withFetchWord` puts the page tables and the code. -/
def loadRoot : Nat := 0x10000
def loadTable : Nat := 0x12000
def loadPc : VAddr := 0x20000

/-- The launch record of the one-warp grid that `withFetchWord` makes: width 32, 256 registers of window, one block per
cluster, 4 accumulators, 64 KiB of scratch. -/
def loadRecord : List Byte :=
  toBytes 4 1 ++ toBytes 4 1 ++ toBytes 2 256 ++ toBytes 1 1 ++ toBytes 1 0 ++ toBytes 1 1 ++ toBytes 1 4 ++ toBytes 2 16
    ++ toBytes 8 loadPc.toNat ++ toBytes 4 1 ++ toBytes 4 0 ++ toBytes 24 1 ++ List.replicate 328 0

/-- The block of that grid. -/
def loadBlock : Block :=
  { cluster := 0, rank := 0, core := 0, bslot := 0, started := true, ended := false, halted := false,
    bbs := List.replicate 16 ⟨1, 0, false, 0, 0⟩, hitches := List.replicate 8 ⟨0, none, []⟩,
    accs := List.replicate 16 .unmapped, accFree := [0, 1, 2, 3], mstat := 0, mlog := [], faults := [], scratch := [],
    lineCopies := [], absent := [], linePois := [], rings := [], chSlots := [], chNext := [], chWait := [], watches := List.replicate 4 ⟨false, 0, 0, 0⟩,
    oddEvents := [], oddAccs := [], cbDone := [], cbLate := [], again := [] }

/-- The context, grid, cluster, block and warp of that grid, and the run granted to it. -/
def loadWarp (s : State) : State :=
  let s := modCtx s 0 (fun x => { x with cctl := 1, tveclo := 0x30001, rootlo := BitVec.ofNat 32 loadRoot })
  let s := modCore s 0 (fun c => { c with
    runs := lset c.runs 0 (some ⟨0, 0, 0⟩)
    accOwner := [some (0, 16), some (0, 16), some (0, 16), some (0, 16), none, none, none, none] })
  { s with
    fresh := max s.fresh 1
    sec := { s.sec with atab := (List.range 16).map (fun k => (k, openEntry)) ++ s.sec.atab.filter (fun e => decide (16 ≤ e.1)) }
    grids := [(0, ⟨0, loadRecord, 0, 0, none, 0, false, 1, 0, false, [], []⟩)]
    clusters := [(0, ⟨0, 0, 0, 0, [(0, 0)], [], List.replicate 8 ⟨1, 0, false, []⟩, 0, [0]⟩)]
    blocks := [(0, loadBlock)]
    warps := [(0, newWarp loadRecord 0 0 0 0 loadPc 0 [] (List.replicate 16 .waiting) s.clock)] }

/-- Physical memory with page tables that map 128 GiB to itself, and an instruction's words at the PC, as the context's instruction
caches find it. -/
def loadMem (s : State) (nbits w : Nat) : State :=
  let leaf := 2 ^ 0 + 2 ^ 1 + 2 ^ 2 + 2 ^ 3 + 2 ^ 4
  let m := setBytes s.mem loadRoot (toBytes 8 (loadTable + 1))
  let m := setBytes m loadTable (toBytes 8 leaf)
  let m := setBytes m loadPc.toNat (toBytes 8 (w % 2 ^ nbits))
  { modCtx s 0 (fun x => { x with code := m }) with mem := m }

end Sys2Proof.Machine
end

