-- ==== Sys2Proof/Machine/Step.lean ====
section
/-! DEFINITION. One step of the package (logs 1 to 4): clocks pass, then the agenda's next turn; without one, the first of the
granted runs and the events under way that changes something. -/

namespace Sys2Proof.Machine

/-- One step: one clock passes and a turn's further clocks, then its move. -/
def step (s : State) : Host.Outcome State Fault Refusal :=
  match s.agenda with
  | t :: ts => doMove (passTime (1 + t.clocks) { s with focus := none, agenda := ts }) t.move
  | [] =>
    let s := passTime 1 { s with focus := none }
    firstMove s (moves s)

/-- The state with an instruction's words stored where `step` fetches its next instruction (DESIGN CHOICE, log 4): a context with its
page tables and access rights, a grid of one warp, and a run granted to it at the PC that holds the words. -/
def State.withFetchWord (s : State) (nbits w : Nat) : State :=
  loadMem (loadWarp { s with agenda := [⟨0, .issue 0 0⟩] }) nbits w

end Sys2Proof.Machine
end

