-- ==== Sys2Proof/Laws/Encoding.lean ====
section
/-! SUPPORT. The fields of an encoded word are read back as they were written, format by format. -/

namespace Sys2Proof

/-- Word 0 of a lane format: its bits and fields. -/
theorem encLaneWord_set (long e : Bool) (op : BitVec 7) (vd va : BitVec 8) (sub : BitVec 6) :
    (encLaneWord long e op vd va sub).getLsbD 31 = false := by
  simp only [encLaneWord, BitVec.getLsbD_append]; simp
theorem encLaneWord_long (long e : Bool) (op : BitVec 7) (vd va : BitVec 8) (sub : BitVec 6) :
    (encLaneWord long e op vd va sub).getLsbD 30 = long := by
  simp only [encLaneWord, BitVec.getLsbD_append]; simp
theorem encLaneWord_e (long e : Bool) (op : BitVec 7) (vd va : BitVec 8) (sub : BitVec 6) :
    (encLaneWord long e op vd va sub).getLsbD 29 = e := by
  simp only [encLaneWord, BitVec.getLsbD_append]; simp
theorem encLaneWord_op (long e : Bool) (op : BitVec 7) (vd va : BitVec 8) (sub : BitVec 6) :
    (encLaneWord long e op vd va sub).extractLsb' 22 7 = op := by
  apply BitVec.eq_of_getLsbD_eq
  intro k hk
  simp only [encLaneWord, BitVec.getLsbD_extractLsb', BitVec.getLsbD_append]
  interval_cases k <;> simp
theorem encLaneWord_vd (long e : Bool) (op : BitVec 7) (vd va : BitVec 8) (sub : BitVec 6) :
    (encLaneWord long e op vd va sub).extractLsb' 14 8 = vd := by
  apply BitVec.eq_of_getLsbD_eq
  intro k hk
  simp only [encLaneWord, BitVec.getLsbD_extractLsb', BitVec.getLsbD_append]
  interval_cases k <;> simp
theorem encLaneWord_va (long e : Bool) (op : BitVec 7) (vd va : BitVec 8) (sub : BitVec 6) :
    (encLaneWord long e op vd va sub).extractLsb' 6 8 = va := by
  apply BitVec.eq_of_getLsbD_eq
  intro k hk
  simp only [encLaneWord, BitVec.getLsbD_extractLsb', BitVec.getLsbD_append]
  interval_cases k <;> simp
theorem encLaneWord_sub (long e : Bool) (op : BitVec 7) (vd va : BitVec 8) (sub : BitVec 6) :
    (encLaneWord long e op vd va sub).extractLsb' 0 6 = sub := by
  apply BitVec.eq_of_getLsbD_eq
  intro k hk
  simp only [encLaneWord, BitVec.getLsbD_extractLsb', BitVec.getLsbD_append]
  interval_cases k <;> simp

/-- Word 0 of a uniform format: its bits and fields. -/
theorem encUniWord_set (long e : Bool) (op : BitVec 7) (sd sa : BitVec 9) (sub : BitVec 4) :
    (encUniWord long e op sd sa sub).getLsbD 31 = true := by
  simp only [encUniWord, BitVec.getLsbD_append]; simp
theorem encUniWord_long (long e : Bool) (op : BitVec 7) (sd sa : BitVec 9) (sub : BitVec 4) :
    (encUniWord long e op sd sa sub).getLsbD 30 = long := by
  simp only [encUniWord, BitVec.getLsbD_append]; simp
theorem encUniWord_e (long e : Bool) (op : BitVec 7) (sd sa : BitVec 9) (sub : BitVec 4) :
    (encUniWord long e op sd sa sub).getLsbD 29 = e := by
  simp only [encUniWord, BitVec.getLsbD_append]; simp
theorem encUniWord_op (long e : Bool) (op : BitVec 7) (sd sa : BitVec 9) (sub : BitVec 4) :
    (encUniWord long e op sd sa sub).extractLsb' 22 7 = op := by
  apply BitVec.eq_of_getLsbD_eq
  intro k hk
  simp only [encUniWord, BitVec.getLsbD_extractLsb', BitVec.getLsbD_append]
  interval_cases k <;> simp
theorem encUniWord_sd (long e : Bool) (op : BitVec 7) (sd sa : BitVec 9) (sub : BitVec 4) :
    (encUniWord long e op sd sa sub).extractLsb' 13 9 = sd := by
  apply BitVec.eq_of_getLsbD_eq
  intro k hk
  simp only [encUniWord, BitVec.getLsbD_extractLsb', BitVec.getLsbD_append]
  interval_cases k <;> simp
theorem encUniWord_sa (long e : Bool) (op : BitVec 7) (sd sa : BitVec 9) (sub : BitVec 4) :
    (encUniWord long e op sd sa sub).extractLsb' 4 9 = sa := by
  apply BitVec.eq_of_getLsbD_eq
  intro k hk
  simp only [encUniWord, BitVec.getLsbD_extractLsb', BitVec.getLsbD_append]
  interval_cases k <;> simp
theorem encUniWord_sub (long e : Bool) (op : BitVec 7) (sd sa : BitVec 9) (sub : BitVec 4) :
    (encUniWord long e op sd sa sub).extractLsb' 0 4 = sub := by
  apply BitVec.eq_of_getLsbD_eq
  intro k hk
  simp only [encUniWord, BitVec.getLsbD_extractLsb', BitVec.getLsbD_append]
  interval_cases k <;> simp

/-- The instruction of one word, or of two, as an encoder gives them. -/
def headWord (ws : List Word) : Word := ws.headD 0
def lastWord (ws : List Word) : Word := (ws.drop 1).headD 0

theorem decLA_encLA (op : BitVec 7) (f : LA) : decLA (headWord (encLA op f)) = f := by
  simp only [decLA, encLA, headWord, List.headD_cons, encLaneWord_vd, encLaneWord_va, encLaneWord_sub, encLaneWord_e]

theorem decUA_encUA (op : BitVec 7) (f : UA) : decUA (headWord (encUA op f)) = f := by
  simp only [decUA, encUA, headWord, List.headD_cons, encUniWord_sd, encUniWord_sa, encUniWord_sub, encUniWord_e]

theorem decUI_encUI (op : BitVec 7) (f : UI) : decUI (headWord (encUI op f)) (lastWord (encUI op f)) = f := by
  simp only [decUI, encUI, headWord, lastWord, encUniWord_sd, encUniWord_sa, encUniWord_sub, encUniWord_e, List.headD_cons, List.drop_one, List.tail_cons]

theorem decUB_encUB (op : BitVec 7) (f : UB) : decUB (headWord (encUB op f)) (lastWord (encUB op f)) = f := by
  obtain ⟨e, sd, sa, sub, sb, sc, imm⟩ := f
  simp only [decUB, encUB, headWord, lastWord, encUniWord_sd, encUniWord_sa, encUniWord_sub, encUniWord_e, UB.mk.injEq,
    List.headD_cons, List.drop_one, List.tail_cons, true_and]
  refine ⟨?_, ?_, ?_⟩ <;>
    (apply BitVec.eq_of_getLsbD_eq
     intro k hk
     simp only [BitVec.getLsbD_extractLsb', BitVec.getLsbD_append]
     interval_cases k <;> simp)

theorem decLM_encLM (op : BitVec 7) (f : LM) : decLM (headWord (encLM op f)) (lastWord (encLM op f)) = f := by
  obtain ⟨e, vd, va, sub, sbase, gn, gp, off⟩ := f
  simp only [decLM, encLM, headWord, lastWord, encLaneWord_vd, encLaneWord_va, encLaneWord_sub, encLaneWord_e, LM.mk.injEq,
    List.headD_cons, List.drop_one, List.tail_cons, true_and]
  refine ⟨?_, (by simp only [BitVec.getLsbD_append]; simp), ?_, ?_⟩ <;>
    (apply BitVec.eq_of_getLsbD_eq
     intro k hk
     simp only [BitVec.getLsbD_extractLsb', BitVec.getLsbD_append]
     interval_cases k <;> simp)

theorem decLT_encLT (op : BitVec 7) (f : LT) : decLT (headWord (encLT op f)) (lastWord (encLT op f)) = f := by
  obtain ⟨e, vd, va, sub, rc, tn, sidx, imm5, gq, rest⟩ := f
  simp only [decLT, encLT, headWord, lastWord, encLaneWord_vd, encLaneWord_va, encLaneWord_sub, encLaneWord_e, LT.mk.injEq,
    List.headD_cons, List.drop_one, List.tail_cons, true_and]
  refine ⟨(by simp only [BitVec.getLsbD_append]; simp), ?_, ?_, ?_, ?_, ?_⟩ <;>
    (apply BitVec.eq_of_getLsbD_eq
     intro k hk
     simp only [BitVec.getLsbD_extractLsb', BitVec.getLsbD_append]
     interval_cases k <;> simp)

theorem decLB_encLB (op : BitVec 7) (f : LB) : decLB (headWord (encLB op f)) (lastWord (encLB op f)) = f := by
  obtain ⟨e, vd, va, sub, vb, vc, gn, gp, q, sb, im, rnd, sat, na, nb, t⟩ := f
  simp only [decLB, encLB, headWord, lastWord, encLaneWord_vd, encLaneWord_va, encLaneWord_sub, encLaneWord_e, LB.mk.injEq,
    List.headD_cons, List.drop_one, List.tail_cons, true_and]
  refine ⟨?_, ?_, (by simp only [BitVec.getLsbD_append]; simp), ?_, (by simp only [BitVec.getLsbD_append]; simp), (by simp only [BitVec.getLsbD_append]; simp),
    (by simp only [BitVec.getLsbD_append]; simp), ?_, (by simp only [BitVec.getLsbD_append]; simp), (by simp only [BitVec.getLsbD_append]; simp),
    (by simp only [BitVec.getLsbD_append]; simp), ?_⟩ <;>
    (apply BitVec.eq_of_getLsbD_eq
     intro k hk
     simp only [BitVec.getLsbD_extractLsb', BitVec.getLsbD_append]
     interval_cases k <;> simp)

theorem decUJ_encUJ (op : BitVec 7) (f : UJ) : decUJ (headWord (encUJ op f)) = f := by
  obtain ⟨e, off⟩ := f
  simp only [decUJ, encUJ, headWord, UJ.mk.injEq, List.headD_cons]
  refine ⟨(by simp only [BitVec.getLsbD_append]; simp), ?_⟩
  apply BitVec.eq_of_getLsbD_eq
  intro k hk
  simp only [BitVec.getLsbD_extractLsb', BitVec.getLsbD_append]
  interval_cases k <;> simp

/-- A word is read back from its bytes. -/
theorem wordOfBytes_bytes (w : Word) :
    wordOfBytes (w.extractLsb' 0 8) (w.extractLsb' 8 8) (w.extractLsb' 16 8) (w.extractLsb' 24 8) = w := by
  apply BitVec.eq_of_getLsbD_eq
  intro k hk
  simp only [wordOfBytes, BitVec.getLsbD_extractLsb', BitVec.getLsbD_append]
  interval_cases k <;> simp

/-- A short instruction's bytes decode as its word does. -/
theorem decode_short (w0 : Word) (rest : List Byte) (h : longOf w0 = false) :
    decode (bytesOfWords [w0] ++ rest) = (decodeShort w0).map (fun i => (i, rest)) := by
  simp [decode, bytesOfWords, wordOfBytes_bytes, h]

/-- A long instruction's bytes decode as its two words do. -/
theorem decode_long (w0 w1 : Word) (rest : List Byte) (h : longOf w0 = true) :
    decode (bytesOfWords [w0, w1] ++ rest) = (decodeLong w0 w1).map (fun i => (i, rest)) := by
  simp [decode, bytesOfWords, wordOfBytes_bytes, h]

end Sys2Proof
end

