-- ==== Sys2Proof/Laws/State.lean ====
section
/-! SUPPORT. The named updates of the state, one lemma per field: what each changes and what it leaves alone. -/

namespace Sys2Proof.Machine

@[simp] theorem modWarp_clock (s : State) (k : Nat) (f : Warp → Warp) : (modWarp s k f).clock = s.clock := rfl
@[simp] theorem modWarp_watched (s : State) (k : Nat) (f : Warp → Warp) : (modWarp s k f).watched = s.watched := rfl
@[simp] theorem modWarp_fresh (s : State) (k : Nat) (f : Warp → Warp) : (modWarp s k f).fresh = s.fresh := rfl
@[simp] theorem modWarp_free (s : State) (k : Nat) (f : Warp → Warp) : (modWarp s k f).free = s.free := rfl
@[simp] theorem modWarp_agenda (s : State) (k : Nat) (f : Warp → Warp) : (modWarp s k f).agenda = s.agenda := rfl
@[simp] theorem modWarp_focus (s : State) (k : Nat) (f : Warp → Warp) : (modWarp s k f).focus = s.focus := rfl
@[simp] theorem modWarp_warps (s : State) (k : Nat) (f : Warp → Warp) : (modWarp s k f).warps = tmod s.warps k f := rfl
@[simp] theorem modWarp_blocks (s : State) (k : Nat) (f : Warp → Warp) : (modWarp s k f).blocks = s.blocks := rfl
@[simp] theorem modWarp_clusters (s : State) (k : Nat) (f : Warp → Warp) : (modWarp s k f).clusters = s.clusters := rfl
@[simp] theorem modWarp_grids (s : State) (k : Nat) (f : Warp → Warp) : (modWarp s k f).grids = s.grids := rfl
@[simp] theorem modWarp_cores (s : State) (k : Nat) (f : Warp → Warp) : (modWarp s k f).cores = s.cores := rfl
@[simp] theorem modWarp_bays (s : State) (k : Nat) (f : Warp → Warp) : (modWarp s k f).bays = s.bays := rfl
@[simp] theorem modWarp_slices (s : State) (k : Nat) (f : Warp → Warp) : (modWarp s k f).slices = s.slices := rfl
@[simp] theorem modWarp_dies (s : State) (k : Nat) (f : Warp → Warp) : (modWarp s k f).dies = s.dies := rfl
@[simp] theorem modWarp_mem (s : State) (k : Nat) (f : Warp → Warp) : (modWarp s k f).mem = s.mem := rfl
@[simp] theorem modWarp_memsys (s : State) (k : Nat) (f : Warp → Warp) : (modWarp s k f).memsys = s.memsys := rfl
@[simp] theorem modWarp_net (s : State) (k : Nat) (f : Warp → Warp) : (modWarp s k f).net = s.net := rfl
@[simp] theorem modWarp_ctxs (s : State) (k : Nat) (f : Warp → Warp) : (modWarp s k f).ctxs = s.ctxs := rfl
@[simp] theorem modWarp_queues (s : State) (k : Nat) (f : Warp → Warp) : (modWarp s k f).queues = s.queues := rfl
@[simp] theorem modWarp_saving (s : State) (k : Nat) (f : Warp → Warp) : (modWarp s k f).saving = s.saving := rfl
@[simp] theorem modWarp_saved (s : State) (k : Nat) (f : Warp → Warp) : (modWarp s k f).saved = s.saved := rfl
@[simp] theorem modWarp_port (s : State) (k : Nat) (f : Warp → Warp) : (modWarp s k f).port = s.port := rfl
@[simp] theorem modWarp_fabric (s : State) (k : Nat) (f : Warp → Warp) : (modWarp s k f).fabric = s.fabric := rfl
@[simp] theorem modWarp_sec (s : State) (k : Nat) (f : Warp → Warp) : (modWarp s k f).sec = s.sec := rfl
@[simp] theorem modWarp_power (s : State) (k : Nat) (f : Warp → Warp) : (modWarp s k f).power = s.power := rfl

@[simp] theorem modBlock_clock (s : State) (k : Nat) (f : Block → Block) : (modBlock s k f).clock = s.clock := rfl
@[simp] theorem modBlock_watched (s : State) (k : Nat) (f : Block → Block) : (modBlock s k f).watched = s.watched := rfl
@[simp] theorem modBlock_fresh (s : State) (k : Nat) (f : Block → Block) : (modBlock s k f).fresh = s.fresh := rfl
@[simp] theorem modBlock_free (s : State) (k : Nat) (f : Block → Block) : (modBlock s k f).free = s.free := rfl
@[simp] theorem modBlock_agenda (s : State) (k : Nat) (f : Block → Block) : (modBlock s k f).agenda = s.agenda := rfl
@[simp] theorem modBlock_focus (s : State) (k : Nat) (f : Block → Block) : (modBlock s k f).focus = s.focus := rfl
@[simp] theorem modBlock_warps (s : State) (k : Nat) (f : Block → Block) : (modBlock s k f).warps = s.warps := rfl
@[simp] theorem modBlock_blocks (s : State) (k : Nat) (f : Block → Block) : (modBlock s k f).blocks = tmod s.blocks k f := rfl
@[simp] theorem modBlock_clusters (s : State) (k : Nat) (f : Block → Block) : (modBlock s k f).clusters = s.clusters := rfl
@[simp] theorem modBlock_grids (s : State) (k : Nat) (f : Block → Block) : (modBlock s k f).grids = s.grids := rfl
@[simp] theorem modBlock_cores (s : State) (k : Nat) (f : Block → Block) : (modBlock s k f).cores = s.cores := rfl
@[simp] theorem modBlock_bays (s : State) (k : Nat) (f : Block → Block) : (modBlock s k f).bays = s.bays := rfl
@[simp] theorem modBlock_slices (s : State) (k : Nat) (f : Block → Block) : (modBlock s k f).slices = s.slices := rfl
@[simp] theorem modBlock_dies (s : State) (k : Nat) (f : Block → Block) : (modBlock s k f).dies = s.dies := rfl
@[simp] theorem modBlock_mem (s : State) (k : Nat) (f : Block → Block) : (modBlock s k f).mem = s.mem := rfl
@[simp] theorem modBlock_memsys (s : State) (k : Nat) (f : Block → Block) : (modBlock s k f).memsys = s.memsys := rfl
@[simp] theorem modBlock_net (s : State) (k : Nat) (f : Block → Block) : (modBlock s k f).net = s.net := rfl
@[simp] theorem modBlock_ctxs (s : State) (k : Nat) (f : Block → Block) : (modBlock s k f).ctxs = s.ctxs := rfl
@[simp] theorem modBlock_queues (s : State) (k : Nat) (f : Block → Block) : (modBlock s k f).queues = s.queues := rfl
@[simp] theorem modBlock_saving (s : State) (k : Nat) (f : Block → Block) : (modBlock s k f).saving = s.saving := rfl
@[simp] theorem modBlock_saved (s : State) (k : Nat) (f : Block → Block) : (modBlock s k f).saved = s.saved := rfl
@[simp] theorem modBlock_port (s : State) (k : Nat) (f : Block → Block) : (modBlock s k f).port = s.port := rfl
@[simp] theorem modBlock_fabric (s : State) (k : Nat) (f : Block → Block) : (modBlock s k f).fabric = s.fabric := rfl
@[simp] theorem modBlock_sec (s : State) (k : Nat) (f : Block → Block) : (modBlock s k f).sec = s.sec := rfl
@[simp] theorem modBlock_power (s : State) (k : Nat) (f : Block → Block) : (modBlock s k f).power = s.power := rfl

@[simp] theorem modCluster_clock (s : State) (k : Nat) (f : Cluster → Cluster) : (modCluster s k f).clock = s.clock := rfl
@[simp] theorem modCluster_watched (s : State) (k : Nat) (f : Cluster → Cluster) : (modCluster s k f).watched = s.watched := rfl
@[simp] theorem modCluster_fresh (s : State) (k : Nat) (f : Cluster → Cluster) : (modCluster s k f).fresh = s.fresh := rfl
@[simp] theorem modCluster_free (s : State) (k : Nat) (f : Cluster → Cluster) : (modCluster s k f).free = s.free := rfl
@[simp] theorem modCluster_agenda (s : State) (k : Nat) (f : Cluster → Cluster) : (modCluster s k f).agenda = s.agenda := rfl
@[simp] theorem modCluster_focus (s : State) (k : Nat) (f : Cluster → Cluster) : (modCluster s k f).focus = s.focus := rfl
@[simp] theorem modCluster_warps (s : State) (k : Nat) (f : Cluster → Cluster) : (modCluster s k f).warps = s.warps := rfl
@[simp] theorem modCluster_blocks (s : State) (k : Nat) (f : Cluster → Cluster) : (modCluster s k f).blocks = s.blocks := rfl
@[simp] theorem modCluster_clusters (s : State) (k : Nat) (f : Cluster → Cluster) : (modCluster s k f).clusters = tmod s.clusters k f := rfl
@[simp] theorem modCluster_grids (s : State) (k : Nat) (f : Cluster → Cluster) : (modCluster s k f).grids = s.grids := rfl
@[simp] theorem modCluster_cores (s : State) (k : Nat) (f : Cluster → Cluster) : (modCluster s k f).cores = s.cores := rfl
@[simp] theorem modCluster_bays (s : State) (k : Nat) (f : Cluster → Cluster) : (modCluster s k f).bays = s.bays := rfl
@[simp] theorem modCluster_slices (s : State) (k : Nat) (f : Cluster → Cluster) : (modCluster s k f).slices = s.slices := rfl
@[simp] theorem modCluster_dies (s : State) (k : Nat) (f : Cluster → Cluster) : (modCluster s k f).dies = s.dies := rfl
@[simp] theorem modCluster_mem (s : State) (k : Nat) (f : Cluster → Cluster) : (modCluster s k f).mem = s.mem := rfl
@[simp] theorem modCluster_memsys (s : State) (k : Nat) (f : Cluster → Cluster) : (modCluster s k f).memsys = s.memsys := rfl
@[simp] theorem modCluster_net (s : State) (k : Nat) (f : Cluster → Cluster) : (modCluster s k f).net = s.net := rfl
@[simp] theorem modCluster_ctxs (s : State) (k : Nat) (f : Cluster → Cluster) : (modCluster s k f).ctxs = s.ctxs := rfl
@[simp] theorem modCluster_queues (s : State) (k : Nat) (f : Cluster → Cluster) : (modCluster s k f).queues = s.queues := rfl
@[simp] theorem modCluster_saving (s : State) (k : Nat) (f : Cluster → Cluster) : (modCluster s k f).saving = s.saving := rfl
@[simp] theorem modCluster_saved (s : State) (k : Nat) (f : Cluster → Cluster) : (modCluster s k f).saved = s.saved := rfl
@[simp] theorem modCluster_port (s : State) (k : Nat) (f : Cluster → Cluster) : (modCluster s k f).port = s.port := rfl
@[simp] theorem modCluster_fabric (s : State) (k : Nat) (f : Cluster → Cluster) : (modCluster s k f).fabric = s.fabric := rfl
@[simp] theorem modCluster_sec (s : State) (k : Nat) (f : Cluster → Cluster) : (modCluster s k f).sec = s.sec := rfl
@[simp] theorem modCluster_power (s : State) (k : Nat) (f : Cluster → Cluster) : (modCluster s k f).power = s.power := rfl

@[simp] theorem modGrid_clock (s : State) (k : Nat) (f : Grid → Grid) : (modGrid s k f).clock = s.clock := rfl
@[simp] theorem modGrid_watched (s : State) (k : Nat) (f : Grid → Grid) : (modGrid s k f).watched = s.watched := rfl
@[simp] theorem modGrid_fresh (s : State) (k : Nat) (f : Grid → Grid) : (modGrid s k f).fresh = s.fresh := rfl
@[simp] theorem modGrid_free (s : State) (k : Nat) (f : Grid → Grid) : (modGrid s k f).free = s.free := rfl
@[simp] theorem modGrid_agenda (s : State) (k : Nat) (f : Grid → Grid) : (modGrid s k f).agenda = s.agenda := rfl
@[simp] theorem modGrid_focus (s : State) (k : Nat) (f : Grid → Grid) : (modGrid s k f).focus = s.focus := rfl
@[simp] theorem modGrid_warps (s : State) (k : Nat) (f : Grid → Grid) : (modGrid s k f).warps = s.warps := rfl
@[simp] theorem modGrid_blocks (s : State) (k : Nat) (f : Grid → Grid) : (modGrid s k f).blocks = s.blocks := rfl
@[simp] theorem modGrid_clusters (s : State) (k : Nat) (f : Grid → Grid) : (modGrid s k f).clusters = s.clusters := rfl
@[simp] theorem modGrid_grids (s : State) (k : Nat) (f : Grid → Grid) : (modGrid s k f).grids = tmod s.grids k f := rfl
@[simp] theorem modGrid_cores (s : State) (k : Nat) (f : Grid → Grid) : (modGrid s k f).cores = s.cores := rfl
@[simp] theorem modGrid_bays (s : State) (k : Nat) (f : Grid → Grid) : (modGrid s k f).bays = s.bays := rfl
@[simp] theorem modGrid_slices (s : State) (k : Nat) (f : Grid → Grid) : (modGrid s k f).slices = s.slices := rfl
@[simp] theorem modGrid_dies (s : State) (k : Nat) (f : Grid → Grid) : (modGrid s k f).dies = s.dies := rfl
@[simp] theorem modGrid_mem (s : State) (k : Nat) (f : Grid → Grid) : (modGrid s k f).mem = s.mem := rfl
@[simp] theorem modGrid_memsys (s : State) (k : Nat) (f : Grid → Grid) : (modGrid s k f).memsys = s.memsys := rfl
@[simp] theorem modGrid_net (s : State) (k : Nat) (f : Grid → Grid) : (modGrid s k f).net = s.net := rfl
@[simp] theorem modGrid_ctxs (s : State) (k : Nat) (f : Grid → Grid) : (modGrid s k f).ctxs = s.ctxs := rfl
@[simp] theorem modGrid_queues (s : State) (k : Nat) (f : Grid → Grid) : (modGrid s k f).queues = s.queues := rfl
@[simp] theorem modGrid_saving (s : State) (k : Nat) (f : Grid → Grid) : (modGrid s k f).saving = s.saving := rfl
@[simp] theorem modGrid_saved (s : State) (k : Nat) (f : Grid → Grid) : (modGrid s k f).saved = s.saved := rfl
@[simp] theorem modGrid_port (s : State) (k : Nat) (f : Grid → Grid) : (modGrid s k f).port = s.port := rfl
@[simp] theorem modGrid_fabric (s : State) (k : Nat) (f : Grid → Grid) : (modGrid s k f).fabric = s.fabric := rfl
@[simp] theorem modGrid_sec (s : State) (k : Nat) (f : Grid → Grid) : (modGrid s k f).sec = s.sec := rfl
@[simp] theorem modGrid_power (s : State) (k : Nat) (f : Grid → Grid) : (modGrid s k f).power = s.power := rfl

@[simp] theorem modCore_clock (s : State) (k : Nat) (f : Core → Core) : (modCore s k f).clock = s.clock := rfl
@[simp] theorem modCore_watched (s : State) (k : Nat) (f : Core → Core) : (modCore s k f).watched = s.watched := rfl
@[simp] theorem modCore_fresh (s : State) (k : Nat) (f : Core → Core) : (modCore s k f).fresh = s.fresh := rfl
@[simp] theorem modCore_free (s : State) (k : Nat) (f : Core → Core) : (modCore s k f).free = s.free := rfl
@[simp] theorem modCore_agenda (s : State) (k : Nat) (f : Core → Core) : (modCore s k f).agenda = s.agenda := rfl
@[simp] theorem modCore_focus (s : State) (k : Nat) (f : Core → Core) : (modCore s k f).focus = s.focus := rfl
@[simp] theorem modCore_warps (s : State) (k : Nat) (f : Core → Core) : (modCore s k f).warps = s.warps := rfl
@[simp] theorem modCore_blocks (s : State) (k : Nat) (f : Core → Core) : (modCore s k f).blocks = s.blocks := rfl
@[simp] theorem modCore_clusters (s : State) (k : Nat) (f : Core → Core) : (modCore s k f).clusters = s.clusters := rfl
@[simp] theorem modCore_grids (s : State) (k : Nat) (f : Core → Core) : (modCore s k f).grids = s.grids := rfl
@[simp] theorem modCore_cores (s : State) (k : Nat) (f : Core → Core) : (modCore s k f).cores = lmod s.cores k f := rfl
@[simp] theorem modCore_bays (s : State) (k : Nat) (f : Core → Core) : (modCore s k f).bays = s.bays := rfl
@[simp] theorem modCore_slices (s : State) (k : Nat) (f : Core → Core) : (modCore s k f).slices = s.slices := rfl
@[simp] theorem modCore_dies (s : State) (k : Nat) (f : Core → Core) : (modCore s k f).dies = s.dies := rfl
@[simp] theorem modCore_mem (s : State) (k : Nat) (f : Core → Core) : (modCore s k f).mem = s.mem := rfl
@[simp] theorem modCore_memsys (s : State) (k : Nat) (f : Core → Core) : (modCore s k f).memsys = s.memsys := rfl
@[simp] theorem modCore_net (s : State) (k : Nat) (f : Core → Core) : (modCore s k f).net = s.net := rfl
@[simp] theorem modCore_ctxs (s : State) (k : Nat) (f : Core → Core) : (modCore s k f).ctxs = s.ctxs := rfl
@[simp] theorem modCore_queues (s : State) (k : Nat) (f : Core → Core) : (modCore s k f).queues = s.queues := rfl
@[simp] theorem modCore_saving (s : State) (k : Nat) (f : Core → Core) : (modCore s k f).saving = s.saving := rfl
@[simp] theorem modCore_saved (s : State) (k : Nat) (f : Core → Core) : (modCore s k f).saved = s.saved := rfl
@[simp] theorem modCore_port (s : State) (k : Nat) (f : Core → Core) : (modCore s k f).port = s.port := rfl
@[simp] theorem modCore_fabric (s : State) (k : Nat) (f : Core → Core) : (modCore s k f).fabric = s.fabric := rfl
@[simp] theorem modCore_sec (s : State) (k : Nat) (f : Core → Core) : (modCore s k f).sec = s.sec := rfl
@[simp] theorem modCore_power (s : State) (k : Nat) (f : Core → Core) : (modCore s k f).power = s.power := rfl

@[simp] theorem modBay_clock (s : State) (k : Nat) (f : Bay → Bay) : (modBay s k f).clock = s.clock := rfl
@[simp] theorem modBay_watched (s : State) (k : Nat) (f : Bay → Bay) : (modBay s k f).watched = s.watched := rfl
@[simp] theorem modBay_fresh (s : State) (k : Nat) (f : Bay → Bay) : (modBay s k f).fresh = s.fresh := rfl
@[simp] theorem modBay_free (s : State) (k : Nat) (f : Bay → Bay) : (modBay s k f).free = s.free := rfl
@[simp] theorem modBay_agenda (s : State) (k : Nat) (f : Bay → Bay) : (modBay s k f).agenda = s.agenda := rfl
@[simp] theorem modBay_focus (s : State) (k : Nat) (f : Bay → Bay) : (modBay s k f).focus = s.focus := rfl
@[simp] theorem modBay_warps (s : State) (k : Nat) (f : Bay → Bay) : (modBay s k f).warps = s.warps := rfl
@[simp] theorem modBay_blocks (s : State) (k : Nat) (f : Bay → Bay) : (modBay s k f).blocks = s.blocks := rfl
@[simp] theorem modBay_clusters (s : State) (k : Nat) (f : Bay → Bay) : (modBay s k f).clusters = s.clusters := rfl
@[simp] theorem modBay_grids (s : State) (k : Nat) (f : Bay → Bay) : (modBay s k f).grids = s.grids := rfl
@[simp] theorem modBay_cores (s : State) (k : Nat) (f : Bay → Bay) : (modBay s k f).cores = s.cores := rfl
@[simp] theorem modBay_bays (s : State) (k : Nat) (f : Bay → Bay) : (modBay s k f).bays = lmod s.bays k f := rfl
@[simp] theorem modBay_slices (s : State) (k : Nat) (f : Bay → Bay) : (modBay s k f).slices = s.slices := rfl
@[simp] theorem modBay_dies (s : State) (k : Nat) (f : Bay → Bay) : (modBay s k f).dies = s.dies := rfl
@[simp] theorem modBay_mem (s : State) (k : Nat) (f : Bay → Bay) : (modBay s k f).mem = s.mem := rfl
@[simp] theorem modBay_memsys (s : State) (k : Nat) (f : Bay → Bay) : (modBay s k f).memsys = s.memsys := rfl
@[simp] theorem modBay_net (s : State) (k : Nat) (f : Bay → Bay) : (modBay s k f).net = s.net := rfl
@[simp] theorem modBay_ctxs (s : State) (k : Nat) (f : Bay → Bay) : (modBay s k f).ctxs = s.ctxs := rfl
@[simp] theorem modBay_queues (s : State) (k : Nat) (f : Bay → Bay) : (modBay s k f).queues = s.queues := rfl
@[simp] theorem modBay_saving (s : State) (k : Nat) (f : Bay → Bay) : (modBay s k f).saving = s.saving := rfl
@[simp] theorem modBay_saved (s : State) (k : Nat) (f : Bay → Bay) : (modBay s k f).saved = s.saved := rfl
@[simp] theorem modBay_port (s : State) (k : Nat) (f : Bay → Bay) : (modBay s k f).port = s.port := rfl
@[simp] theorem modBay_fabric (s : State) (k : Nat) (f : Bay → Bay) : (modBay s k f).fabric = s.fabric := rfl
@[simp] theorem modBay_sec (s : State) (k : Nat) (f : Bay → Bay) : (modBay s k f).sec = s.sec := rfl
@[simp] theorem modBay_power (s : State) (k : Nat) (f : Bay → Bay) : (modBay s k f).power = s.power := rfl

@[simp] theorem modSlice_clock (s : State) (k : Nat) (f : Slice → Slice) : (modSlice s k f).clock = s.clock := rfl
@[simp] theorem modSlice_watched (s : State) (k : Nat) (f : Slice → Slice) : (modSlice s k f).watched = s.watched := rfl
@[simp] theorem modSlice_fresh (s : State) (k : Nat) (f : Slice → Slice) : (modSlice s k f).fresh = s.fresh := rfl
@[simp] theorem modSlice_free (s : State) (k : Nat) (f : Slice → Slice) : (modSlice s k f).free = s.free := rfl
@[simp] theorem modSlice_agenda (s : State) (k : Nat) (f : Slice → Slice) : (modSlice s k f).agenda = s.agenda := rfl
@[simp] theorem modSlice_focus (s : State) (k : Nat) (f : Slice → Slice) : (modSlice s k f).focus = s.focus := rfl
@[simp] theorem modSlice_warps (s : State) (k : Nat) (f : Slice → Slice) : (modSlice s k f).warps = s.warps := rfl
@[simp] theorem modSlice_blocks (s : State) (k : Nat) (f : Slice → Slice) : (modSlice s k f).blocks = s.blocks := rfl
@[simp] theorem modSlice_clusters (s : State) (k : Nat) (f : Slice → Slice) : (modSlice s k f).clusters = s.clusters := rfl
@[simp] theorem modSlice_grids (s : State) (k : Nat) (f : Slice → Slice) : (modSlice s k f).grids = s.grids := rfl
@[simp] theorem modSlice_cores (s : State) (k : Nat) (f : Slice → Slice) : (modSlice s k f).cores = s.cores := rfl
@[simp] theorem modSlice_bays (s : State) (k : Nat) (f : Slice → Slice) : (modSlice s k f).bays = s.bays := rfl
@[simp] theorem modSlice_slices (s : State) (k : Nat) (f : Slice → Slice) : (modSlice s k f).slices = lmod s.slices k f := rfl
@[simp] theorem modSlice_dies (s : State) (k : Nat) (f : Slice → Slice) : (modSlice s k f).dies = s.dies := rfl
@[simp] theorem modSlice_mem (s : State) (k : Nat) (f : Slice → Slice) : (modSlice s k f).mem = s.mem := rfl
@[simp] theorem modSlice_memsys (s : State) (k : Nat) (f : Slice → Slice) : (modSlice s k f).memsys = s.memsys := rfl
@[simp] theorem modSlice_net (s : State) (k : Nat) (f : Slice → Slice) : (modSlice s k f).net = s.net := rfl
@[simp] theorem modSlice_ctxs (s : State) (k : Nat) (f : Slice → Slice) : (modSlice s k f).ctxs = s.ctxs := rfl
@[simp] theorem modSlice_queues (s : State) (k : Nat) (f : Slice → Slice) : (modSlice s k f).queues = s.queues := rfl
@[simp] theorem modSlice_saving (s : State) (k : Nat) (f : Slice → Slice) : (modSlice s k f).saving = s.saving := rfl
@[simp] theorem modSlice_saved (s : State) (k : Nat) (f : Slice → Slice) : (modSlice s k f).saved = s.saved := rfl
@[simp] theorem modSlice_port (s : State) (k : Nat) (f : Slice → Slice) : (modSlice s k f).port = s.port := rfl
@[simp] theorem modSlice_fabric (s : State) (k : Nat) (f : Slice → Slice) : (modSlice s k f).fabric = s.fabric := rfl
@[simp] theorem modSlice_sec (s : State) (k : Nat) (f : Slice → Slice) : (modSlice s k f).sec = s.sec := rfl
@[simp] theorem modSlice_power (s : State) (k : Nat) (f : Slice → Slice) : (modSlice s k f).power = s.power := rfl

@[simp] theorem modDie_clock (s : State) (k : Nat) (f : Die → Die) : (modDie s k f).clock = s.clock := rfl
@[simp] theorem modDie_watched (s : State) (k : Nat) (f : Die → Die) : (modDie s k f).watched = s.watched := rfl
@[simp] theorem modDie_fresh (s : State) (k : Nat) (f : Die → Die) : (modDie s k f).fresh = s.fresh := rfl
@[simp] theorem modDie_free (s : State) (k : Nat) (f : Die → Die) : (modDie s k f).free = s.free := rfl
@[simp] theorem modDie_agenda (s : State) (k : Nat) (f : Die → Die) : (modDie s k f).agenda = s.agenda := rfl
@[simp] theorem modDie_focus (s : State) (k : Nat) (f : Die → Die) : (modDie s k f).focus = s.focus := rfl
@[simp] theorem modDie_warps (s : State) (k : Nat) (f : Die → Die) : (modDie s k f).warps = s.warps := rfl
@[simp] theorem modDie_blocks (s : State) (k : Nat) (f : Die → Die) : (modDie s k f).blocks = s.blocks := rfl
@[simp] theorem modDie_clusters (s : State) (k : Nat) (f : Die → Die) : (modDie s k f).clusters = s.clusters := rfl
@[simp] theorem modDie_grids (s : State) (k : Nat) (f : Die → Die) : (modDie s k f).grids = s.grids := rfl
@[simp] theorem modDie_cores (s : State) (k : Nat) (f : Die → Die) : (modDie s k f).cores = s.cores := rfl
@[simp] theorem modDie_bays (s : State) (k : Nat) (f : Die → Die) : (modDie s k f).bays = s.bays := rfl
@[simp] theorem modDie_slices (s : State) (k : Nat) (f : Die → Die) : (modDie s k f).slices = s.slices := rfl
@[simp] theorem modDie_dies (s : State) (k : Nat) (f : Die → Die) : (modDie s k f).dies = lmod s.dies k f := rfl
@[simp] theorem modDie_mem (s : State) (k : Nat) (f : Die → Die) : (modDie s k f).mem = s.mem := rfl
@[simp] theorem modDie_memsys (s : State) (k : Nat) (f : Die → Die) : (modDie s k f).memsys = s.memsys := rfl
@[simp] theorem modDie_net (s : State) (k : Nat) (f : Die → Die) : (modDie s k f).net = s.net := rfl
@[simp] theorem modDie_ctxs (s : State) (k : Nat) (f : Die → Die) : (modDie s k f).ctxs = s.ctxs := rfl
@[simp] theorem modDie_queues (s : State) (k : Nat) (f : Die → Die) : (modDie s k f).queues = s.queues := rfl
@[simp] theorem modDie_saving (s : State) (k : Nat) (f : Die → Die) : (modDie s k f).saving = s.saving := rfl
@[simp] theorem modDie_saved (s : State) (k : Nat) (f : Die → Die) : (modDie s k f).saved = s.saved := rfl
@[simp] theorem modDie_port (s : State) (k : Nat) (f : Die → Die) : (modDie s k f).port = s.port := rfl
@[simp] theorem modDie_fabric (s : State) (k : Nat) (f : Die → Die) : (modDie s k f).fabric = s.fabric := rfl
@[simp] theorem modDie_sec (s : State) (k : Nat) (f : Die → Die) : (modDie s k f).sec = s.sec := rfl
@[simp] theorem modDie_power (s : State) (k : Nat) (f : Die → Die) : (modDie s k f).power = s.power := rfl

@[simp] theorem modCtx_clock (s : State) (k : Nat) (f : Ctx → Ctx) : (modCtx s k f).clock = s.clock := rfl
@[simp] theorem modCtx_watched (s : State) (k : Nat) (f : Ctx → Ctx) : (modCtx s k f).watched = s.watched := rfl
@[simp] theorem modCtx_fresh (s : State) (k : Nat) (f : Ctx → Ctx) : (modCtx s k f).fresh = s.fresh := rfl
@[simp] theorem modCtx_free (s : State) (k : Nat) (f : Ctx → Ctx) : (modCtx s k f).free = s.free := rfl
@[simp] theorem modCtx_agenda (s : State) (k : Nat) (f : Ctx → Ctx) : (modCtx s k f).agenda = s.agenda := rfl
@[simp] theorem modCtx_focus (s : State) (k : Nat) (f : Ctx → Ctx) : (modCtx s k f).focus = s.focus := rfl
@[simp] theorem modCtx_warps (s : State) (k : Nat) (f : Ctx → Ctx) : (modCtx s k f).warps = s.warps := rfl
@[simp] theorem modCtx_blocks (s : State) (k : Nat) (f : Ctx → Ctx) : (modCtx s k f).blocks = s.blocks := rfl
@[simp] theorem modCtx_clusters (s : State) (k : Nat) (f : Ctx → Ctx) : (modCtx s k f).clusters = s.clusters := rfl
@[simp] theorem modCtx_grids (s : State) (k : Nat) (f : Ctx → Ctx) : (modCtx s k f).grids = s.grids := rfl
@[simp] theorem modCtx_cores (s : State) (k : Nat) (f : Ctx → Ctx) : (modCtx s k f).cores = s.cores := rfl
@[simp] theorem modCtx_bays (s : State) (k : Nat) (f : Ctx → Ctx) : (modCtx s k f).bays = s.bays := rfl
@[simp] theorem modCtx_slices (s : State) (k : Nat) (f : Ctx → Ctx) : (modCtx s k f).slices = s.slices := rfl
@[simp] theorem modCtx_dies (s : State) (k : Nat) (f : Ctx → Ctx) : (modCtx s k f).dies = s.dies := rfl
@[simp] theorem modCtx_mem (s : State) (k : Nat) (f : Ctx → Ctx) : (modCtx s k f).mem = s.mem := rfl
@[simp] theorem modCtx_memsys (s : State) (k : Nat) (f : Ctx → Ctx) : (modCtx s k f).memsys = s.memsys := rfl
@[simp] theorem modCtx_net (s : State) (k : Nat) (f : Ctx → Ctx) : (modCtx s k f).net = s.net := rfl
@[simp] theorem modCtx_ctxs (s : State) (k : Nat) (f : Ctx → Ctx) : (modCtx s k f).ctxs = lmod s.ctxs k f := rfl
@[simp] theorem modCtx_queues (s : State) (k : Nat) (f : Ctx → Ctx) : (modCtx s k f).queues = s.queues := rfl
@[simp] theorem modCtx_saving (s : State) (k : Nat) (f : Ctx → Ctx) : (modCtx s k f).saving = s.saving := rfl
@[simp] theorem modCtx_saved (s : State) (k : Nat) (f : Ctx → Ctx) : (modCtx s k f).saved = s.saved := rfl
@[simp] theorem modCtx_port (s : State) (k : Nat) (f : Ctx → Ctx) : (modCtx s k f).port = s.port := rfl
@[simp] theorem modCtx_fabric (s : State) (k : Nat) (f : Ctx → Ctx) : (modCtx s k f).fabric = s.fabric := rfl
@[simp] theorem modCtx_sec (s : State) (k : Nat) (f : Ctx → Ctx) : (modCtx s k f).sec = s.sec := rfl
@[simp] theorem modCtx_power (s : State) (k : Nat) (f : Ctx → Ctx) : (modCtx s k f).power = s.power := rfl

@[simp] theorem modQueue_clock (s : State) (k : Nat) (f : Queue → Queue) : (modQueue s k f).clock = s.clock := rfl
@[simp] theorem modQueue_watched (s : State) (k : Nat) (f : Queue → Queue) : (modQueue s k f).watched = s.watched := rfl
@[simp] theorem modQueue_fresh (s : State) (k : Nat) (f : Queue → Queue) : (modQueue s k f).fresh = s.fresh := rfl
@[simp] theorem modQueue_free (s : State) (k : Nat) (f : Queue → Queue) : (modQueue s k f).free = s.free := rfl
@[simp] theorem modQueue_agenda (s : State) (k : Nat) (f : Queue → Queue) : (modQueue s k f).agenda = s.agenda := rfl
@[simp] theorem modQueue_focus (s : State) (k : Nat) (f : Queue → Queue) : (modQueue s k f).focus = s.focus := rfl
@[simp] theorem modQueue_warps (s : State) (k : Nat) (f : Queue → Queue) : (modQueue s k f).warps = s.warps := rfl
@[simp] theorem modQueue_blocks (s : State) (k : Nat) (f : Queue → Queue) : (modQueue s k f).blocks = s.blocks := rfl
@[simp] theorem modQueue_clusters (s : State) (k : Nat) (f : Queue → Queue) : (modQueue s k f).clusters = s.clusters := rfl
@[simp] theorem modQueue_grids (s : State) (k : Nat) (f : Queue → Queue) : (modQueue s k f).grids = s.grids := rfl
@[simp] theorem modQueue_cores (s : State) (k : Nat) (f : Queue → Queue) : (modQueue s k f).cores = s.cores := rfl
@[simp] theorem modQueue_bays (s : State) (k : Nat) (f : Queue → Queue) : (modQueue s k f).bays = s.bays := rfl
@[simp] theorem modQueue_slices (s : State) (k : Nat) (f : Queue → Queue) : (modQueue s k f).slices = s.slices := rfl
@[simp] theorem modQueue_dies (s : State) (k : Nat) (f : Queue → Queue) : (modQueue s k f).dies = s.dies := rfl
@[simp] theorem modQueue_mem (s : State) (k : Nat) (f : Queue → Queue) : (modQueue s k f).mem = s.mem := rfl
@[simp] theorem modQueue_memsys (s : State) (k : Nat) (f : Queue → Queue) : (modQueue s k f).memsys = s.memsys := rfl
@[simp] theorem modQueue_net (s : State) (k : Nat) (f : Queue → Queue) : (modQueue s k f).net = s.net := rfl
@[simp] theorem modQueue_ctxs (s : State) (k : Nat) (f : Queue → Queue) : (modQueue s k f).ctxs = s.ctxs := rfl
@[simp] theorem modQueue_queues (s : State) (k : Nat) (f : Queue → Queue) : (modQueue s k f).queues = lmod s.queues k f := rfl
@[simp] theorem modQueue_saving (s : State) (k : Nat) (f : Queue → Queue) : (modQueue s k f).saving = s.saving := rfl
@[simp] theorem modQueue_saved (s : State) (k : Nat) (f : Queue → Queue) : (modQueue s k f).saved = s.saved := rfl
@[simp] theorem modQueue_port (s : State) (k : Nat) (f : Queue → Queue) : (modQueue s k f).port = s.port := rfl
@[simp] theorem modQueue_fabric (s : State) (k : Nat) (f : Queue → Queue) : (modQueue s k f).fabric = s.fabric := rfl
@[simp] theorem modQueue_sec (s : State) (k : Nat) (f : Queue → Queue) : (modQueue s k f).sec = s.sec := rfl
@[simp] theorem modQueue_power (s : State) (k : Nat) (f : Queue → Queue) : (modQueue s k f).power = s.power := rfl

@[simp] theorem modNet_clock (s : State) (f : Net → Net) : (modNet s f).clock = s.clock := rfl
@[simp] theorem modNet_watched (s : State) (f : Net → Net) : (modNet s f).watched = s.watched := rfl
@[simp] theorem modNet_fresh (s : State) (f : Net → Net) : (modNet s f).fresh = s.fresh := rfl
@[simp] theorem modNet_free (s : State) (f : Net → Net) : (modNet s f).free = s.free := rfl
@[simp] theorem modNet_agenda (s : State) (f : Net → Net) : (modNet s f).agenda = s.agenda := rfl
@[simp] theorem modNet_focus (s : State) (f : Net → Net) : (modNet s f).focus = s.focus := rfl
@[simp] theorem modNet_warps (s : State) (f : Net → Net) : (modNet s f).warps = s.warps := rfl
@[simp] theorem modNet_blocks (s : State) (f : Net → Net) : (modNet s f).blocks = s.blocks := rfl
@[simp] theorem modNet_clusters (s : State) (f : Net → Net) : (modNet s f).clusters = s.clusters := rfl
@[simp] theorem modNet_grids (s : State) (f : Net → Net) : (modNet s f).grids = s.grids := rfl
@[simp] theorem modNet_cores (s : State) (f : Net → Net) : (modNet s f).cores = s.cores := rfl
@[simp] theorem modNet_bays (s : State) (f : Net → Net) : (modNet s f).bays = s.bays := rfl
@[simp] theorem modNet_slices (s : State) (f : Net → Net) : (modNet s f).slices = s.slices := rfl
@[simp] theorem modNet_dies (s : State) (f : Net → Net) : (modNet s f).dies = s.dies := rfl
@[simp] theorem modNet_mem (s : State) (f : Net → Net) : (modNet s f).mem = s.mem := rfl
@[simp] theorem modNet_memsys (s : State) (f : Net → Net) : (modNet s f).memsys = s.memsys := rfl
@[simp] theorem modNet_net (s : State) (f : Net → Net) : (modNet s f).net = f s.net := rfl
@[simp] theorem modNet_ctxs (s : State) (f : Net → Net) : (modNet s f).ctxs = s.ctxs := rfl
@[simp] theorem modNet_queues (s : State) (f : Net → Net) : (modNet s f).queues = s.queues := rfl
@[simp] theorem modNet_saving (s : State) (f : Net → Net) : (modNet s f).saving = s.saving := rfl
@[simp] theorem modNet_saved (s : State) (f : Net → Net) : (modNet s f).saved = s.saved := rfl
@[simp] theorem modNet_port (s : State) (f : Net → Net) : (modNet s f).port = s.port := rfl
@[simp] theorem modNet_fabric (s : State) (f : Net → Net) : (modNet s f).fabric = s.fabric := rfl
@[simp] theorem modNet_sec (s : State) (f : Net → Net) : (modNet s f).sec = s.sec := rfl
@[simp] theorem modNet_power (s : State) (f : Net → Net) : (modNet s f).power = s.power := rfl

@[simp] theorem modFab_clock (s : State) (f : Fabric → Fabric) : (modFab s f).clock = s.clock := rfl
@[simp] theorem modFab_watched (s : State) (f : Fabric → Fabric) : (modFab s f).watched = s.watched := rfl
@[simp] theorem modFab_fresh (s : State) (f : Fabric → Fabric) : (modFab s f).fresh = s.fresh := rfl
@[simp] theorem modFab_free (s : State) (f : Fabric → Fabric) : (modFab s f).free = s.free := rfl
@[simp] theorem modFab_agenda (s : State) (f : Fabric → Fabric) : (modFab s f).agenda = s.agenda := rfl
@[simp] theorem modFab_focus (s : State) (f : Fabric → Fabric) : (modFab s f).focus = s.focus := rfl
@[simp] theorem modFab_warps (s : State) (f : Fabric → Fabric) : (modFab s f).warps = s.warps := rfl
@[simp] theorem modFab_blocks (s : State) (f : Fabric → Fabric) : (modFab s f).blocks = s.blocks := rfl
@[simp] theorem modFab_clusters (s : State) (f : Fabric → Fabric) : (modFab s f).clusters = s.clusters := rfl
@[simp] theorem modFab_grids (s : State) (f : Fabric → Fabric) : (modFab s f).grids = s.grids := rfl
@[simp] theorem modFab_cores (s : State) (f : Fabric → Fabric) : (modFab s f).cores = s.cores := rfl
@[simp] theorem modFab_bays (s : State) (f : Fabric → Fabric) : (modFab s f).bays = s.bays := rfl
@[simp] theorem modFab_slices (s : State) (f : Fabric → Fabric) : (modFab s f).slices = s.slices := rfl
@[simp] theorem modFab_dies (s : State) (f : Fabric → Fabric) : (modFab s f).dies = s.dies := rfl
@[simp] theorem modFab_mem (s : State) (f : Fabric → Fabric) : (modFab s f).mem = s.mem := rfl
@[simp] theorem modFab_memsys (s : State) (f : Fabric → Fabric) : (modFab s f).memsys = s.memsys := rfl
@[simp] theorem modFab_net (s : State) (f : Fabric → Fabric) : (modFab s f).net = s.net := rfl
@[simp] theorem modFab_ctxs (s : State) (f : Fabric → Fabric) : (modFab s f).ctxs = s.ctxs := rfl
@[simp] theorem modFab_queues (s : State) (f : Fabric → Fabric) : (modFab s f).queues = s.queues := rfl
@[simp] theorem modFab_saving (s : State) (f : Fabric → Fabric) : (modFab s f).saving = s.saving := rfl
@[simp] theorem modFab_saved (s : State) (f : Fabric → Fabric) : (modFab s f).saved = s.saved := rfl
@[simp] theorem modFab_port (s : State) (f : Fabric → Fabric) : (modFab s f).port = s.port := rfl
@[simp] theorem modFab_fabric (s : State) (f : Fabric → Fabric) : (modFab s f).fabric = f s.fabric := rfl
@[simp] theorem modFab_sec (s : State) (f : Fabric → Fabric) : (modFab s f).sec = s.sec := rfl
@[simp] theorem modFab_power (s : State) (f : Fabric → Fabric) : (modFab s f).power = s.power := rfl

@[simp] theorem modSec_clock (s : State) (f : Sec → Sec) : (modSec s f).clock = s.clock := rfl
@[simp] theorem modSec_watched (s : State) (f : Sec → Sec) : (modSec s f).watched = s.watched := rfl
@[simp] theorem modSec_fresh (s : State) (f : Sec → Sec) : (modSec s f).fresh = s.fresh := rfl
@[simp] theorem modSec_free (s : State) (f : Sec → Sec) : (modSec s f).free = s.free := rfl
@[simp] theorem modSec_agenda (s : State) (f : Sec → Sec) : (modSec s f).agenda = s.agenda := rfl
@[simp] theorem modSec_focus (s : State) (f : Sec → Sec) : (modSec s f).focus = s.focus := rfl
@[simp] theorem modSec_warps (s : State) (f : Sec → Sec) : (modSec s f).warps = s.warps := rfl
@[simp] theorem modSec_blocks (s : State) (f : Sec → Sec) : (modSec s f).blocks = s.blocks := rfl
@[simp] theorem modSec_clusters (s : State) (f : Sec → Sec) : (modSec s f).clusters = s.clusters := rfl
@[simp] theorem modSec_grids (s : State) (f : Sec → Sec) : (modSec s f).grids = s.grids := rfl
@[simp] theorem modSec_cores (s : State) (f : Sec → Sec) : (modSec s f).cores = s.cores := rfl
@[simp] theorem modSec_bays (s : State) (f : Sec → Sec) : (modSec s f).bays = s.bays := rfl
@[simp] theorem modSec_slices (s : State) (f : Sec → Sec) : (modSec s f).slices = s.slices := rfl
@[simp] theorem modSec_dies (s : State) (f : Sec → Sec) : (modSec s f).dies = s.dies := rfl
@[simp] theorem modSec_mem (s : State) (f : Sec → Sec) : (modSec s f).mem = s.mem := rfl
@[simp] theorem modSec_memsys (s : State) (f : Sec → Sec) : (modSec s f).memsys = s.memsys := rfl
@[simp] theorem modSec_net (s : State) (f : Sec → Sec) : (modSec s f).net = s.net := rfl
@[simp] theorem modSec_ctxs (s : State) (f : Sec → Sec) : (modSec s f).ctxs = s.ctxs := rfl
@[simp] theorem modSec_queues (s : State) (f : Sec → Sec) : (modSec s f).queues = s.queues := rfl
@[simp] theorem modSec_saving (s : State) (f : Sec → Sec) : (modSec s f).saving = s.saving := rfl
@[simp] theorem modSec_saved (s : State) (f : Sec → Sec) : (modSec s f).saved = s.saved := rfl
@[simp] theorem modSec_port (s : State) (f : Sec → Sec) : (modSec s f).port = s.port := rfl
@[simp] theorem modSec_fabric (s : State) (f : Sec → Sec) : (modSec s f).fabric = s.fabric := rfl
@[simp] theorem modSec_sec (s : State) (f : Sec → Sec) : (modSec s f).sec = f s.sec := rfl
@[simp] theorem modSec_power (s : State) (f : Sec → Sec) : (modSec s f).power = s.power := rfl

@[simp] theorem nextId_clock (s : State) : (nextId s).2.clock = s.clock := rfl
@[simp] theorem nextId_watched (s : State) : (nextId s).2.watched = s.watched := rfl
@[simp] theorem nextId_fresh (s : State) : (nextId s).2.fresh = s.fresh + 1 := rfl
@[simp] theorem nextId_free (s : State) : (nextId s).2.free = s.free := rfl
@[simp] theorem nextId_agenda (s : State) : (nextId s).2.agenda = s.agenda := rfl
@[simp] theorem nextId_focus (s : State) : (nextId s).2.focus = s.focus := rfl
@[simp] theorem nextId_warps (s : State) : (nextId s).2.warps = s.warps := rfl
@[simp] theorem nextId_blocks (s : State) : (nextId s).2.blocks = s.blocks := rfl
@[simp] theorem nextId_clusters (s : State) : (nextId s).2.clusters = s.clusters := rfl
@[simp] theorem nextId_grids (s : State) : (nextId s).2.grids = s.grids := rfl
@[simp] theorem nextId_cores (s : State) : (nextId s).2.cores = s.cores := rfl
@[simp] theorem nextId_bays (s : State) : (nextId s).2.bays = s.bays := rfl
@[simp] theorem nextId_slices (s : State) : (nextId s).2.slices = s.slices := rfl
@[simp] theorem nextId_dies (s : State) : (nextId s).2.dies = s.dies := rfl
@[simp] theorem nextId_mem (s : State) : (nextId s).2.mem = s.mem := rfl
@[simp] theorem nextId_memsys (s : State) : (nextId s).2.memsys = s.memsys := rfl
@[simp] theorem nextId_net (s : State) : (nextId s).2.net = s.net := rfl
@[simp] theorem nextId_ctxs (s : State) : (nextId s).2.ctxs = s.ctxs := rfl
@[simp] theorem nextId_queues (s : State) : (nextId s).2.queues = s.queues := rfl
@[simp] theorem nextId_saving (s : State) : (nextId s).2.saving = s.saving := rfl
@[simp] theorem nextId_saved (s : State) : (nextId s).2.saved = s.saved := rfl
@[simp] theorem nextId_port (s : State) : (nextId s).2.port = s.port := rfl
@[simp] theorem nextId_fabric (s : State) : (nextId s).2.fabric = s.fabric := rfl
@[simp] theorem nextId_sec (s : State) : (nextId s).2.sec = s.sec := rfl
@[simp] theorem nextId_power (s : State) : (nextId s).2.power = s.power := rfl
@[simp] theorem nextId_id (s : State) : (nextId s).1 = s.fresh := rfl

@[simp] theorem advanceClock_clock (n : Nat) (s : State) : (advanceClock n s).clock = s.clock + n := rfl
@[simp] theorem advanceClock_watched (n : Nat) (s : State) : (advanceClock n s).watched = s.watched := rfl
@[simp] theorem advanceClock_fresh (n : Nat) (s : State) : (advanceClock n s).fresh = s.fresh := rfl
@[simp] theorem advanceClock_free (n : Nat) (s : State) : (advanceClock n s).free = s.free := rfl
@[simp] theorem advanceClock_agenda (n : Nat) (s : State) : (advanceClock n s).agenda = s.agenda := rfl
@[simp] theorem advanceClock_focus (n : Nat) (s : State) : (advanceClock n s).focus = s.focus := rfl
@[simp] theorem advanceClock_blocks (n : Nat) (s : State) : (advanceClock n s).blocks = s.blocks := rfl
@[simp] theorem advanceClock_clusters (n : Nat) (s : State) : (advanceClock n s).clusters = s.clusters := rfl
@[simp] theorem advanceClock_grids (n : Nat) (s : State) : (advanceClock n s).grids = s.grids := rfl
@[simp] theorem advanceClock_cores (n : Nat) (s : State) : (advanceClock n s).cores = s.cores := rfl
@[simp] theorem advanceClock_bays (n : Nat) (s : State) : (advanceClock n s).bays = s.bays := rfl
@[simp] theorem advanceClock_slices (n : Nat) (s : State) : (advanceClock n s).slices = s.slices := rfl
@[simp] theorem advanceClock_dies (n : Nat) (s : State) : (advanceClock n s).dies = s.dies := rfl
@[simp] theorem advanceClock_mem (n : Nat) (s : State) : (advanceClock n s).mem = s.mem := rfl
@[simp] theorem advanceClock_memsys (n : Nat) (s : State) : (advanceClock n s).memsys = s.memsys := rfl
@[simp] theorem advanceClock_net (n : Nat) (s : State) : (advanceClock n s).net = s.net := rfl
@[simp] theorem advanceClock_ctxs (n : Nat) (s : State) : (advanceClock n s).ctxs = s.ctxs := rfl
@[simp] theorem advanceClock_queues (n : Nat) (s : State) : (advanceClock n s).queues = s.queues := rfl
@[simp] theorem advanceClock_saving (n : Nat) (s : State) : (advanceClock n s).saving = s.saving := rfl
@[simp] theorem advanceClock_saved (n : Nat) (s : State) : (advanceClock n s).saved = s.saved := rfl
@[simp] theorem advanceClock_port (n : Nat) (s : State) : (advanceClock n s).port = s.port := rfl
@[simp] theorem advanceClock_fabric (n : Nat) (s : State) : (advanceClock n s).fabric = s.fabric := rfl
@[simp] theorem advanceClock_sec (n : Nat) (s : State) : (advanceClock n s).sec = s.sec := rfl
@[simp] theorem advanceClock_power (n : Nat) (s : State) : (advanceClock n s).power = s.power := rfl

@[simp] theorem settleDue_clock (s : State) : (settleDue s).clock = s.clock := rfl
@[simp] theorem settleDue_watched (s : State) : (settleDue s).watched = s.watched := rfl
@[simp] theorem settleDue_agenda (s : State) : (settleDue s).agenda = s.agenda := rfl
@[simp] theorem settleDue_focus (s : State) : (settleDue s).focus = s.focus := rfl

/-- Where no watchdog period ends, clocks pass and nothing else happens. -/
theorem passTime_within {n : Nat} {s : State} (h : (s.clock + n) / 65536 ≤ s.watched) :
    passTime n s = advanceClock n (settleDue s) := by
  simp [passTime, countPeriods, Nat.sub_eq_zero_of_le h]

end Sys2Proof.Machine
end

