-- ==== Sys2Proof/Laws/Table.lean ====
section
/-! SUPPORT. The laws of sparse tables and of memory: what is read after a write, and that every operation keeps the
canonical form. -/

namespace Sys2Proof.Machine

variable {α : Type}

/-- Every key of a table lies above a bound. -/
def tabove (b : Option Nat) (t : Tbl α) : Prop := ∀ e ∈ t, ∀ l, b = some l → l < e.1

theorem tsortedFrom_cons (b : Option Nat) (k : Nat) (v : α) (t : Tbl α) :
    tsortedFrom b ((k, v) :: t) = true ↔ (∀ l, b = some l → l < k) ∧ tsortedFrom (some k) t = true := by
  cases b <;> simp [tsortedFrom]

theorem tsortedFrom_mono {k : Nat} {b : Option Nat} (h : ∀ l, b = some l → l < k) {t : Tbl α}
    (s : tsortedFrom (some k) t = true) : tsortedFrom b t = true := by
  cases t with
  | nil => rfl
  | cons e t =>
    obtain ⟨j, v⟩ := e
    rw [tsortedFrom_cons] at s ⊢
    exact ⟨fun l hl => lt_trans (h l hl) (s.1 k rfl), s.2⟩

theorem tsortedFrom_tput {b : Option Nat} {t : Tbl α} {i : Nat} {v : α} (s : tsortedFrom b t = true)
    (h : ∀ l, b = some l → l < i) : tsortedFrom b (tput t i v) = true := by
  induction t generalizing b with
  | nil => simp only [tput]; rw [tsortedFrom_cons]; exact ⟨h, rfl⟩
  | cons e t ih =>
    obtain ⟨k, x⟩ := e
    rw [tsortedFrom_cons] at s
    simp only [tput]
    split
    · subst_vars; rw [tsortedFrom_cons]; exact s
    · split
      · rw [tsortedFrom_cons, tsortedFrom_cons]
        exact ⟨h, fun l hl => by cases hl; assumption, s.2⟩
      · rw [tsortedFrom_cons]
        exact ⟨s.1, ih s.2 (fun l hl => by cases hl; omega)⟩

theorem tsortedFrom_terase {b : Option Nat} {t : Tbl α} {i : Nat} (s : tsortedFrom b t = true) :
    tsortedFrom b (terase t i) = true := by
  induction t generalizing b with
  | nil => simpa [terase] using s
  | cons e t ih =>
    obtain ⟨k, x⟩ := e
    have s' := s
    rw [tsortedFrom_cons] at s
    simp only [terase]
    split
    · exact tsortedFrom_mono s.1 s.2
    · split
      · exact s'
      · rw [tsortedFrom_cons]; exact ⟨s.1, ih s.2⟩

/-- An update keeps the order of a table. -/
theorem tsorted_tput {t : Tbl α} (s : tsorted t = true) (i : Nat) (v : α) : tsorted (tput t i v) = true :=
  tsortedFrom_tput s (fun _ h => by cases h)

/-- Removing an entry keeps the order of a table. -/
theorem tsorted_terase {t : Tbl α} (s : tsorted t = true) (i : Nat) : tsorted (terase t i) = true := tsortedFrom_terase s

/-- Changing an entry keeps the order of a table. -/
theorem tsorted_tmod {t : Tbl α} (s : tsorted t = true) (i : Nat) (f : α → α) : tsorted (tmod t i f) = true := by
  unfold tmod; split
  · exact s
  · exact tsorted_tput s _ _

/-- A read after a write to the same key. -/
@[simp] theorem tget_tput_same (t : Tbl α) (i : Nat) (v : α) : tget (tput t i v) i = some v := by
  induction t with
  | nil => simp [tput, tget]
  | cons e t ih =>
    obtain ⟨k, x⟩ := e
    simp only [tput]
    split
    · simp [tget]
    · split
      · simp [tget]
      · simp [tget, *]

/-- A write leaves every other key alone. -/
theorem tget_tput_other (t : Tbl α) {i j : Nat} (h : j ≠ i) (v : α) : tget (tput t i v) j = tget t j := by
  induction t with
  | nil => simp [tput, tget, h]
  | cons e t ih =>
    obtain ⟨k, x⟩ := e
    simp only [tput]
    split
    · subst_vars; simp [tget, h]
    · split
      · simp only [tget]; split_ifs <;> first | rfl | omega
      · simp only [tget, ih]

theorem tget_above {t : Tbl α} {k j : Nat} (s : tsortedFrom (some k) t = true) (h : j ≤ k) : tget t j = none := by
  induction t generalizing k with
  | nil => rfl
  | cons e t ih =>
    obtain ⟨n, x⟩ := e
    rw [tsortedFrom_cons] at s
    have := s.1 k rfl
    simp only [tget]
    split_ifs <;> first | rfl | omega

/-- A removed key reads as absent. -/
theorem tget_terase_same {b : Option Nat} {t : Tbl α} (s : tsortedFrom b t = true) (i : Nat) : tget (terase t i) i = none := by
  induction t generalizing b with
  | nil => rfl
  | cons e t ih =>
    obtain ⟨k, x⟩ := e
    rw [tsortedFrom_cons] at s
    simp only [terase]
    split
    · exact tget_above s.2 (by omega)
    · split
      · simp only [tget]; split_ifs; rfl
      · simp only [tget]; split_ifs; exact ih s.2

/-- Removing a key leaves every other key alone. -/
theorem tget_terase_other {b : Option Nat} {t : Tbl α} (s : tsortedFrom b t = true) {i j : Nat} (h : j ≠ i) :
    tget (terase t i) j = tget t j := by
  induction t generalizing b with
  | nil => rfl
  | cons e t ih =>
    obtain ⟨k, x⟩ := e
    rw [tsortedFrom_cons] at s
    simp only [terase]
    split
    · subst_vars
      simp only [tget, h, if_false]
      split
      · exact tget_above s.2 (by omega)
      · rfl
    · split
      · rfl
      · simp only [tget, ih s.2]

theorem mem_tput {t : Tbl α} {i : Nat} {v : α} {e : Nat × α} (h : e ∈ tput t i v) : e = (i, v) ∨ e ∈ t := by
  induction t with
  | nil => simpa [tput] using h
  | cons a t ih =>
    obtain ⟨k, x⟩ := a
    simp only [tput] at h
    split at h
    · rcases List.mem_cons.mp h with h | h
      · exact .inl h
      · exact .inr (List.mem_cons_of_mem _ h)
    · split at h
      · rcases List.mem_cons.mp h with h | h
        · exact .inl h
        · exact .inr h
      · rcases List.mem_cons.mp h with h | h
        · exact .inr (by simp [h])
        · rcases ih h with h | h
          · exact .inl h
          · exact .inr (List.mem_cons_of_mem _ h)

theorem mem_terase {t : Tbl α} {i : Nat} {e : Nat × α} (h : e ∈ terase t i) : e ∈ t := by
  induction t with
  | nil => simp [terase] at h
  | cons a t ih =>
    obtain ⟨k, x⟩ := a
    simp only [terase] at h
    split at h
    · exact List.mem_cons_of_mem _ h
    · split at h
      · exact h
      · rcases List.mem_cons.mp h with h | h
        · simp [h]
        · exact List.mem_cons_of_mem _ (ih h)

/-- A write to a table with a default keeps its canonical form. -/
theorem tcanon_tputD [DecidableEq α] {d : α} {t : Tbl α} (h : tcanon d t = true) (i : Nat) (v : α) :
    tcanon d (tputD t i v d) = true := by
  simp only [tcanon, Bool.and_eq_true, List.all_eq_true, decide_eq_true_eq] at h ⊢
  unfold tputD
  split
  · exact ⟨tsorted_terase h.1 i, fun e he => h.2 e (mem_terase he)⟩
  · refine ⟨tsorted_tput h.1 i v, fun e he => ?_⟩
    rcases mem_tput he with rfl | he
    · assumption
    · exact h.2 e he

theorem tsorted_of_tcanon [DecidableEq α] {d : α} {t : Tbl α} (h : tcanon d t = true) : tsorted t = true := by
  simp only [tcanon, Bool.and_eq_true] at h; exact h.1

/-- A read after a write to the same key of a table with a default. -/
theorem tgetD_tputD_same [DecidableEq α] {d : α} {t : Tbl α} (h : tcanon d t = true) (i : Nat) (v : α) :
    tgetD (tputD t i v d) i d = v := by
  unfold tgetD tputD
  split
  · rw [tget_terase_same (tsorted_of_tcanon h)]; simp [*]
  · simp

/-- A write to a table with a default leaves every other key alone. -/
theorem tgetD_tputD_other [DecidableEq α] {d : α} {t : Tbl α} (h : tcanon d t = true) {i j : Nat} (hj : j ≠ i) (v : α) :
    tgetD (tputD t i v d) j d = tgetD t j d := by
  unfold tgetD tputD
  split
  · rw [tget_terase_other (tsorted_of_tcanon h) hj]
  · rw [tget_tput_other t hj]

/-- Storing a byte keeps memory canonical. -/
theorem memWf_setByte {t : List Host.Cell} (h : memWf t) (a : Nat) (b : Byte) : memWf (setByte t a b) := tcanon_tputD h a b

/-- Storing bytes keeps memory canonical. -/
theorem memWf_setBytes {t : List Host.Cell} (h : memWf t) (a : Nat) (bs : List Byte) : memWf (setBytes t a bs) := by
  induction bs generalizing t a with
  | nil => exact h
  | cons b bs ih => exact ih (memWf_setByte h a b) (a + 1)

/-- A stored byte is read back. -/
theorem byteAt_setByte_same {t : List Host.Cell} (h : memWf t) (a : Nat) (b : Byte) : byteAt (setByte t a b) a = b :=
  tgetD_tputD_same h a b

/-- A store to one address leaves every other address alone. -/
theorem byteAt_setByte_other {t : List Host.Cell} (h : memWf t) {a j : Nat} (hj : j ≠ a) (b : Byte) :
    byteAt (setByte t a b) j = byteAt t j := tgetD_tputD_other h hj b

/-- Bytes below and above the stored bytes read as before. -/
theorem byteAt_setBytes_outside {t : List Host.Cell} (h : memWf t) (a : Nat) (bs : List Byte) {j : Nat}
    (hj : j < a ∨ a + bs.length ≤ j) : byteAt (setBytes t a bs) j = byteAt t j := by
  induction bs generalizing t a with
  | nil => rfl
  | cons b bs ih =>
    simp only [List.length_cons] at hj
    rw [setBytes, ih (memWf_setByte h a b) (a + 1) (by omega), byteAt_setByte_other h (by omega)]

/-- Stored bytes are read back. -/
theorem byteAt_setBytes_inside {t : List Host.Cell} (h : memWf t) (a : Nat) (bs : List Byte) {k : Nat} (hk : k < bs.length) :
    byteAt (setBytes t a bs) (a + k) = bs[k] := by
  induction bs generalizing t a k with
  | nil => simp at hk
  | cons b bs ih =>
    cases k with
    | zero =>
      rw [setBytes, byteAt_setBytes_outside (memWf_setByte h a b) (a + 1) bs (by omega)]
      simpa using byteAt_setByte_same h a b
    | succ k =>
      have := ih (memWf_setByte h a b) (a + 1) (k := k) (by simpa using hk)
      rw [setBytes, show a + (k + 1) = a + 1 + k by omega, this]; rfl

/-- The empty memory is canonical. -/
theorem memWf_nil : memWf [] := rfl

end Sys2Proof.Machine
end

