-- ==== Sys2Proof/Safety.lean ====
section
/-! DEFINITION. What the claims speak of: a step that goes on, an instruction that issues, the forms of the arithmetic
instructions, and the parts of the machine that an instruction leaves alone. -/

namespace Sys2Proof

open Machine

/-- A step of the package that stops neither with a fault nor with a refusal. -/
def Safe (s : State) : Prop := ∃ t, step s = .next t

/-- Every event that stands on the agenda is one: the agenda names no instruction of a warp as an event. -/
def AgendaOfEvents (s : State) : Prop := ∀ u ∈ s.agenda, ∀ i, u.move = .event i → encode i = []

/-- The memory of a state has its canonical form. -/
def MemoryCanonical (s : State) : Prop := memWf s.mem

/-- The sub-braid in the focus issues `i` as `x`: no check before it fails, no dependence holds it back (R43, R75, R85), and
none of its sources is marked poisoned (R157). -/
def Issues (i : Instr) (s : State) (x : Issue) : Prop :=
  issuerOf s i = some x ∧ prologue s x = none ∧ poisOf x s = none

/-- Instruction `i`, issued as `x`, is executed with the state `t` after its own effect; then its lanes and its run are as the
verdict `v` says. -/
def Does (i : Instr) (s : State) (x : Issue) (v : Verdict) (t : State) : Prop := exec i s = .next (finish x (v, t))

/-- Instruction `i`, issued as `x`, changes its warp by `f` and goes on. -/
def DoesToWarp (i : Instr) (s : State) (x : Issue) (f : Warp → Warp) : Prop := Does i s x .advance (modWarp s x.wid f)

/-- The long form of a lane operation (R87). -/
def longForm (op : AluOp) (f : LB) : Instr :=
  match op with
  | .iadd => .iadd f
  | .isub => .isub f
  | .imul => .imul f
  | .imulh => .imulh f
  | .imad => .imad f
  | .imin => .imin f
  | .imax => .imax f
  | .iabs => .iabs f
  | .idp4 => .idp4 f
  | .shl => .shl f
  | .shr => .shr f
  | .sar => .sar f
  | .shf => .shf f
  | .knit => .knit f
  | .logic => .logic f
  | .bfe => .bfe f
  | .bfi => .bfi f
  | .popc => .popc f
  | .clz => .clz f
  | .brev => .brev f
  | .ffs => .ffs f
  | .icmp => .icmp f
  | .sel => .sel f
  | .isad => .isad f
  | .bmix => .bmix f
  | .fadd => .fadd f
  | .fsub => .fsub f
  | .fmul => .fmul f
  | .ffma => .ffma f
  | .fmin => .fmin f
  | .fmax => .fmax f
  | .fcmp => .fcmp f
  | .frcp => .frcp f
  | .frsq => .frsq f
  | .fsqrt => .fsqrt f
  | .fdiv => .fdiv f
  | .fexp2 => .fexp2 f
  | .flog2 => .flog2 f
  | .fsinpi => .fsinpi f
  | .fcospi => .fcospi f
  | .ftanh => .ftanh f
  | .fclass => .fclass f
  | .fscale => .fscale f
  | .frnd => .frnd f
  | .dadd => .dadd f
  | .dmul => .dmul f
  | .dfma => .dfma f
  | .dcmp => .dcmp f
  | .cvt => .cvt f
  | .pack => .pack f
  | .unpack => .unpack f
  | .dqplane => .dqplane f
  | .mov => .mov f

/-- The short form of a lane operation, if it has one (R87). -/
def shortForm (op : AluOp) (f : LA) : Option Instr :=
  match op with
  | .iadd => some (.iaddShort f)
  | .isub => some (.isubShort f)
  | .imul => some (.imulShort f)
  | .imulh => some (.imulhShort f)
  | .imad => some (.imadShort f)
  | .imin => some (.iminShort f)
  | .imax => some (.imaxShort f)
  | .iabs => some (.iabsShort f)
  | .idp4 => some (.idp4Short f)
  | .shl => some (.shlShort f)
  | .shr => some (.shrShort f)
  | .sar => some (.sarShort f)
  | .shf => some (.shfShort f)
  | .knit => none
  | .logic => some (.logicShort f)
  | .bfe => some (.bfeShort f)
  | .bfi => some (.bfiShort f)
  | .popc => some (.popcShort f)
  | .clz => some (.clzShort f)
  | .brev => some (.brevShort f)
  | .ffs => some (.ffsShort f)
  | .icmp => some (.icmpShort f)
  | .sel => some (.selShort f)
  | .isad => some (.isadShort f)
  | .bmix => some (.bmixShort f)
  | .fadd => some (.faddShort f)
  | .fsub => some (.fsubShort f)
  | .fmul => some (.fmulShort f)
  | .ffma => some (.ffmaShort f)
  | .fmin => some (.fminShort f)
  | .fmax => some (.fmaxShort f)
  | .fcmp => some (.fcmpShort f)
  | .frcp => some (.frcpShort f)
  | .frsq => some (.frsqShort f)
  | .fsqrt => some (.fsqrtShort f)
  | .fdiv => some (.fdivShort f)
  | .fexp2 => some (.fexp2Short f)
  | .flog2 => some (.flog2Short f)
  | .fsinpi => some (.fsinpiShort f)
  | .fcospi => some (.fcospiShort f)
  | .ftanh => some (.ftanhShort f)
  | .fclass => some (.fclassShort f)
  | .fscale => some (.fscaleShort f)
  | .frnd => some (.frndShort f)
  | .dadd => none
  | .dmul => none
  | .dfma => none
  | .dcmp => none
  | .cvt => none
  | .pack => none
  | .unpack => none
  | .dqplane => none
  | .mov => some (.movShort f)

/-- The UA form of a scalar operation (R88). -/
def uaForm (op : ScalOp) (f : UA) : Instr :=
  match op with
  | .sadd => .sadd f
  | .ssub => .ssub f
  | .smul => .smul f
  | .smulh => .smulh f
  | .smad => .smad f
  | .smin => .smin f
  | .smax => .smax f
  | .sshl => .sshl f
  | .sshr => .sshr f
  | .ssar => .ssar f
  | .slogic => .slogic f
  | .sbfe => .sbfe f
  | .sbfi => .sbfi f
  | .spopc => .spopc f
  | .sclz => .sclz f
  | .scmp => .scmp f
  | .ssel => .ssel f
  | .smov => .smov f

/-- The UB form of a scalar operation (R88). -/
def ubForm (op : ScalOp) (f : UB) : Instr :=
  match op with
  | .sadd => .saddUb f
  | .ssub => .ssubUb f
  | .smul => .smulUb f
  | .smulh => .smulhUb f
  | .smad => .smadUb f
  | .smin => .sminUb f
  | .smax => .smaxUb f
  | .sshl => .sshlUb f
  | .sshr => .sshrUb f
  | .ssar => .ssarUb f
  | .slogic => .slogicUb f
  | .sbfe => .sbfeUb f
  | .sbfi => .sbfiUb f
  | .spopc => .spopcUb f
  | .sclz => .sclzUb f
  | .scmp => .scmpUb f
  | .ssel => .sselUb f
  | .smov => .smovUb f

/-- The UI form of a scalar operation (R88). -/
def uiForm (op : ScalOp) (f : UI) : Instr :=
  match op with
  | .sadd => .saddUi f
  | .ssub => .ssubUi f
  | .smul => .smulUi f
  | .smulh => .smulhUi f
  | .smad => .smadUi f
  | .smin => .sminUi f
  | .smax => .smaxUi f
  | .sshl => .sshlUi f
  | .sshr => .sshrUi f
  | .ssar => .ssarUi f
  | .slogic => .slogicUi f
  | .sbfe => .sbfeUi f
  | .sbfi => .sbfiUi f
  | .spopc => .spopcUi f
  | .sclz => .sclzUi f
  | .scmp => .scmpUi f
  | .ssel => .sselUi f
  | .smov => .smovUi f

/-- Core state apart from the runs its quadrants hold and the counters of R75. -/
def quietCore (c : Core) : Core := { c with runs := [], runBrk := 0, longRun := 0 }

/-- The machine but for its warps and the runs of its cores is as it was: memory at its homes and scratch read as before. -/
def KeepsMachine (s t : State) : Prop :=
  { t with warps := s.warps, cores := s.cores, focus := s.focus } = s ∧ t.cores.map quietCore = s.cores.map quietCore
    ∧ (∀ a, homeByte t a = homeByte s a)

/-- Every warp but one is as it was. -/
def KeepsWarps (s t : State) (wid : Nat) : Prop := ∀ k, k ≠ wid → tget t.warps k = tget s.warps k

/-- A scratch byte of a placed rank. -/
def scratchByte (s : State) (p : SPlace) : Option Byte := (rankBlock s p.cluster p.rank).map (fun b => byteAt b.2.scratch p.off)

/-- The tables of a warp's registers and marks have their canonical form. -/
def WarpCanonical (w : Warp) : Prop :=
  tcanon 0 w.vregs = true ∧ tcanon 0 w.sregs = true ∧ tcanon 0 w.nest = true ∧ tsorted w.marks = true ∧ tsorted w.smarks = true

/-- Instruction `i` issues as `x`; the marks of its sources are looked at behind its address checks (R43). -/
def Reaches (i : Instr) (s : State) (x : Issue) : Prop := issuerOf s i = some x ∧ prologue s x = none

/-- What the lanes of a scratch access reach: lane, place, address. -/
def scratchCells (x : Issue) (s : State) (size : Nat) (addrs : List (Nat × Nat)) : List (Nat × Nat × Nat) :=
  addrs.filterMap (fun e => (scratchPlace x.record (rankOf s x.w) e.2 size).map (fun p => (e.1, p, e.2)))

/-- A scratch access passes its checks: ALIGN, SCRB, WATCH (R43, R153, R154, R261, R452). -/
def ScratchClear (x : Issue) (s : State) (size : Nat) (addrs : List (Nat × Nat)) (rd wr : Bool) : Prop :=
  scratchFault x (rankOf s x.w) size addrs = none ∧ watchTrap s x size (scratchCells x s size addrs) rd wr = none

/-- The warp's own rank, held by block `b` on its own core, is the rank of every cell, their lines are present, and nothing of
the core waits at the port that must go before them (R254, R262, R264, R265). -/
def OwnPresent (s : State) (x : Issue) (n : Nat) (cells : List (Nat × Nat × Nat)) (bid : Nat) (b : Block) : Prop :=
  isLocal s x.w (rankOf s x.w) = true ∧ placedBlock s (clusterIdOf s x.w) (rankOf s x.w) = some (bid, b) ∧ b.ended = false
    ∧ (∀ c ∈ cells, codeRank c.2.1 = rankOf s x.w ∧ linesPresent b (codeOff c.2.1) n = true)
    ∧ heldBehind s x.w x.wid (clusterIdOf s x.w) (rankOf s x.w) (rankSpans (rankOf s x.w) (cells.map (fun c => (c.2.1, n)))) = false

/-- The leaf of every address of an access stands in the caches of its core and of its bay (R395): no table is read for it. -/
def Cached (x : Issue) (s : State) (vas : List Nat) : Prop :=
  ∀ a ∈ vas, ∃ e, tlbFind (coreOf s x.w.core).tlb x.ctx a = some e ∧ e ∈ (bayOf s (bayOfCore x.w.core)).tlb

/-- The header of `size` bytes that a ring instruction names lies in the own core's scratch, and nothing of the warp that is held
at the port goes before it (R187, R264, R285). -/
def AtOwnPort (x : Issue) (s : State) (size sa : Nat) (at' : SPlace) : Prop :=
  ringPlace x s (sread x.w sa).toNat size = .ok at' ∧ isLocal s x.w at'.rank = true
    ∧ heldBehind s x.w x.wid at'.cluster at'.rank [(at'.off, size)] = false

/-- What the lanes of a global access reach: lane, physical address, virtual address. -/
def globalCells (x : Issue) (s : State) (addrs : List (Nat × Nat)) (rd wr : Bool) : List (Nat × Nat × Nat) :=
  addrs.filterMap (fun e => match xlate s x.w.core x.ctx e.2 rd wr false with
    | .error _ => none
    | .ok (pa, _) => some (e.1, pa, e.2))

/-- A global access passes its checks: ALIGN, PAGE, PERM, and TOKEN of a write (R43, R153, R154, R170). -/
def GlobalClear (x : Issue) (s : State) (size : Nat) (addrs : List (Nat × Nat)) (rd wr : Bool) : Prop :=
  (∀ e ∈ addrs, e.2 % size = 0) ∧ pageFault s x addrs rd wr = none
    ∧ (wr = true → tokenFault s x size (globalCells x s addrs rd wr) = none)

/-- The translations of an access enter the translation caches. -/
def cached (x : Issue) (s : State) (addrs : List (Nat × Nat)) : State :=
  addrs.foldl (fun s e => cacheVa s x.w.core x.ctx e.2) s

/-- The access of a load, a store or an atomic: the bytes of an element, lanes and addresses, whether it reads and writes, and whether
it is uniform, so that its faults name every issuing lane (R158). -/
structure Access where
  size : Nat
  addrs : List (Nat × Nat)
  rd : Bool
  wr : Bool
  uni : Bool

/-- The lanes that a fault of an access names. -/
def Access.named (a : Access) (x : Issue) (ls : List Nat) : Mask := if a.uni then x.b.lanes else maskOf ls

/-- The access of a global load, store or atomic (R153, R158, R169). -/
def globalForm (x : Issue) : Instr → Option Access
  | .ldg f => some ⟨szBytes (f.sub.toNat % 8), globalLanes x f (bit f.sub.toNat 3), true, false, false⟩
  | .stg f | .stnt f => some ⟨szBytes (f.sub.toNat % 8), globalLanes x f (bit f.sub.toNat 3), false, true, false⟩
  | .atomg f | .redg f => some ⟨atomBytes (f.sub.toNat % 8), globalLanes x f true, true, true, false⟩
  | .sldg f => some ⟨szBytes f.sub.toNat, [(lowestLane x.b.lanes, globalUniAddr x.w f)], true, false, true⟩
  | .sstg f => some ⟨szBytes f.sub.toNat, [(lowestLane x.b.lanes, globalUniAddr x.w f)], false, true, true⟩
  | .satomg f => some ⟨atomBytes (bits f.imm.toNat 8 3), [(lowestLane x.b.lanes, spair x.w f.sa.toNat)], true, true, true⟩
  | _ => none

/-- The access of a scratch load, store or atomic (R153, R158). -/
def scratchForm (x : Issue) : Instr → Option Access
  | .lds f => some ⟨szBytes (f.sub.toNat % 8), scratchLanes x f (bit f.sub.toNat 3), true, false, false⟩
  | .sts f => some ⟨szBytes (f.sub.toNat % 8), scratchLanes x f (bit f.sub.toNat 3), false, true, false⟩
  | .atoms f => some ⟨atomBytes (f.sub.toNat % 8), scratchLanes x f true, true, true, false⟩
  | .slds f => some ⟨szBytes f.sub.toNat, [(lowestLane x.b.lanes, scratchUniAddr x.w f)], true, false, true⟩
  | .ssts f => some ⟨szBytes f.sub.toNat, [(lowestLane x.b.lanes, scratchUniAddr x.w f)], false, true, true⟩
  | _ => none

/-- The lanes of an access whose translation fails with a cause: lane, address, ETVAL. -/
def walkFaults (x : Issue) (s : State) (a : Access) (code : Nat) : List (Nat × Nat × Nat) :=
  a.addrs.filterMap (fun e => match xlate s x.w.core x.ctx e.2 a.rd a.wr false with
    | .error (c, et) => if c = code then some (e.1, e.2, et) else none
    | .ok _ => none)

/-- POIS of `i` where nothing before it fails (R157): the trap of its marked sources, whose marks are cleared in `t`. -/
def PoisTraps (i : Instr) (s : State) (x : Issue) (t : State) : Prop :=
  let u := usesOf x.w i
  let act := activeOf x.w x.b.lanes u
  ∀ p, poisTrap x.w act u.vsrc u.ssrc = some p →
    Does i s x (.trap p) (modWarp t x.wid (fun w => clearMarks w act u.vsrc u.ssrc))

/-- Where a global access traps, in the order of R43: ALIGN with ETVAL the size; PAGE, whose faulting lanes are to be tried again, and
PERM with the ETVALs of the walk; TOKEN of a write with the record's address; POIS of a marked source. EMASK names the lanes that take
the cause, EADDR is the lowest one's address (R153, R154, R157, R158, R170). -/
def GlobalTraps (i : Instr) : Prop :=
  ∀ (s : State) (x : Issue) (a : Access), Reaches i s x → globalForm x i = some a →
    let s1 := cached x s a.addrs
    let mis := a.addrs.filter (fun e => e.2 % a.size != 0)
    let page := walkFaults x s a cPAGE
    let perm := walkFaults x s a cPERM
    let bare := (globalCells x s a.addrs a.rd a.wr).filterMap (fun c =>
      (tokenMissing s (clusterIdOf s x.w) c.2.1 a.size).map (fun k => (c, k)))
    (∀ e es, mis = e :: es → Does i s x (.trap ⟨cALIGN, a.named x (mis.map Prod.fst), e.2, a.size, false, false⟩) s) ∧
    (∀ e es, mis = [] → page = e :: es →
      Does i s x (.trap ⟨cPAGE, a.named x (page.map Prod.fst), e.2.1, e.2.2, true, false⟩) s1) ∧
    (∀ e es, mis = [] → page = [] → perm = e :: es →
      Does i s x (.trap ⟨cPERM, a.named x (perm.map Prod.fst), e.2.1, e.2.2, false, false⟩) s1) ∧
    (∀ e es, mis = [] → page = [] → perm = [] → a.wr = true → bare = e :: es →
      Does i s x (.trap ⟨cTOKEN, a.named x (bare.map (fun e => e.1.1)), e.1.2.2, e.2 % 2 ^ 32, false, false⟩) s1) ∧
    (GlobalClear x s a.size a.addrs a.rd a.wr → PoisTraps i s x s1)

/-- Where a scratch access traps, in the order of R43: ALIGN with ETVAL the size, SCRB with the allocation in granules, POIS of a marked
source, WATCH with the lowest watchpoint that some lane's bytes overlap. EMASK names the lanes that take the cause, EADDR is the
lowest one's address (R153, R154, R157, R158, R261, R452). -/
def ScratchTraps (i : Instr) : Prop :=
  ∀ (s : State) (x : Issue) (a : Access), Reaches i s x → scratchForm x i = some a →
    let rank := rankOf s x.w
    let mis := a.addrs.filter (fun e => e.2 % a.size != 0)
    let out := a.addrs.filter (fun e => (scratchPlace x.record rank e.2 a.size).isNone)
    let cells := scratchCells x s a.size a.addrs
    (∀ e es, mis = e :: es → Does i s x (.trap ⟨cALIGN, a.named x (mis.map Prod.fst), e.2, a.size, false, false⟩) s) ∧
    (∀ e es, mis = [] → out = e :: es →
      Does i s x (.trap ⟨cSCRB, a.named x (out.map Prod.fst), e.2, recScrg x.record, false, false⟩) s) ∧
    (mis = [] → out = [] → PoisTraps i s x s) ∧
    (∀ b e es k v, mis = [] → out = [] → poisOf x s = none → blockOf s x.w = some b → x.w.trapMode = false →
      x.w.exempt &&& x.b.lanes = 0 →
      let hits := cells.filter (fun c => b.watches.any (fun v => watchHits v c.2.1 a.size a.rd a.wr))
      hits = e :: es → b.watches[k]? = some v → (∃ c ∈ cells, watchHits v c.2.1 a.size a.rd a.wr = true) →
      (∀ j u, j < k → b.watches[j]? = some u → ∀ c ∈ cells, watchHits u c.2.1 a.size a.rd a.wr = false) →
      Does i s x (.trap ⟨cWATCH, a.named x (hits.map Prod.fst), e.2.2, k, false, false⟩) s)

/-- A master may write a register of the MMIO range, the package is ready and no fatal error has been taken (R382, R384,
R443, R458). -/
def MayWrite (s : State) (m : Master) (off : Nat) : Prop :=
  permits s (midOf s m) (mmioBase + off) false true = true ∧ s.sec.ready = true ∧ s.sec.fatal = none

/-- The command `op` of a function heads the security processor's queue and is permitted (R460). -/
def MayRun (s : State) (fn op : Nat) : Prop := s.sec.queue.head? = some (fn, op) ∧ secRefused s fn op = none

/-- The end of a security command with a STATUS: unknown commands behind it end too (R460). -/
def ended (s : State) (fn status : Nat) : State := skipUnknown 33 (endCmd s fn status)

/-- Event `i` leaves the state `t`. -/
def Happens (i : Instr) (s t : State) : Prop := exec i s = .next t

end Sys2Proof
end

