-- ==== Sys2Proof/Laws/Issue.lean ====
section
/-! SUPPORT. What the issue of an instruction can do: it is refused by nothing, goes to its meaning when no check and no
dependence stands before it, and otherwise takes the verdict of those. -/

namespace Sys2Proof.Machine

open Sys2Proof

/-- Whether a source is marked does not depend on the rest of the machine. -/
theorem poisOf_none_of {x : Issue} {s : State} (h : poisOf x s = none) (t : State) : poisOf x t = none := by
  simpa [poisOf, poisUses] using h

/-- The issue of an instruction runs its meaning when nothing stands before it. -/
theorem issue_of {i : Instr} {s : State} {x : Issue} (h : issuerOf s i = some x) (hp : prologue s x = none)
    (body : Issue → State → Verdict × State) : issue i s body = .next (finish x (body x s)) := by
  simp [issue, h, hp]

/-- The same where marked sources are looked at first. -/
theorem issueOp_of {i : Instr} {s : State} {x : Issue} (h : Issues i s x) (body : Issue → State → Verdict × State) :
    issueOp i s body = .next (finish x (body x s)) := by
  obtain ⟨h, hp, hq⟩ := h
  rw [issueOp, issue_of h hp]
  simp [hq]

/-- The same for an instruction that changes only its warp. -/
theorem issueWarp_of {i : Instr} {s : State} {x : Issue} (h : Issues i s x) (body : Issue → Warp → Warp) :
    issueWarp i s body = .next (finish x (.advance, modWarp s x.wid (body x))) := issueOp_of h _

/-- With an issuer, the issue of an instruction answers a next state. -/
theorem issue_next {i : Instr} {s : State} {x : Issue} (h : issuerOf s i = some x)
    (body : Issue → State → Verdict × State) : ∃ t, issue i s body = .next t := by
  unfold issue
  rw [h]
  dsimp only
  split
  · exact ⟨_, rfl⟩
  · exact ⟨_, rfl⟩

/-- Without an issuer there is no such step. -/
theorem issue_noIssuer {i : Instr} {s : State} (h : issuerOf s i = none) (body : Issue → State → Verdict × State) :
    issue i s body = .fault .noIssuer := by simp [issue, h]

/-- An issue that a check or a dependence stands before: the verdict is carried out and nothing else is done. -/
theorem issue_stopped {i : Instr} {s : State} {x : Issue} {v : Verdict} (h : issuerOf s i = some x)
    (hp : prologue s x = some v) (body : Issue → State → Verdict × State) :
    issue i s body = .next (finish x (v, s)) := by simp [issue, h, hp]

/-- The issuer holds the instruction it was asked for. -/
theorem issuerOf_instr {i : Instr} {s : State} {x : Issue} (h : issuerOf s i = some x) : x.instr = i := by
  unfold issuerOf at h
  simp only [Option.bind_eq_some_iff, Option.map_eq_some_iff] at h
  obtain ⟨f, _, w, _, b, _, rfl⟩ := h
  rfl

end Sys2Proof.Machine
end

