-- ==== Sys2Proof/Certificates/Slice0/Obligations.lean ====
section
/-! DEFINITION. The statements about the machine that the provers are asked to prove. -/

open Sys2Proof Sys2Proof.Machine

/-! ### Encoding, fetch and the step -/

/-- R72, R76 to R84: decoding the bytes of a well-formed instruction gives it back with every operand, and leaves the bytes
behind it. An event has no encoding. -/
def Obligations.DecodeOfEncode : Prop :=
  ∀ (i : Instr) (rest : List Byte), i.wf = true → encode i ≠ [] → decode (bytesOfWords (encode i) ++ rest) = .ok (i, rest)

/-- R72, R85: an instruction has one encoding: what two words decode to is encoded by exactly the words it took. -/
def Obligations.EncodeOfDecode : Prop :=
  ∀ (w0 w1 : Word) (i : Instr), decodeWords w0 w1 = .ok i → encode i = if longOf w0 then [w0, w1] else [w0]

/-- Words the manual writes out (R79, R83, R86, R122, R129, R136, R145, R146, R158, R166) decode to the instructions they
stand for. -/
def Obligations.ManualWordsDecode : Prop :=
  decodeWords 0x80000000 0 = .ok (.nop false) ∧ decodeWords 0xA0000000 0 = .ok (.nop true) ∧
  decodeWords 0xA8000002 0 = .ok (.bra ⟨true, 2⟩) ∧
  decodeWords 0x89802000 0 = .ok (.join ⟨false, 1, 0, 0⟩) ∧ decodeWords 0xAA002000 0 = .ok (.wait ⟨true, 1, 0, 0⟩) ∧
  decodeWords 0x8A800000 0 = .ok (.brk ⟨false, 0, 0, 0⟩) ∧ decodeWords 0x8B000000 0 = .ok (.eret ⟨false, 0, 0, 0⟩) ∧
  decodeWords 0x4040C040 0x02007000 =
    .ok (.iadd ⟨false, 3, 1, 0, 2, 0, false, 7, false, false, false, 0, false, false, false, 0⟩) ∧
  decodeWords 0x54814100 0x00001001 =
    .ok (.peer ⟨false, 5, 4, 0, 0, 0, false, 1, false, false, false, 0, false, false, false, 1⟩) ∧
  decodeWords 0x75C00000 0x0003A200 =
    .ok (.brp ⟨true, 0, 0, 0, 0, 3, true, 2, false, false, true, 0, false, false, false, 0⟩) ∧
  decodeWords 0x5801008C 0x04080040 = .ok (.lds ⟨false, 4, 2, 12, 8, false, 1, 64⟩) ∧
  decodeWords 0x59418080 0x04380000 = .ok (.atoms ⟨false, 6, 2, 0, 8, false, 7, 0⟩)

/-- R86: a word of all zeros, and an opcode marked "-" in R87 and R88, is no instruction, whatever its other bits. -/
def Obligations.UnassignedOpcodesReject : Prop :=
  ∀ w0 w1 : Word,
    (w0.getLsbD 31 = false → laneAssigned (opOf w0) = false → decodeWords w0 w1 = .error .laneOpcode) ∧
    (w0.getLsbD 31 = true → uniAssigned (opOf w0) = false → decodeWords w0 w1 = .error .uniformOpcode) ∧
    (w0.getLsbD 31 = true → opOf w0 = 0 → w0 ≠ 0x80000000 → w0 ≠ 0xA0000000 → decodeWords w0 w1 = .error .nopFields)

/-- R73, R85 and log 1: where the words that a granted sub-braid finds at its PC decode to an instruction, the step is that
instruction's execution with the sub-braid in the focus, one clock and the turn's clocks later: the ready times have gone on, and
the watchdog's periods that ended have been counted. -/
def Obligations.StepRunsDecoded : Prop :=
  ∀ (s : State) (n core quad : Nat) (ts : List Turn) (r : Run) (w : Warp) (b : SubBraid) (w0 w1 : Word) (u v : State) (i : Instr),
    s.agenda = ⟨n, .issue core quad⟩ :: ts →
    let s0 := passTime (1 + n) { s with focus := none, agenda := ts }
    runOf s0 core quad = some r → runBraid s0 r = some (w, b) →
    fetchWord s0 core (ctxOfWarp s0 w) b.pc.toNat = (.ok w0, u) →
    (longOf w0 = true → fetchWord u core (ctxOfWarp s0 w) (b.pc + 4).toNat = (.ok w1, v)) → (longOf w0 = false → v = u) →
    decodeWords w0 w1 = .ok i →
    step s = exec i { v with focus := some ⟨r.warp, r.sub⟩ }

/-- R73, R74: a fetch at an executable, readable, backed and unpoisoned address gives the four bytes that its home holds, low byte
first (R10), where the word has not changed since the context's instruction caches were invalidated and the core holds no other form
of it; else it gives that new form, the old one, or the one that the core holds. -/
def Obligations.FetchReadsMemory : Prop :=
  ∀ (s : State) (core ctx pc pa k : Nat) (e : TlbEnt), xlate s core ctx pc false false true = .ok (pa, e) →
    let t := cacheVa s core ctx pc
    let held := tget (coreOf t core).icache (icKey ctx pc)
    let new := wordOfBytes (homeByte t pa) (homeByte t (pa + 1)) (homeByte t (pa + 2)) (homeByte t (pa + 3))
    homeOf t pa = some k → permits t (masterOf t ctx 0) pa true false = true → homePois t pa = false →
    ((held = none ∨ held = some new) → oldWord t ctx pa = new → (fetchWord s core ctx pc).1 = .ok new) ∧
    (∃ w, (w = new ∨ w = oldWord t ctx pa ∨ held = some w) ∧ (fetchWord s core ctx pc).1 = .ok w)

/-- Logs 1, 2 and R389: which step comes next is the model's own scheduling (logs 1 and 2). An event that heads the agenda happens, one clock and the turn's clocks later; with an empty agenda the step
is one of the moves that can come next, or only a clock passes. The clocks that pass count every watchdog period that ends in
them, once. -/
def Obligations.StepRunsEvents : Prop :=
  (∀ (s : State) (n : Nat) (i : Instr) (ts : List Turn), s.agenda = ⟨n, .event i⟩ :: ts →
    step s = exec i (passTime (1 + n) { s with focus := none, agenda := ts })) ∧
  (∀ s : State, s.agenda = [] →
    let s0 := passTime 1 { s with focus := none }
    step s = .next s0 ∨ ∃ m ∈ moves s0, step s = m s0) ∧
  (∀ (s : State) (n : Nat), s.watched ≤ (s.clock + n) / 65536 →
    (passTime n s).clock = s.clock + n ∧ (passTime n s).watched = (s.clock + n) / 65536)

/-- The machine never stops: a state whose agenda names no instruction of a warp as an event, as the reset state is, has a next
state, and that one is such a state again. No instruction is refused, and no step faults. -/
def Obligations.StepNeverStops : Prop :=
  (∀ s : State, AgendaOfEvents s → ∃ t, step s = .next t ∧ AgendaOfEvents t) ∧ AgendaOfEvents State.reset

/-! ### Memory and reset -/

/-- Every step keeps the canonical form of memory. -/
def Obligations.MemoryCanonicalKept : Prop := ∀ s t : State, MemoryCanonical s → step s = .next t → MemoryCanonical t

/-- Memory has its canonical form at reset. -/
def Obligations.MemoryCanonicalAtReset : Prop := MemoryCanonical State.reset

/-! ### What a verdict leaves, and when an instruction issues -/

/-- R43, R75, R85: an instruction issues exactly when its fields are ones its row defines and its warp admits, it is not
privileged outside trap mode, its warp's role and launch admit it, no register it names awaits a load, its register values are
legal, every register it names lies in the window, and no dependence holds it back. -/
def Obligations.IssueConditions : Prop :=
  ∀ (s : State) (x : Issue), prologue s x = none ↔
    (x.instr.wf = true ∧ warpOk x.w x.instr = true ∧ (x.w.trapMode = true ∨ privOf x.instr = none) ∧
      roleBars x.w.role x.instr = false ∧ ((∃ f, x.instr = .gridbar f) → recCoop x.record = true) ∧
      waitsForLoad s x.wid (usesOf x.w x.instr) = false ∧ valuesOk x.w x.instr = true ∧
      (∀ r ∈ (usesOf x.w x.instr).vdst ++ (usesOf x.w x.instr).vsrc, r.1 + r.2 ≤ x.w.win) ∧ stalls s x = false)

/-- R73, R75, R126: what a verdict leaves of the issuing sub-braid and its run. Going on moves its PC by 4 * (1 + L), a jump
moves it to the target, a stall leaves the warp's PC and registers alone; a jump and a stall end the run, and so does the
24th instruction or an E bit. -/
def Obligations.VerdictMovesLanes : Prop :=
  ∀ (i : Instr) (s : State) (x : Issue), Issues i s x →
    (∀ t w, tget t.warps x.wid = some w → braidOf w x.b.id = some x.b →
      (∃ w', tget (finish x (.advance, t)).warps x.wid = some w' ∧
        (braidOf w' x.b.id).map (·.pc) = some (x.b.pc + (if longOf (word0 i) then 8 else 4))) ∧
      (∀ a : VAddr, ∃ w', tget (finish x (.jump a, t)).warps x.wid = some w' ∧ (braidOf w' x.b.id).map (·.pc) = some a) ∧
      (∃ w', tget (finish x (.stall, t)).warps x.wid = some w' ∧ (braidOf w' x.b.id).map (·.pc) = some x.b.pc ∧
        w'.vregs = w.vregs ∧ w'.sregs = w.sregs ∧ w'.preds = w.preds ∧ w'.masks = w.masks)) ∧
    (∀ t a, (coreOf t x.w.core).runs.length = 4 → x.w.slot < 48 → x.w.core < t.cores.length →
      runOf (finish x (.jump a, t)) x.w.core (quadOf x.w.slot) = none ∧
      runOf (finish x (.stall, t)) x.w.core (quadOf x.w.slot) = none ∧
      (eBit i = true → runOf (finish x (.advance, t)) x.w.core (quadOf x.w.slot) = none) ∧
      (∀ r : Run, runOf t x.w.core (quadOf x.w.slot) = some r → 23 ≤ r.count →
        runOf (finish x (.advance, t)) x.w.core (quadOf x.w.slot) = none))

/-! ### Arithmetic: completion and result -/

/-- R99, R100, R105 to R117: every lane operation, in its long form and in its short one, reads the sources of every active
lane, writes each active lane's result to its destination, and ORs the flags into FSTAT. -/
def Obligations.LaneArithmeticCompletes : Prop :=
  (∀ (op : AluOp) (f : LB) (s : State) (x : Issue), Issues (longForm op f) s x →
    DoesToWarp (longForm op f) s x (fun w =>
      laneEffect w (guardLanes w x.b.lanes f.gn f.gp.toNat) (lbDst op f) (fun l => aluEval op (lbInput op w f l)))) ∧
  (∀ (op : AluOp) (f : LA) (i : Instr) (s : State) (x : Issue), shortForm op f = some i → Issues i s x →
    DoesToWarp i s x (fun w =>
      laneEffect w (guardLanes w x.b.lanes false 7) (laDst op f) (fun l => aluEval op (laInput op w f l))))

/-- R114, R116, R118 to R122, R86: the cross-lane instructions and NOP complete: QPLANE's planes and scale, SRND's rounding,
XLANE's moves, PEER's and QPOLL's questions, REDX's and SCAN's reductions, PLOP's table. That QPOLL.maskm writes an empty mask under
every guard that enables no lane but GP = 7 with GN = 1 is the model's reading of R79 (log 102), as are XLANE's b of a pair type
(log 27) and the flags that SCAN.excl raises (log 26). -/
def Obligations.CrossLaneCompletes : Prop :=
  (∀ (f : LB) (s : State) (x : Issue), Issues (.qplane f) s x → DoesToWarp (.qplane f) s x (fun w =>
    let act := guardLanes w x.b.lanes f.gn f.gp.toNat
    laneEffect w act (.regs f.vd.toNat 1) (fun l =>
      let g := ((List.range (w.width / 32)).map (fun g => qplaneGroup w f act g)).getD (l / 32) (fun _ => 0, 0)
      (g.1 (l % 32), g.2)))) ∧
  (∀ (f : LB) (s : State) (x : Issue), Issues (.srnd f) s x → DoesToWarp (.srnd f) s x (fun w =>
    laneEffect w (guardLanes w x.b.lanes f.gn f.gp.toNat) (.regs f.vd.toNat 1) (fun l =>
      let d := ecOf f.sub.toNat
      let r := convElem (.flt fp32) d.num ⟨.sr (srLaneKey w f.vb.toNat l), fctlFtz w, f.sat⟩ (vread w f.va.toNat l).toNat
      (placeNarrow d.num r.1, r.2)))) ∧
  (∀ (f : LB) (s : State) (x : Issue), Issues (.xlane f) s x → DoesToWarp (.xlane f) s x (fun w =>
    let act := guardLanes w x.b.lanes f.gn f.gp.toNat
    let n := opdCount .byT f.t.toNat
    laneEffect w act (.regs f.vd.toNat n) (fun l =>
      let k := xlaneSrc (f.sub.toNat % 8) (2 ^ (f.sub.toNat / 8)) l (if f.sub.toNat % 8 = 6 then 0 else lbSource w f l n)
      (vreadN w f.va.toNat (if inMask act k then k else l) n, 0)))) ∧
  (∀ (f : LB) (s : State) (x : Issue), Issues (.peer f) s x → DoesToWarp (.peer f) s x (fun w =>
    let act := guardLanes w x.b.lanes f.gn f.gp.toNat
    let n := opdCount .byT f.t.toNat
    laneEffect w act (.regs f.vd.toNat (if f.sub == 0 && w.width == 64 then 2 else 1)) (fun l =>
      (peerResult f.sub.toNat
        ((lanesOf act).filter (fun k => vreadN w f.va.toNat k n == vreadN w f.va.toNat l n)) l, 0)))) ∧
  (∀ (f : LB) (s : State) (x : Issue), Issues (.qpoll f) s x → DoesToWarp (.qpoll f) s x (fun w =>
    let act := guardLanes w x.b.lanes f.gn f.gp.toNat
    let q := predMask w f.va.toNat
    let t := act &&& (if f.na then ~~~q else q)
    match f.sub.toNat with
    | 0 => laneEffect w act (.pred f.vd.toNat) (fun _ => (if t = act then 1 else 0, 0))
    | 1 => laneEffect w act (.pred f.vd.toNat) (fun _ => (if t = 0 then 0 else 1, 0))
    | 2 => laneEffect w act (.pred f.vd.toNat) (fun _ => (if t = act ∨ t = 0 then 1 else 0, 0))
    | 3 => laneEffect w act (.regs f.vd.toNat (if w.width = 64 then 2 else 1)) (fun _ => (t.toNat, 0))
    | 4 => if f.gn ∧ f.gp.toNat = 7 then w else mwrite w f.vd.toNat t
    | 5 => laneEffect w act (.regs f.vd.toNat 1) (fun _ => ((lanesOf t).length, 0))
    | _ => laneEffect w act (.regs f.vd.toNat 1) (fun l => (((lanesOf t).filter (fun k => k < l)).length, 0)))) ∧
  (∀ (f : LB) (s : State) (x : Issue), Issues (.redx f) s x →
    DoesToWarp (.redx f) s x (reduceBody f (2 ^ (f.sub.toNat / 8)) false false x)) ∧
  (∀ (f : LB) (s : State) (x : Issue), Issues (.scan f) s x → DoesToWarp (.scan f) s x (fun w =>
    reduceBody f (if f.sub.toNat / 8 % 4 = 0 then w.width else 4 * 2 ^ (f.sub.toNat / 8 % 4)) true (bit f.sub.toNat 5) x w)) ∧
  (∀ (f : LB) (s : State) (x : Issue), Issues (.plop f) s x → DoesToWarp (.plop f) s x (fun w =>
    laneEffect w (guardLanes w x.b.lanes f.gn f.gp.toNat) (.pred (f.vd.toNat % 8)) (fun l =>
      ((bit (f.sub.toNat + 64 * (f.vd.toNat / 64)) ((inMask (predMask w f.va.toNat) l).toNat
        + 2 * (inMask (predMask w f.vb.toNat) l).toNat + 4 * (inMask (predMask w f.vc.toNat) l).toNat)).toNat, 0)))) ∧
  (∀ (e : Bool) (s : State) (x : Issue), Issues (.nop e) s x → DoesToWarp (.nop e) s x (fun w => w))

/-- R214, R215, R29, R157: TDEF defines a view or clears its valid bit; TRD reads, and TWR writes, a row or a column of a tile; an index
outside the view raises REGW with the index in ETVAL, and TRD of marked elements POIS. -/
def Obligations.TilesComplete : Prop :=
  (∀ (f : UB) (s : State) (x : Issue), Issues (.tdef f) s x →
    (f.sub = 1 → DoesToWarp (.tdef f) s x (fun w =>
      { w with tiles := lmod w.tiles f.sd.toNat (fun t => { t with valid := false }) })) ∧
    (f.sub ≠ 1 → f.imm.toNat % 256 + 31 < x.w.win → DoesToWarp (.tdef f) s x (fun w =>
      { w with tiles := lset w.tiles f.sd.toNat ⟨true, f.imm.toNat % 256⟩ })) ∧
    (f.sub ≠ 1 → x.w.win ≤ f.imm.toNat % 256 + 31 →
      Does (.tdef f) s x (.trap (trapOf cREGW x.b.lanes (f.imm.toNat % 256 + 31))) s)) ∧
  (∀ (f : LT) (s : State) (x : Issue), Issues (.trd f) s x → tileBad x.w f = false → tilePending s x f = false →
    tileMarks x.w f (ltLanes x.w x.b.lanes f) = [] → DoesToWarp (.trd f) s x (fun w =>
      laneEffect w (ltLanes x.w x.b.lanes f) (.regs f.vd.toNat 1) (fun l =>
        ((vread w (tileCell w f l).1 (tileCell w f l).2).toNat, 0)))) ∧
  (∀ (f : LT) (s : State) (x : Issue), Issues (.twr f) s x → tileBad x.w f = false → tilePending s x f = false →
    DoesToWarp (.twr f) s x (fun w =>
      ((lanesOf (ltLanes x.w x.b.lanes f)).filter (fun l => !f.rc || decide (l < 32))).foldl (fun acc l =>
        vwrite acc (tileCell w f l).1 (tileCell w f l).2 (vread w f.va.toNat l)) w)) ∧
  (∀ (i : Instr) (f : LT) (s : State) (x : Issue), (i = .trd f ∨ i = .twr f) → Reaches i s x →
    ((f.rc = false ∧ 32 ≤ tileIndex x.w f) ∨ (f.rc = true ∧ x.w.width ≤ tileIndex x.w f)) →
    Does i s x (.trap ⟨0x02, x.b.lanes, 0, tileIndex x.w f, false, false⟩) s) ∧
  (∀ (f : LT) (s : State) (x : Issue) (m : Mark), Issues (.trd f) s x → tileBad x.w f = false → tilePending s x f = false →
    let ms := tileMarks x.w f (ltLanes x.w x.b.lanes f)
    oldestMark (ms.map Prod.snd) = some m →
    Does (.trd f) s x (.trap ⟨0x07, maskOf (ms.map Prod.fst), m.addr, 0, false, false⟩) (modWarp s x.wid (fun w => { w with
      marks := (ms.map Prod.fst).foldl (fun t l => terase t ((tileCell x.w f l).1 * 64 + (tileCell x.w f l).2)) w.marks })))

/-- R123: every scalar instruction, in its UA, UB and UI forms, writes its result to sd. -/
def Obligations.ScalarArithmeticCompletes : Prop :=
  (∀ (op : ScalOp) (f : UA) (s : State) (x : Issue), Issues (uaForm op f) s x →
    DoesToWarp (uaForm op f) s x (fun w => swrite w f.sd.toNat (BitVec.ofNat 32 (scalEval op (f.sub.toNat % 8)
      (sread w f.sd.toNat).toNat (sread w f.sa.toNat).toNat (sread w f.sd.toNat).toNat (sread w f.sa.toNat).toNat 0)))) ∧
  (∀ (op : ScalOp) (f : UB) (s : State) (x : Issue), Issues (ubForm op f) s x →
    DoesToWarp (ubForm op f) s x (fun w => swrite w f.sd.toNat (BitVec.ofNat 32 (scalEval op (f.sub.toNat % 8)
      (sread w f.sa.toNat).toNat (sread w f.sb.toNat).toNat (sread w f.sc.toNat).toNat (sread w f.sa.toNat).toNat
      (toSigned 14 f.imm.toNat))))) ∧
  (∀ (op : ScalOp) (f : UI) (s : State) (x : Issue), Issues (uiForm op f) s x →
    DoesToWarp (uiForm op f) s x (fun w => swrite w f.sd.toNat (BitVec.ofNat 32 (scalEval op (f.sub.toNat % 8)
      (sread w f.sa.toNat).toNat f.imm.toNat (sread w f.sd.toNat).toNat f.imm.toNat 0))))

/-! ### Control transfer, masks, elastic warps, special registers -/

/-- R126, R127, R129, R236: BRA moves every issuing lane, BRC every one or none by its condition, BRP the active lanes: all of
them, none, or some, and then the sub-braid splits. -/
def Obligations.BranchesComplete : Prop :=
  (∀ (f : UJ) (s : State) (x : Issue), Issues (.bra f) s x →
    Does (.bra f) s x (.jump (x.b.pc + 4 + BitVec.ofInt 57 (4 * f.off.toInt))) s) ∧
  (∀ (f : UI) (s : State) (x : Issue), Issues (.brc f) s x →
    let v := (sread x.w f.sa.toNat).toInt
    let taken := match f.sub.toNat with
      | 0 => v = 0 | 1 => v ≠ 0 | 2 => v < 0 | 3 => 0 ≤ v | 4 => 0 < v | _ => v ≤ 0
    (taken → Does (.brc f) s x (.jump (x.b.pc + 8 + BitVec.ofInt 57 (4 * f.imm.toInt))) s) ∧
    (¬ taken → Does (.brc f) s x .advance s)) ∧
  (∀ (f : LB) (s : State) (x : Issue), Issues (.brp f) s x →
    let act := guardLanes x.w x.b.lanes f.gn f.gp.toNat
    let next := x.b.pc + 8
    let target := next + BitVec.ofInt 57 (4 * toSigned 24 (f.vd.toNat * 65536 + f.vb.toNat * 256 + f.vc.toNat))
    (act = x.b.lanes → Does (.brp f) s x (.jump target) s) ∧
    (act ≠ x.b.lanes → act = 0 → Does (.brp f) s x (.jump next) s) ∧
    (act ≠ x.b.lanes → act ≠ 0 → Does (.brp f) s x (.placed true)
      (modWarp s x.wid (fun w => splitBraid (advanceBraid w x.b.id next) x.b act next target s.clock))))

/-- R128: CALL writes the address after it to s382 and s383 and jumps; RET and JMPI jump to the address in a scalar pair,
bits [31:25] of its high word ignored, or raise ALIGN with ETVAL = 4 and EADDR = the target, and no lane moves there; with
sa = 383 they raise ILL. -/
def Obligations.CallsComplete : Prop :=
  (∀ (f : UJ) (s : State) (x : Issue), Issues (.call f) s x →
    Does (.call f) s x (.jump (x.b.pc + 4 + BitVec.ofInt 57 (4 * f.off.toInt)))
      (modWarp s x.wid (fun w => swrite (swrite w 382 ((x.b.pc + 4).extractLsb' 0 32)) 383
        (BitVec.setWidth 32 ((x.b.pc + 4).extractLsb' 32 25))))) ∧
  (∀ (f : UA) (s : State) (x : Issue) (i : Instr), (i = .ret f ∨ i = .jmpi f) → Issues i s x →
    let target := (sread x.w f.sa.toNat).toNat + 2 ^ 32 * ((sread x.w (f.sa.toNat + 1)).toNat % 2 ^ 25)
    (target % 4 = 0 → Does i s x (.jump (BitVec.ofNat 57 target)) s) ∧
    (target % 4 ≠ 0 → Does i s x (.trap ⟨cALIGN, x.b.lanes, target, 4, false, false⟩) s)) ∧
  (∀ (f : UA) (s : State) (x : Issue) (i : Instr), (i = .ret f ∨ i = .jmpi f) → f.sa = 383 → issuerOf s i = some x →
    Does i s x (.trap ⟨cILL, x.b.lanes, 0, (word0 i).toNat, false, false⟩) s)

/-- R132, R133: JOIN adds the issuing lanes to the mask and 1 to their nesting counters; LEAVE takes its members out and 1
from theirs; a counter at 255, or at 0, raises NEST for its lanes, and nothing changes. -/
def Obligations.JoinLeaveComplete : Prop :=
  (∀ (f : UA) (s : State) (x : Issue), Issues (.join f) s x →
    let full := nestAt x.w x.b.lanes 255
    (full = 0 → DoesToWarp (.join f) s x (fun w =>
      nestUp (mwrite w f.sd.toNat (mread w f.sd.toNat ||| x.b.lanes)) x.b.lanes)) ∧
    (full ≠ 0 → Does (.join f) s x (.trap (trapOf cNEST full f.sd.toNat)) s)) ∧
  (∀ (f : UA) (s : State) (x : Issue), Issues (.leave f) s x →
    let m := x.b.lanes &&& mread x.w f.sd.toNat
    let empty := nestAt x.w m 0
    (empty = 0 → Does (.leave f) s x .advance (settleWarp (modWarp s x.wid (fun w =>
      nestDown (mwrite w f.sd.toNat (mread w f.sd.toNat &&& ~~~m)) m)) x.wid)) ∧
    (empty ≠ 0 → Does (.leave f) s x (.trap (trapOf cNEST empty f.sd.toNat)) s))

/-- R130, R134, R136, R138, R141: WAIT parks the issuing members, MOPS moves and combines masks, EXIT ends the issuing lanes,
DETACH parks them to leave, YIELD and SLEEPC give up the quadrant; after those that can complete a WAIT, WAITs are looked at
again. -/
def Obligations.MasksAndPausesComplete : Prop :=
  (∀ (f : UA) (s : State) (x : Issue), Issues (.wait f) s x →
    let m := x.b.lanes &&& mread x.w f.sd.toNat
    (m = 0 → Does (.wait f) s x .advance (settleWarp s x.wid)) ∧
    (m ≠ 0 → Does (.wait f) s x (.placed (m == x.b.lanes))
      (settleWarp (parkIssuing s x m (.mask f.sd.toNat)) x.wid))) ∧
  (∀ (f : UA) (s : State) (x : Issue), Issues (.mops f) s x →
    Does (.mops f) s x .advance (settleWarp (modWarp s x.wid (fun w =>
      let j := mread w f.sa.toNat
      match f.sub.toNat with
      | 0 => mwrite w f.sd.toNat 0
      | 1 => mwrite w f.sd.toNat (liveMask w)
      | 2 => mwrite w f.sd.toNat j
      | 3 => mwrite w f.sd.toNat (mread w f.sd.toNat &&& j)
      | 4 => mwrite w f.sd.toNat (mread w f.sd.toNat ||| j)
      | 5 => mwrite w f.sd.toNat (mread w f.sd.toNat &&& ~~~j)
      | 6 => mwrite w f.sd.toNat x.b.lanes
      | 7 => swrite (swrite w f.sd.toNat (j.extractLsb' 0 32)) (f.sd.toNat + 1) (j.extractLsb' 32 32)
      | 8 => mwrite w f.sd.toNat (sread w (f.sa.toNat + 1) ++ sread w f.sa.toNat)
      | _ => swrite w f.sd.toNat (BitVec.ofNat 32 (lanesOf j).length))) x.wid)) ∧
  (∀ (f : UA) (s : State) (x : Issue), Issues (.exit f) s x → Does (.exit f) s x (.placed true) (exitOp s x.wid x.b.lanes)) ∧
  (∀ (f : UA) (s : State) (x : Issue), Issues (.detach f) s x →
    Does (.detach f) s x (.placed true) (settleWarp (parkIssuing s x x.b.lanes .detach) x.wid)) ∧
  (∀ (f : UA) (s : State) (x : Issue), Issues (.yield f) s x →
    Does (.yield f) s x (.jump (x.b.pc + 4))
      (modWarp s x.wid (fun w => modBraid w x.b.id (fun b => { b with lastGrant := s.clock })))) ∧
  (∀ (f : UB) (s : State) (x : Issue), Issues (.sleepc f) s x →
    Does (.sleepc f) s x (.jump (x.b.pc + 8)) (modWarp s x.wid (fun w => modBraid w x.b.id (fun b =>
      { b with wake := if (blockOf s x.w).any (·.halted) then 0
          else s.clock + min (f.imm.toNat + (if f.sub = 1 then (sread x.w f.sa.toNat).toNat else 0)) 1048575 }))))

/-- R137, R143, R36, R38, R41, R40, R399: SRD gives a special register, once or per issuing lane, and CLKLO's read latches the
high half; SWR writes one; WAITC goes on once its counter has fallen, and on MX outside trap mode delivers a pending MCHK. -/
def Obligations.SpecialRegistersComplete : Prop :=
  (∀ (f : UB) (s : State) (x : Issue), Issues (.srd f) s x → DoesToWarp (.srd f) s x (fun w =>
    let w := if f.imm.toNat = 8 then { w with clkhi := BitVec.ofNat 32 (s.clock / 2 ^ 32) } else w
    if f.sub = 0 then swrite w f.sd.toNat (sregLane s x.w f.imm.toNat 0)
    else (lanesOf x.b.lanes).foldl (fun w l => vwrite w f.sd.toNat l (sregLane s x.w f.imm.toNat l)) w)) ∧
  (∀ (f : UB) (s : State) (x : Issue), Issues (.swr f) s x →
    (f.imm.toNat = 0x28 → Does (.swr f) s x .advance
      (modBlock s x.w.block (fun b => { b with mstat := b.mstat &&& ~~~(sread x.w f.sa.toNat &&& 0x70000) }))) ∧
    (f.imm.toNat ≠ 0x28 → DoesToWarp (.swr f) s x (swrWarp f.imm.toNat (sread x.w f.sa.toNat)))) ∧
  (∀ (f : UB) (s : State) (x : Issue), Issues (.waitc f) s x →
    waitCounter x.w f.sub.toNat ≤ f.imm.toNat ∧
    ((f.sub.toNat ≠ 3 ∨ x.w.trapMode = true ∨ x.w.mchk = none) → Does (.waitc f) s x .advance s) ∧
    (∀ n, f.sub.toNat = 3 → x.w.trapMode = false → x.w.mchk = some n →
      Does (.waitc f) s x (.trap (trapOf cMCHK x.b.lanes n)) (modWarp s x.wid (fun w => { w with mchk := none }))))

/-- R139, R140, R142, R248: ATTACH without wait attaches the warps that fit, at most as many as asked, and returns how many;
with wait it attaches all of them, or waits in the resource queue; REGGROW grows the window or waits; REGSHRINK shrinks it, and the
granules that leave serve the resource queues and make a pass due; a window that is large enough, and one that is small enough, end
at once with the window in sd. -/
def Obligations.ElasticWarpsComplete : Prop :=
  (∀ (f : UI) (s : State) (x : Issue), Issues (.attach f) s x →
    let label := x.b.pc + 8 + BitVec.ofInt 57 (4 * toSigned 16 (f.imm.toNat % 65536))
    let args := (List.range 32).map (sread x.w)
    let c := (sread x.w f.sa.toNat).toNat
    let q := ResReq.attach f.sd.toNat c label (f.imm.extractLsb' 16 16) args
    (f.sub = 0 → Does (.attach f) s x .advance
      (let r := attachAll x.w label (f.imm.extractLsb' 16 16) args x.w.fctl (attachMax s x.w c) s
       modWarp r.2 x.wid (fun w => swrite w f.sd.toNat (BitVec.ofNat 32 r.1)))) ∧
    (∀ t, f.sub ≠ 0 → requestNow s x x.w.core q = some t → Does (.attach f) s x .advance t) ∧
    (f.sub ≠ 0 → requestNow s x x.w.core q = none →
      exec (.attach f) s = .next (finish x (enqueueRequest s x x.w.core q)))) ∧
  (∀ (f : UA) (s : State) (x : Issue), Issues (.reggrow f) s x →
    let q := ResReq.grow f.sd.toNat f.sa.toNat
    (8 * f.sa.toNat ≤ x.w.win → DoesToWarp (.reggrow f) s x (fun w => swrite w f.sd.toNat (BitVec.ofNat 32 x.w.win))) ∧
    (∀ t, x.w.win < 8 * f.sa.toNat → requestNow s x x.w.core q = some t → Does (.reggrow f) s x .advance t) ∧
    (x.w.win < 8 * f.sa.toNat → requestNow s x x.w.core q = none →
      exec (.reggrow f) s = .next (finish x (enqueueRequest s x x.w.core q)))) ∧
  (∀ (f : UA) (s : State) (x : Issue), Issues (.regshrink f) s x →
    (x.w.win ≤ 8 * f.sa.toNat → DoesToWarp (.regshrink f) s x (fun w => swrite w f.sd.toNat (BitVec.ofNat 32 x.w.win))) ∧
    (8 * f.sa.toNat < x.w.win →
      let s1 := modWarp s x.wid (fun w => swrite (setWindow w (8 * f.sa.toNat)) f.sd.toNat (BitVec.ofNat 32 (8 * f.sa.toNat)))
      Does (.regshrink f) s x .advance (passDue (servePair (trimLoads s1 x.wid (8 * f.sa.toNat)) x.w.core))))

/-- R145, R146: TRAP raises TRAPI with its number and BRK raises BRK, for every issuing lane; ERET resumes the lanes of the trap
and ends its run; where it cannot fetch the word at EPC for handler lanes that resume behind it, they take that fault at EPC. -/
def Obligations.TrapInstructionsComplete : Prop :=
  (∀ (f : UB) (s : State) (x : Issue), Issues (.trap f) s x →
    Does (.trap f) s x (.trap ⟨0x13, x.b.lanes, 0, f.imm.toNat, false, false⟩) s) ∧
  (∀ (f : UA) (s : State) (x : Issue), Issues (.brk f) s x →
    Does (.brk f) s x (.trap ⟨0x10, x.b.lanes, 0, 0, false, false⟩) s) ∧
  (∀ (f : UA) (s : State) (x : Issue), Issues (.eret f) s x →
    let epc := x.w.epc &&& ~~~(3#57)
    let leave := fun (t : State) (after : VAddr) => modWarp t x.wid (fun v => eretWarp v (handlerLanes x.w) x.b.lastGrant t.clock after)
    (∀ (long : Bool) t, eretFetch s x.w = (.ok long, t) →
      Does (.eret f) s x (.placed true) (leave t (epc + (if long then 8 else 4)))) ∧
    (∀ c et t, eretFetch s x.w = (.error (c, et), t) →
      Does (.eret f) s x (.placed true) (takeTrap (leave t epc) x.wid epc x.b.lastGrant
        ⟨c, handlerLanes x.w &&& ~~~x.w.emask, epc.toNat, et, decide (c = cPAGE), false⟩)))

/-! ### Scratch and global memory -/

/-- R43, R153, R154, R156, R157, R158, R261, R452: LDS and SLDS from the warp's own scratch, its lines present, end at once: each
lane's bytes, low byte first, are the value of its registers. Elsewhere, and on absent lines, the load is sent to the port or parks.
ALIGN, SCRB, POIS and WATCH are raised where those rules say. -/
def Obligations.ScratchLoadsComplete : Prop :=
  (∀ f, ScratchTraps (.lds f)) ∧ (∀ f, ScratchTraps (.slds f)) ∧
  (∀ (f : LM) (s : State) (x : Issue) (bid : Nat) (b : Block), Issues (.lds f) s x →
    let sz := f.sub.toNat % 8
    let addrs := scratchLanes x f (bit f.sub.toNat 3)
    let cells := scratchCells x s (szBytes sz) addrs
    let l := scratchPLoad x (.vec f.vd.toNat) (szBytes sz) (szSigned sz) none (cells.map (fun c => ⟨c.1, c.2.1, c.2.2, none, false, [], []⟩))
    ScratchClear x s (szBytes sz) addrs true false →
    (cells = [] → Does (.lds f) s x .advance s) ∧
    (cells ≠ [] → exec (.lds f) s = .next (finish x (scratchLoad x s l))) ∧
    (cells ≠ [] → OwnPresent s x (szBytes sz) cells bid b →
      Does (.lds f) s x .advance (returnLoad { s with fresh := s.fresh + 1 } { l with
        id := s.fresh
        counts := false
        parts := cells.map (fun c => ⟨c.1, c.2.1, c.2.2, some (bytesAt b.scratch (codeOff c.2.1) (szBytes sz)),
          linesPoisoned b (codeOff c.2.1) (szBytes sz), [], []⟩) }))) ∧
  (∀ (f : UB) (s : State) (x : Issue) (bid : Nat) (b : Block), Issues (.slds f) s x →
    let sz := f.sub.toNat
    let addrs := [(lowestLane x.b.lanes, scratchUniAddr x.w f)]
    let cells := scratchCells x s (szBytes sz) addrs
    let l := scratchPLoad x (.scal f.sd.toNat) (szBytes sz) (szSigned sz) none (cells.map (fun c => ⟨c.1, c.2.1, c.2.2, none, false, [], []⟩))
    ScratchClear x s (szBytes sz) addrs true false →
    exec (.slds f) s = .next (finish x (scratchLoad x s l)) ∧
    (OwnPresent s x (szBytes sz) cells bid b →
      Does (.slds f) s x .advance (returnLoad { s with fresh := s.fresh + 1 } { l with
        id := s.fresh
        counts := false
        parts := cells.map (fun c => ⟨c.1, c.2.1, c.2.2, some (bytesAt b.scratch (codeOff c.2.1) (szBytes sz)),
          linesPoisoned b (codeOff c.2.1) (szBytes sz), [], []⟩) })))

/-- R156, R157: after LDS from the warp's own scratch, each active lane whose bytes are not poisoned holds them, low byte
first and extended by SZ, in its registers; the other lanes' registers are as they were. -/
def Obligations.ScratchLoadValues : Prop :=
  ∀ (f : LM) (s t : State) (x : Issue) (bid : Nat) (b : Block), Issues (.lds f) s x →
    let n := szBytes (f.sub.toNat % 8)
    let k := max 1 ((n + 3) / 4)
    let addrs := scratchLanes x f (bit f.sub.toNat 3)
    let cells := scratchCells x s n addrs
    ScratchClear x s n addrs true false → cells ≠ [] → OwnPresent s x n cells bid b →
    WarpCanonical x.w → exec (.lds f) s = .next t →
    ∃ w, tget t.warps x.wid = some w ∧
      (∀ c ∈ cells, linesPoisoned b (codeOff c.2.1) n = false →
        vreadN w f.vd.toNat c.1 k = loadValue (szSigned (f.sub.toNat % 8)) (bytesAt b.scratch (codeOff c.2.1) n)) ∧
      (∀ l r, l < 64 → (∀ c ∈ cells, c.1 ≠ l) → vread w r l = vread x.w r l)

/-- R156, R158, R186, R261: STS and SSTS to the warp's own scratch, its lines present, write each lane's low bytes at its
place, in ascending order of lanes, and nothing else of the machine. ALIGN, SCRB, POIS and WATCH are raised where R153, R154, R157, R261
and R452 say. -/
def Obligations.ScratchStoresComplete : Prop :=
  (∀ f, ScratchTraps (.sts f)) ∧ (∀ f, ScratchTraps (.ssts f)) ∧
  (∀ (f : LM) (s : State) (x : Issue) (bid : Nat) (b : Block), Issues (.sts f) s x →
    let n := szBytes (f.sub.toNat % 8)
    let addrs := scratchLanes x f (bit f.sub.toNat 3)
    let cells := scratchCells x s n addrs
    let data := fun (l : Nat) => toBytes n (vreadN x.w f.vd.toNat l ((n + 3) / 4))
    ScratchClear x s n addrs false true →
    (cells = [] → Does (.sts f) s x .advance s) ∧
    (cells ≠ [] → exec (.sts f) s = .next (finish x (scratchStore x s (cells.map (fun c => (c.2.1, data c.1)))))) ∧
    (cells ≠ [] → OwnPresent s x n cells bid b → Does (.sts f) s x .advance
      (modBlock s bid (fun b => cells.foldl (fun b c => putScratch b (codeOff c.2.1) (data c.1)) b)))) ∧
  (∀ (f : UB) (s : State) (x : Issue) (bid : Nat) (b : Block), Issues (.ssts f) s x →
    let n := szBytes f.sub.toNat
    let addrs := [(lowestLane x.b.lanes, scratchUniAddr x.w f)]
    let cells := scratchCells x s n addrs
    let bytes := toBytes n (sreadN x.w f.sb.toNat ((n + 3) / 4))
    ScratchClear x s n addrs false true →
    exec (.ssts f) s = .next (finish x (scratchStore x s (cells.map (fun c => (c.2.1, bytes))))) ∧
    (OwnPresent s x n cells bid b → Does (.ssts f) s x .advance
      (modBlock s bid (fun b => cells.foldl (fun b c => putScratch b (codeOff c.2.1) bytes) b))))

/-- R154, R156, R158, R261: a store to scratch, STS or SSTS, that completes at once leaves every byte of scratch of its block outside
the stored bytes as it was, and every other block. -/
def Obligations.ScratchStoreFrame : Prop :=
  ∀ (i : Instr) (a : Access) (s t : State) (x : Issue) (bid : Nat) (b : Block), ((∃ f, i = .sts f) ∨ ∃ f, i = .ssts f) → Issues i s x →
    scratchForm x i = some a →
    let cells := scratchCells x s a.size a.addrs
    ScratchClear x s a.size a.addrs false true → OwnPresent s x a.size cells bid b → memWf b.scratch → exec i s = .next t →
    (∃ b', tget t.blocks bid = some b' ∧ ∀ o, (∀ c ∈ cells, o < codeOff c.2.1 ∨ codeOff c.2.1 + a.size ≤ o) →
      byteAt b'.scratch o = byteAt b.scratch o) ∧
    (∀ k, k ≠ bid → tget t.blocks k = tget s.blocks k) ∧ t.mem = s.mem ∧ t.slices = s.slices ∧ t.net = s.net ∧
    (∀ k, k ≠ x.wid → tget t.warps k = tget s.warps k) ∧
    (∃ w, tget t.warps x.wid = some w ∧ w.vregs = x.w.vregs ∧ w.sregs = x.w.sregs ∧ w.preds = x.w.preds ∧ w.masks = x.w.masks
      ∧ w.nest = x.w.nest ∧ w.fstat = x.w.fstat ∧ w.fctl = x.w.fctl ∧ w.epc = x.w.epc ∧ w.ecause = x.w.ecause)

/-- R166, R167, R221: ATOMS performs, lane by lane in ascending order, one indivisible operation on each lane's element of its own
scratch; vd takes the values before, and a releasing one at .blk or wider drops the descriptor cache entries of its cluster. ALIGN,
SCRB, POIS and WATCH are raised where R153, R154, R157, R261 and R452 say. -/
def Obligations.ScratchAtomicsComplete : Prop :=
  (∀ f, ScratchTraps (.atoms f)) ∧
  (∀ (f : LM) (s : State) (x : Issue) (bid : Nat) (b : Block), Issues (.atoms f) s x →
    let op := atomOpOf f.sub.toNat (sread x.w (f.sbase.toNat + 1)).toNat
    let n := atomBytes op.ty
    let addrs := scratchLanes x f true
    let cells := scratchCells x s n addrs
    let parts : List LanePart := cells.map (fun c => ⟨c.1, c.2.1, c.2.2, none, false, (atomOperands x.w f.vd.toNat c.1 f.sub.toNat).1,
      (atomOperands x.w f.vd.toNat c.1 f.sub.toNat).2⟩)
    ScratchClear x s n addrs true true →
    (cells = [] → Does (.atoms f) s x .advance s) ∧
    (cells ≠ [] → exec (.atoms f) s = .next (finish x (scratchLoad x s (scratchPLoad x (.vec f.vd.toNat) n false (some op) parts)))) ∧
    (cells ≠ [] → OwnPresent s x n cells bid b →
      let s0 := dropDescsOf s x.wid op
      let s1 := modWarp { s0 with fresh := s.fresh + 1 } x.wid (fun w => { w with ld := w.ld + 1 })
      let s2 := if mayAcquire op then modWarp s1 x.wid (fun w => { w with acqLoad := some s.fresh }) else s1
      let r := atomParts op parts b
      Does (.atoms f) s x .advance (returnLoad (modBlock s2 bid (fun _ => r.1))
        { scratchPLoad x (.vec f.vd.toNat) n false (some op) parts with id := s.fresh, counts := true, parts := r.2 }))) ∧
  (∀ (op : AtomOp) (b : Block) (p : LanePart), b.ended = false → linesPoisoned b (codeOff p.addr) (atomBytes op.ty) = false →
    let old := bytesAt b.scratch (codeOff p.addr) (atomBytes op.ty)
    atomPart op b p = (putScratch b (codeOff p.addr) (toBytes (atomBytes op.ty)
      (atomApply op.aop op.ty (ofBytes old) (ofBytes p.operand) (ofBytes p.swap))), { p with value := some old, pois := false }))

/-- R153, R154, R156, R157, R158: LDG and SLDG translate their addresses and start a load with one part per active lane; LD rises. ALIGN,
PAGE, PERM and POIS are raised where those rules say. -/
def Obligations.GlobalLoadsComplete : Prop :=
  (∀ f, GlobalTraps (.ldg f)) ∧ (∀ f, GlobalTraps (.sldg f)) ∧
  (∀ (f : LM) (s : State) (x : Issue), Issues (.ldg f) s x →
    let sz := f.sub.toNat % 8
    let addrs := globalLanes x f (bit f.sub.toNat 3)
    let cells := globalCells x s addrs true false
    GlobalClear x s (szBytes sz) addrs true false →
    (cells = [] → Does (.ldg f) s x .advance (cached x s addrs)) ∧
    (cells ≠ [] → Does (.ldg f) s x .advance
      (startLoad x (cached x s addrs) (.vec f.vd.toNat) (szBytes sz) (szSigned sz) (spanOf (f.sub.toNat / 16))
        (cells.map (fun c => ⟨c.1, c.2.1, c.2.2, none, false, [], []⟩))))) ∧
  (∀ (f : UB) (s : State) (x : Issue), Issues (.sldg f) s x →
    let addrs := [(lowestLane x.b.lanes, globalUniAddr x.w f)]
    let cells := globalCells x s addrs true false
    GlobalClear x s (szBytes f.sub.toNat) addrs true false →
    Does (.sldg f) s x .advance
      (startLoad x (cached x s addrs) (.scal f.sd.toNat) (szBytes f.sub.toNat) (szSigned f.sub.toNat) 0
        (cells.map (fun c => ⟨c.1, c.2.1, c.2.2, none, false, [], []⟩)))) ∧
  (∀ (x : Issue) (s : State) (dst : LoadDst) (n sp : Nat) (sg : Bool) (ps : List LanePart) (w : Warp), tget s.warps x.wid = some w →
    let t := startLoad x s dst n sg sp ps
    (tget t.warps x.wid).map (·.ld) = some (w.ld + 1) ∧ (tget t.net.loads s.fresh).map (·.parts) = some ps ∧ t.mem = s.mem ∧ t.slices = s.slices)

/-- R156, R158, R159, R284, R288: STG and SSTG enter the store queue with one piece per active lane, and raise ST and the CW
counters of their class; STNT goes on its way at once. ALIGN, PAGE, PERM, TOKEN and POIS are raised where R153, R154, R157 and R170
say. -/
def Obligations.GlobalStoresComplete : Prop :=
  (∀ f, GlobalTraps (.stg f)) ∧ (∀ f, GlobalTraps (.sstg f)) ∧ (∀ f, GlobalTraps (.stnt f)) ∧
  (∀ (f : LM) (s : State) (x : Issue), Issues (.stg f) s x →
    let n := szBytes (f.sub.toNat % 8)
    let addrs := globalLanes x f (bit f.sub.toNat 3)
    let cells := globalCells x s addrs false true
    let ps := cells.map (fun c => (⟨c.2.1, toBytes n (vreadN x.w f.vd.toNat c.1 ((n + 3) / 4))⟩ : Piece))
    let s1 := cached x s addrs
    GlobalClear x s n addrs false true →
    (cells = [] → Does (.stg f) s x .advance s1) ∧
    (cells ≠ [] → cwFull x.w (cwOfPieces s1 (dieOfCore x.w.core) ps) = false →
      (startStore x s1 .store ps).1 = .advance ∧ Does (.stg f) s x .advance (startStore x s1 .store ps).2)) ∧
  (∀ (f : UB) (s : State) (x : Issue), Issues (.sstg f) s x →
    let n := szBytes f.sub.toNat
    let addrs := [(lowestLane x.b.lanes, globalUniAddr x.w f)]
    let ps := (globalCells x s addrs false true).map (fun c => (⟨c.2.1, toBytes n (sreadN x.w f.sb.toNat ((n + 3) / 4))⟩ : Piece))
    let s1 := cached x s addrs
    GlobalClear x s n addrs false true → cwFull x.w (cwOfPieces s1 (dieOfCore x.w.core) ps) = false →
      Does (.sstg f) s x .advance (startStore x s1 .store ps).2) ∧
  (∀ (x : Issue) (s : State) (k : WKind) (ps : List Piece) (w : Warp), tget s.warps x.wid = some w →
    cwFull x.w (cwOfPieces s (dieOfCore x.w.core) ps) = false →
    let t := (startStore x s k ps).2
    (tget t.warps x.wid).map (fun w => (w.st, w.storeQ)) = some (w.st + 1, w.storeQ ++ [.global s.fresh k ps]) ∧ t.mem = s.mem ∧ t.slices = s.slices) ∧
  (∀ (f : LM) (s : State) (x : Issue), Issues (.stnt f) s x →
    let n := szBytes (f.sub.toNat % 8)
    let addrs := globalLanes x f (bit f.sub.toNat 3)
    let cells := globalCells x s addrs false true
    let ps := cells.map (fun c => (⟨c.2.1, toBytes n (vreadN x.w f.vd.toNat c.1 ((n + 3) / 4))⟩ : Piece))
    let s1 := cached x s addrs
    GlobalClear x s n addrs false true →
    (cells = [] → Does (.stnt f) s x .advance s1) ∧
    (cells ≠ [] →
      let s2 := modNet { s1 with fresh := s1.fresh + 1 } (fun t => { t with
        groups := tput t.groups s1.fresh ⟨s1.fresh, x.wid, ⟨false, false, false, false⟩, 0, (packetsOf ps).length, true, true⟩ })
      Does (.stnt f) s x .advance
        (modWarp ((packetsOf ps).foldl (addNt x s1.fresh) s2) x.wid (fun w => { w with st := w.st + 1 }))))

/-- R164 to R169: ATOMG and SATOMG start an atomic with one part per active lane, and LD rises; REDG enters the store queue
as a write. ALIGN, PAGE, PERM, TOKEN and POIS are raised where R153, R154, R157 and R170 say. -/
def Obligations.GlobalAtomicsComplete : Prop :=
  (∀ f, GlobalTraps (.atomg f)) ∧ (∀ f, GlobalTraps (.satomg f)) ∧ (∀ f, GlobalTraps (.redg f)) ∧
  (∀ (f : LM) (s : State) (x : Issue), Issues (.atomg f) s x →
    let op := atomOpOf f.sub.toNat (sread x.w (f.sbase.toNat + 2)).toNat
    let addrs := globalLanes x f true
    let cells := globalCells x s addrs true true
    GlobalClear x s (atomBytes op.ty) addrs true true →
    (cells = [] → Does (.atomg f) s x .advance (cached x s addrs)) ∧
    (cells ≠ [] → Does (.atomg f) s x .advance (startAtomic x (cached x s addrs) (.vec f.vd.toNat) op (cells.map (fun c =>
      ⟨c.1, c.2.1, c.2.2, none, false, (atomOperands x.w f.vd.toNat c.1 f.sub.toNat).1, (atomOperands x.w f.vd.toNat c.1 f.sub.toNat).2⟩))))) ∧
  (∀ (f : UB) (s : State) (x : Issue), Issues (.satomg f) s x →
    let ty := bits f.imm.toNat 8 3
    let op := atomOpOf (8 * f.sub.toNat + ty) (f.imm.toNat % 256)
    let addrs := [(lowestLane x.b.lanes, spair x.w f.sa.toNat)]
    GlobalClear x s (atomBytes ty) addrs true true →
    Does (.satomg f) s x .advance (startAtomic x (cached x s addrs) (.scal f.sd.toNat) op ((globalCells x s addrs true true).map (fun c =>
      ⟨c.1, c.2.1, c.2.2, none, false, toBytes (4 * atomRegs ty) (sreadN x.w f.sb.toNat (atomRegs ty)),
        if f.sub.toNat = 7 then toBytes (4 * atomRegs ty) (sreadN x.w f.sc.toNat (atomRegs ty)) else []⟩)))) ∧
  (∀ (f : LM) (s : State) (x : Issue), Issues (.redg f) s x →
    let op := atomOpOf f.sub.toNat (sread x.w (f.sbase.toNat + 2)).toNat
    let addrs := globalLanes x f true
    let cells := globalCells x s addrs true true
    let ps := cells.map (fun c => (⟨c.2.1, (atomOperands x.w f.vd.toNat c.1 f.sub.toNat).1⟩ : Piece))
    let s1 := cached x s addrs
    GlobalClear x s (atomBytes op.ty) addrs true true →
    (cells = [] → Does (.redg f) s x .advance s1) ∧
    (cells ≠ [] → cwFull x.w (cwOfPieces s1 (dieOfCore x.w.core) ps) = false → Does (.redg f) s x .advance
      (let t := (startStore x s1 (.redg op) ps).2
       dropDescsOf t x.wid op)))

/-- R160, R171 to R176: the prefetches start their fills; FENCE at .wrp goes on, .acq goes on as an acquire, .rel leaves its
release pending, .acqrel does both, and .sc, which has waited for its release, drops the descriptor cache entries and goes on as
an acquire; DRAINNT holds later accesses while an STNT is not acknowledged; FLUSH of no bytes ends at once; else, once its pages
are found, one piece of work for the homes of its range counts in ST; where some page fails, the first that does, in ascending
order, raises its cause with that page's lowest address in the range. -/
def Obligations.HintsAndFencesComplete : Prop :=
  (∀ (f : LM) (s : State) (x : Issue), Issues (.prefg f) s x →
    Does (.prefg f) s x .advance
      (prefetch x s f.vd.toNat ((globalLanes x f (bit f.sub.toNat 3)).map (fun e => (laneBit e.1, e.2))))) ∧
  (∀ (f : UB) (s : State) (x : Issue), Issues (.pref f) s x →
    Does (.pref f) s x .advance (prefetch x s f.imm.toNat [(x.b.lanes, spair x.w f.sa.toNat)])) ∧
  (∀ (x : Issue) (s : State) (n : Nat) (vas : List (Mask × Nat)), Cached x s (vas.map Prod.snd) →
    (prefetch x s n vas).warps = s.warps ∧ (prefetch x s n vas).mem = s.mem ∧ (prefetch x s n vas).slices = s.slices ∧
    (prefetch x s n vas).blocks = s.blocks ∧ (prefetch x s n vas).bays = s.bays) ∧
  (∀ (f : UB) (s : State) (x : Issue), Issues (.fence f) s x →
    let ord := f.imm.toNat % 8
    let scope := f.imm.toNat / 8
    (scope = 0 → Does (.fence f) s x .advance s) ∧
    (scope ≠ 0 → ord = 1 → DoesToWarp (.fence f) s x (fun w => acquire w s.clock scope x.seam)) ∧
    (scope ≠ 0 → ord = 2 → Does (.fence f) s x .advance
      (noteRelease (modWarp s x.wid (fun w => { w with release := some scope })) x.wid)) ∧
    (scope ≠ 0 → ord = 3 → Does (.fence f) s x .advance
      (noteRelease (modWarp s x.wid (fun w => acquire { w with release := some scope } s.clock scope x.seam)) x.wid)) ∧
    (scope ≠ 0 → ord = 4 → Does (.fence f) s x .advance
      (modWarp (dropDescs s x.wid) x.wid (fun w => acquire w s.clock scope x.seam)))) ∧
  (∀ (f : UB) (s : State) (x : Issue), Issues (.drainnt f) s x →
    DoesToWarp (.drainnt f) s x (fun w => { w with drain := ntLeft s x.wid })) ∧
  (∀ (f : UB) (s : State) (x : Issue), Issues (.flush f) s x →
    let base := spair x.w f.sa.toNat
    let n := (sread x.w f.sb.toNat).toNat
    let lo := base / 32 * 32
    let pages := pagesOf 65538 lo ((base + n + 31) / 32 * 32 - lo)
    let walkOf := fun (p : Nat × Nat) => xlatePa s x.w.core x.ctx p.1 (f.sub.toNat != 2) (f.sub.toNat == 2) false
    (n = 0 → Does (.flush f) s x .advance s) ∧
    (n ≠ 0 → (∀ p ∈ pages, (walkOf p).toOption.isSome = true) →
      let rs := pages.filterMap (fun p => (walkOf p).toOption.map (fun r => (r.1 / 32, p.2 / 32)))
      let s1 := pages.foldl (fun s p => cacheVa s x.w.core x.ctx p.1) s
      Does (.flush f) s x .advance (modWarp (modNet { s1 with fresh := s1.fresh + 1 } (fun t => { t with
        flushes := tput t.flushes s1.fresh ⟨s1.fresh, x.wid, f.sub.toNat, rs⟩
        groups := tput t.groups s1.fresh ⟨s1.fresh, x.wid, ⟨false, false, false, false⟩, 0, 1, true, false⟩ }))
        x.wid (fun w => { w with st := w.st + 1 }))) ∧
    (∀ before p after c et, n ≠ 0 → pages = before ++ p :: after → (∀ q ∈ before, (walkOf q).toOption.isSome = true) →
      walkOf p = .error (c, et) →
      Does (.flush f) s x (.trap ⟨c, x.b.lanes, p.1, et, decide (c = cPAGE), false⟩)
        (pages.foldl (fun s p => cacheVa s x.w.core x.ctx p.1) s)))

/-! ### Synchronisation -/

/-- R177 to R180: an arrive counts its issuing lanes, or parks them for the next phase; a wait goes on as an acquire once the
phase of the warp's arrival has passed, else it parks its lanes for it; BARS is one after the other; GRIDBAR parks until the
grid's phase passes. -/
def Obligations.BarriersComplete : Prop :=
  (∀ (i : Instr) (f : UB) (b : Bar) (s : State) (x : Issue),
    ((i = .bara f ∧ b = .bb f.sd.toNat) ∨ (i = .cbara f ∧ b = .cb f.sd.toNat)) → Issues i s x →
    (∀ t, arriveLanes s x.wid b x.b.lanes f.sa.toNat = some t → Does i s x .advance t) ∧
    (arriveLanes s x.wid b x.b.lanes f.sa.toNat = none → exec i s = .next (finish x (parkAll s x (.arrive b f.sa.toNat false))))) ∧
  (∀ (i : Instr) (f : UB) (b : Bar) (s : State) (x : Issue) (w : Warp),
    ((i = .barw f ∧ b = .bb f.sd.toNat) ∨ (i = .cbarw f ∧ b = .cb f.sd.toNat)) → Issues i s x → tget s.warps x.wid = some w →
    (waitPhase s w b = none → DoesToWarp i s x (fun w => acquire w s.clock (barScope b) (recSeam (recordOf s w)))) ∧
    (∀ ph, waitPhase s w b = some ph → exec i s = .next (finish x (parkAll s x (.phase b ph))))) ∧
  (∀ (f : UB) (s : State) (x : Issue), Issues (.bars f) s x →
    let b := Bar.bb f.sd.toNat
    (∀ t w, arriveLanes s x.wid b x.b.lanes f.sa.toNat = some t → tget t.warps x.wid = some w →
      (waitPhase t w b = none → Does (.bars f) s x .advance
        (modWarp t x.wid (fun w => acquire w t.clock (barScope b) (recSeam (recordOf t w))))) ∧
      (∀ ph, waitPhase t w b = some ph → exec (.bars f) s = .next (finish x (parkAll t x (.phase b ph))))) ∧
    (arriveLanes s x.wid b x.b.lanes f.sa.toNat = none →
      exec (.bars f) s = .next (finish x (parkAll s x (.arrive b f.sa.toNat true))))) ∧
  (∀ (f : UB) (s : State) (x : Issue), Issues (.gridbar f) s x →
    (∀ t, arriveLanes s x.wid .grid x.b.lanes f.sa.toNat = some t →
      exec (.gridbar f) s = .next (finish x (parkAll t x (.phase .grid (phaseOf t x.w .grid))))) ∧
    (arriveLanes s x.wid .grid x.b.lanes f.sa.toNat = none →
      exec (.gridbar f) s = .next (finish x (parkAll s x (.arrive .grid f.sa.toNat true)))))

/-- R181 to R185: a knot instruction on an aligned record that it may read and write sends its request to the record's home,
where its lanes wait; KGIVE of a token that the cluster holds begins its release and counts as given up at once; a record that is
not aligned, or that may not be read and written, raises its cause. It is the model's reading, not a rule, that KINIT.reg reads the
record at issue, behind the warp's own writes to it, and that its request carries the ranges and their verdict, status 3 for a
malformed record (logs 39 and 40). -/
def Obligations.KnotsComplete : Prop :=
  (∀ (i : Instr) (f : UB) (op : KnotOp) (s : State) (x : Issue) (krec : Nat),
    ((i = .kinitFree f ∧ op = .free) ∨ (i = .ktake f ∧ op = .take (f.sub == 1))) → Issues i s x →
    knotRecord x s f.sa.toNat = .ok krec →
    exec i s = .next (finish x (knotSend x (cacheVa s x.w.core x.ctx (spair x.w f.sa.toNat)) krec f.sd.toNat op false))) ∧
  (∀ (f : UB) (s : State) (x : Issue) (krec : Nat), Issues (.kinitReg f) s x → knotRecord x s f.sa.toNat = .ok krec →
    let bs := knotBytes s x.ctx krec
    ownWriteLive s x.wid x.w krec 64 = false → knotPageFault x s bs = none →
    let s1 := cacheVa s x.w.core x.ctx (spair x.w f.sa.toNat)
    exec (.kinitReg f) s = .next (finish x (knotSend x (knotWalks x s1 bs) krec f.sd.toNat
      (.reg (knotPhys x s1 krec bs) (if knotBad bs then some 3 else none)) false))) ∧
  (∀ (f : UB) (s : State) (x : Issue) (krec : Nat), Issues (.kgive f) s x → knotRecord x s f.sa.toNat = .ok krec →
    let s1 := cacheVa s x.w.core x.ctx (spair x.w f.sa.toNat)
    let t := Taker.cluster (clusterIdOf s1 x.w)
    (holdsToken s1 t krec = true → exec (.kgive f) s = .next (finish x (knotSend x
      (modWarp (startGive s1 t krec) x.wid (fun w => { w with release := some (max 4 (w.release.getD 0)) })) krec f.sd.toNat .give true))) ∧
    (holdsToken s1 t krec = false → exec (.kgive f) s = .next (finish x (knotSend x s1 krec f.sd.toNat .give false)))) ∧
  (∀ (i : Instr) (f : UB) (s : State) (x : Issue), (i = .kinitFree f ∨ i = .ktake f ∨ i = .kinitReg f ∨ i = .kgive f) → Issues i s x →
    let va := spair x.w f.sa.toNat
    (va % 64 ≠ 0 → Does i s x (.trap ⟨cALIGN, x.b.lanes, va, 64, false, false⟩) s) ∧
    (∀ c et, va % 64 = 0 → xlate s x.w.core x.ctx va true true false = .error (c, et) →
      Does i s x (.trap ⟨c, x.b.lanes, va, et, decide (c = cPAGE), false⟩) (cacheVa s x.w.core x.ctx va)))

/-- R186 to R189, R264, R267 to R270: a ring instruction on a header of the own core's scratch that its ring's own operations
left, with nothing before it at the port: RINIT writes the header; RWAIT.free claims the slot at WP; RWAIT.full takes the full
slot at RP, or delivers its copy's fault; RREL frees it; RARR counts its bytes at the slot; a wait on a header that is not valid
or has an orphan raises RING. On another core's header, and behind an access held at the port, the instruction is a message to
the port, where its lanes wait. That it completes whether or not the line of the header is present, and that its range check covers
the 16 bytes of the header, is the model's reading (log 38). -/
def Obligations.RingsComplete : Prop :=
  (∀ (f : UB) (s : State) (x : Issue) (at' : SPlace) (bid : Nat) (b : Block), Issues (.rinit f) s x →
    let n := f.imm.toNat + 1
    AtOwnPort x s (16 + 8 * n) f.sa.toNat at' →
    rankBlock s at'.cluster at'.rank = some (bid, b) → b.ended = false →
    Does (.rinit f) s x .advance (wakeRing (modBlock s bid (ringInit at' n (sread x.w f.sb.toNat).toNat)) at')) ∧
  (∀ (f : UB) (s : State) (x : Issue) (at' : SPlace) (bid : Nat) (b : Block), Issues (.rwaitFree f) s x →
    AtOwnPort x s 16 f.sa.toNat at' →
    rankBlock s at'.cluster at'.rank = some (bid, b) → b.ended = false → tget b.rings at'.off = some true →
    ringBad b at'.off = false →
    (∀ r, ringFree at'.off b = some r →
      Does (.rwaitFree f) s x .advance (ringDone (modBlock s bid (fun _ => r.2)) x.wid none f.sd.toNat r.1 false)) ∧
    (ringFree at'.off b = none → exec (.rwaitFree f) s =
      .next (finish x (parkAll { s with fresh := s.fresh + 1 } x (.ring at' true f.sd.toNat s.fresh))))) ∧
  (∀ (f : UB) (s : State) (x : Issue) (at' : SPlace) (bid : Nat) (b : Block), Issues (.rwaitFull f) s x →
    AtOwnPort x s 16 f.sa.toNat at' →
    rankBlock s at'.cluster at'.rank = some (bid, b) → b.ended = false → tget b.rings at'.off = some true →
    ringBad b at'.off = false →
    let r := ringSlot b at'.off (ringRp b at'.off)
    (r.f = true → r.ft = false →
      Does (.rwaitFull f) s x .advance (ringDone s x.wid none f.sd.toNat (ringRp b at'.off) (r.ncl != 0))) ∧
    (∀ e, r.f = true → r.ft = true →
      b.faults.find? (fun e => e.ring == at' && e.slot == ringRp b at'.off && !e.delivered) = some e →
      Does (.rwaitFull f) s x (.trap (copyTrap e x.b.lanes)) (modBlock s bid (deliver at' e))) ∧
    (r.f = false → exec (.rwaitFull f) s =
      .next (finish x (parkAll { s with fresh := s.fresh + 1 } x (.ring at' false f.sd.toNat s.fresh))))) ∧
  (∀ (f : UB) (s : State) (x : Issue) (at' : SPlace) (bid : Nat) (b : Block), Issues (.rrel f) s x →
    let s1 := dropDescs s x.wid
    AtOwnPort x s1 16 f.sa.toNat at' →
    rankBlock s1 at'.cluster at'.rank = some (bid, b) → b.ended = false → tget b.rings at'.off = some true →
    ∀ b', ringRel at'.off b = some b' → Does (.rrel f) s x .advance (wakeRing (modBlock s1 bid (fun _ => b')) at')) ∧
  (∀ (f : UB) (s : State) (x : Issue) (at' : SPlace) (bid : Nat) (b : Block), Issues (.rarr f) s x →
    let s1 := dropDescs s x.wid
    let slot := (sread x.w f.sb.toNat).toNat
    AtOwnPort x s1 16 f.sa.toNat at' →
    rankBlock s1 at'.cluster at'.rank = some (bid, b) → b.ended = false → tget b.rings at'.off = some true →
    ringValid b at'.off = true → slot < ringSlots b at'.off →
    Does (.rarr f) s x .advance (wakeRing (modBlock s1 bid (fun b =>
      putSlot b at'.off slot (slotArrive (ringSlot b at'.off slot) (sread x.w f.sc.toNat).toNat 0))) at')) ∧
  (∀ (i : Instr) (f : UB) (free : Bool) (s : State) (x : Issue) (at' : SPlace) (bid : Nat) (b : Block),
    ((i = .rwaitFull f ∧ free = false) ∨ (i = .rwaitFree f ∧ free = true)) → Issues i s x → AtOwnPort x s 16 f.sa.toNat at' →
    rankBlock s at'.cluster at'.rank = some (bid, b) → b.ended = false → tget b.rings at'.off = some true →
    ringBad b at'.off = true →
    Does i s x (.trap (ringTrap s at'.cluster x.b.lanes)) (modBlock s bid (fun b => putOrf b at'.off false))) ∧
  (∀ (i : Instr) (f : UB) (size : Nat) (op : PortOp) (s s1 : State) (x : Issue) (at' : SPlace),
    ((i = .rinit f ∧ size = 16 + 8 * (f.imm.toNat + 1) ∧ op = .ringInit (f.imm.toNat + 1) (sread x.w f.sb.toNat).toNat ∧ s1 = s) ∨
     (i = .rwaitFull f ∧ size = 16 ∧ op = .ringWait false f.sd.toNat ∧ s1 = s) ∨
     (i = .rwaitFree f ∧ size = 16 ∧ op = .ringWait true f.sd.toNat ∧ s1 = s) ∨
     (i = .rrel f ∧ size = 16 ∧ op = .ringRel ∧ s1 = dropDescs s x.wid) ∨
     (i = .rarr f ∧ size = 16 ∧ op = .ringArrive (sread x.w f.sb.toNat).toNat (sread x.w f.sc.toNat).toNat 0 none ∧ s1 = dropDescs s x.wid)) →
    Issues i s x → ringPlace x s1 (sread x.w f.sa.toNat).toNat size = .ok at' →
    (∀ t, AtOwnPort x s1 size f.sa.toNat at' → ringPerform s1 x.wid x.b.lanes none at' op = .done t → Does i s x .advance t) ∧
    (¬ AtOwnPort x s1 size f.sa.toNat at' →
      exec i s = .next (finish x (parkAll (modNet { s1 with fresh := s1.fresh + 1 } (fun n => { n with
        ports := tput n.ports s1.fresh ⟨s1.fresh, x.w.core, some x.wid, at', op, false, s1.fresh⟩ })) x (.port s1.fresh)))))

/-- R147 to R149, R366, R371: DEQ delivers the head packet of a queue of the context as an acquire at .sys, sixteen zeros
without one, or parks; ENQ writes its sixteen words at the tail and returns 1, returns 0 when the queue is full, or parks;
LAUNCH enters a checked record in the launch list and returns 0, or returns 1 for a record the checks refuse; on a full list it
parks, and .try returns 3; .try of a cooperative record places the whole grid in its pass, or leaves no launch and returns 2 (of
a record that does not fit and a full list it says 2, the model's choice of log 94). -/
def Obligations.QueuesComplete : Prop :=
  (∀ (f : UB) (s : State) (x : Issue), Issues (.deq f) s x →
    let v := (sread x.w f.sa.toNat).toNat
    queueFault x s v true false = false →
    (0 < queueCount (queueOf s v) → Does (.deq f) s x .advance (serveQueue (dequeue s v x.wid none f.sd.toNat) v)) ∧
    (queueCount (queueOf s v) = 0 → f.sub ≠ 1 →
      DoesToWarp (.deq f) s x (fun w => (List.range 16).foldl (fun w k => swrite w (f.sd.toNat + k) 0) w)) ∧
    (queueCount (queueOf s v) = 0 → f.sub = 1 → exec (.deq f) s = .next (finish x
      (parkAll (modQueue s v (fun y => { y with deqWait := y.deqWait ++ [(x.wid, f.sd.toNat)] })) x (.deq v f.sd.toNat))))) ∧
  (∀ (f : UB) (s : State) (x : Issue), Issues (.enq f) s x →
    let v := (sread x.w f.sa.toNat).toNat
    let ws := (List.range 16).map (fun k => sread x.w (f.sb.toNat + k))
    let s1 := dropDescs s x.wid
    queueFault x s v false ((ws.headD 0).toNat % 256 == 0) = false →
    (queueCount (queueOf s1 v) < queueCap (queueOf s1 v) → Does (.enq f) s x .advance
      (serveQueue (modWarp (enqueue s1 v (wordsPacket ws)) x.wid (fun w => swrite w f.sd.toNat 1)) v)) ∧
    (queueCap (queueOf s1 v) ≤ queueCount (queueOf s1 v) → f.sub ≠ 1 →
      Does (.enq f) s x .advance (modWarp s1 x.wid (fun w => swrite w f.sd.toNat 0))) ∧
    (queueCap (queueOf s1 v) ≤ queueCount (queueOf s1 v) → f.sub = 1 → exec (.enq f) s = .next (finish x
      (parkAll (modQueue s1 v (fun y => { y with enqWait := y.enqWait ++ [(x.wid, f.sd.toNat)] })) x
        (.enq v f.sd.toNat (f.imm == 1) ws))))) ∧
  (∀ (f : UB) (s s1 : State) (x : Issue) (bytes : Option (List Byte)), Issues (.launch f) s x →
    let va := spair x.w f.sa.toNat
    let die := dieOfCore x.w.core
    let rec_ := bytes.getD []
    let s2 := dropDescs s1 x.wid
    let prio := (((blockOf s2 x.w).bind (gridOfBlock s2)).map (fun g => g.2.prio)).getD 0
    va % 64 = 0 → readRecord s x.w.core x.ctx 0 va = (.ok bytes, s1) →
    (recordRefused s2 die rec_ false = true →
      Does (.launch f) s x .advance (modWarp s2 x.wid (fun w => swrite w f.sd.toNat 1))) ∧
    (recordRefused s2 die rec_ false = false → (dieOf s2 die).launches.length < 64 → (f.sub = 1 ∨ recCoop rec_ = false) →
      Does (.launch f) s x .advance
        (modWarp (enterLaunch s2 die x.ctx prio rec_ none false).2 x.wid (fun w => swrite w f.sd.toNat 0))) ∧
    (recordRefused s2 die rec_ false = false → 64 ≤ (dieOf s2 die).launches.length → f.sub = 1 →
      exec (.launch f) s = .next (finish x (parkAll s2 x (.launch f.sd.toNat va)))) ∧
    (recordRefused s2 die rec_ false = false → (dieOf s2 die).launches.length < 64 → f.sub ≠ 1 → recCoop rec_ = true →
      let t := enterLaunch s2 die x.ctx prio rec_ none true
      let r := tryWhole t.2 die t.1
      Does (.launch f) s x .advance (modWarp r.2 x.wid (fun w => swrite w f.sd.toNat (if r.1 then 0 else 2)))) ∧
    (recordRefused s2 die rec_ false = false → 64 ≤ (dieOf s2 die).launches.length → f.sub ≠ 1 →
      Does (.launch f) s x .advance (modWarp s2 x.wid (fun w => swrite w f.sd.toNat
        (if recCoop rec_ = true ∧ tryFits s2 die x.ctx prio rec_ = false then 2 else 3)))))

/-! ### Copies, channels, the plane array -/

/-- R190, R191, R221 to R226, R271, R277 to R279: a copy whose addresses are aligned and lie in scratch, whose descriptor has come and passes the checks
of R222, is a command of the copy engine of its bay, and one whose descriptor fails them is a command that fails its slot; TDCHK returns the first failing check, 0 for none; CHSEND on a valid
channel of the block's rank with the size of the channel puts its claim on its way and parks; CHRECV.take returns a taken slot's
offset, or parks; CHRECV.done frees the oldest taken slot. -/
def Obligations.CopiesAndChannelsComplete : Prop :=
  (∀ (i : Instr) (f : UB) (kind : CopyKind) (mask : Nat) (index : Option (Nat × Nat)) (s s1 : State) (x : Issue)
      (dp ip : SPlace) (rings dsts : List SPlace) (bs : List Byte) (total : Nat),
    ((i = .cpyG2s f ∧ kind = .g2s ∧ mask = f.imm.toNat % 4096 ∧ index = none) ∨
     (i = .cpyS2g f ∧ kind = .s2g ∧ mask = 0 ∧ index = none) ∨
     (i = .cpgth f ∧ kind = .gth (f.imm.toNat % 8) ∧ mask = 0 ∧
       index = some ((sread x.w (f.sb.toNat + 1)).toNat, (sread x.w (f.sb.toNat + 2)).toNat)) ∨
     (i = .cpsct f ∧ kind = .sct (f.imm.toNat % 8) ∧ mask = 0 ∧
       index = some ((sread x.w (f.sb.toNat + 1)).toNat, (sread x.w (f.sb.toNat + 2)).toNat)) ∨
     (i = .cpxf f ∧ kind = xfKind (f.sub.toNat % 4) (f.imm.toNat % 16) ∧ mask = 0 ∧ index = none)) →
    Issues i s x →
    let da := (sread x.w f.sa.toNat).toNat
    let buf := (sread x.w f.sb.toNat).toNat
    let hdr := (sread x.w f.sc.toNat).toNat
    let count := (index.map Prod.snd).getD 0
    let co := coordsAt x.w f.sa.toNat
    let wr := decide (i = .cpyS2g f ∨ i = .cpsct f)
    da % 64 = 0 → buf % 16 = 0 → hdr % 16 = 0 → (∀ e, index = some e → e.1 % 4 = 0) →
    copyPlace x s da 64 = .ok dp → copyPlaces x s mask hdr 16 = .ok rings →
    (∀ e, index = some e → copyPlace x s e.1 (4 * e.2) = .ok ip) → (index = none → ip = ⟨clusterIdOf s x.w, 0, 0⟩) →
    readDesc x s da dp false = .got bs s1 → descCheck bs = 0 → formBytes kind (parseDesc bs) count = some total →
    coordsBad kind (parseDesc bs) co = false → copyPlaces x s1 mask buf total = .ok dsts →
    (wr = true → cwFull x.w ⟨true, true, true, true⟩ = false) →
    let slot := (sread x.w f.sd.toNat).toNat
    let c := { newCopy x s1 kind (bit f.imm.toNat 12) (receiversOf rings (if wr then rings else dsts) slot) with
      desc := bs, coords := co, idx := ip, count := count, total := total, src := dsts.headD ip }
    (startCopy x s1 c).1 = .advance ∧ Does i s x .advance (startCopy x s1 c).2) ∧
  (∀ (i : Instr) (f : UB) (kind : CopyKind) (mask : Nat) (index : Option (Nat × Nat)) (s s1 : State) (x : Issue)
      (dp ip : SPlace) (rings : List SPlace) (bs : List Byte),
    ((i = .cpyG2s f ∧ kind = .g2s ∧ mask = f.imm.toNat % 4096 ∧ index = none) ∨
     (i = .cpyS2g f ∧ kind = .s2g ∧ mask = 0 ∧ index = none) ∨
     (i = .cpgth f ∧ kind = .gth (f.imm.toNat % 8) ∧ mask = 0 ∧
       index = some ((sread x.w (f.sb.toNat + 1)).toNat, (sread x.w (f.sb.toNat + 2)).toNat)) ∨
     (i = .cpsct f ∧ kind = .sct (f.imm.toNat % 8) ∧ mask = 0 ∧
       index = some ((sread x.w (f.sb.toNat + 1)).toNat, (sread x.w (f.sb.toNat + 2)).toNat)) ∨
     (i = .cpxf f ∧ kind = xfKind (f.sub.toNat % 4) (f.imm.toNat % 16) ∧ mask = 0 ∧ index = none)) →
    Issues i s x →
    let a := copyArgs x.w f index
    copyAlignFault x a false = none → copyFixed x s a mask = .ok (dp, rings, ip) → readDesc x s a.desc dp false = .got bs s1 →
    descCheck bs ≠ 0 → (writesGlobal kind = true → cwFull x.w ⟨true, true, true, true⟩ = false) →
    Does i s x .advance (startCopy x s1 { newCopy x s1 kind (bit f.imm.toNat 12) (receiversOf rings rings (sread x.w f.sd.toNat).toNat) with
      desc := bs, coords := coordsAt x.w f.sa.toNat, idx := ip, count := (index.map Prod.snd).getD 0,
      failed := some (cILL, 0, (word0 i).toNat) }).2) ∧
  (∀ (f : UB) (s : State) (x : Issue) (src ring dst : SPlace), Issues (.cpyS2s f) s x →
    let a := (sread x.w f.sa.toNat).toNat
    let n := (sread x.w (f.sa.toNat + 1)).toNat
    let buf := (sread x.w f.sb.toNat).toNat
    let hdr := (sread x.w f.sc.toNat).toNat
    a % 16 = 0 → buf % 16 = 0 → hdr % 16 = 0 →
    copyPlace x s a n = .ok src → copyPlace x s hdr 16 = .ok ring → copyPlace x s buf n = .ok dst →
    Does (.cpyS2s f) s x .advance (startCopy x s
      { newCopy x s .s2s (bit f.imm.toNat 12) [⟨ring, (sread x.w f.sd.toNat).toNat, dst⟩] with src := src, total := n }).2) ∧
  (∀ (x : Issue) (s : State) (c : CopyCmd) (w : Warp), tget s.warps x.wid = some w → (startCopy x s c).1 = .advance →
    (tget (startCopy x s c).2.warps x.wid).map (·.cp) = some (w.cp + 1) ∧
    (tget (startCopy x s c).2.net.copies s.fresh).map (fun k => (k.kind, k.desc, k.total, k.recvs)) = some (c.kind, c.desc, c.total, c.recvs)) ∧
  (∀ (f : UB) (s s1 : State) (x : Issue) (p : SPlace) (bs : List Byte), Issues (.tdchk f) s x →
    let a := (sread x.w f.sa.toNat).toNat
    a % 64 = 0 → copyPlace x s a 64 = .ok p → descHeld s x p = false → readDesc x s a p true = .got bs s1 →
    Does (.tdchk f) s x .advance (modWarp s1 x.wid (fun w => swrite w f.sd.toNat (BitVec.ofNat 32 (descCheck bs))))) ∧
  (∀ (f : UB) (s : State) (x : Issue) (grp : CollGroup) (sp dp ring : SPlace), Issues (.coll f) s x →
    let ty := bits f.imm.toNat 2 4
    let g := (sread x.w f.sa.toNat).toNat
    let stp := (sread x.w (f.sa.toNat + 1)).toNat
    let src := (sread x.w f.sb.toNat).toNat
    let dst := (sread x.w (f.sb.toNat + 1)).toNat
    let hdr := (sread x.w f.sc.toNat).toNat
    let s1 := settleGroups s
    let e := collElems (f.sub.toNat % 4) grp.members.length (sread x.w (f.sb.toNat + 2)).toNat
    src % 128 = 0 → dst % 128 = 0 → hdr % 16 = 0 → g < 256 → findGroup s1 x.ctx g = some grp →
    copyPlace x s1 src (e.1 * collSize ty) = .ok sp → sp.rank = rankOf s1 x.w →
    copyPlace x s1 dst (e.2 * collSize ty) = .ok dp → dp.rank = rankOf s1 x.w → copyPlace x s1 hdr 16 = .ok ring →
    (collsOf s1 x.ctx g).length < 8 →
    (∀ k ∈ collsOf s1 x.ctx g, ∀ a b c d, k.kind ≠ .coll a b c d stp) →
    Does (.coll f) s x .advance (startCopy x s1
      { newCopy x s1 (.coll (f.sub.toNat % 4) (f.imm.toNat % 4) ty g stp) false [⟨ring, (sread x.w f.sd.toNat).toNat, dp⟩] with
        src := sp, count := e.1 * collSize ty, total := e.2 * collSize ty, failed := none }).2) ∧
  (∀ (f : UB) (s : State) (x : Issue) (src : SPlace) (idx : Nat), Issues (.chsend f) s x →
    let n := f.imm.toNat % 16
    let e := recChannel x.record n
    let a := (sread x.w f.sa.toNat).toNat
    let size := chMline e * 128
    waitsForLoad s x.wid (chsendUses x.record f) = false → poisUses x s (chsendUses x.record f) = none →
    a % 128 = 0 → chV e = true → rankOf s x.w = chSrank e → (sread x.w f.sb.toNat).toNat = size →
    copyPlace x s a size = .ok src →
    chCluster BitVec.toNat e (clusterIdx s x.w) (recGrid x.record) (sread x.w (chArg e)) = some idx →
    (∀ b, blockAt s (((clusterOf s x.w).map (fun c => c.2.grid)).getD 0) idx (chDrank e) = some b → b.2.ended = false) →
    let s1 := dropDescs s x.wid
    let s2 := { s1 with fresh := s1.fresh + 1 }
    let c := { newCopy x s2 (.chan n 0) false [] with id := s1.fresh, src := src, total := size, count := idx, counts := false }
    exec (.chsend f) s = .next (finish x (parkAll (modNet s2 (fun t => { t with copies := tput t.copies s1.fresh c })) x (.chSend s1.fresh)))) ∧
  (∀ (f : UB) (s : State) (x : Issue), Issues (.chrecvTake f) s x →
    let n := f.imm.toNat % 16
    chrecvBad x s n = false →
    (∀ b j, blockOf s x.w = some b → takeable b n = some j → Does (.chrecvTake f) s x .advance
      (modWarp (modBlock s x.w.block (fun b => setChSlot b n j .taken)) x.wid
        (fun w => acquire (swrite w f.sd.toNat (BitVec.ofNat 32 (chSlotOff x.record n j))) s.clock 2 x.seam))) ∧
    (∀ b, blockOf s x.w = some b → takeable b n = none →
      exec (.chrecvTake f) s = .next (finish x (parkAll s x (.chTake n f.sd.toNat))))) ∧
  (∀ (f : UB) (s : State) (x : Issue) (b : Block) (e : Nat × Nat × ChState), Issues (.chrecvDone f) s x →
    let n := f.imm.toNat % 16
    chrecvBad x s n = false → blockOf s x.w = some b → b.chSlots.find? (fun e => e.1 == n && e.2.2 == .taken) = some e →
    Does (.chrecvDone f) s x .advance (modBlock (dropDescs s x.wid) x.w.block (fun b => { b with chSlots := b.chSlots.erase e })))

/-- R195 to R209, R213: HSET sets a hitch that no signature holds; an MMA adds its warp's signature to its hitch and, as the
last, once its name has a slot, issues the operation; ACCZ and ACCREL enter the plane array's queue; ACCRD reads the elements of a
name as they stand after some of the operations under way on it, as they are where none is queued, and 0 of an unmapped name;
ACCWR maps its name and writes them; MCHKRD takes the oldest entry of the block's mismatch log, zeros for none. -/
def Obligations.MatrixComplete : Prop :=
  (∀ (f : UB) (s : State) (x : Issue) (b : Block) (h : Hitch), Issues (.hset f) s x → blockOf s x.w = some b →
    b.hitches[f.sd.toNat % 8]? = some h →
    let n := if f.sub = 0 then 0 else 2 ^ (f.sub.toNat - 1)
    (h.sigs = [] → Does (.hset f) s x .advance (modHitch s x.w.block (f.sd.toNat % 8) (fun h => { h with s := n }))) ∧
    (h.sigs ≠ [] → h.s = n → Does (.hset f) s x .advance s)) ∧
  (∀ (f : LB) (s : State) (x : Issue) (b : Block) (h : Hitch), Issues (.mma f) s x → blockOf s x.w = some b →
    let k := mmaKey x.w f
    let n := fragRegs k.ty k.ka x.w.width h.s
    let r := bScratch k
    b.hitches[k.hitch]? = some h → h.s ≠ 0 → (h.key = none ∨ h.key = some k) → (∀ g ∈ h.sigs, g.warp ≠ x.wid) →
    waitsForLoad s x.wid { noUses with vsrc := [(f.va.toNat, n)] } = false → f.va.toNat + n ≤ x.w.win → r.1 % r.2.1 = 0 →
    (scratchPlace x.record b.rank r.1 r.2.2).isSome = true →
    poisTrap x.w (widthMask x.w.width) [(f.va.toNat, n)] (usesOf x.w (.mma f)).ssrc = none → namePoisoned b k.name = false →
    (h.sigs.length + 1 < h.s → Does (.mma f) s x .advance
      (modWarp (modHitch s x.w.block k.hitch (fun h => { h with key := some k, sigs := h.sigs ++ [signature x f] })) x.wid
        (fun w => { w with mx := w.mx + 1 }))) ∧
    (∀ a t b1 slot, k.b = .scratch a → h.sigs.length + 1 = h.s → planeLoad (coreOf s b.core) < 8 →
      relQueued s x.w.block b k.name = false → mapFor x s b k.name (some k.hitch) = some t → tget t.blocks x.w.block = some b1 →
      nameState b1 k.name = .mapped slot →
      (issueMma x t b1 k (h.sigs ++ [signature x f]) []).1 = .advance ∧
      Does (.mma f) s x .advance (issueMma x t b1 k (h.sigs ++ [signature x f]) []).2) ∧
    (∀ a co p bs s1 t b1 slot, k.b = .tile a co → h.sigs.length + 1 = h.s → bPlace s x.w.block a 64 = some p →
      readDesc x s a p false = .got bs s1 → tileOk k bs co = true → tileFault s1 x (tileVas k bs co) = none →
      let s2 := walkPages s1 x.w.core x.ctx (tileVas k bs co)
      planeLoad (coreOf s2 b.core) < 8 → relQueued s2 x.w.block b k.name = false → mapFor x s2 b k.name (some k.hitch) = some t →
      tget t.blocks x.w.block = some b1 → nameState b1 k.name = .mapped slot →
      Does (.mma f) s x .advance (issueMma x t b1 k (h.sigs ++ [signature x f]) bs).2)) ∧
  (∀ (f : UB) (s t : State) (x : Issue) (b : Block), Issues (.accz f) s x → blockOf s x.w = some b →
    let n := f.sd.toNat % 16
    namePoisoned b n = false → relQueued s x.w.block b n = false → mapFor x s b n none = some t →
    Does (.accz f) s x .advance (queueAcc x t b n false).2) ∧
  (∀ (f : UB) (s : State) (x : Issue) (b : Block), Issues (.accrel f) s x → blockOf s x.w = some b →
    Does (.accrel f) s x .advance (queueAcc x s b (f.sd.toNat % 16) true).2) ∧
  (∀ (x : Issue) (s : State) (b : Block) (n : Nat) (rel : Bool), (queueAcc x s b n rel).1 = .advance) ∧
  (∀ (f : LB) (s : State) (x : Issue) (b : Block), Issues (.accrd f) s x → blockOf s x.w = some b →
    let act := guardLanes x.w x.b.lanes f.gn f.gp.toNat
    (∀ slot, nameState b (f.sub.toNat % 16) = .mapped slot →
      let p := accShow s b.core x.w.block slot (accRows f) (accCols f act)
      Does (.accrd f) s x .advance { modWarp p.2 x.wid (fun w => (lanesOf act).foldl (fun w l => (List.range 32).foldl (fun w i =>
        vwrite w (f.vd.toNat + i) l (accRead p.1 slot (accElem f i l) (p.2.free + 64 * i + l))) w) w) with
        free := if p.1.length ≤ 1 then p.2.free else p.2.free + 2048 }) ∧
    (∀ slot rs cs, (∀ e ∈ (coreOf s b.core).queue, e.slot ≠ some slot) →
      accShow s b.core x.w.block slot rs cs = ([(coreOf s b.core).accs], s) ∧
      (∀ e k, accRead [(coreOf s b.core).accs] slot e k = accAt (coreOf s b.core) slot e)) ∧
    (nameState b (f.sub.toNat % 16) = .unmapped →
      DoesToWarp (.accrd f) s x (fun w => (lanesOf act).foldl (fun w l => (List.range 32).foldl (fun w i =>
        vwrite w (f.vd.toNat + i) l 0) w) w))) ∧
  (∀ (f : LB) (s : State) (x : Issue) (b : Block), Issues (.accwr f) s x → blockOf s x.w = some b →
    let n := f.sub.toNat % 16
    let act := guardLanes x.w x.b.lanes f.gn f.gp.toNat
    let cells := (lanesOf act).flatMap (fun l => (List.range 32).map (fun i => (accElem f i l, vread x.w (f.vd.toNat + i) l)))
    (act = 0 → Does (.accwr f) s x .advance s) ∧
    (∀ t b1 slot, act ≠ 0 → namePoisoned b n = false → relQueued s x.w.block b n = false → mapFor x s b n none = some t →
      tget t.blocks x.w.block = some b1 → nameState b1 n = .mapped slot →
      Does (.accwr f) s x .advance (modCore t b.core (fun c => { c with
        accs := cells.foldl (fun t e => putAcc slot t e.1 e.2) c.accs
        queue := noteWrote slot c.accs (cells.map Prod.fst) c.queue })))) ∧
  (∀ (f : UB) (s : State) (x : Issue) (b : Block), Issues (.mchkrd f) s x → blockOf s x.w = some b →
    let put := fun (s : State) (ws : List Nat) => modWarp s x.wid (fun w =>
      (ws.zipIdx).foldl (fun w e => swrite w (f.sd.toNat + e.2) (BitVec.ofNat 32 e.1)) w)
    (b.mlog = [] → Does (.mchkrd f) s x .advance (put s [0, 0, 0, 0])) ∧
    (∀ r rest, b.mlog = r :: rest → Does (.mchkrd f) s x .advance (put (modBlock s x.w.block (fun b => { b with mlog := rest }))
      [mchkWord0 r, r.info.row + 2 ^ 8 * r.info.col, if r.info.replay then r.info.expected.toNat else 0, r.info.observed.toNat])))

/-! ### Events -/

/-- R138, R156, R157, R238, R239, R264, R283 to R285, R288, R313: a grant gives the quadrant's free slot to the best of its ready
sub-braids, and under the guard to the best of those that have waited 4 096 clocks; a sleep ends at its clock; a load whose parts
are performed returns in the order of its port's responses; the head of a store queue, to global memory or to a peer's scratch,
goes on its way; an acknowledged packet leaves its window and its counters fall, and a flush whose ranges are done ends; a load's
message leaves its core behind the warp's earlier loads, with what the stores before it hold for it; a message is performed at its
port. -/
def Obligations.IssueEventsComplete : Prop :=
  (∀ (core quad : Nat) (s : State) (wid : Nat) (w : Warp) (b : SubBraid), (runOf s core quad).isSome = false →
    let t := mergeQuad s core quad
    (bestOf t (readyBraids t core quad) = some (wid, w, b) → Happens (.runGrant core quad) s (grantRun t core quad wid w b)) ∧
    (bestOf t ((readyBraids t core quad).filter (fun e => guarded t e.2.2)) = some (wid, w, b) →
      Happens (.readyWaitGuard core quad) s (grantRun t core quad wid w b))) ∧
  (∀ (warp sub : Nat) (s : State) (w : Warp) (b : SubBraid), tget s.warps warp = some w → braidOf w sub = some b → b.wake ≠ 0 →
    b.wake ≤ s.clock → Happens (.sleepEnd warp sub) s
      (modWarp s warp (fun w => modBraid w sub (fun b => { b with wake := 0, readySince := max b.readySince b.wake })))) ∧
  (∀ (id : Nat) (s : State) (l : PLoad), tget s.net.loads id = some l → allPerformed l = true →
    (∀ w, tget s.warps l.warp = some w → respBehind s (dieOfCore w.core) (w.core % 96) l.resps = false) →
    Happens (.loadReturn id) s (returnLoad s l)) ∧
  (∀ (warp grp : Nat) (kind : WKind) (ps : List Piece) (rest : List StoreEnt) (s : State) (w : Warp), tget s.warps warp = some w →
    w.storeQ = .global grp kind ps :: rest → loadBefore s warp grp = false → windowRoom s (bayOfCore w.core) ps.length = true →
    Happens (.coreStoreOrderSend w.core warp) s (popStore (enterGroup (enterWindow s w.core warp grp kind ps) grp) warp)) ∧
  (∀ (warp m : Nat) (rest : List StoreEnt) (msg : PortMsg) (s : State) (w : Warp), tget s.warps warp = some w →
    w.storeQ = .port m :: rest → loadBefore s warp m = false → tget s.net.ports m = some msg →
    Happens (.coreStoreOrderSend w.core warp) s (popStore (modNet { s with fresh := s.fresh + 1 } (fun n => { n with
      ports := tput (terase n.ports m) s.fresh { msg with id := s.fresh, queued := false, sent := s.fresh } })) warp)) ∧
  (∀ (id : Nat) (s : State) (e : WinEnt), tget s.net.flushes id = none → findEnt s id = some e → e.performed = true →
    ackBehind s e = false →
    let t := dropLeaseGrain (dropEnt s id) (dieOfCore e.core) (32 * e.grain)
    Happens (.homeAck id) s (ackEnt (dropLeaseGrain t (dieOfCore e.core) (routed t (32 * e.grain))) e)) ∧
  (∀ (id : Nat) (s : State) (f : FlushCmd), tget s.net.flushes id = some f → f.ranges = [] →
    Happens (.homeAck id) s (ackGroup (modNet s (fun n => { n with flushes := terase n.flushes id })) id)) ∧
  (∀ (id l : Nat) (m : PortMsg) (p : PLoad) (w : Warp) (s : State), tget s.net.ports id = some m → m.queued = true → m.op = .load l →
    tget s.net.loads l = some p → tget s.warps p.warp = some w → loadBefore s p.warp l = false →
    Happens (.scratchPortAccess id) s (sendLoad s m p w)) ∧
  (∀ (id : Nat) (m : PortMsg) (s : State), tget s.net.ports id = some m → m.queued = false → portReady s m = true →
    (∀ e ∈ s.net.ports, portBefore s m e.2 = false) →
    let gone := fun (s : State) => modNet s (fun n => { n with ports := terase n.ports id })
    (∀ grp ps bid b, m.op = .store grp ps → rankBlock s m.place.cluster m.place.rank = some (bid, b) →
      Happens (.scratchPortAccess id) s (ackGroup (noteSources (gone (if b.ended then s
        else modBlock s bid (fun b => ps.foldl (fun b p => putScratch b p.1 p.2) b)))) grp)) ∧
    (∀ l p, (m.op = .load l ∨ m.op = .atomic l) → tget s.net.loads l = some p →
      let r := performRank s m.place.cluster m.place.rank p
      Happens (.scratchPortAccess id) s (noteSources (gone (modLoad r.1 l (fun _ => r.2))))) ∧
    ((∀ grp ps, m.op ≠ .store grp ps) → (∀ l, m.op ≠ .load l ∧ m.op ≠ .atomic l) → Happens (.scratchPortAccess id) s (portRing s m)))

/-- R137, R141, R199, R200, R202 to R204, R207, R209 to R212, R216, R434, R435: the oldest entry of the plane array that has not started
reads its operands, from scratch once their lines are present, or through a tile handle the bytes that its descriptor names, at that
moment (log 54), zeros marked poisoned where a page is gone; the oldest started one completes: ACCZ clears its
slot, ACCREL and the end of a block free theirs, an MMA adds its products, a mismatch or a poisoned B poisons its name, the flags
reach its signers' FSTAT and their MX falls, and of an ended block only that; a paired block's command enters the queue; the
mismatch window restarts; a golden test runs when its time has come, and a failed one fences the core. -/
def Obligations.MatrixEventsComplete : Prop :=
  (∀ (core : Nat) (s : State) (e : PlaneEnt) (i : Nat), ((coreOf s core).queue.zipIdx).find? (fun e => !e.1.started) = some (e, i) →
    let starts := fun (t : State) (work : PlaneWork) => modCore t core (fun c => { c with
      queue := lmod c.queue i (fun q => { q with started := true, work := work }) })
    ((∀ k sigs desc old st, e.work ≠ .mma k sigs desc old st) → Happens (.planeStepsStart core) s (starts s e.work)) ∧
    (∀ k sigs desc old st a bs, e.work = .mma k sigs desc old st → k.b = .scratch a → bRead s e.block k = some bs →
      Happens (.planeStepsStart core) s (starts s (.mma k sigs desc (if old.isEmpty then bs else old) (some bs)))) ∧
    (∀ k sigs desc old st a co, e.work = .mma k sigs desc old st → k.b = .tile a co →
      let ctx := (((tget s.blocks e.block).bind (gridOfBlock s)).map (fun g => g.2.ctx)).getD 0
      let mid := masterOf s ctx 1
      let rs := (List.range (bBytes k)).map (fun o => engRead s core ctx mid (tileSrc k desc co o))
      let bs := rs.map (fun r => match r with | .ok t => (t.1, t.2.1) | .error _ => (0, true))
      let pas := rs.filterMap (fun r => match r with | .ok t => t.2.2 | .error _ => none)
      Happens (.planeStepsStart core) s (starts
        (engNotes (walkPages s core ctx (pas.map Prod.fst)) (dieOfCore core) (enginePort core) mid (some ctx) (pas.map Prod.snd))
        (.mma k sigs desc bs (some bs)))) ∧
    (∀ (c ctx mid va pa : Nat) (t : TlbEnt), xlate s c ctx va true false false = .ok (pa, t) →
      engRead s c ctx mid (.addr va) = .ok ((engByte s mid pa).1, (engByte s mid pa).2, some (va, pa)))) ∧
  (∀ (core : Nat) (bad : Option Mismatch) (s : State) (e : PlaneEnt) (rest : List PlaneEnt), (coreOf s core).queue = e :: rest →
    e.started = true → badAllowed s e bad = true →
    let s0 := modCore s core (fun c => { c with queue := rest, idleSince := if rest.isEmpty then s.clock else c.idleSince })
    let s1 := settleRows s0 core e
    (e.work.isMma = false → s1 = s0) ∧
    (∀ wid n slot b, e.work = .accz wid n → e.slot = some slot → tget s.blocks e.block = some b → b.ended = false →
      namePoisoned b n = false → Happens (.matrixCompletion core bad) s
        (completeWarps (modCore s1 core (fun c => { c with accs := c.accs.filter (fun x => x.1 / 16384 != slot) })) [wid] 0)) ∧
    (∀ wid n, e.work = .accz wid n → (e.slot = none ∨ tget s.blocks e.block = none ∨
        ∃ b, tget s.blocks e.block = some b ∧ (b.ended = true ∨ namePoisoned b n = true)) →
      Happens (.matrixCompletion core bad) s (completeWarps s1 [wid] 0)) ∧
    (∀ wid n b, e.work = .accrel wid n → tget s.blocks e.block = some b → Happens (.matrixCompletion core bad) s
      (completeWarps (if b.ended then s1 else passDue (serveCore (unmapName s1 e.block n) core)) [wid] 0)) ∧
    (e.work = .blockEnd → Happens (.matrixCompletion core bad) s (passDue (serveCore (freeBlockSlots s1 e.block core) core))) ∧
    (∀ k sigs desc old st b, e.work = .mma k sigs desc old st → tget s.blocks e.block = some b → b.ended = false →
      let slot := e.slot.getD 0
      let r := workEffect s1 e slot (coreOf s core).accs
      let s2 := modCore s1 core (fun c => { c with accs := r.1 })
      (namePoisoned b k.name = false → bad = none → Happens (.matrixCompletion core bad) s (completeWarps
        (if planePois s1 e then poisonName s2 e.block k.name slot else s2) (sigs.map (·.warp)) r.2)) ∧
      (∀ m, namePoisoned b k.name = false → bad = some m → core < s.cores.length → Happens (.matrixCompletion core bad) s
        (completeWarps (noteMismatch s2 core e.block k sigs slot m) (sigs.map (·.warp)) r.2)) ∧
      (namePoisoned b k.name = true → Happens (.matrixCompletion core bad) s
        (completeWarps s1 (sigs.map (·.warp)) r.2))) ∧
    (∀ k sigs desc old st b, e.work = .mma k sigs desc old st → tget s.blocks e.block = some b → b.ended = true →
      Happens (.matrixCompletion core bad) s (completeWarps s1 (sigs.map (·.warp)) 0))) ∧
  (∀ (block : Nat) (s : State) (b : Block) (wid n : Nat) (rel : Bool) (rest : List (Nat × Nat × Bool)), tget s.blocks block = some b →
    b.oddAccs = (wid, n, rel) :: rest → planeLoad (coreOf s b.core) < 8 →
    Happens (.pairedAccCommandArrival block) s (enqueueWork (modBlock s block (fun b => { b with oddAccs := rest })) b.core block
      (match nameState b n with | .mapped k | .poisoned k => some k | .unmapped => none)
      (if rel then .accrel wid n else .accz wid n) false (none, []))) ∧
  (∀ (core : Nat) (s : State), (coreOf s core).windowStart + 2 ^ 32 ≤ s.clock → Happens (.mismatchWindow core) s
    (modCore s core (fun c => { c with
      mismatches := 0, replayMisses := 0, windowStart := c.windowStart + 2 ^ 32 * ((s.clock - c.windowStart) / 2 ^ 32) }))) ∧
  (∀ (core test : Nat) (s : State), (coreOf s core).goldenRun = none → (coreOf s core).fenced = false → test < 80 →
    (((coreOf s core).queue = [] ∧ (coreOf s core).idleSince + 1024 ≤ s.clock ∧ (coreOf s core).goldenLast + 2 ^ 31 ≤ s.clock) ∨
      max (coreOf s core).goldenLast (coreOf s core).idleSince + 2 ^ 33 ≤ s.clock) →
    Happens (.goldenTest core test) s (modCore s core (fun c => { c with goldenRun := some test }))) ∧
  (∀ (core t : Nat) (pass : Bool) (s : State), (coreOf s core).goldenRun = some t →
    let s1 := modCore s core (fun c => { c with
      goldenRun := none, goldenLast := s.clock, goldenPass := c.goldenPass + pass.toNat, goldenFail := c.goldenFail + (!pass).toNat })
    Happens (.goldenTestResult core pass) s
      (if pass then s1 else fenceCore (report s1 (dieOfCore core) ⟨0x05, 1, none, none, ⟨1, core⟩, t, 0⟩) core 5))

/-- R141, R178, R180, R244 to R251, R254: the resource queue grants what fits, in order, with the age limit; a request that can
never be met is refused; an ended warp whose loads and matrix work are done returns its slot and granules, the queues of its core
and its partner's are served and a pass is due; an arrival whose release is done is counted, on the odd core of a pair as an event
to the even one, which counts it, takes a warp out or lets warps join; a block's arrival reaches its cluster or its grid. That what
stays of an ended warp goes once its stores, arrivals and events are delivered is the model's reading (log 59), and that a joining warp
which the barrier does not count is taken out of its ATTACH's count the model's choice (log 101). -/
def Obligations.ResourceEventsComplete : Prop :=
  (∀ (core : Nat) (s : State), Happens (.resourceQueueService core) s (serveAll core ((coreOf s core).resQ.length + 1) s)) ∧
  (∀ (core : Nat) (s : State) (e : ResEnt), agedHead s core = some e →
    Happens (.resourceQueueAgeLimit core) s (serveAll core ((coreOf s core).resQ.length + 1) s)) ∧
  (∀ (core : Nat) (s : State) (e : ResEnt), (coreOf s core).resQ.getLast? = some e → mustRefuse s core = true →
    Happens (.resourceRefusal core) s (refuse s core e)) ∧
  (∀ (warp : Nat) (s : State) (w : Warp), tget s.warps warp = some w → w.ended = true → w.ld = 0 → w.mx = 0 →
    hasSignature s warp w = false →
    (w.returned = false → Happens (.warpResourceReturn warp) s
      (dropDone (passDue (servePair (modWarp s warp (fun w => { w with returned := true })) w.core)) warp)) ∧
    (w.returned = true → Happens (.warpResourceReturn warp) s (dropDone s warp)) ∧
    (w.returned = true → w.st = 0 → w.storeQ = [] → (∀ a ∈ w.arrives, a.2.pending = false) →
      (∀ b, blockOf s w = some b → ∀ e ∈ b.oddEvents, oddEventOf warp e = false) →
      Happens (.warpResourceReturn warp) s { s with warps := terase s.warps warp })) ∧
  (∀ (warp bar : Nat) (s : State) (w : Warp), tget s.warps warp = some w → bar < 25 → (arriveOf w (barOf bar)).pending = true →
    releaseDone s warp w (barScope (barOf bar)) = true →
    Happens (.warpArrival warp bar) s (receiveArrival (modWarp (noteRelease (dropDescs s warp) warp) warp
      (fun w => setArrive w (barOf bar) { arriveOf w (barOf bar) with pending := false })) warp w (barOf bar))) ∧
  (∀ (block : Nat) (s : State) (b : Block) (e : OddEvent), tget s.blocks block = some b → b.oddEvents.head? = some e →
    let t := modBlock s block (fun b => { b with oddEvents := b.oddEvents.drop 1 })
    (∀ wid n, e = .arrive wid n → Happens (.pairedBarrierEvent block) s (countArrival t wid n)) ∧
    (∀ wid n, e = .detach wid n → Happens (.pairedBarrierEvent block) s (detachOne t wid n)) ∧
    (∀ ids n, e = .attach ids n → Happens (.pairedBarrierEvent block) s (joinBar t block ids n))) ∧
  (∀ (block bar : Nat) (s : State) (b : Block) (c : Cluster), tget s.blocks block = some b → b.ended = false →
    blockArrived s block b bar = true → tget s.clusters b.cluster = some c →
    (∀ n r, barOf bar = .cb n → c.cbs[n]? = some r → r.came.contains b.rank = false →
      Happens (.blockArrival block bar) s (clusterArrive s b.cluster n b.rank)) ∧
    (∀ g, barOf bar = .grid → tget s.grids c.grid = some g → g.came.contains (c.index, b.rank) = false →
      Happens (.blockArrival block bar) s (gridArrive s c.grid c.index b.rank)))

/-- R223 to R230, R263 to R276, R279, R280, R311, R315, R471: an open copy reads its scratch source; the clear of its lines reaches a receiver; its
engine makes its next piece; a line is written piece by piece, and its last one fills a channel's slot; a ring arrival at a placed rank is counted; a
failed copy fills its slots with FT and leaves an entry in each receiver's fault table; a delivered fault is replayed; a claim takes
a free channel slot, or its sender sees that its receiver has ended; a stream's lines follow in order. That a failed copy's counters
fall at COPY_FAILURE (log 51), which free slot a claim takes (log 23) and what counts as one arrival (log 107) are the model's. -/
def Obligations.CopyEventsComplete : Prop :=
  (∀ (id : Nat) (s : State) (c : CopyCmd) (bs : List (Byte × Bool)), tget s.net.copies id = some c → c.srcRead = none → c.failed = none →
    c.recvs ≠ [] → copyOpened s c = true → sourceHeld s c = false → sourceBytes s (copySources c) = some bs →
    let got := pickRanges s.free (copySources c) c.srcOld bs
    let s1 := { s with free := s.free + bs.length / 16 + 4 }
    let s2 := if c.counts then modWarp s1 c.warp (fun w => { w with cp := w.cp - 1 }) else s1
    Happens (.copySourceRead id) s (settleCopy (modCopy s2 id (fun c => { c with srcRead := some got, counts := false })) id)) ∧
  (∀ (id : Nat) (s : State) (c : CopyCmd), tget s.net.copies id = some c →
    (∀ t, clearNext s c = some t → Happens (.copyPiece id) s t) ∧
    (clearNext s c = none → copyOpen s c = true →
      let s1 := modBay s c.bay (fun b => { b with lastCore := c.core % 12 })
      Happens (.copyPiece id) s (if writesGlobal c.kind then writePiece s1 c else readPiece s1 c))) ∧
  (∀ (id : Nat) (s : State) (m : LineMsg), tget s.net.lines id = some m → lineReady s m = true →
    let n := 16 - m.place.off % 16
    (n < m.data.length → Happens (.copyLineWrite id) s (modNet (writeLine s m n false) (fun t => { t with
      lines := tput t.lines id { m with place := { m.place with off := m.place.off + n }, data := m.data.drop n } }))) ∧
    (m.data.length ≤ n →
      let t := wakeLines (modNet (writeLine s m n m.last) (fun n => { n with lines := terase n.lines id }))
      (∀ c, tget t.net.copies m.copy = some c → Happens (.copyLineWrite id) s (settleCopy (fillSlot t c) m.copy)) ∧
      (tget t.net.copies m.copy = none → Happens (.copyLineWrite id) s t))) ∧
  (∀ (id : Nat) (s : State) (r : RingMsg), tget s.net.rings id = some r →
    (∀ c, tget s.net.copies r.copy = some c → ordBlocked s c = false) → (∀ k ∈ r.after, tget s.net.lines k = none) →
    (placedBlock s r.ring.cluster r.ring.rank).isSome = true →
    Happens (.ringArrival id) s (settleCopy (ringArrive (modNet s (fun n => { n with rings := terase n.rings id })) r.ring r.slot r.bytes r.clamp)
      r.copy)) ∧
  (∀ (id : Nat) (e : Nat × Nat × Nat) (s : State) (c : CopyCmd), tget s.net.copies id = some c →
    c.failed = some e → c.done = false → (∀ e ∈ s.net.lines, e.2.copy ≠ id) → (∀ e ∈ s.net.rings, e.2.copy ≠ id) →
    (∀ e ∈ s.net.cpw, e.grp ≠ id) → (∀ r ∈ liveReceivers s c, r.2.1.faults.length < 16 ∧ onTheWay s r.2.1 = false) →
    Happens (.copyFailure id) s (wakeLines (failSlots
      (modCopy (dropLines (uncountCopy s c) c) id (fun c => { c with done := true, counts := false, grp := none, uncleared := [] }))
      (liveReceivers s c) id e))) ∧
  (∀ (block entry : Nat) (s : State) (b : Block) (f : CopyFault) (c : CopyCmd), tget s.blocks block = some b → b.faults[entry]? = some f →
    tget s.net.copies f.copy = some c → f.delivered = true → slotAwaited s b f = true →
    let recvs := c.recvs.filter (fun r => r.ring == f.ring && r.slot == f.slot)
    let c' := { c with
      id := s.fresh, recvs := recvs, failed := if f.cause = cILL then c.failed else none, done := false, opened := false
      uncleared := if writesGlobal c.kind then [] else lineKeys recvs c.made c.total, buf := [], bufClamps := 0 }
    Happens (.copyReplay block entry) s (sweepCopies (modNet (modBlock { s with fresh := s.fresh + 1 } block (fun b => { b with faults := b.faults.erase f }))
      (fun n => { n with copies := tput n.copies s.fresh c' })))) ∧
  (∀ (id n k gid bid : Nat) (s : State) (c : CopyCmd) (cl : Cluster) (g : Grid) (b : Block) (w : Warp), tget s.net.copies id = some c →
    c.kind = .chan n k → tget s.clusters c.cluster = some cl → cl.grid = gid → tget s.grids gid = some g → c.recvs = [] →
    tget s.warps c.warp = some w →
    let e := recChannel g.record n
    blockAt s gid c.count (chDrank e) = some (bid, b) → b.started = true →
    (b.ended = true → Happens (.channelClaim id) s
      (reissue (modNet s (fun t => { t with copies := terase t.copies id })) c.warp (fun p => p.cond == .chSend id))) ∧
    (b.ended = false → b.chWait.contains (n, id) = false →
      Happens (.channelClaim id) s (modBlock s bid (fun b => { b with chWait := b.chWait ++ [(n, id)] }))) ∧
    (∀ j, b.ended = false → b.chWait.find? (fun q => q.1 == n) = some (n, id) → w.cp < 63 → coreCopies s c.core < 16 →
      bayCopies s c.bay < 128 → freeSlot s b n (chSlotsN e) = some j → ∃ t, Happens (.channelClaim id) s t ∧
        (tget t.net.copies id).map (fun c => (c.kind, c.counts)) = some (.chan n j, true) ∧
        (tget t.warps c.warp).map (·.cp) = some (w.cp + 1))) ∧
  (∀ (id : Nat) (s : State) (m : LineMsg), tget s.net.lines id = some m → m.held = true →
    (∀ e ∈ s.net.lines, e.1 < id → e.2.held = true → e.2.place.rank = m.place.rank →
      (tget s.net.copies e.2.copy).bind (fun c => copyStream c e.2.place.rank) ≠
        (tget s.net.copies m.copy).bind (fun c => copyStream c m.place.rank)) →
    Happens (.streamRelease id) s (modNet { s with fresh := s.fresh + 1 } (fun n => { n with
      lines := tput n.lines id { m with held := false, out := s.fresh } })))

/-- R285, R286, R299, R316 to R335: a load's lanes of one region look for their values; a prefetch starts fills; a fill arrives at its
home slice, and a lease fill, which its home serves first, at its proxy; a packet is performed at its home, or moves on there;
expired lease copies go; the splice buffer absorbs a REDG, sending its oldest entry home where it is full; the home records and
confirms an entry, and recalls and combines a recorded one. -/
def Obligations.HomeEventsComplete : Prop :=
  (∀ (id lid : Nat) (s : State) (r : L2Req) (l : PLoad) (w : Warp), tget s.net.reqs id = some r → r.load = some lid →
    tget s.net.loads lid = some l → tget s.warps l.warp = some w → loadBefore s l.warp l.id = false →
    let t := (openParts l r.region).foldl (fun s p => serveLane s r l w p) s
    let left := ((tget t.net.loads lid).map (fun l => openParts l r.region)).getD []
    let u := endVisit t r left
    Happens (.l2Request id) s (if left.isEmpty then dropReq u id else u)) ∧
  (∀ (id : Nat) (s : State) (r : L2Req), tget s.net.reqs id = some r → r.load = none → Happens (.l2Request id) s (dropReq (prefetchAt s r) id)) ∧
  (∀ (id k : Nat) (bad : BitVec 16) (s : State) (f : Fill), findFill s id = some (k, f) →
    (homeOf s (f.region * 512 + 32 * ((grainsOfMask f.grains).headD 0))).isSome = true →
    (∀ t, f.lease = false → fillHome s k f bad = some t → Happens (.gapFillArrival id bad) s t) ∧
    (∀ t at', f.lease = true → f.served = some at' → fillLease s k f at' = some t → Happens (.gapFillArrival id bad) s t) ∧
    (∀ t u, f.lease = true → f.served = none → serveLease s f = (some t, u) → ∃ v, Happens (.gapFillArrival id bad) s v ∧
      ((leaveLease t f).slices[k]?.isSome = true → ∀ y ∈ ((sliceOf v k).fills.filter (fun y => y.id == id)), y.served = some t.clock))) ∧
  (∀ (id k : Nat) (bad : BitVec 16) (s : State) (f : Fill), findFill s id = some (k, f) →
    homeOf s (f.region * 512 + 32 * ((grainsOfMask f.grains).headD 0)) = none → Happens (.gapFillArrival id bad) s (dropFill s k id)) ∧
  (∀ (id : Nat) (s : State) (e : WinEnt), tget s.net.flushes id = none → findEnt s id = some e → entReady s e = true →
    Happens (.homeWrite id) s (placeEnt s e)) ∧
  (∀ (id : Nat) (s : State) (e : WinEnt), tget s.net.flushes id = none → findEnt s id = some e → e.held = true →
    loadBefore s e.warp e.grp = false → Happens (.homeWrite id) s (modNet { s with fresh := s.fresh + 1 } (fun n => { n with
      nts := n.nts.map (fun x => if x.id = e.id then { x with id := s.fresh, held := false } else x) }))) ∧
  (∀ (id : Nat) (s : State) (f : FlushCmd), tget s.net.flushes id = some f → Happens (.homeWrite id) s (flushStep s f)) ∧
  (∀ (slice : Nat) (s : State), Happens (.leaseExpiry slice) s (purgeExpired s slice)) ∧
  (∀ (id bay : Nat) (op : AtomOp) (s : State) (e : WinEnt), findEnt s id = some e → bayOfEnt s id = some bay → e.kind = .redg op →
    e.performed = false → absorbable s e = true → absorbed s id = false → behindLive s bay e = false →
    (∀ x, spliceEntOf s bay e.grain = some x →
      let x' := { mergePart op e x with mid := (entMaster s e).1 }
      Happens (.spliceAbsorb id) s (if x.confirmed then performAtBay (modSplice s bay e.grain (fun _ => x')) id
        else modSplice s bay e.grain (fun _ => { x' with waiters := x'.waiters ++ [id] }))) ∧
    (spliceEntOf s bay e.grain = none →
      let new : SpliceEnt := ⟨e.grain, op.aop, op.ty, List.replicate 32 0, 0, false, false, s.clock, [id], (entMaster s e).1⟩
      ((bayOf s bay).splice.length < 512 → Happens (.spliceAbsorb id) s
        (modBay s bay (fun b => { b with splice := b.splice ++ [mergePart op e new] }))) ∧
      (∀ old rest, 512 ≤ (bayOf s bay).splice.length →
        sortBy (fun (a b : SpliceEnt) => decide (a.age ≤ b.age)) (bayOf s bay).splice = old :: rest → Happens (.spliceAbsorb id) s
          (modBay (sendPartial s bay old) bay (fun b => { b with splice := b.splice ++ [mergePart op e new] }))))) ∧
  (∀ (bay grain k : Nat) (s0 : State) (x : SpliceEnt),
    let s := reelHook s0 (32 * grain)
    spliceEntOf s bay grain = some x → homeOf s (32 * grain) = some k → x.recorded = false →
    partialAway s bay grain = false → heldAt s k grain = false →
    (∀ d, (sliceOf s k).splice.find? (fun d => d.grain == grain) = some d → d.called = false →
      Happens (.spliceRecordRequest bay grain) s0 (if d.aop = x.aop ∧ d.ty = x.ty then recordSplice s k bay x else sendPartial s bay x)) ∧
    ((∀ d ∈ (sliceOf s k).splice, d.grain ≠ grain) → Happens (.spliceRecordRequest bay grain) s0
      (if (sliceOf s k).splice.length < 512 then recordSplice s k bay x else sendPartial s bay x))) ∧
  (∀ (bay grain : Nat) (s : State) (x : SpliceEnt), spliceEntOf s bay grain = some x → x.confirmed = false → x.recorded = true →
    Happens (.spliceConfirm bay grain) s
      (performEnts (modSplice s bay grain (fun x => { x with confirmed := true, waiters := [] })) x.waiters)) ∧
  (∀ (bay grain k : Nat) (s : State), homeOf s (32 * grain) = some k →
    (∃ d ∈ (sliceOf s k).splice, d.grain = grain ∧ d.called = true ∧ d.bays.getLsbD bay = true) → partialAway s bay grain = false →
    (∀ x, spliceEntOf s bay grain = some x → x.confirmed = true → Happens (.spliceRecall bay grain) s (sendPartial s bay x)) ∧
    (∀ x, spliceEntOf s bay grain = some x → x.confirmed = false → x.recorded = false →
      Happens (.spliceRecall bay grain) s (clearSpliceBit s k bay grain)) ∧
    (spliceEntOf s bay grain = none → Happens (.spliceRecall bay grain) s (clearSpliceBit s k bay grain))) ∧
  (∀ (id bay k : Nat) (s : State) (x : SpliceEnt), tget s.net.partials id = some (bay, x) → homeOf s (32 * x.grain) = some k →
    let s1 := reelHook s (32 * x.grain)
    grainPresent s1 k false (32 * x.grain) = true →
    let t := leaveAt (performEnts (modNet (applyPartial s1 x) (fun n => { n with partials := terase n.partials id })) x.waiters) k x.grain id
    (x.recorded = true → Happens (.splicePartialCombine id) s (clearSpliceBit t k bay x.grain)) ∧
    (x.recorded = false → atTurn s1 k x.grain id = true → spliceOf s1 k x.grain = none → Happens (.splicePartialCombine id) s t))

/-- R183 to R185, R313, R315, R331, R360 to R364, R395: a knot request acts at the record's home, which sends its reply, and the reply
comes back behind the earlier ones of its stream and its port; a KTAKE is sent again; a translation enters
the caches; the window and QCTL are written; KLAUNCH, WAITON, SIGNAL and unknown packets start from the head, and complete. -/
def Obligations.QueueEventsComplete : Prop :=
  (∀ (id : Nat) (s : State) (r : KnotReq), tget s.net.knots id = some r → r.reply = none → r.queued = false → r.resendAt = none →
    (r.sent = none → giveDrained s r = true → Happens (.knotRequest id) s (modNet { s with fresh := s.fresh + 1 } (fun n => { n with
      knots := tput n.knots id { r with sent := some s.fresh, drained := true } }))) ∧
    (r.sent ≠ none → knotBehind s r = false → Happens (.knotRequest id) s (arriveKnot s r)) ∧
    (∀ m k, knotMaster s r = some m → permits s m.1 (routed s r.krec) true true = true →
      permits s m.1 (routed s (r.krec + 32)) true true = true → homeOf s (routed s r.krec) = some k →
      arriveKnot s r = applyKnot ([routed s r.krec, routed s (r.krec + 32)].foldl (fun t a =>
        engTouchN t (knotDie s r) (knotPort t r) a 32) s) r) ∧
    (∀ t, (∀ rs bad, r.op = .reg rs bad → applyKnot t r = replyKnot (regKnot t r.krec rs bad).2 r (regKnot t r.krec rs bad).1) ∧
      (r.op = .free → applyKnot t r = replyKnot (freeKnot t r.krec).2 r (freeKnot t r.krec).1) ∧
      (∀ w, r.op = .take w → applyKnot t r = takeKnot t r w) ∧ (r.op = .give → applyKnot t r = giveKnot t r)) ∧
    (∀ t v, (r.warp.isSome = true ∨ ∃ q n, r.taker = .signal q n) → replyKnot t r v = modNet { t with fresh := t.fresh + 1 } (fun n => { n with
      knots := tput n.knots r.id { r with queued := false, resendAt := none, reply := some (v, t.fresh) } }))) ∧
  (∀ (id v t : Nat) (s : State) (r : KnotReq), tget s.net.knots id = some r → r.reply = some (v, t) → replyBehind s r t = false →
    Happens (.knotRequest id) s (knotAnswered s r v)) ∧
  (∀ (id t : Nat) (s : State) (r : KnotReq), tget s.net.knots id = some r → r.resendAt = some t → t ≤ s.clock →
    Happens (.ktakeResend id) s (modNet { s with fresh := s.fresh + 1 } (fun n => { n with
      knots := tput n.knots id { r with resendAt := none, sent := some s.fresh } }))) ∧
  (∀ (core ctx : Nat) (va : VAddr) (s : State), Happens (.translationWalk core ctx va) s (cacheVa s core ctx va.toNat)) ∧
  (∀ (fn q : Nat) (ws : List Word) (s : State), fnPresent s fn = true → q < 512 → permits s (hostMaster fn) (mmioBase + (0x30000 + 0x40 * q)) false true = true →
    queueAllowed s (hostMaster fn) q = true → queueThere s q = true → s.sec.ready = true → s.sec.fatal = none → ws.length = 16 →
    (ws.headD 0).toNat % 256 ≠ 0 → (queueOf s q).en = true → queueCount (queueOf s q) < queueCap (queueOf s q) →
    Happens (.enqueueWindowWrite fn q 64 ws) s (serveQueue (enqueue s q (wordsPacket ws)) q)) ∧
  (∀ (m : Master) (q : Nat) (v : Word) (s : State), q < 512 → MayWrite s m (0x20000 + 0x40 * q + 0x08) → queueThere s q = true →
    Happens (.qctlWrite m q v) s (writeQctl s q v.toNat)) ∧
  (∀ (q : Nat) (s s1 : State) (p : Packet) (rec_ : List Byte), headType s q = some 1 →
    let st := startPacket s q
    packetOk st.1.bytes = true → ctxClosed st.2 (queueOf s q).ctx = false →
    readRecord st.2 (engineCore q) (queueOf s q).ctx 3 (recField st.1.bytes 8 8 % 2 ^ 57) = (.ok (some rec_), s1) →
    recordRefused s1 (q / 256) rec_ true = false → p = st.1 →
    let t := enterLaunch s1 (q / 256) (queueOf s q).ctx (queueOf s q).prio rec_ (some (q, p.idx)) (bit (recField p.bytes 0 4) 9)
    Happens (.klaunch q) s (modPacket t.2 q p.idx (fun k => { k with grid := some t.1 }))) ∧
  (∀ (q : Nat) (s : State), headType s q = some 2 → packetOk (startPacket s q).1.bytes = true → Happens (.waiton q) s (startPacket s q).2) ∧
  (∀ (q : Nat) (s : State), headType s q = some 3 → Happens (.signal q) s (startSignal (startPacket s q).2 q (startPacket s q).1)) ∧
  (∀ (q t : Nat) (s : State), headType s q = some t → t ≠ 1 → t ≠ 2 → t ≠ 3 →
    Happens (.work q) s (badPacket (completePacket (startPacket s q).2 q (startPacket s q).1.idx) q (startPacket s q).1.idx)) ∧
  (∀ (q idx : Nat) (s : State) (p : Packet), (queueOf s q).started.find? (fun p => p.idx == idx) = some p → recField p.bytes 0 1 = 2 →
    ((queueOf s (bits (recField p.bytes 0 4) 16 16)).ccnt + 2 ^ 32 - recField p.bytes 8 4) % 2 ^ 32 < 2 ^ 31 →
    Happens (.waitonSatisfied q idx) s (completePacket s q idx)) ∧
  (∀ (q idx : Nat) (s : State) (p : Packet), (queueOf s q).started.find? (fun p => p.idx == idx) = some p → recField p.bytes 0 1 = 1 →
    (p.stage ≠ 0 ∨ p.grp.isSome = true → Happens (.klaunchComplete q idx) s (endKlaunch s q p p.stage)) ∧
    (∀ gid g, p.stage = 0 → p.grp = none → p.grid = some gid → tget s.grids gid = some g →
      g.ended = recGrid g.record * recCsize g.record → gridQuiet s gid = true → tsorted s.grids = true →
      ∃ t, Happens (.klaunchComplete q idx) s t ∧ tget t.grids gid = none)) ∧
  (∀ (q : Nat) (s : State) (p : Packet), (queueOf s q).started.find? (fun x => x.idx == p.idx) = some p → p.grp = none →
    recField p.bytes 0x10 8 = 0 → ∀ st, endKlaunch s q p st = restartWatchdog (completePacket s q p.idx) p.ctx) ∧
  (∀ (q idx : Nat) (s : State) (p : Packet), packetOf s q idx = some p → recField p.bytes 0 1 = 3 → p.stage = 3 → p.knot = none →
    Happens (.signalComplete q idx) s (completePacket s q idx)) ∧
  (∀ (q idx krec h : Nat) (s : State) (p : Packet) (k : Knot), packetOf s q idx = some p → recField p.bytes 0 1 = 3 → p.stage = 3 →
    p.knot = some krec → knotOf s krec = some (h, k) → k.holder = some (.signal q idx) →
    Happens (.signalComplete q idx) s (completePacket (signalGive s q h k.krec p.ctx) q idx) ∧
    (permits s (masterOf s p.ctx 3) k.krec true true = true → signalGive s q h k.krec p.ctx = giveToken s h k.krec))

/-- R370 to R373, R401 to R404: a pass places what fits; an aged launch makes a pass due; a placed block starts; a seam half is
forwarded; a drained cluster is saved, or fences its context where its pool has no room; its record completes; a pass that takes it
again puts its blocks and warps back as they were saved, on other cores and slots; and once they stand there RESTORE starts its blocks,
with the scratch, the accumulators and the warps' registers that its images, read back, hold. -/
def Obligations.PlacementEventsComplete : Prop :=
  (∀ (die : Nat) (s : State), die < 2 → (dieOf s die).passDue = true → (dieOf s (1 - die)).forwarded = [] →
    Happens (.placementPass die) s (placementPass s die)) ∧
  (∀ (die : Nat) (s : State) (l : Launch), l ∈ (dieOf s die).launches → l.waitSince + 65536 ≤ s.clock →
    Happens (.placementAgeLimit die) s (modDie s die (fun d => { d with passDue := true }))) ∧
  (∀ (die : Nat) (s : State), mayPlace s die = true →
    Happens (.blockPlace die) s (modDie s die (fun d => { d with placing := d.placing.drop 1 }))) ∧
  (∀ (block : Nat) (s : State) (b : Block), tget s.blocks block = some b → b.started = false → b.ended = false → onTheWay s b = false →
    (∀ v ∈ s.saved, v.cluster ≠ b.cluster) → ∃ t, Happens (.blockStart block) s t ∧ (tget t.blocks block).map (·.started) = some true) ∧
  (∀ (die : Nat) (s : State), (dieOf s die).forwarded ≠ [] → Happens (.seamHalfForward die) s
    (modDie (modDie s die (fun d => { d with forwarded := [] })) (1 - die) (fun d => { d with placing := d.placing ++ (dieOf s die).forwarded }))) ∧
  (∀ (cluster : Nat) (s t : State) (c : Cluster) (g : Grid), tget s.clusters cluster = some c → tget s.grids c.grid = some g →
    (∃ v ∈ s.saving, v.cluster = cluster) → (∀ v ∈ s.saved, v.cluster ≠ cluster) → (ctxOf s g.ctx).fencing = false → clusterBusy s cluster = false →
    saveImages g.ctx cluster g.record (savedOf s cluster).blocks s = some t →
    Happens (.preemptSave cluster) s { withdraw t ((savedOf s cluster).warps.map Prod.fst) with saved := t.saved ++ [savedOf s cluster] }) ∧
  (∀ (cluster : Nat) (s : State) (c : Cluster) (g : Grid), tget s.clusters cluster = some c → tget s.grids c.grid = some g →
    (∃ v ∈ s.saving, v.cluster = cluster) → (∀ v ∈ s.saved, v.cluster ≠ cluster) → (ctxOf s g.ctx).fencing = false → clusterBusy s cluster = false →
    saveImages g.ctx cluster g.record (savedOf s cluster).blocks s = none →
    Happens (.preemptSave cluster) s (startFence s g.ctx (setBit 3))) ∧
  (∀ (cluster : Nat) (s : State) (c : Cluster) (g : Grid), tget s.clusters cluster = some c → tget s.grids c.grid = some g →
    (∃ v ∈ s.saving, v.cluster = cluster) → (∃ v ∈ s.saved, v.cluster = cluster) → imageAway s g.ctx = false →
    let t := relaunch (clearBlocks s (liveOf s [cluster])) c.grid cluster g
    Happens (.saveComplete cluster) s
      (passDue ((List.range 192).foldl fenceDrained (servedAll { t with saving := t.saving.filter (fun v => v.cluster != cluster) })))) ∧
  (∀ (cluster : Nat) (s : State) (v : Saved) (c : Cluster) (g : Grid), s.saved.find? (fun v => v.cluster == cluster) = some v →
    tget s.clusters cluster = some c → tget s.grids c.grid = some g → (∀ y ∈ s.saving, y.cluster ≠ cluster) →
    (∀ e ∈ v.blocks, ∃ b, tget s.blocks e.1 = some b ∧ onTheWay s b = false) →
    let bs := v.blocks.map Prod.fst
    let u := loadImages s g.ctx cluster g.record bs
    ∃ t, Happens (.restore cluster) s t ∧ (∀ y ∈ t.saved, y.cluster ≠ cluster) ∧
      (∀ k ∈ bs, ∀ b, tget u.blocks k = some b → ∃ b', tget t.blocks k = some b' ∧ b'.started = true ∧ b'.core = b.core ∧
        b'.scratch = b.scratch ∧ b'.linePois = b.linePois ∧ b'.accs = b.accs) ∧
      (∀ wid w, tget u.warps wid = some w → ∃ w', tget t.warps wid = some w' ∧ w'.block = w.block ∧ w'.vregs = w.vregs ∧ w'.preds = w.preds ∧
        w'.masks = w.masks ∧ w'.nest = w.nest ∧ w'.tiles = w.tiles ∧ w'.win = w.win ∧
        ((∀ q, (queueOf s q).deqWait = [] ∧ (queueOf s q).enqWait = []) → w'.sregs = w.sregs)) ∧
      (∀ e ∈ v.warps, ∀ w, tget t.warps e.1 = some w → w.mx = 0)) ∧
  (∀ (v : Saved) (s t : State) (gid rank core bid : Nat) (b : Block), putSaved v s gid rank core = some t →
    v.blocks.find? (fun e => e.2.rank == rank) = some (bid, b) → (v.warps.map Prod.fst).Nodup →
    (∃ b', tget t.blocks bid = some b' ∧ b'.core = core ∧ b'.rank = rank ∧ b'.scratch = b.scratch ∧ b'.linePois = b.linePois ∧
      b'.hitches = b.hitches ∧ b'.bbs = b.bbs ∧ b'.rings = b.rings) ∧
    (∀ e ∈ v.warps, e.2.block = bid → ∃ w, tget t.warps e.1 = some w ∧ { w with core := e.2.core, slot := e.2.slot } = e.2))

/-- R387 to R390, R396, R397, R405 to R407: writes of CCTL, KILL, WKICK and CINVCTL; the watchdog's period; a drained fence ends its
packets and, once their status words are written, completes; an invalidation ends when the accesses before it have; a migration starts,
is cleared, moves a grain and is done 4 096 clocks after the last, with a record, which comes from die 0 (the model's choice, log 67). -/
def Obligations.ContextEventsComplete : Prop :=
  (∀ (m : Master) (ctx : Nat) (v : Word) (s : State), ctx < 64 → MayWrite s m (0x100 * ctx + 0x10) →
    Happens (.cctlWrite m ctx v) s (writeCctl s ctx v.toNat)) ∧
  (∀ (m : Master) (ctx : Nat) (s : State), ctx < 64 → MayWrite s m (0x100 * ctx + 0x38) → 
    Happens (.kill m ctx) s (writeCstat s ctx 0x40)) ∧
  (∀ (m : Master) (ctx : Nat) (s : State), ctx < 64 → MayWrite s m (0x100 * ctx + 0x38) → Happens (.wkick m ctx) s (writeCstat s ctx 0x80)) ∧
  (∀ (s : State), s.watched < s.clock / 65536 →
    Happens .watchdogPeriod s { (List.range 64).foldl (watchCtx (65536 * (s.watched + 1))) s with watched := s.watched + 1 }) ∧
  (∀ (ctx : Nat) (s : State), ctx < s.ctxs.length → (ctxOf s ctx).fencing = true → ctxBusy s ctx = false →
    let qs := (List.range 512).filter (fun q => (queueOf s q).started.any (fun p => p.ctx == ctx))
    let t := qs.foldl (fun s q => endPackets s ctx q) s
    let open_ := qs.any (fun q => (queueOf t q).started.any (fun p => p.ctx == ctx && decide (recField p.bytes 0 1 = 1)))
    (open_ = true → Happens (.fenceComplete ctx) s t) ∧
    (open_ = false → ∃ u, Happens (.fenceComplete ctx) s u ∧ (ctxOf u ctx).fencing = false ∧
      (ctxOf u ctx).cstat.getLsbD 0 = true)) ∧
  (∀ (m : Master) (ctx : Nat) (s : State), ctx < 64 → MayWrite s m (0x100 * ctx + 0x34) → (ctxOf s ctx).go = false →
    Happens (.cinvGo m ctx) s (startInval s ctx)) ∧
  (∀ (ctx : Nat) (s : State), (ctxOf s ctx).go = true → (∀ a ∈ (ctxOf s ctx).invWait, accessOpen s a = false) →
    Happens (.invalidationComplete ctx) s (modCtx s ctx (fun x => { x with go := false, invWait := [] }))) ∧
  (∀ (m : Master) (ch : Nat) (s : State) (g : Migration), ch < 8 → MayWrite s m (0x50000 + 0x20 * ch + 0x10) → s.memsys.migs[ch]? = some g →
    Happens (.migrationGo m ch) s (migGo s ch)) ∧
  (∀ (m : Master) (ch : Nat) (s : State) (g : Migration), ch < 8 → MayWrite s m (0x50000 + 0x20 * ch + 0x10) → s.memsys.migs[ch]? = some g →
    Happens (.migrationClr m ch) s (migClr s ch)) ∧
  (∀ (ch : Nat) (s : State) (g : Migration), s.memsys.migs[ch]? = some g → g.busy = true → g.bnd < migSize g / 32 →
    ∃ t, Happens (.migrationGrain ch) s t ∧ (t.memsys.migs[ch]?).map (·.bnd) = some (g.bnd + 1)) ∧
  (∀ (ch t : Nat) (s : State) (g : Migration), s.memsys.migs[ch]? = some g → g.ended = some t → t + 4096 ≤ s.clock →
    Happens (.migrationDone ch) s (report (modMig s ch (fun m => { m with done := true, ended := none })) 0 ⟨0x0D, 0, none, none, noUnit, ch, 0⟩))

/-- R410 to R415, R433, R416 to R428, R440: a host access reads or writes the homes it names, or a function's configuration space;
function-level resets fence their contexts; a due MSI-X message is sent; a peer's request is served and answered; a Lanyard request
answers in time, or times out, and a later answer is discarded; links, whose requests are sent again, expanders and stacks are
lost; a COLL's contributions, the engine's step with them, and its result, or its failure where the members disagree; the RDMA
engine's rings, requests, responses and timeouts; the Ethernet links. Which requests and collective packets of a failed link are sent
again (log 5), how the packets of a collective are laid out and named (log 72), the fields of a record that no rule gives and the die
of a record without a unit (log 67), and in which order the RDMA engine takes and completes its requests (log 73) are the model's. -/
def Obligations.FabricEventsComplete : Prop :=
  (∀ (r : HostReq) (a : Nat) (s : State), fnPresent s r.fn = true → r.bar ≠ 0 → r.bar ≠ 7 → barAddr r.bar r.off = some a → s.sec.recov = false →
    dumpOpen s r = false → (r.write = true → s.sec.fatal = none →
      Happens (.hostAccess r) s (outWrite s 0 (hostMaster r.fn) none a (r.data.take r.size)).2) ∧
    (r.write = false → let t := outRead s 0 (hostMaster r.fn) none a r.size
      Happens (.hostAccess r) s (hostReply t.2.2.2 r.fn t.1 t.2.1))) ∧
  (∀ (r : HostReq) (s : State), fnPresent s r.fn = true → r.bar = 0 → Happens (.hostAccess r) s (bar0Access s r)) ∧
  (∀ (r : HostReq) (s : State), fnPresent s r.fn = true → r.bar = 7 → Happens (.hostAccess r) s (configAccess s r)) ∧
  (∀ (fn : Nat) (s : State), fn ≠ 0 → fn ≤ s.port.vfs →
    Happens (.flrVirtual fn) s ((List.range 64).foldl (fun s c => if (ctxOf s c).fn = fn then startFence s c id else s) s)) ∧
  (∀ s : State, let t := (List.range 64).foldl (fun s c => startFence s c id) s
    Happens .flrFunction0 s { t with queues := t.queues.map (fun q => { q with en := false }), port := { t.port with vfs := 0 } }) ∧
  (∀ (fn : Nat) (s : State), fn ∈ s.port.owed → (∀ t, tget s.port.lastMsg fn = some t → t + 256 * s.port.gap ≤ s.clock) → fn ≤ s.port.vfs →
    Happens (.msixMessage fn) s { s with port := { s.port with
      owed := paidMessage s.port.gap fn s.port.owed, messages := fn :: s.port.messages, lastMsg := tput s.port.lastMsg fn s.clock } }) ∧
  (∀ (r : PeerReq) (s : State), s.sec.fatal = none → s.fabric.pkgv = true → s.sec.ready = true →
    let mid := 16 * (r.mid % 256) + 9
    let a := apertureAddr (r.addr % 2 ^ 43)
    let hub := r.link / 8 % 4
    (r.op = .read → let t := outRead s hub mid none a r.size
      Happens (.peerRequest r) s (answerPeer t.2.2.2 r t.2.1 t.1)) ∧
    (r.op = .write → Happens (.peerRequest r) s (answerPeer (outWrite s hub mid none a (r.data.take r.size)).2 r false []))) ∧
  (∀ (id : Nat) (s : State) (r : LyReq), tget s.fabric.lanyard id = some r → (r.sent + 4194304 ≤ s.clock ∨ s.fabric.lyup = 0) →
    Happens (.lanyardTimeout id) s (report (lanyardDone s id r (List.replicate 512 0) true) 0 ⟨0x0C, 1, none, none, noUnit, r.pkg, 0⟩)) ∧
  (∀ (id : Nat) (data : List Byte) (poison : Bool) (s : State) (r : LyReq), tget s.fabric.lanyard id = some r →
    (s.clock < r.sent + 4194304 →
      Happens (.lanyardResponse id data poison) s (lanyardDone s id r (data ++ List.replicate 512 0) poison)) ∧
    (r.sent + 4194304 ≤ s.clock → Happens (.lanyardResponse id data poison) s s)) ∧
  (∀ (link : Nat) (s : State),
    let t := modFab s (fun f => { f with lyup := f.lyup &&& ~~~(BitVec.ofNat 32 (2 ^ link)) })
    let u := (t.fabric.lanyard.filter (fun e => e.2.link == some link)).foldl (fun t e => replayReq t e.1 e.2) t
    Happens (.lanyardLinkFail link) s
      ((u.fabric.collsOut.filter (fun c => c.msg.link == link && decide (u.clock < c.at' + 4194304))).foldl replayColl
        (modFab u (fun f => { f with collsOut := f.collsOut.filter (fun c => c.msg.link != link) })))) ∧
  (∀ (x : Nat) (s : State), s.memsys.expFenced[x]? = some false → Happens (.expanderFence x) s
    (report { s with memsys := { s.memsys with expFenced := lset s.memsys.expFenced x true } } (x / 4) ⟨0x06, 1, none, none, ⟨4, x⟩, 0, 0⟩)) ∧
  (∀ (k : Nat) (s : State), k < 32 → k ∉ s.memsys.lostStacks → Happens (.hbmStackLoss k) s
    (report { s with memsys := { s.memsys with lostStacks := k :: s.memsys.lostStacks } } (k / 16) ⟨0x06, 1, none, none, ⟨3, k⟩, 0, 0⟩)) ∧
  (∀ (c : CollPart) (s : State) (x : CollGroup),
    let s1 := settleGroups s
    findGroup s1 c.ctx c.group = some x → c.rank ≤ x.members.length →
    (c.rank ≠ x.myRank → Happens (.collContribution c) s (collStep (addPart s1 c) x c.ctx c.step)) ∧
    (∀ k, c.rank = x.myRank → ownColl s1 c.ctx c.group c.step = some k → (∀ e ∈ s1.fabric.colls, e.2.copy ≠ some k.id) →
      Happens (.collContribution c) s (collStep (enterOwn s1 x k) x c.ctx c.step))) ∧
  (∀ (id k : Nat) (s : State) (r : CollRun) (c : CopyCmd) (x : CollGroup) (own : CollPart), tget s.fabric.colls id = some r → r.copy = some k →
    tget s.net.copies k = some c → findGroup s r.ctx r.group = some x → r.parts.find? (fun p => p.rank == x.myRank) = some own →
    let n := x.members.length
    let t := modFab s (fun f => { f with colls := terase f.colls id })
    ((∃ p ∈ r.parts, p.rank = n ∧ differs own p = true) → Happens (.collResult id) s (failCopy t c.id (cILL, 0, c.w0))) ∧
    (∀ w, (∀ p ∈ r.parts, p.rank = n → differs own p = false) → rankElems r.parts n (resultLen own.kind n own.count) = some w →
      Happens (.collResult id) s (modCopy t c.id (fun c => { c with
        buf := (ownResult x own w).flatMap (fun e => (toBytes (collSize own.ty) (e.getD 0)).map (fun b => (b, e.isNone))) })))) ∧
  (∀ (qp : Nat) (s : State) (p : QPair), tget s.fabric.qps qp = some p → s.sec.fatal = none → s.fabric.enup.getLsbD p.port = true →
    let t := outRead s (qpHub p) (qpMaster s p) (some p.ctx) (p.sendBase + 64 * (p.sendIdx % 2 ^ p.sendLog)) 64
    t.2.1 = false → recField t.1 1 1 % 2 = passParity p.sendIdx p.sendLog → workWaits s p t.1 = false → workOk p false t.1 = true →
    Happens (.rdmaRingPoll qp 0) s (sendWork (modQp t.2.2.2 qp (fun p' => { p' with sendIdx := p.sendIdx + 1 })) qp p p.sendIdx t.1)) ∧
  (∀ (r : RdmaReq) (s : State) (p : QPair), tget s.fabric.qps r.qp = some p → p.rkey = r.rkey → p.datagram = false →
    s.fabric.enup.getLsbD p.port = true → s.sec.fatal = none → r.write = true →
    Happens (.rdmaInbound r) s (outWrite s (qpHub p) (qpMaster s p) (some p.ctx) r.addr (r.data.take r.size)).2) ∧
  (∀ (qp idx : Nat) (data : List Byte) (s : State) (p : QPair) (r : List Byte), tget s.fabric.qps qp = some p →
    p.pending.head? = some (idx, r) → recField r 0 1 ≠ 2 → Happens (.rdmaResponse qp idx 0 data) s
      (completeReq (modQp s qp (fun p => { p with pending := p.pending.filter (fun e => e.1 != idx) })) qp false idx r 0 (recField r 4 4))) ∧
  (∀ (qp idx : Nat) (data : List Byte) (s : State) (p : QPair) (r : List Byte), tget s.fabric.qps qp = some p → p.recvs.head? = some (idx, r) →
    s.fabric.enup.getLsbD p.port = true → s.sec.fatal = none → data.length ≤ recField r 4 4 →
    let t := outWrite (modQp s qp (fun p => { p with recvs := p.recvs.drop 1 })) (qpHub p) (qpMaster
      (modQp s qp (fun p => { p with recvs := p.recvs.drop 1 })) p) (some p.ctx) (recField r 8 8) data
    Happens (.rdmaInboundSend qp data) s (completeReq t.2 qp true idx r (if t.1 then 0 else 3) data.length)) ∧
  (∀ (qp idx : Nat) (s : State) (p : QPair) (e : Nat × List Byte), tget s.fabric.qps qp = some p → p.pending.head? = some e → e.1 = idx →
    Happens (.rdmaRetryTimeout qp idx) s
      (completeReq (modQp s qp (fun p => { p with pending := p.pending.filter (fun x => x.1 != idx) })) qp false idx e.2 4 0)) ∧
  (∀ (port : Nat) (up : Bool) (s : State), Happens (.ethernetLinkChange port up) s (modFab s (fun f => { f with
    enup := if up then f.enup ||| BitVec.ofNat 8 (2 ^ port) else f.enup &&& ~~~(BitVec.ofNat 8 (2 ^ port)) })))

/-- R430 to R446, R468: corrected errors are counted and reported; an uncorrected error of memory poisons its grain, in the event
queue's region it is fatal besides, and one of a cache drops the entry; a stored record enters the event queue; EVHEAD and LOST; a
fatal error keeps its cause record, stops every run, begins the dump, and leaves every context fencing or fenced, while a second one
changes nothing but the count of free values (the record's information words are free, log 5, and that it names no context, address or
unit is the model's choice, log 67); the dump; over-temperature, at which the removal of power is asked for; the reel engine copies a
chunk and posts its packet, whose status word is the model's (log 76). -/
def Obligations.RasEventsComplete : Prop :=
  (∀ (u : ErrUnit) (code n : Nat) (s : State), ∃ t, Happens (.correctedError u code n) s t ∧ (unitDie u < s.dies.length →
    (tget (dieOf t (unitDie u)).corrected (errKey u code)).map Prod.snd =
      some (((tget (dieOf s (unitDie u)).corrected (errKey u code)).getD (0, 0)).2 + n))) ∧
  (∀ (u : ErrUnit) (code last n : Nat) (s : State), tget (dieOf s (unitDie u)).corrected (errKey u code) = some (last, n) → n ≠ 0 →
    (last = 0 ∨ last - 1 + 2 ^ 24 ≤ s.clock) → Happens (.correctedErrorReport u code) s
      (report (modDie s (unitDie u) (fun d => { d with corrected := tput d.corrected (errKey u code) (s.clock + 1, 0) })) (unitDie u)
        ⟨0x01, 0, none, none, u, code, n⟩)) ∧
  (∀ (a k : Nat) (s : State), inEventQueue s a = false → placeOf s a = .hbm k →
    Happens (.uncorrectedError (.hbm a)) s (uncorrectedGrain s (a / 32 * 32))) ∧
  (∀ (a k : Nat) (s : State), inEventQueue s a = true → placeOf s a = .hbm k → Happens (.uncorrectedError (.hbm a)) s
    (fatal (uncorrectedGrain s (a / 32 * 32)) ⟨0x02, 2, none, some (a / 32 * 32, false), memUnit a, 1, 0⟩)) ∧
  (∀ (core n : Nat) (s : State), Happens (.uncorrectedError (.icache core n)) s (modCore s core (fun c => { c with icache := c.icache.eraseIdx n }))) ∧
  (∀ (core n : Nat) (s : State), Happens (.uncorrectedError (.coreTlb core n)) s (modCore s core (fun c => { c with tlb := c.tlb.eraseIdx n }))) ∧
  (∀ (bay n : Nat) (s : State), Happens (.uncorrectedError (.bayTlb bay n)) s (modBay s bay (fun b => { b with tlb := b.tlb.eraseIdx n }))) ∧
  (∀ (die : Nat) (s : State) (r : List Byte) (rs : List (List Byte)), evCount s < 8192 → (dieOf s die).store = r :: rs → s.port.drops = 0 →
    Happens (.eventStoreRetry die) s (pushEvent (modDie s die (fun d => { d with store := rs })) r)) ∧
  (∀ (m : Master) (v : Word) (s : State), MayWrite s m 0x60008 → Happens (.evheadWrite m v) s (evWrite s 0x08 v)) ∧
  (∀ (m : Master) (s : State), permits s (midOf s m) (mmioBase + 0x60010) true false = true → s.sec.ready = true →
    ∃ t, Happens (.evstatLostRead m) s t ∧ t.port.lost = 0) ∧
  (∀ (cause : Nat) (s : State), s.sec.fatal = none → ∃ t, Happens (.fatalError cause) s t ∧ t.sec.fatal = some cause ∧ t.sec.dump = some 0 ∧
    (∃ i0 i1, t.sec.fatalRecord = eventBytes ⟨cause, 2, none, none, noUnit, i0, i1⟩ s.clock) ∧
    (∀ c ∈ t.cores, c.runs = [none, none, none, none]) ∧
    (∀ c, c < 64 → c < s.ctxs.length → (ctxOf t c).fencing = true ∨ (ctxOf t c).cstat.getLsbD 0 = true)) ∧
  (∀ (cause old : Nat) (s : State), s.sec.fatal = some old → ∃ n, Happens (.fatalError cause) s { s with free := s.free + n }) ∧
  (∀ (cause : Nat) (s : State), s.sec.fatal = some cause → s.sec.dump = some 0 → ∃ t, Happens (.dumpComplete 1) s t ∧ t.sec.dump = some 1) ∧
  (∀ (temp : Nat) (s : State), temp < 115 → Happens (.overTemperature temp) s { s with power := { s.power with temp := temp } }) ∧
  (∀ (temp : Nat) (s : State), 115 ≤ temp → ∃ t, Happens (.overTemperature temp) s t ∧ t.sec.fatal.isSome = true ∧ t.power.removal = true) ∧
  (∀ (hub : Nat) (s : State) (j : ReelJob) (c : Nat × Nat), s.sec.reel = some j → j.left.find? (fun c => hubChunk j hub c.1) = some c →
    Happens (.reelChunk hub) s (reelCopy s c.1 c.2)) ∧
  (∀ (s : State) (j : ReelJob), s.sec.reel = some j → j.left = [] → Happens .reelComplete s (reelPost { s with sec := { s.sec with
    reel := none, reelDone := s.sec.reelDone ++ [(j.queue, reelPacket j.jobid (if j.fenced then 2 else 0) j.copied j.poisoned)] } })) ∧
  (∀ s : State, Happens .reelEnqueueRetry s (reelPost s))

/-- R384, R387, R414, R415, R420, R426, R427, R444, R459 to R468: each security command that its function may give, with its operands in order,
ends with STATUS 0 and its effect; QPDEL completes the requests that are pending with status 4 first. Of FWUPD the spec gives neither
the key nor the layout of the header, so whether the signature verifies, the version and the floor are free values (logs 5 and 10):
where the image verifies and its version is below neither its floor nor the anti-rollback count, it enters the slot that is not
active, the count rises to the floor, and a due reset is noted; else STATUS is 5. -/
def Obligations.SecurityCommandsComplete : Prop :=
  (∀ (fn : Nat) (e : List Byte) (s : State), MayRun s fn 0x01 → onlyBits (sarg s fn 0) 0xFFF = true → sargAddr s fn 1 % 256 = 0 →
    secBytes s (sargAddr s fn 1) 256 = some e → atabOk (sarg s fn 0) e = true →
    Happens (.atab fn) s (ended (modSec s (fun x => { x with atab := tputD x.atab (sarg s fn 0) e (List.replicate 256 0) })) fn 0)) ∧
  (∀ (fn : Nat) (s : State), MayRun s fn 0x02 → onlyBits (sarg s fn 0) 0x1F3F = true →
    let c := sarg s fn 0 % 64
    let f := if fn = 0 then bits (sarg s fn 0) 8 5 else fn
    ((ctxOf s c).fn = f ∨ bit (ctxOf s c).cctl.toNat 0 = false) →
    Happens (.ctxasn fn) s (ended (modCtx s c (fun x => { x with fn := f })) fn 0)) ∧
  (∀ (fn : Nat) (hd bs : List Byte) (s : State), MayRun s fn 0x03 → onlyBits (sarg s fn 0) 0xFF3F = true →
    let c := sarg s fn 0 % 64
    let pa := sargAddr s fn 1
    let x := parseGroup c (bits (sarg s fn 0) 8 8) bs
    (ctxOf s c).fn = fn → pa % 16 = 0 → secBytes s pa 16 = some hd → secBytes s pa (16 + 2 * recField hd 0 2) = some bs → groupOk s bs x = true →
    Happens (.cgreg fn) s (ended (settleGroups (modFab s (fun f => { f with groupWait := f.groupWait ++ [(x, true)] }))) fn 0)) ∧
  (∀ (fn : Nat) (x : CollGroup) (s : State), MayRun s fn 0x04 → onlyBits (sarg s fn 0) 0xFF3F = true →
    let s1 := settleGroups s
    (ctxOf s1 (sarg s fn 0 % 64)).fn = fn → findGroup s1 (sarg s fn 0 % 64) (bits (sarg s fn 0) 8 8) = some x →
    Happens (.cgdel fn) s (ended (settleGroups (modFab s1 (fun f => { f with groupWait := f.groupWait ++ [(x, false)] }))) fn 0)) ∧
  (∀ (fn : Nat) (hd bs : List Byte) (s : State), MayRun s fn 0x05 → secBytes s (sargAddr s fn 0) 16 = some hd → recField hd 6 2 ≤ 256 →
    secBytes s (sargAddr s fn 0) (16 + 24 * recField hd 6 2) = some bs → sargAddr s fn 0 % 64 = 0 →
    jobOk s hd (jobRanges bs (recField hd 6 2)) = true → Happens (.reel fn) s
      (ended (setRsp (startJob s (newJob hd (jobRanges bs (recField hd 6 2)))) fn 0 0) fn 0)) ∧
  (∀ (fn : Nat) (bs : List Byte) (s : State), MayRun s fn 0x06 → onlyBits (sarg s fn 0) 0x73F = true → (ctxOf s (sarg s fn 0 % 64)).fn = fn →
    sargAddr s fn 1 % 64 = 0 → secBytes s (sargAddr s fn 1) 64 = some bs → qpOk bs = true → s.fabric.qps.length < 2 ^ 24 →
    ∃ t, Happens (.qpnew fn) s (ended t fn 0) ∧ ∃ k p, tget s.fabric.qps k = none ∧ tget t.fabric.qps k = some p ∧
      p.ctx = sarg s fn 0 % 64 ∧ p.fn = fn ∧ p.sendBase = recField bs 0 8 ∧ p.recvBase = recField bs 8 8 ∧ p.compBase = recField bs 0x10 8) ∧
  (∀ (fn : Nat) (p : QPair) (s : State), MayRun s fn 0x07 → tget s.fabric.qps (sarg s fn 0) = some p → p.fn = fn →
    let sent := p.pending.foldl (fun t e => completeReq t (sarg s fn 0) false e.1 e.2 4 0) s
    let t := p.recvs.foldl (fun t e => completeReq t (sarg s fn 0) true e.1 e.2 4 0) sent
    Happens (.qpdel fn) s (ended (modFab t (fun f => { f with qps := terase f.qps (sarg s fn 0) })) fn 0)) ∧
  (∀ (fn : Nat) (bs : List Byte) (s : State), MayRun s fn 0x08 → onlyBits (sarg s fn 0) 0x3FF = true → sarg s fn 0 < 576 →
    s.fabric.domainClosed = false → secBytes s (sargAddr s fn 1) 72 = some bs → Happens (.domain fn) s
      (ended (modFab s (fun f => { f with pkgn := sarg s fn 0, pkgv := true, domainClosed := true, present := bs })) fn 0)) ∧
  (∀ (fn : Nat) (nonce : List Byte) (s : State), MayRun s fn 0x09 → secBytes s (sargAddr s fn 0) 32 = some nonce →
    secBacked s (sargAddr s fn 2) 192 = true → Happens (.attest fn) s (ended
      { secPut s (sargAddr s fn 2) (attestBytes s.sec nonce ++ toBytes 64 (Config.freeNat s.free)) with free := s.free + 1 } fn 0)) ∧
  (∀ (fn : Nat) (s : State), MayRun s fn 0x0A → sarg s fn 0 < 192 → Happens (.gvcnt fn) s (ended (setRsp (setRsp s fn 0
    (coreOf s (sarg s fn 0)).goldenPass) fn 1 (coreOf s (sarg s fn 0)).goldenFail) fn 0)) ∧
  (∀ (fn : Nat) (bs : List Byte) (s : State), MayRun s fn 0x0B → onlyBits (sarg s fn 3) 1 = true → secBytes s (sargAddr s fn 0) (sarg s fn 2) = some bs →
    let version := Config.freeNat s.free % 2 ^ 32
    let floor := Config.freeNat (s.free + 1) % 2 ^ 32
    let count := max s.sec.rollback floor
    let t := { s with free := s.free + 2 }
    let image : FwImage := ⟨version, floor, sha256 bs, true, Config.freeBit (s.free + 1)⟩
    Happens (.fwupd fn) s (if Config.freeBit s.free = true ∧ floor ≤ version ∧ s.sec.rollback ≤ version
      then ended (modSec t (fun x => { x with
        images := (lset x.images (1 - x.active) image).map (fun i => { i with valid := i.valid && decide (count ≤ i.version) })
        rollback := count, resetDue := x.resetDue || bit (sarg s fn 3) 0 })) fn 0
      else ended t fn 5)) ∧
  (∀ (fn : Nat) (sig key owner : List Byte) (s : State), MayRun s fn 0x0C → onlyBits (sarg s fn 0) 3 = true → sarg s fn 5 = 0 →
    secBytes s (sargAddr s fn 1) 64 = some sig → secBytes s (sargAddr s fn 3) 64 = some key → lcTransition s.sec (sarg s fn 0) (sha256 key) = some owner →
    ecdsaOk (ofBytesBe (key.take 32)) (ofBytesBe ((key.drop 32).take 32)) (ofBytesBe (sig.take 32)) (ofBytesBe ((sig.drop 32).take 32))
      (ofBytesBe (sha256 (lcMessage s.sec (sarg s fn 0)))) = true →
    Happens (.lcset fn) s (ended ((List.range 64).foldl (fun s c => startFence s c id)
      (modSec s (fun x => { x with lc := sarg s fn 0, ownerHash := owner, resetDue := true }))) fn 0)) ∧
  (∀ (fn : Nat) (s : State), MayRun s fn 0x0D → 1800 ≤ sarg s fn 0 → sarg s fn 0 ≤ 3600 →
    Happens (.cap fn) s (ended { s with power := { s.power with capw := sarg s fn 0 } } fn 0))

/-- R13, R382, R411, R448 to R457, R467, R468: the debug commands and mailbox registers as a master that reaches the mailbox writes and reads
them; a halt and an invalidation of the instruction caches complete; a reset gives the state after reset but for what survives
it; the power controller picks a step, which the clocks then take (whether a step that need not rise falls or stays, and what carries
the controller's inputs, is the model's choice, log 68); a permitted register write; a loss of main power; function 0
enables virtual functions. -/
def Obligations.DebugAndPowerEventsComplete : Prop :=
  (∀ (m : Master) (ctx op : Nat) (i : Instr) (s : State),
    ((i = .halt m ctx ∧ op = 1) ∨ (i = .resume m ctx ∧ op = 2) ∨ (i = .step m ctx ∧ op = 3) ∨ (i = .watch m ctx ∧ op = 4) ∨ (i = .icinv m ctx ∧ op = 5)) →
    ctx < 64 → MayWrite s m (0x10000 + 0x100 * ctx) → debugReach s m ctx = true → Happens i s (debugCmd s ctx op)) ∧
  (∀ (ctx : Nat) (s : State), (ctxOf s ctx).dbox.busy = true → (ctxOf s ctx).dbox.dcmd = 1 →
    (∀ b ∈ (ctxOf s ctx).dbox.halting, blockBusy s b = false) →
    Happens (.haltComplete ctx) s (modDebug s ctx (fun d => { d with busy := false, halting := [] }))) ∧
  (∀ (ctx : Nat) (s : State), (ctxOf s ctx).dbox.busy = true → (ctxOf s ctx).dbox.dcmd = 5 →
    Happens (.icinvComplete ctx) s (modDebug (dropCode s ctx) ctx (fun d => { d with busy := false }))) ∧
  (∀ (ctx : Nat) (s : State) (c : Core), c ∈ (dropCode s ctx).cores → ∀ e ∈ c.icache, e.1 / 2 ^ 57 ≠ ctx) ∧
  (∀ (m : Master) (ctx : Nat) (v : Word) (s : State), ctx < 64 → MayWrite s m (0x10000 + 0x100 * ctx + 0x2C) → debugReach s m ctx = true →
    Happens (.dpost3Write m ctx v) s (modDebug s ctx (fun d => if d.post then d else { d with dposts := lset d.dposts 3 v, post := true }))) ∧
  (∀ (m : Master) (ctx : Nat) (s : State), ctx < 64 → MayWrite s m (0x10000 + 0x100 * ctx + 0x1C) → debugReach s m ctx = true →
    Happens (.dstatPostClear m ctx) s (modDebug s ctx (fun d => { d with post := false, free := d.free || d.post }))) ∧
  (∀ (m : Master) (ctx : Nat) (s : State), ctx < 64 → ctx < s.ctxs.length → permits s (midOf s m) (mmioBase + (0x10000 + 0x100 * ctx + 0x30)) true false = true →
    s.sec.ready = true → debugReach s m ctx = true → ∃ t, Happens (.dclaimRead m ctx) s t ∧ (ctxOf t ctx).dbox.free = false) ∧
  (∀ (source : Nat) (s : State), source < 4 → (2 ≤ source → s.sec.resetDue = true) → Happens (.deviceReset source) s (bootState s true)) ∧
  (∀ s : State, Happens .mainPowerLoss s { bootState s false with
    power := resetPower, memsys := { (bootState s false).memsys with lostStacks := [] } }) ∧
  (∀ (pwr temp : Nat) (s : State), s.power.changing = false → temp < 115 →
    let new := max (powerStep s.free s.power pwr) (if 105 ≤ temp then 5 else 0)
    Happens (.powerStepSelect pwr temp) s { s with
      free := s.free + 1, power := { s.power with pwr := pwr, temp := temp, next := new, changing := new != s.power.stp } }) ∧
  (∀ s : State, s.power.changing = true → Happens .clockStepChange s { s with power := { s.power with stp := s.power.next, changing := false } }) ∧
  (∀ (m : Master) (off : Nat) (v : BitVec 64) (s : State), off < 2 ^ 26 → MayWrite s m off → off % 4 = 0 → off / 65536 ≠ 3 →
    Happens (.registerWrite m off 4 v) s (regWrite s m off (BitVec.ofNat 32 v.toNat))) ∧
  (∀ (n : Nat) (s : State), n ≤ 31 → Happens (.virtualFunctionEnable n) s { s with port := { s.port with vfs := n } })

/-! ### Traps -/

/-- R43, R75, R85: what fails before an instruction raises its cause, in this order, and the instruction does nothing: ILL with word
0 in ETVAL for fields that no row or no warp like this admits; a register that awaits a load holds the instruction back; ILL for
register values that its row does not admit, whatever the guard (the model's reading, log 93); PRIV for a privileged form outside
trap mode; ROLE; GRIDB; REGW for a register at or beyond the window, of several the one that log 15 names; and, where none of these
holds, a dependence holds it back. Then a lane or scalar operation that reads a register marked poisoned raises POIS in its lanes that
read one, with the lowest poisoned byte of the earliest access that set such a mark, and the marks that it would read are cleared
(R157). -/
def Obligations.ChecksComeFirst : Prop :=
  (∀ (i : Instr) (s : State) (x : Issue), ((∃ op f, i = longForm op f) ∨ (∃ op f, shortForm op f = some i) ∨ (∃ op f, i = uaForm op f) ∨
    (∃ op f, i = ubForm op f) ∨ (∃ op f, i = uiForm op f)) → Reaches i s x → PoisTraps i s x s) ∧
  (∀ (w : Warp) (act : Mask) (vs ss : List (Nat × Nat)) (t : Trap), poisTrap w act vs ss = some t →
    let marked := fun (l : Nat) (m : Mark) => ∃ r ∈ vs, ∃ k, k < r.2 ∧ tget w.marks ((r.1 + k) * 64 + l) = some m
    let smarked := fun (m : Mark) => ∃ r ∈ ss, ∃ k, k < r.2 ∧ tget w.smarks (r.1 + k) = some m
    t.code = 0x07 ∧ t.etval = 0 ∧
    (∀ l, l < 64 → (inMask t.lanes l = true ↔ inMask act l = true ∧ ((∃ m, smarked m) ∨ ∃ m, marked l m))) ∧
    (∃ m, (smarked m ∨ ∃ l, inMask act l = true ∧ marked l m) ∧ t.eaddr = m.addr ∧
      ∀ m', (smarked m' ∨ ∃ l, l < 64 ∧ inMask act l = true ∧ marked l m') → m.age ≤ m'.age)) ∧
  ∀ (i : Instr) (s : State) (x : Issue), encode i ≠ [] → issuerOf s i = some x →
    (i.wf = false ∨ warpOk x.w i = false → Does i s x (.trap ⟨0x01, x.b.lanes, 0, (word0 i).toNat, false, false⟩) s) ∧
    (i.wf = true → warpOk x.w i = true → waitsForLoad s x.wid (usesOf x.w i) = true → Does i s x .stall s) ∧
    (i.wf = true → warpOk x.w i = true → waitsForLoad s x.wid (usesOf x.w i) = false → valuesOk x.w i = false →
      Does i s x (.trap ⟨0x01, x.b.lanes, 0, (word0 i).toNat, false, false⟩) s) ∧
    (i.wf = true → warpOk x.w i = true → waitsForLoad s x.wid (usesOf x.w i) = false → valuesOk x.w i = true →
      (∀ v, x.w.trapMode = false → privOf i = some v → Does i s x (.trap ⟨0x15, x.b.lanes, 0, v, false, false⟩) s) ∧
      ((x.w.trapMode = true ∨ privOf i = none) →
        (roleBars x.w.role i = true → Does i s x (.trap ⟨0x0C, x.b.lanes, 0, x.w.role, false, false⟩) s) ∧
        (roleBars x.w.role i = false → (∃ f, i = .gridbar f) → recCoop x.record = false →
          Does i s x (.trap ⟨0x0D, x.b.lanes, 0, 0, false, false⟩) s) ∧
        (roleBars x.w.role i = false → ((∃ f, i = .gridbar f) → recCoop x.record = true) →
          (∀ r, regwOf x.w.win (usesOf x.w i) = some r →
            x.w.win ≤ r ∧ Does i s x (.trap ⟨0x02, x.b.lanes, 0, r, false, false⟩) s) ∧
          (regwOf x.w.win (usesOf x.w i) = none → stalls s x = true → Does i s x .stall s))))

/-- R41, R398: a cause taken outside trap mode in a context with a handler writes the trap registers, puts the warp into trap
mode with the trapping lanes as its one sub-braid at the handler, and holds the other lanes, each at its PC; registers,
predicates, masks, nesting counters, flags and counters stay, and every other warp. -/
def Obligations.TrapEntry : Prop :=
  ∀ (s : State) (wid : Nat) (w : Warp) (pc : VAddr) (grant : Nat) (t : Trap), tget s.warps wid = some w → w.trapMode = false → t.lanes ≠ 0 →
    bit (ctxOf s (ctxOfWarp s w)).tveclo.toNat 0 = true →
    (∃ w' b, tget (takeTrap s wid pc grant t).warps wid = some w' ∧
      w'.epc = pc ∧ w'.ecause = BitVec.ofNat 32 (t.code + 64 * t.rply.toNat + 128 * t.cpyf.toNat) ∧ w'.emask = t.lanes ∧
      w'.eaddr = BitVec.ofNat 57 t.eaddr ∧ w'.etval = BitVec.ofNat 32 t.etval ∧ w'.trapMode = true ∧
      w'.braids = [b] ∧ b.lanes = t.lanes ∧ b.pc = handlerOf (ctxOf s (ctxOfWarp s w)) ∧ w'.deferred = [] ∧
      (∀ g ∈ w.braids, g.lanes &&& ~~~t.lanes ≠ 0 → ∃ h ∈ w'.held, h.lanes = g.lanes &&& ~~~t.lanes ∧ h.pc = g.pc) ∧
      w'.vregs = w.vregs ∧ w'.sregs = w.sregs ∧ w'.preds = w.preds ∧ w'.masks = w.masks ∧ w'.nest = w.nest ∧ w'.tiles = w.tiles ∧
      w'.fstat = w.fstat ∧ w'.fctl = w.fctl ∧ (w'.ld, w'.st, w'.cp, w'.mx) = (w.ld, w.st, w.cp, w.mx)) ∧
    KeepsWarps s (takeTrap s wid pc grant t) wid ∧ { takeTrap s wid pc grant t with warps := s.warps } = s

/-- R398 step 3, R399, R390: a cause in trap mode fences the context with CSTAT.DBL, and one in a context without a handler with
CSTAT.NOTV, each with the code in DCAUSE; the second writes the trap registers. That a double trap leaves EPC, ECAUSE, EMASK, EADDR
and ETVAL is the model's choice (log 36), not a rule. -/
def Obligations.TrapsThatFence : Prop :=
  ∀ (s : State) (wid : Nat) (w : Warp) (pc : VAddr) (grant : Nat) (t : Trap), tget s.warps wid = some w → t.code < 64 →
    let c := ctxOfWarp s w
    c < s.ctxs.length → (ctxOf s c).cstat.getLsbD 0 = false →
    (w.trapMode = true → (ctxOf (takeTrap s wid pc grant t) c).fencing = true ∧
      (ctxOf (takeTrap s wid pc grant t) c).cstat.getLsbD 2 = true ∧
      (ctxOf (takeTrap s wid pc grant t) c).cstat.extractLsb' 8 8 = BitVec.ofNat 8 t.code ∧
      (tget (takeTrap s wid pc grant t).warps wid).map (fun v => (v.epc, v.ecause, v.emask, v.eaddr, v.etval)) =
        some (w.epc, w.ecause, w.emask, w.eaddr, w.etval)) ∧
    (w.trapMode = false → bit (ctxOf s c).tveclo.toNat 0 = false → (ctxOf (takeTrap s wid pc grant t) c).fencing = true ∧
      (ctxOf (takeTrap s wid pc grant t) c).cstat.getLsbD 5 = true ∧
      (ctxOf (takeTrap s wid pc grant t) c).cstat.extractLsb' 8 8 = BitVec.ofNat 8 t.code ∧
      (tget (takeTrap s wid pc grant t).warps wid).map (fun w => (w.epc, w.emask)) = some (pc, t.lanes))

/-! ### Frames -/

/-- R100, R25 to R29: a lane operation changes the registers of its active lanes that it names, or its predicate in them, and
ORs flags into FSTAT: every other register, lane, predicate, scalar, mask, counter, trap register and warp, all of memory and
the rest of the machine, stay as they were. -/
def Obligations.LaneFrame : Prop :=
  ∀ (op : AluOp) (i : Instr) (d : LaneDst) (act : Mask) (s t : State) (x : Issue),
    ((∃ f, i = longForm op f ∧ d = lbDst op f ∧ act = guardLanes x.w x.b.lanes f.gn f.gp.toNat) ∨
     (∃ f, shortForm op f = some i ∧ d = laDst op f ∧ act = guardLanes x.w x.b.lanes false 7)) →
    Issues i s x → WarpCanonical x.w → exec i s = .next t →
    KeepsMachine s t ∧ KeepsWarps s t x.wid ∧ ∃ w e, tget t.warps x.wid = some w ∧ w.fstat = x.w.fstat ||| e ∧
      (∀ r l, l < 64 → (inMask act l = false ∨ (∀ vd n, d = .regs vd n → r < vd ∨ vd + n ≤ r)) → vread w r l = vread x.w r l) ∧
      (∀ q l, l < 64 → (inMask act l = false ∨ d ≠ .pred q) → inMask (w.preds.getD q 0) l = inMask (x.w.preds.getD q 0) l) ∧
      w.sregs = x.w.sregs ∧ w.masks = x.w.masks ∧ w.nest = x.w.nest ∧ w.tiles = x.w.tiles ∧ w.win = x.w.win ∧
      (w.ld, w.st, w.cp, w.mx, w.cwCls, w.cwDie, w.cwDev, w.cwSys) =
        (x.w.ld, x.w.st, x.w.cp, x.w.mx, x.w.cwCls, x.w.cwDie, x.w.cwDev, x.w.cwSys) ∧
      (w.fctl, w.clkhi, w.epc, w.ecause, w.emask, w.eaddr, w.etval, w.trapMode) =
        (x.w.fctl, x.w.clkhi, x.w.epc, x.w.ecause, x.w.emask, x.w.eaddr, x.w.etval, x.w.trapMode) ∧
      w.storeQ = x.w.storeQ ∧ w.parked = x.w.parked ∧ w.held = x.w.held ∧ w.owed = x.w.owed

/-- R123, R127 to R129: a scalar operation changes its destination scalar alone; BRA, BRC, BRP, RET, JMPI and NOP change no
register, and CALL only s382 and s383. -/
def Obligations.ScalarAndControlFrame : Prop :=
  ∀ (i : Instr) (dst : Nat → Prop) (s t : State) (x : Issue),
    ((∃ op f, i = uaForm op f ∧ dst = (· = f.sd.toNat)) ∨ (∃ op f, i = ubForm op f ∧ dst = (· = f.sd.toNat)) ∨
     (∃ op f, i = uiForm op f ∧ dst = (· = f.sd.toNat)) ∨ (∃ f, i = .call f ∧ dst = (fun n => n = 382 ∨ n = 383)) ∨
     ((∃ f, i = .bra f) ∧ dst = fun _ => False) ∨ ((∃ f, i = .brc f) ∧ dst = fun _ => False) ∨
     ((∃ f, i = .brp f) ∧ dst = fun _ => False) ∨ ((∃ e, i = .nop e) ∧ dst = fun _ => False) ∨
     ((∃ f, (i = .ret f ∨ i = .jmpi f) ∧ (sread x.w f.sa.toNat).toNat % 4 = 0) ∧ dst = fun _ => False)) →
    Issues i s x → WarpCanonical x.w → exec i s = .next t →
    KeepsMachine s t ∧ KeepsWarps s t x.wid ∧ ∃ w, tget t.warps x.wid = some w ∧
      (∀ n, ¬ dst n → sread w n = sread x.w n) ∧ w.vregs = x.w.vregs ∧ w.preds = x.w.preds ∧ w.masks = x.w.masks ∧ w.nest = x.w.nest ∧
      w.tiles = x.w.tiles ∧ w.win = x.w.win ∧ w.fstat = x.w.fstat ∧
      (w.ld, w.st, w.cp, w.mx, w.cwCls, w.cwDie, w.cwDev, w.cwSys) =
        (x.w.ld, x.w.st, x.w.cp, x.w.mx, x.w.cwCls, x.w.cwDie, x.w.cwDev, x.w.cwSys) ∧
      (w.fctl, w.clkhi, w.epc, w.ecause, w.emask, w.eaddr, w.etval, w.trapMode) =
        (x.w.fctl, x.w.clkhi, x.w.epc, x.w.ecause, x.w.emask, x.w.eaddr, x.w.etval, x.w.trapMode) ∧
      w.storeQ = x.w.storeQ ∧ w.parked = x.w.parked ∧ (∀ e, e ∈ w.owed ↔ e ∈ x.w.owed ∧ ¬ dst e.2)

/-- R155, R156, R158, R169, R284: the issue of a global load, store or atomic (LDG, SLDG, STG, STNT, SSTG, ATOMG, SATOMG, REDG) changes
no register of its warp: a load's are written when it returns. Where the leaves of its addresses are cached (R395), and no table is read for them, no byte of memory changes, here or at any
home, and no other warp: a store is in its warp's queue. -/
def Obligations.GlobalIssueFrame : Prop :=
  ∀ (i : Instr) (a : Access) (s t : State) (x : Issue), Issues i s x → globalForm x i = some a →
    GlobalClear x s a.size a.addrs a.rd a.wr → exec i s = .next t →
    (Cached x s (a.addrs.map Prod.snd) →
      (∀ a, homeByte t a = homeByte s a) ∧ t.mem = s.mem ∧ t.blocks = s.blocks ∧ KeepsWarps s t x.wid) ∧
    ∃ w, tget t.warps x.wid = some w ∧ w.vregs = x.w.vregs ∧ w.sregs = x.w.sregs ∧ w.preds = x.w.preds ∧ w.masks = x.w.masks ∧
      w.owed = x.w.owed ∧ w.nest = x.w.nest ∧ w.fstat = x.w.fstat ∧ w.fctl = x.w.fctl ∧ w.epc = x.w.epc ∧ w.ecause = x.w.ecause ∧ w.emask = x.w.emask

/-- R155, R323, R324, R335: a store packet whose turn has come at a home that holds its grain writes the bytes of its pieces there,
in their order, so that of several pieces that cover a byte the last one decides it, and leaves every other byte of every home as
it was. -/
def Obligations.HomeStoreWrites : Prop :=
  ∀ (id k : Nat) (s t : State) (e : WinEnt) (b : L2Blk), tget s.net.flushes id = none → findEnt s id = some e → entReady s e = true →
    e.kind = .store → e.pois = false → routed s (32 * e.grain) = 32 * e.grain → homeOf s (32 * e.grain) = some k →
    permits s (entMaster s e).1 (32 * e.grain) false true = true → s.sec.reel = none → spliceOf s k e.grain = none →
    atTurn s k e.grain e.id = true →
    (∀ p ∈ e.pieces, p.addr / 32 = e.grain ∧ p.addr % 32 + p.data.length ≤ 32 ∧ recordsHit s p.addr p.data.length = []) →
    findBlk s k false (32 * e.grain) = some b → memWf b.data → partialsOf s e.grain = [] → exec (.homeWrite id) s = .next t →
    (∀ a, (∀ p ∈ e.pieces, a < p.addr ∨ p.addr + p.data.length ≤ a) → homeByte t a = homeByte s a) ∧
    (∀ before p after j, e.pieces = before ++ p :: after → j < p.data.length →
      (∀ q ∈ after, p.addr + j < q.addr ∨ q.addr + q.data.length ≤ p.addr + j) → homeOf s (p.addr + j) = some k →
      homeByte t (p.addr + j) = p.data.getD j 0)

/-! ### Reset, and two rules word for word -/

/-- R457, R320, R387, R459: after reset the clock is 0, no kernel is there, every context is disabled, every core's translation and
instruction caches and every L2 slice are empty, and memory reads 0. It is the model's choice that the state after reset is the one
right after step 7 of the sequence, where READY is 1 (log 19, with logs 8 and 9 for the access table and the links). -/
def Obligations.ResetState : Prop :=
  State.reset.clock = 0 ∧ State.reset.warps = [] ∧ State.reset.blocks = [] ∧ State.reset.clusters = [] ∧ State.reset.grids = [] ∧
  State.reset.cores.length = 192 ∧ State.reset.slices.length = 128 ∧ State.reset.ctxs.length = 64 ∧ State.reset.queues.length = 512 ∧
  (∀ c ∈ State.reset.ctxs, c.cctl = 0 ∧ c.cstat = 0 ∧ c.rootlo = 0 ∧ c.roothi = 0 ∧ c.tveclo = 0 ∧ c.tvechi = 0) ∧
  (∀ q ∈ State.reset.queues, q.en = false ∧ q.head = 0 ∧ q.tail = 0) ∧
  (∀ c ∈ State.reset.cores, c.runs = [none, none, none, none] ∧ c.queue = [] ∧ c.tlb = [] ∧ c.icache = []) ∧
  (∀ y ∈ State.reset.slices, y.blocks = [] ∧ y.fenced = false) ∧
  (∀ a, byteAt State.reset.mem a = 0) ∧ State.reset.power.stp = 0 ∧ State.reset.sec.ready = true ∧
  (∀ s : State, ∃ t, exec (.deviceReset 0) s = .next t ∧ t.clock = 0 ∧ t.warps = [] ∧ t.mem = [] ∧ t.power.temp = s.power.temp)

/-- R64: the stochastic rounding key of a 32-bit rank, a 32-bit step and a 64-bit index, in arithmetic modulo 2^64. -/
def Obligations.SrKeyValue : Prop :=
  ∀ (rank stp : BitVec 32) (index : BitVec 64),
    let x := index + rank.setWidth 64 * 0x8F3D61A52C97E4B1#64
    let x := x ^^^ (stp.setWidth 64 * 0xE4C71D39A65B08F7#64)
    let x := (x ^^^ (x >>> 31)) * 0x9B217C4ED3F56A85#64
    let x := (x ^^^ (x >>> 29)) * 0xC6A3F05D2B891E6D#64
    BitVec.ofNat 64 (srKey rank.toNat stp.toNat index.toNat) = x ^^^ (x >>> 32) ∧ srKey rank.toNat stp.toNat index.toNat < 2 ^ 64

/-- R132: JOIN mk sets mk to mk or L, L its issuing lanes, and adds 1 to the nesting counter of every lane of L, members or not;
when the counter of a lane of L stands at 255, JOIN raises NEST with those lanes in EMASK and k in ETVAL, and neither a mask nor
a counter changes. -/
def Obligations.JoinOpensRegion : Prop :=
  ∀ (f : UA) (s t : State) (x : Issue), Issues (.join f) s x → WarpCanonical x.w → x.w.masks.length = 12 →
    (x.b.lanes ||| mread x.w f.sd.toNat) &&& ~~~liveMask x.w = 0 → exec (.join f) s = .next t →
    ((∀ l, l < 64 → inMask x.b.lanes l = true → nestOf x.w l ≠ 255) →
      ∃ w, tget t.warps x.wid = some w ∧ mread w f.sd.toNat = mread x.w f.sd.toNat ||| x.b.lanes ∧
        (∀ k, k ≠ f.sd.toNat → mread w k = mread x.w k) ∧
        (∀ l, l < 64 → nestOf w l = if inMask x.b.lanes l then nestOf x.w l + 1 else nestOf x.w l)) ∧
    ((∃ l, l < 64 ∧ inMask x.b.lanes l = true ∧ nestOf x.w l = 255) →
      ∃ w, tget t.warps x.wid = some w ∧ w.masks = x.w.masks ∧ w.nest = x.w.nest ∧
        (x.w.trapMode = false → (w.ecause.toNat % 64 = 0x09 ∧ w.etval = BitVec.ofNat 32 f.sd.toNat ∧ w.epc = x.b.pc) ∧
          ∀ l, l < 64 → inMask w.emask l = (inMask x.b.lanes l && nestOf x.w l == 255)))
end

