-- ==== Sys2Proof/Tests/Slice0.lean ====
section
/-! SUPPORT. Tests: words of the manual decode to their instructions, ill-formed terms are refused, examples the manual works out,
and for every statement of Certificates/Slice0 with hypotheses, concrete states and operands that meet them. -/

namespace Sys2Proof.Tests

open Sys2Proof Sys2Proof.Machine

-- The tests run one after another: each is checked by the kernel where it stands, without a thread of its own.
set_option Elab.async false

/-! ### Terms and states -/

/-- An LB instruction's fields: registers vd, va, vb, vc, everything else off, guard q7. -/
def lb (vd va vb vc : BitVec 8) : LB := ⟨false, vd, va, 0, vb, vc, false, 7, false, false, false, 0, false, false, false, 0⟩
/-- LM fields: register vd, base sbase, guard q7. -/
def lm (vd : BitVec 8) (sbase : BitVec 9) (sub : BitVec 6) : LM := ⟨false, vd, 0, sub, sbase, false, 7, 0⟩
/-- UA, UB and UI fields. -/
def ua (sd sa : BitVec 9) : UA := ⟨false, sd, sa, 0⟩
def ub (sd sa sb sc : BitVec 9) (imm : BitVec 14) : UB := ⟨false, sd, sa, 0, sb, sc, imm⟩
def ui (sd sa : BitVec 9) (sub : BitVec 4) (imm : BitVec 32) : UI := ⟨false, sd, sa, sub, imm⟩

/-- One warp of width 32 at its first instruction, in the focus: the state `withFetchWord` makes, without a word. -/
def one : State := { loadMem (loadWarp State.reset) 0 0 with focus := some ⟨0, 0⟩ }
/-- The same with a change to the warp. -/
def oneW (f : Warp → Warp) : State := modWarp one 0 f
/-- The same with a scalar register set. -/
def oneS (n : Nat) (v : Word) : State := oneW (fun w => swrite w n v)

/-- Instruction `i` issues in `s`, and its issue meets `c`. -/
def meets (i : Instr) (s : State) (c : Issue → Bool) : Bool :=
  (issuerOf s i).any (fun x => (prologue s x).isNone && (poisOf x s).isNone && c x)
/-- Instruction `i` issues in `s`. -/
def runs (i : Instr) (s : State) : Bool := meets i s (fun _ => true)

/-- What `meets` checks is what the statements assume. -/
theorem issues_of_meets {i : Instr} {s : State} {c : Issue → Bool} (h : meets i s c = true) : ∃ x, Issues i s x ∧ c x = true := by
  simp only [meets, Option.any_eq_true, Bool.and_eq_true, Option.isNone_iff_eq_none] at h
  obtain ⟨x, hx, ⟨hp, hq⟩, hc⟩ := h
  exact ⟨x, ⟨hx, hp, hq⟩, hc⟩

/-! ### Well-formedness: each check refuses an ill-formed term -/

/-- The lane rows of the tables: Q is MMA's; a T, a sub-operation or a modifier that the row does not have; a pair at an odd
register; a predicate destination q7; an LA row's T (R77 to R85, R102). -/
theorem test_wf_lane_rows : (Instr.iadd { lb 3 1 2 0 with q := true }).wf = false ∧ (Instr.iadd { lb 3 1 2 0 with t := 2 }).wf = false ∧
    (Instr.iadd { lb 3 1 2 0 with sub := 1 }).wf = false ∧ (Instr.iadd { lb 3 1 2 0 with rnd := 1 }).wf = false ∧
    (Instr.iadd { lb 3 2 2 0 with t := 10 }).wf = false ∧ (Instr.iadd { lb 2 3 2 0 with t := 10 }).wf = false ∧
    (Instr.iadd { lb 3 1 2 0 with sb := true, im := true }).wf = false ∧ (Instr.iadd (lb 3 1 2 1)).wf = false ∧
    (Instr.icmp (lb 7 1 2 0)).wf = false ∧ (Instr.popc (lb 3 1 2 0)).wf = false ∧ (Instr.iaddShort ⟨false, 3, 1, 2⟩).wf = false ∧
    (Instr.iadd (lb 3 1 2 0)).wf = true ∧ (Instr.icmp (lb 6 1 2 0)).wf = true ∧ (Instr.iaddShort ⟨false, 3, 1, 1⟩).wf = true := by decide
/-- The lane rows with checks of their own (R105, R111 to R122, R129, R215). -/
theorem test_wf_lane_own : (Instr.cvt { lb 3 1 0 3 with sub := 0 }).wf = false ∧ (Instr.pack { lb 3 1 2 0 with sub := 5, t := 2 }).wf = false ∧
    (Instr.unpack { lb 3 1 0 0 with sub := 2, t := 3 }).wf = false ∧ (Instr.dqplane { lb 3 1 2 4 with t := 2, sub := 8 }).wf = false ∧
    (Instr.mov { lb 3 1 2 0 with t := 0 }).wf = false ∧ (Instr.logic { lb 3 1 2 0 with sub := 6, t := 1 }).wf = false ∧
    (Instr.qplane { lb 3 1 0 0 with t := 2 }).wf = false ∧ (Instr.srnd { lb 3 1 4 0 with t := 2 }).wf = false ∧
    (Instr.xlane { lb 3 1 2 0 with sub := 7 }).wf = false ∧ (Instr.peer { lb 3 1 0 0 with sub := 4 }).wf = false ∧
    (Instr.qpoll { lb 7 1 0 0 with sub := 0 }).wf = false ∧ (Instr.qpoll { lb 12 1 0 0 with sub := 4 }).wf = false ∧
    (Instr.redx { lb 3 1 0 0 with sub := 6 }).wf = false ∧ (Instr.scan { lb 3 1 1 0 with sub := 0 }).wf = false ∧
    (Instr.plop (lb 7 1 2 3)).wf = false ∧ (Instr.brp (lb 0 0 0 3)).wf = false ∧ (Instr.trd ⟨false, 4, 1, 0, false, 0, 0, 0, 0, 0⟩).wf = false ∧
    (Instr.twr ⟨false, 4, 1, 0, false, 0, 0, 0, 0, 0⟩).wf = false := by decide
/-- Memory, matrix and accumulator rows (R152, R153, R164, R176, R197, R208). -/
theorem test_wf_memory : (Instr.lds (lm 4 8 7)).wf = false ∧ (Instr.lds (lm 5 8 5)).wf = false ∧ (Instr.lds (lm 4 256 4)).wf = false ∧
    (Instr.lds (lm 4 8 20)).wf = false ∧ (Instr.sts (lm 4 8 0)).wf = false ∧ (Instr.ldg (lm 4 255 4)).wf = false ∧ (Instr.ldg { lm 4 8 4 with va := 1 }).wf = false ∧
    (Instr.atoms (lm 4 255 0)).wf = false ∧ (Instr.atomg (lm 5 8 3)).wf = false ∧ (Instr.redg (lm 4 8 56)).wf = false ∧ (Instr.prefg (lm 17 8 0)).wf = false ∧
    (Instr.mma (lb 4 8 12 0)).wf = false ∧ (Instr.accrd { lb 4 32 0 0 with t := 2 }).wf = false ∧ (Instr.accwr (lb 4 0 0 0)).wf = false ∧
    (Instr.sldg (ub 0 383 0 0 0)).wf = false ∧ (Instr.sstg { ub 0 4 8 0 0 with sub := 2 }).wf = false ∧ (Instr.satomg (ub 0 4 8 1 0)).wf = false ∧
    (Instr.fence (ub 0 0 0 0 5)).wf = false ∧ (Instr.drainnt (ub 1 0 0 0 0)).wf = false ∧ (Instr.flush { ub 0 4 8 0 0 with sub := 3 }).wf = false ∧
    (Instr.pref (ub 0 4 0 0 17)).wf = false := by decide
/-- Scalar, control and system rows (R81, R123, R127 to R145, R34, R35). -/
theorem test_wf_uniform : (Instr.sadd (ua 384 1)).wf = false ∧ (Instr.saddUb (ub 1 2 3 4 0)).wf = false ∧ (Instr.ssubUb (ub 1 2 3 0 1)).wf = false ∧
    (Instr.smovUi (ui 1 1 8 5)).wf = false ∧ (Instr.saddUi (ui 1 1 0 5)).wf = false ∧ (Instr.brc (ui 0 1 6 0)).wf = false ∧ (Instr.ret (ua 0 383)).wf = false ∧
    (Instr.exit (ua 1 0)).wf = false ∧ (Instr.join (ua 0 0)).wf = false ∧ (Instr.join (ua 12 0)).wf = false ∧ (Instr.wait (ua 12 0)).wf = false ∧
    (Instr.mops { ua 0 1 with sub := 2 }).wf = false ∧ (Instr.mops { ua 1 1 with sub := 10 }).wf = false ∧ (Instr.trap (ub 0 1 0 0 5)).wf = false ∧
    (Instr.sleepc (ub 0 1 0 0 5)).wf = false ∧ (Instr.waitc (ub 0 0 0 0 64)).wf = false ∧ (Instr.attach (ui 0 0 2 0)).wf = false ∧
    (Instr.reggrow (ua 0 33)).wf = false ∧ (Instr.srd (ub 0 0 0 0 0x0A)).wf = false ∧ (Instr.srd (ub 0 0 0 0 1)).wf = false ∧
    (Instr.swr (ub 0 1 0 0 0x08)).wf = false ∧ (Instr.swr (ub 0 1 0 0 0x10)).wf = true := by decide
/-- Synchronisation, queue, matrix and copy rows (R147, R177 to R195, R207, R213, R214, R222, R223, R230). -/
theorem test_wf_sync : (Instr.bara (ub 16 1 0 0 0)).wf = false ∧ (Instr.barw (ub 1 1 0 0 0)).wf = false ∧ (Instr.cbara (ub 8 0 0 0 0)).wf = false ∧
    (Instr.kinitReg { ub 1 4 0 0 0 with sub := 1 }).wf = false ∧ (Instr.ktake { ub 1 4 0 0 0 with sub := 2 }).wf = false ∧ (Instr.rinit (ub 0 4 5 0 64)).wf = false ∧
    (Instr.rwaitFull { ub 1 4 0 0 0 with sub := 1 }).wf = false ∧ (Instr.rrel (ub 1 4 0 0 0)).wf = false ∧ (Instr.rarr (ub 1 4 5 6 0)).wf = false ∧
    (Instr.chsend (ub 0 4 5 0 16)).wf = false ∧ (Instr.chrecvDone { ub 1 0 0 0 0 with sub := 1 }).wf = false ∧ (Instr.deq (ub 369 1 0 0 0)).wf = false ∧
    (Instr.enq (ub 1 4 369 0 0)).wf = false ∧ (Instr.launch { ub 1 4 0 0 0 with sub := 2 }).wf = false ∧ (Instr.hset (ub 8 0 0 0 0)).wf = false ∧
    (Instr.accz (ub 16 0 0 0 0)).wf = false ∧ (Instr.mchkrd (ub 381 0 0 0 0)).wf = false ∧ (Instr.tdef (ub 1 0 0 0 4)).wf = false ∧
    (Instr.cpyG2s (ub 1 379 20 30 0)).wf = false ∧ (Instr.cpyS2g { ub 1 8 20 30 1 with sub := 1 }).wf = false ∧ (Instr.cpyS2s { ub 1 8 20 30 2 with sub := 2 }).wf = false ∧
    (Instr.cpgth (ub 1 8 382 30 0)).wf = false ∧ (Instr.cpxf { ub 1 8 20 30 0 with sub := 4 }).wf = false ∧ (Instr.tdchk (ub 1 8 20 0 0)).wf = false ∧
    (Instr.coll (ub 1 8 20 30 3)).wf = false := by decide

/-! ### Decoding: words of the manual -/

/-- FFMA, SMOV, BRP, WAITC, LDS, MMA and TDEF as R79 to R92, R123, R129, R137, R152, R197 and R214 write them out. -/
theorem test_decode_words_a :
    decodeWords 0x48C10040 0x02052002 = .ok (.ffma { lb 4 1 2 5 with gp := 2, t := 2 }) ∧
    decodeWords 0xC4850008 0x000186A0 = .ok (.smovUi (ui 40 0 8 100000)) ∧
    decodeWords 0x75C00000 0x0003A200 = .ok (.brp { lb 0 0 0 3 with e := true, gn := true, gp := 2, im := true }) ∧
    decodeWords 0xCC000003 0 = .ok (.waitc { ub 0 0 0 0 0 with sub := 3 }) ∧
    decodeWords 0x5801008C 0x04080040 = .ok (.lds { lm 4 8 12 with va := 2, gn := false, gp := 1, off := 64 }) ∧
    decodeWords 0xA83FFFEF 0 = .ok (.bra ⟨true, 0x3FFFEF⟩) ∧ decodeWords 0x8B000000 0 = .ok (.eret (ua 0 0)) ∧
    decodeWords 0xAE400000 0 = .ok (.detach { ua 0 0 with e := true }) := by decide +kernel
/-- Words of R197 (MMA), R214 and R215 (TDEF, TRD), R224 (CPY), R177 (BARA), R187 (RINIT), R195 (HSET) and R230 (COLL). -/
theorem test_decode_words_b :
    decodeWords 0x5C24C800 0x28007400 = .ok (.mma { lb 147 32 40 0 with sb := true }) ∧
    decodeWords 0xDB004000 0x40 = .ok (.tdef (ub 2 0 0 0 64)) ∧
    decodeWords 0x56018000 0xA048F000 = .ok (.trd ⟨false, 6, 0, 0, true, 2, 9, 3, 3, 0⟩) ∧
    decodeWords 0xDC018140 0x0F07C00F = .ok (.cpyG2s (ub 12 20 30 31 0xF)) ∧
    decodeWords 0xD4002030 0 = .ok (.bara (ub 1 3 0 0 0)) ∧ decodeWords 0xD64000A0 0x05800001 = .ok (.rinit (ub 0 10 11 0 1)) ∧
    decodeWords 0xDA002002 0 = .ok (.hset { ub 1 0 0 0 0 with sub := 2 }) ∧
    decodeWords 0xDE078080 0x1A0C0001 = .ok (.coll (ub 60 8 52 48 1)) := by decide +kernel
/-- Words of the manual's programs: ATTACH, REGGROW, SLEEPC, SLDG, SSTG, STS, ATOMS, REDG, and PEER and ATOMS of R346. -/
theorem test_decode_words_c :
    decodeWords 0xEE054290 0x0001FFE4 = .ok (.attach { ui 42 41 0 0x0001FFE4 with e := true }) ∧
    decodeWords 0x8E860140 0 = .ok (.reggrow (ua 48 20)) ∧ decodeWords 0xCB8002A1 0 = .ok (.sleepc { ub 0 42 0 0 0 with sub := 1 }) ∧
    decodeWords 0xD12D61C4 0x30 = .ok (.sldg { ub 363 28 0 0 0x30 with sub := 4 }) ∧
    decodeWords 0xF14001C4 0xB580002C = .ok (.sstg { ub 0 28 363 0 0x2C with e := true, sub := 4 }) ∧
    decodeWords 0x5840C10C 0x14380000 = .ok (.sts { lm 3 40 12 with va := 4 }) ∧
    decodeWords 0x59418080 0x04380000 = .ok (.atoms { lm 6 8 0 with va := 2 }) ∧
    decodeWords 0x5480C040 0x00007001 = .ok (.peer { lb 3 1 0 0 with t := 1 }) ∧
    decodeWords 0x59414181 0x1A080000 = .ok (.atoms { lm 5 52 1 with va := 6, gp := 1 }) ∧
    decodeWords 0x59C1C201 0x01100080 = .ok (.redg { lm 7 2 1 with va := 8, gp := 2, off := 0x80 }) := by decide +kernel
/-- Every word the tests name is read as the bytes of memory lie: low byte first (R10, R72). -/
theorem test_decode_bytes : decode [0x00, 0x20, 0x80, 0x89, 0xAA] = .ok (.join (ua 1 0), [0xAA]) ∧ decode [0, 0, 0] = .error .tooShort ∧
    decode [0x03, 0, 0, 0xCC] = .error .tooShort ∧ decodeTableWord 64 0x0004008C5801008C ≠ none := by decide +kernel

/-! ### Examples the manual works out -/

/-- The state after an instruction, and the warp and the block in it. -/
def after (i : Instr) (s : State) : State := match exec i s with | .next t => t | _ => State.reset
def warpOf (s : State) : Option Warp := tget s.warps 0
def blockIn (s : State) : Option Block := tget s.blocks 0

/-- R83's example: BRA at 0x100 with offset -17 goes to 0xC0. -/
theorem test_bra : (warpOf (after (.bra ⟨true, 0x3FFFEF⟩) (oneW (fun w => { w with braids := w.braids.map (fun b => { b with pc := 0x100 }) })))).map
    (fun w => w.braids.map (·.pc)) = some [0xC0] := by decide +kernel
/-- R82's example: LI s40, 100 000. -/
theorem test_smov : (warpOf (after (.smovUi (ui 40 0 8 100000)) one)).map (fun w => sread w 40) = some 100000 := by decide +kernel
/-- R166's example: the live lanes are 0 to 3, w0 = 10, w1 = 100. -/
def atomsState : State := modBlock (oneW (fun w => swrite (vwrite (vwrite (vwrite (vwrite (vwrite
      { w with masks := lset w.masks 0 0xF, braids := w.braids.map (fun b => { b with lanes := 0xF }) } 2 1 4) 6 0 1) 6 1 5) 6 2 2) 6 3 3) 9 0x10)) 0
      (fun b => { b with scratch := [(0, 10), (4, 100)] })
/-- Lanes 0, 2 and 3 share a word and apply in order. -/
theorem test_atoms : (warpOf (after (.atoms { lm 6 8 0 with va := 2 }) atomsState)).map (fun w => [vread w 6 0, vread w 6 1, vread w 6 2, vread w 6 3]) = some [10, 100, 11, 13] ∧
      (blockIn (after (.atoms { lm 6 8 0 with va := 2 }) atomsState)).map (·.scratch) = some [(0, 16), (4, 105)] := by decide +kernel
/-- JOIN of R136's program, and JOIN with a counter at 255 (R132). -/
theorem test_join : (warpOf (after (.join (ua 1 0)) one)).map (fun w => (mread w 1, nestOf w 31)) = some (0xFFFFFFFF, 1) ∧
    (warpOf (after (.join (ua 1 0)) (oneW (fun w => setNest w 5 255)))).map (fun w => (w.ecause, w.emask, w.etval, mread w 1, nestOf w 4))
      = some (0x09, 0x20, 1, 0, 0) := by decide +kernel
/-- R187's example: the header of a ring of 2 slots; R177: an arrival of every lane has its release to wait for. -/
theorem test_ring_barrier : (blockIn (after (.rinit (ub 0 10 11 0 1)) (oneW (fun w => swrite (swrite w 10 0x2000) 11 8192)))).map
      (fun b => (ringValid b 0x2000, ringSlots b 0x2000, (ringSlot b 0x2000 1).exp)) = some (true, 2, 8192) ∧
    (warpOf (after (.bara (ub 1 0 0 0 0)) one)).map (fun w => (arriveOf w (.bb 1)).pending) = some true := by decide +kernel
/-- TRAP n and BRK (R145), and a division of FFMA by hand: 2 * 3 + 4 = 10. -/
theorem test_trap_ffma : (warpOf (after (.trap (ub 0 0 0 0 77)) one)).map (fun w => (w.ecause, w.etval, w.emask, w.epc, w.trapMode))
      = some (0x13, 77, 0xFFFFFFFF, loadPc, true) ∧
    (warpOf (after (.ffma { lb 4 1 2 5 with t := 2 }) (oneW (fun w => vwrite (vwrite (vwrite w 1 3 0x40000000) 2 3 0x40400000) 5 3 0x40800000)))).map
      (fun w => vread w 4 3) = some 0x41200000 := by decide +kernel
/-- A pair sum carries into the high register (R23, R105); saturation; a shift by 32 (R105). -/
theorem test_integer : (warpOf (after (.iadd { lb 4 2 6 0 with t := 11 }) (oneW (fun w => vwrite (vwrite w 2 0 0xFFFFFFFF) 6 0 1)))).map
      (fun w => (vread w 4 0, vread w 5 0)) = some (0, 1) ∧
    (warpOf (after (.iadd { lb 4 2 6 0 with sat := true }) (oneW (fun w => vwrite (vwrite w 2 0 0x7FFFFFFF) 6 0 1)))).map
      (fun w => vread w 4 0) = some 0x7FFFFFFF := by decide +kernel
/-- The reset, an event and the word a fetch finds. -/
theorem test_step : (match step (State.reset.withFetchWord 32 0x89802000) with
    | .next t => (warpOf t).map (fun w => (mread w 1, w.braids.map (·.pc))) | _ => none) = some (0xFFFFFFFF, [loadPc + 4]) := by decide +kernel

/-! ### States and operands that meet the statements' hypotheses -/

/-- DecodeOfEncode, EncodeOfDecode, UnassignedOpcodesReject: well-formed instructions, a word that decodes, unassigned opcodes. -/
theorem test_meets_encoding : (Instr.join (ua 11 0)).wf = true ∧ encode (.join (ua 11 0)) ≠ [] ∧ decodeWords 0x89802000 0 = .ok (.join (ua 1 0)) ∧
    laneAssigned (opOf 0) = false ∧ (0 : Word).getLsbD 31 = false ∧ (0xBFC00000 : Word).getLsbD 31 = true ∧ uniAssigned (opOf 0xBFC00000) = false ∧
    opOf 0x80000001 = 0 := by decide +kernel
/-- StepRunsDecoded and FetchReadsMemory: a granted sub-braid at a word and at a pair of words. -/
theorem test_meets_step : (let s := State.reset.withFetchWord 64 0x0004008C5801008C
    let s0 := passTime 1 { s with focus := none, agenda := [] }
    s.agenda = [⟨0, .issue 0 0⟩] ∧ (runOf s0 0 0).isSome = true ∧ ((runOf s0 0 0).bind (runBraid s0)).isSome = true ∧
    (fetchWord s0 0 0 loadPc.toNat).1 = .ok 0x5801008C ∧ (xlate s 0 0 loadPc.toNat false false true).toOption.isSome = true ∧
    tget (coreOf s 0).icache (icKey 0 loadPc.toNat) = none ∧ homeOf (cacheVa s 0 0 loadPc.toNat) loadPc.toNat ≠ none ∧
    permits (cacheVa s 0 0 loadPc.toNat) (masterOf (cacheVa s 0 0 loadPc.toNat) 0 0) loadPc.toNat true false = true ∧
    homePois (cacheVa s 0 0 loadPc.toNat) loadPc.toNat = false) := by decide +kernel
/-- StepNeverStops: an agenda with an event and a run's turn. -/
theorem test_meets_agenda : AgendaOfEvents { State.reset with agenda := [⟨3, .event (.leaseExpiry 0)⟩, ⟨0, .issue 0 0⟩] } := by
  intro u hu i h
  simp only [List.mem_cons, List.not_mem_nil, or_false] at hu
  rcases hu with rfl | rfl <;> cases h
  decide +kernel
/-- StepRunsEvents: an agenda with an event, none, and watchdog periods that have ended. MemoryCanonicalKept: memory at reset. -/
theorem test_meets_events : ({ State.reset with agenda := [⟨3, .event (.leaseExpiry 0)⟩] } : State).agenda = [⟨3, .event (.leaseExpiry 0)⟩] ∧
    State.reset.agenda = [] ∧ State.reset.watched ≤ (State.reset.clock + 65536) / 65536 ∧ (passTime 65536 State.reset).watched = 1 ∧ memWf one.mem := by decide +kernel
/-- IssueConditions and VerdictMovesLanes: an instruction that issues, one that runs out of its window, the run of its quadrant. -/
theorem test_meets_issue : meets (.nop true) one (fun x => decide ((tget one.warps x.wid).isSome = true ∧ (braidOf x.w x.b.id) = some x.b ∧
      (coreOf one x.w.core).runs.length = 4 ∧ x.w.slot < 48 ∧ x.w.core < one.cores.length) && eBit x.instr) = true ∧
    runs (.iadd (lb 3 1 2 0)) (oneW (fun w => { w with win := 8 })) = true ∧ runs (.iadd (lb 8 1 2 0)) (oneW (fun w => { w with win := 8 })) = false ∧
    (let s := modCore one 0 (fun c => { c with runs := lset c.runs 0 (some ⟨0, 0, 23⟩) })
     runOf s 0 0 = some ⟨0, 0, 23⟩ ∧ runs (.nop false) s = true) := by decide +kernel
/-- LaneArithmeticCompletes and LaneFrame: a long and a short form, at the first and the last register, a predicate destination. -/
theorem test_meets_lane : runs (longForm .iadd (lb 0 1 2 0)) one = true ∧ runs (longForm .dfma { lb 252 2 4 6 with t := 9 }) one = true ∧
    runs (longForm .fcmp { lb 6 1 2 0 with t := 2, sub := 7 }) one = true ∧ runs (longForm .cvt { lb 255 1 0 2 with sub := 0 }) one = true ∧
    shortForm .iadd ⟨false, 255, 0, 1⟩ = some (.iaddShort ⟨false, 255, 0, 1⟩) ∧ runs (.iaddShort ⟨false, 255, 0, 1⟩) one = true ∧
    runs (.movShort ⟨true, 0, 255, 1⟩) one = true ∧ runs (longForm .ffma { lb 4 1 2 5 with t := 2, gn := true }) one = true := by decide +kernel
/-- The tables of the warp are canonical. -/
theorem test_meets_canonical : meets (.nop false) (oneS 5 7) (fun x => tcanon 0 x.w.vregs && tcanon 0 x.w.sregs && tcanon 0 x.w.nest &&
    tsorted x.w.marks && tsorted x.w.smarks) = true := by decide +kernel
/-- CrossLaneCompletes: each instruction of the statement. -/
theorem test_meets_cross : runs (.qplane { lb 3 1 0 0 with sub := 7, t := 2 }) one = true ∧ runs (.srnd { lb 3 1 253 0 with t := 2, sb := true }) one = true ∧
    runs (.xlane { lb 3 1 2 0 with sub := 6 + 8 * 5, vb := 0 }) one = true ∧ runs (.peer { lb 3 1 0 0 with sub := 3 }) one = true ∧
    runs (.qpoll { lb 6 7 0 0 with sub := 2 }) one = true ∧ runs (.qpoll { lb 11 0 0 0 with sub := 4, na := true }) one = true ∧
    runs (.redx { lb 3 1 0 0 with sub := 5 + 8 * 5 }) one = true ∧ runs (.scan { lb 3 1 0 0 with sub := 5 + 32 }) one = true ∧
    runs (.plop (lb 0x46 7 0 1)) one = true ∧ runs (.nop true) one = true := by decide +kernel
/-- A warp with a valid view at v224. -/
def tiled : State := oneW (fun w => { w with tiles := lset w.tiles 2 ⟨true, 224⟩ })
/-- TilesComplete: TDEF at the last view that lies in the window, past it, and cleared; TRD and TWR, rows and columns. -/
theorem test_meets_tiles : runs (.tdef (ub 7 0 0 0 224)) one = true ∧ runs (.tdef (ub 7 0 0 0 248)) one = true ∧
    runs (.tdef { ub 0 0 0 0 0 with sub := 1 }) one = true ∧
    meets (.trd ⟨false, 6, 0, 0, true, 2, 9, 31, 3, 0⟩) tiled (fun x => !tileBad x.w ⟨false, 6, 0, 0, true, 2, 9, 31, 3, 0⟩ &&
      !tilePending tiled x ⟨false, 6, 0, 0, true, 2, 9, 31, 3, 0⟩ && (tileMarks x.w ⟨false, 6, 0, 0, true, 2, 9, 31, 3, 0⟩ (ltLanes x.w x.b.lanes ⟨false, 6, 0, 0, true, 2, 9, 31, 3, 0⟩)).isEmpty) = true ∧
    meets (.twr ⟨false, 0, 6, 0, false, 2, 9, 0, 3, 0⟩) tiled (fun x => !tileBad x.w ⟨false, 0, 6, 0, false, 2, 9, 0, 3, 0⟩ &&
      !tilePending tiled x ⟨false, 0, 6, 0, false, 2, 9, 0, 3, 0⟩) = true := by decide +kernel
/-- ScalarArithmeticCompletes and ScalarAndControlFrame: the three forms at the last scalar. -/
theorem test_meets_scalar : runs (uaForm .sadd (ua 383 0)) one = true ∧ runs (ubForm .ssel { ub 383 1 2 3 0 with sub := 0 }) one = true ∧
    runs (ubForm .sadd (ub 0 383 383 0 0x3FFF)) one = true ∧ runs (uiForm .slogic (ui 383 0 14 5)) one = true := by decide +kernel
/-- BranchesComplete: BRC that is taken and not; BRP with all, none and some of the lanes. -/
theorem test_meets_branches : runs (.bra ⟨false, 0x200000⟩) one = true ∧ runs (.brc (ui 0 0 0 5)) one = true ∧ runs (.brc (ui 0 0 1 5)) one = true ∧
    meets (.brp { lb 0 0 0 3 with im := true }) one (fun x => guardLanes x.w x.b.lanes false 7 == x.b.lanes) = true ∧
    meets (.brp { lb 0 0 0 3 with im := true, gn := true }) one (fun x => guardLanes x.w x.b.lanes true 7 == 0) = true ∧
    meets (.brp { lb 0 0 0 3 with im := true, gp := 2 }) (oneW (fun w => pwrite w 2 1 1))
      (fun x => guardLanes x.w x.b.lanes false 2 != 0 && guardLanes x.w x.b.lanes false 2 != x.b.lanes) = true := by decide +kernel
/-- CallsComplete: CALL, RET to an aligned and to a misaligned address, and sa = 383. -/
theorem test_meets_calls : runs (.call ⟨true, 5⟩) one = true ∧ runs (.ret (ua 0 382)) (oneS 382 0x100) = true ∧ runs (.jmpi (ua 0 0)) (oneS 0 0x102) = true ∧
    (issuerOf one (.ret (ua 0 383))).isSome = true ∧ (383 : BitVec 9) = (ua 0 383).sa := by decide +kernel
/-- JoinLeaveComplete, JoinOpensRegion: counters that allow and that do not. -/
theorem test_meets_join : meets (.join (ua 11 0)) one (fun x => decide (nestAt x.w x.b.lanes 255 = 0 ∧ x.w.masks.length = 12 ∧
      (x.b.lanes ||| mread x.w 11) &&& ~~~liveMask x.w = 0)) = true ∧
    meets (.join (ua 1 0)) (oneW (fun w => setNest w 31 255)) (fun x => decide (nestAt x.w x.b.lanes 255 ≠ 0)) = true ∧
    meets (.leave (ua 1 0)) (oneW (fun w => nestUp (mwrite w 1 3) 3)) (fun x => decide (nestAt x.w (x.b.lanes &&& mread x.w 1) 0 = 0)) = true ∧
    meets (.leave (ua 1 0)) (oneW (fun w => mwrite w 1 3)) (fun x => decide (nestAt x.w (x.b.lanes &&& mread x.w 1) 0 ≠ 0)) = true := by decide +kernel
/-- MasksAndPausesComplete: WAIT of members and of none, each other instruction. -/
theorem test_meets_masks : meets (.wait (ua 0 0)) one (fun x => decide (x.b.lanes &&& mread x.w 0 ≠ 0)) = true ∧
    meets (.wait (ua 11 0)) one (fun x => decide (x.b.lanes &&& mread x.w 11 = 0)) = true ∧ runs (.mops { ua 382 11 with sub := 7 }) one = true ∧
    runs (.mops { ua 1 382 with sub := 8 }) one = true ∧ runs (.exit (ua 0 0)) one = true ∧ runs (.detach (ua 0 0)) one = true ∧ runs (.yield (ua 0 0)) one = true ∧
    runs (.sleepc { ub 0 383 0 0 0x3FFF with sub := 1 }) one = true := by decide +kernel
/-- SpecialRegistersComplete: SRD of one value and per lane, SWR of a register of the warp and of MSTAT, a trap register in trap
mode, WAITC with and without a pending MCHK. -/
theorem test_meets_special : runs (.srd (ub 383 0 0 0 8)) one = true ∧ runs (.srd { ub 255 0 0 0 1 with sub := 1 }) one = true ∧
    runs (.swr (ub 0 1 0 0 0x11)) one = true ∧ runs (.swr (ub 0 1 0 0 0x28)) one = true ∧ runs (.swr (ub 0 1 0 0 0x27)) (oneW (fun w => { w with trapMode := true })) = true ∧
    runs (.waitc { ub 0 0 0 0 0 with sub := 3 }) one = true ∧ runs (.waitc (ub 0 0 0 0 63)) (oneW (fun w => { w with ld := 63 })) = true ∧
    runs (.waitc { ub 0 0 0 0 0 with sub := 3 }) (oneW (fun w => { w with mchk := some 4 })) = true := by decide +kernel
/-- ElasticWarpsComplete: ATTACH with and without wait, a window that grows, one that is large enough, one that shrinks. -/
theorem test_meets_elastic : runs (.attach (ui 42 41 0 0x0001FFE4)) one = true ∧ runs (.attach (ui 42 41 1 0x0001FFE4)) one = true ∧
    runs (.reggrow (ua 48 32)) one = true ∧ runs (.reggrow (ua 48 32)) (oneW (fun w => { w with win := 8 })) = true ∧
    runs (.regshrink (ua 48 32)) one = true ∧ runs (.regshrink (ua 48 1)) one = true := by decide +kernel
/-- Seventeen warps on a core whose register granules are all but taken. -/
def crowd : State := { one with warps := (List.range 17).flatMap (fun k => one.warps.map (fun e => (e.1 + k,
  { swrite e.2 41 1 with slot := 12 * (k % 4) + k / 4, win := if k % 16 = 0 then 8 else 256 }))) }
/-- The request of an ATTACH.wait. -/
def attachReq (x : Issue) (f : UI) : ResReq := .attach f.sd.toNat (sread x.w f.sa.toNat).toNat (x.b.pc + 8 + BitVec.ofInt 57 (4 * toSigned 16 (f.imm.toNat % 65536)))
  (f.imm.extractLsb' 16 16) ((List.range 32).map (sread x.w))
/-- ElasticWarpsComplete: requests that are granted at once, and that wait. -/
theorem test_meets_requests :
    meets (.attach (ui 42 41 1 0x0001FFE4)) (oneS 41 1) (fun x => (requestNow (oneS 41 1) x 0 (attachReq x (ui 42 41 1 0x0001FFE4))).isSome) = true ∧
    meets (.attach (ui 42 41 1 0x0001FFE4)) crowd (fun x => (requestNow crowd x 0 (attachReq x (ui 42 41 1 0x0001FFE4))).isNone) = true ∧
    meets (.reggrow (ua 48 32)) (oneW (fun w => { w with win := 8 })) (fun x => (requestNow (oneW (fun w => { w with win := 8 })) x 0 (.grow 48 32)).isSome) = true ∧
    meets (.reggrow (ua 48 32)) crowd (fun x => (requestNow crowd x 0 (.grow 48 32)).isNone) = true := by decide +kernel
/-- TrapInstructionsComplete; ChecksComeFirst: an ill-formed field, a privileged form, a barred role, no cooperative launch, a register
past the window. TrapEntry and TrapsThatFence: a context with a handler and one without, a warp in trap mode. -/
theorem test_meets_traps : runs (.trap (ub 0 0 0 0 0x3FFF)) one = true ∧ runs (.brk (ua 0 0)) one = true ∧
    runs (.eret (ua 0 0)) (oneW (fun w => { w with trapMode := true })) = true ∧
    (issuerOf one (.exit (ua 1 0))).isSome = true ∧ (Instr.exit (ua 1 0)).wf = false ∧ privOf (.eret (ua 0 0)) = some 0 ∧
    (issuerOf one (.eret (ua 0 0))).any (fun x => !x.w.trapMode && x.instr.wf && warpOk x.w x.instr) = true ∧
    roleBars 2 (.cpxf (ub 1 8 20 30 0)) = true ∧ (issuerOf one (.gridbar (ub 0 0 0 0 0))).any (fun x => !recCoop x.record && !roleBars x.w.role x.instr) = true ∧
    (issuerOf one (.iadd (lb 8 1 2 0))).any (fun x => regwOf 8 (usesOf x.w x.instr) == some 8) = true ∧
    ((warpOf one).any (fun w => !w.trapMode && bit (ctxOf one (ctxOfWarp one w)).tveclo.toNat 0 && decide (ctxOfWarp one w < one.ctxs.length) &&
      !(ctxOf one (ctxOfWarp one w)).cstat.getLsbD 0)) = true ∧ bit (ctxOf State.reset 0).tveclo.toNat 0 = false := by decide +kernel

/-! ### The same for memory and synchronisation -/

/-- A scratch access of lanes at `addrs` reaches its own present block. -/
def ownClear (x : Issue) (s : State) (n : Nat) (addrs : List (Nat × Nat)) (rd wr : Bool) : Bool :=
  (scratchFault x (rankOf s x.w) n addrs).isNone && (watchTrap s x n (scratchCells x s n addrs) rd wr).isNone
    && !(scratchCells x s n addrs).isEmpty && isLocal s x.w (rankOf s x.w)
    && !heldBehind s x.w x.wid (clusterIdOf s x.w) (rankOf s x.w) (rankSpans (rankOf s x.w) ((scratchCells x s n addrs).map (fun c => (c.2.1, n))))
    && (placedBlock s (clusterIdOf s x.w) (rankOf s x.w)).any (fun e => !e.2.ended && decide (memWf e.2.scratch) &&
      (scratchCells x s n addrs).all (fun c => codeRank c.2.1 == rankOf s x.w && linesPresent e.2 (codeOff c.2.1) n))
/-- A global access of lanes at `addrs` passes its checks. -/
def homeClear (x : Issue) (s : State) (n : Nat) (addrs : List (Nat × Nat)) (rd wr : Bool) : Bool :=
  addrs.all (fun e => e.2 % n == 0) && (pageFault s x addrs rd wr).isNone && (tokenFault s x n (globalCells x s addrs rd wr)).isNone
    && !(globalCells x s addrs rd wr).isEmpty

/-- ScratchLoadsComplete, ScratchLoadValues: LDS at the last word of the allocation, SLDS, and LDS with no active lane. -/
theorem test_meets_scratch_loads :
    meets (.lds { lm 4 8 4 with off := 0xFFFC }) one (fun x => ownClear x one 4 (scratchLanes x { lm 4 8 4 with off := 0xFFFC } false) true false) = true ∧
    meets (.slds { ub 4 8 0 0 0 with sub := 6 }) one (fun x => ownClear x one 16 [(lowestLane x.b.lanes, scratchUniAddr x.w { ub 4 8 0 0 0 with sub := 6 })] true false) = true ∧
    meets (.lds { lm 4 8 4 with gn := true }) one (fun x => (scratchLanes x { lm 4 8 4 with gn := true } false).isEmpty) = true := by decide +kernel
/-- ScratchStoresComplete, ScratchStoreFrame, ScratchAtomicsComplete. -/
theorem test_meets_scratch_stores :
    meets (.sts (lm 4 8 4)) one (fun x => ownClear x one 4 (scratchLanes x (lm 4 8 4) false) false true) = true ∧
    meets (.sts { lm 4 8 4 with gn := true }) one (fun x => (scratchLanes x { lm 4 8 4 with gn := true } false).isEmpty) = true ∧
    meets (.ssts { ub 0 8 4 0 0 with sub := 6 }) one (fun x => ownClear x one 16 [(lowestLane x.b.lanes, scratchUniAddr x.w { ub 0 8 4 0 0 with sub := 6 })] false true) = true ∧
    meets (.atoms (lm 6 8 0)) one (fun x => ownClear x one 4 (scratchLanes x (lm 6 8 0) true) true true) = true ∧
    meets (.atoms { lm 6 8 0 with gn := true }) one (fun x => (scratchLanes x { lm 6 8 0 with gn := true } true).isEmpty) = true ∧
    loadBlock.ended = false ∧ linesPoisoned loadBlock 0 4 = false := by decide +kernel
/-- The warp of `one` with one lane. -/
def lone : State := oneW (fun w => { swrite w 10 2 with braids := w.braids.map (fun b => { b with lanes := 1 }) })
/-- GlobalLoadsComplete, GlobalIssueFrame: LDG of an active lane and of none, SLDG. -/
theorem test_meets_global_loads :
    meets (.ldg (lm 4 8 4)) lone (fun x => homeClear x lone 4 (globalLanes x (lm 4 8 4) false) true false) = true ∧
    meets (.ldg { lm 4 8 4 with gn := true }) one (fun x => (globalLanes x { lm 4 8 4 with gn := true } false).isEmpty) = true ∧
    meets (.sldg { ub 4 8 0 0 0 with sub := 4 }) one (fun x => homeClear x one 4 [(lowestLane x.b.lanes, globalUniAddr x.w { ub 4 8 0 0 0 with sub := 4 })] true false) = true := by decide +kernel
/-- GlobalStoresComplete. -/
theorem test_meets_global_stores :
    meets (.stg (lm 4 8 4)) lone (fun x => homeClear x lone 4 (globalLanes x (lm 4 8 4) false) false true && !cwFull x.w ⟨true, true, true, true⟩) = true ∧
    meets (.stnt (lm 4 8 4)) lone (fun x => homeClear x lone 4 (globalLanes x (lm 4 8 4) false) false true) = true ∧
    meets (.sstg { ub 0 8 4 0 0 with sub := 4 }) one (fun x => homeClear x one 4 [(lowestLane x.b.lanes, globalUniAddr x.w { ub 0 8 4 0 0 with sub := 4 })] false true) = true := by decide +kernel
/-- GlobalAtomicsComplete. -/
theorem test_meets_global_atomics :
    meets (.atomg (lm 4 8 0)) lone (fun x => homeClear x lone 4 (globalLanes x (lm 4 8 0) true) true true) = true ∧
    meets (.redg (lm 4 8 0)) lone (fun x => homeClear x lone 4 (globalLanes x (lm 4 8 0) true) true true) = true ∧
    meets (.satomg (ub 4 8 6 0 0)) one (fun x => homeClear x one 4 [(lowestLane x.b.lanes, spair x.w 8)] true true) = true := by decide +kernel
/-- HintsAndFencesComplete: each instruction, each kind of FENCE, FLUSH of no bytes and of some. -/
theorem test_meets_fences : runs (.prefg (lm 16 8 0)) one = true ∧ runs (.pref (ub 0 8 0 0 16)) one = true ∧ runs (.fence (ub 0 0 0 0 1)) one = true ∧
    runs (.fence (ub 0 0 0 0 (8 + 1))) one = true ∧ runs (.fence (ub 0 0 0 0 (40 + 2))) one = true ∧ runs (.fence (ub 0 0 0 0 (40 + 4))) one = true ∧
    runs (.fence (ub 0 0 0 0 (40 + 3))) one = true ∧
    runs (.drainnt (ub 0 0 0 0 0)) one = true ∧ runs (.flush (ub 0 4 8 0 0)) one = true ∧
    meets (.flush { ub 0 4 8 0 0 with sub := 1 }) (oneS 8 100) (fun x => (pagesOf 65538 0 128).all (fun p =>
      (xlate one x.w.core x.ctx p.1 true false false).toOption.isSome)) = true := by decide +kernel
/-- HintsAndFencesComplete: FLUSH of two pages, the first mapped and the second not: R175 names the second. -/
theorem test_meets_flush_fault : (let s := oneW (fun w => swrite (swrite (swrite w 4 0xFFFFFF80) 5 0x1F) 8 256)
    meets (.flush { ub 0 4 8 0 0 with sub := 1 }) s (fun x =>
      pagesOf 65538 0x1FFFFFFF80 256 == [(0x1FFFFFFF80, 128), (0x2000000000, 128)] && spair x.w 4 == 0x1FFFFFFF80 && (sread x.w 8).toNat == 256 &&
      (xlate s x.w.core x.ctx 0x1FFFFFFF80 true false false).toOption.isSome && (xlate s x.w.core x.ctx 0x2000000000 true false false).toOption.isNone) = true ∧
    (warpOf (after (.flush { ub 0 4 8 0 0 with sub := 1 }) s)).map (fun w => (w.ecause.toNat % 64, w.eaddr)) = some (cPAGE, 0x2000000000)) := by decide +kernel
/-- BarriersComplete: an arrival that is counted and one in a phase whose arrival is complete; a wait for a phase, and one that goes on. -/
theorem test_meets_barriers :
    meets (.bara (ub 15 0 0 0 0)) one (fun x => (arriveLanes one x.wid (.bb 15) x.b.lanes 0).isSome) = true ∧
    meets (.cbara (ub 7 0 0 0 0)) one (fun x => (arriveLanes one x.wid (.cb 7) x.b.lanes 0).isSome) = true ∧
    meets (.barw (ub 0 0 0 0 0)) one (fun x => (tget one.warps x.wid).isSome && (waitPhase one x.w (.bb 0)).isNone) = true ∧
    meets (.barw (ub 0 0 0 0 0)) { after (.bara (ub 0 0 0 0 0)) one with focus := some ⟨0, 0⟩ } (fun x =>
      (waitPhase (after (.bara (ub 0 0 0 0 0)) one) x.w (.bb 0)).isSome) = true ∧
    meets (.cbarw (ub 0 0 0 0 0)) one (fun x => (waitPhase one x.w (.cb 0)).isNone) = true ∧
    meets (.bars (ub 3 0 0 0 0)) one (fun x => (arriveLanes one x.wid (.bb 3) x.b.lanes 0).isSome) = true ∧
    meets (.gridbar (ub 0 0 0 0 0)) (modGrid one 0 (fun g => { g with record := lset g.record 4 9 })) (fun x => recCoop x.record &&
      (arriveLanes (modGrid one 0 (fun g => { g with record := lset g.record 4 9 })) x.wid .grid x.b.lanes 0).isSome) = true := by decide +kernel
/-- BarriersComplete: arrivals in a phase whose arrival is complete. -/
theorem test_meets_barriers_full :
    (let s := oneW (fun w => { w with members := lset w.members 0 .arrived })
     meets (.bara (ub 0 0 0 0 0)) s (fun x => (arriveLanes s x.wid (.bb 0) x.b.lanes 0).isNone) = true ∧
     meets (.bars (ub 0 0 0 0 0)) s (fun x => (arriveLanes s x.wid (.bb 0) x.b.lanes 0).isNone) = true) ∧
    (let s := oneW (fun w => setArrive w .grid ⟨0, 32, true, none⟩)
     let s := modGrid s 0 (fun g => { g with record := lset g.record 4 9 })
     meets (.gridbar (ub 0 0 0 0 0)) s (fun x => (arriveLanes s x.wid .grid x.b.lanes 0).isNone) = true) ∧
    meets (.bars (ub 3 0 0 0 0)) one (fun x => (arriveLanes one x.wid (.bb 3) x.b.lanes 0).any (fun t =>
      (tget t.warps x.wid).any (fun w => (waitPhase t w (.bb 3)).isSome))) = true := by decide +kernel
/-- KnotsComplete: an aligned record that may be read and written. -/
theorem test_meets_knots : meets (.kinitFree { ub 1 4 0 0 0 with sub := 1 }) one (fun x => (knotRecord x one 4).toOption == some 0) = true ∧
    meets (.ktake { ub 1 4 0 0 0 with sub := 1 }) one (fun x => (knotRecord x one 4).toOption == some 0) = true ∧
    meets (.kinitReg (ub 1 4 0 0 0)) one (fun x => (knotRecord x one 4).toOption == some 0 && !ownWriteLive one x.wid x.w 0 64 &&
      (knotPageFault x one (knotBytes one x.ctx 0)).isNone) = true ∧
    meets (.kgive (ub 1 4 0 0 0)) one (fun x => (knotRecord x one 4).toOption == some 0 && !holdsToken one (.cluster (clusterIdOf one x.w)) 0) = true := by decide +kernel
/-- KnotsComplete: a token that the cluster holds, a record that is not aligned, one without a page. -/
theorem test_meets_knots_more :
    (let s := modSlice one ((homeOf one 0).getD 0) (fun y => { y with knots := [⟨0, some (.cluster 0), [], false⟩] })
     meets (.kgive (ub 1 4 0 0 0)) s (fun x => (knotRecord x s 4).toOption == some 0 && holdsToken s (.cluster (clusterIdOf s x.w)) 0) = true) ∧
    meets (.ktake (ub 1 4 0 0 0)) (oneS 4 1) (fun x => spair x.w 4 % 64 != 0) = true ∧
    meets (.ktake (ub 1 4 0 0 0)) (oneS 5 0x1FFFFFF) (fun x => spair x.w 4 % 64 == 0 && (xlate (oneS 5 0x1FFFFFF) x.w.core x.ctx (spair x.w 4) true true false).toOption.isNone) = true := by
  decide +kernel
/-- A warp whose block has a ring of two slots at offset 0, the first full. -/
def ringed : State := modBlock one 0 (fun b => putSlot (ringInit ⟨0, 0, 0⟩ 2 8192 b) 0 0 ⟨8192, 8192, true, true, false, false, 0⟩)
/-- RingsComplete: each operation on a header of its own core. -/
theorem test_meets_rings : (let ok := fun (x : Issue) (n : Nat) => (match ringPlace x ringed 0 n with
        | .ok p => isLocal ringed x.w p.rank && !heldBehind ringed x.w x.wid p.cluster p.rank [(p.off, n)] && (rankBlock ringed p.cluster p.rank).any (fun e => !e.2.ended && (tget e.2.rings p.off == some true) && !ringBad e.2 p.off)
        | .error _ => false)
    meets (.rinit (ub 0 4 5 0 63)) (modWarp ringed 0 (fun w => swrite w 5 1)) (fun x => ok x (16 + 8 * 64)) = true ∧
    meets (.rwaitFull (ub 1 4 0 0 0)) ringed (fun x => ok x 16) = true ∧ meets (.rwaitFree { ub 1 4 0 0 0 with sub := 1 }) ringed (fun x => ok x 16) = true ∧
    meets (.rrel (ub 0 4 0 0 0)) ringed (fun x => ok x 16) = true ∧ meets (.rarr (ub 0 4 5 6 0)) ringed (fun x => ok x 16) = true ∧
    ((blockIn ringed).map (fun b => ((ringRel 0 b).isSome, ringFree 0 b, (ringSlot b 0 (ringRp b 0)).f, ringSlots b 0))).map (fun e => (e.1, e.2.1.isNone, e.2.2))
      = some (true, true, true, 2)) := by decide +kernel
/-- RingsComplete: a free slot and none, a slot that is empty and one whose copy failed, an orphan, a header behind a held access. -/
theorem test_meets_rings_more :
    (let b := loadBlock
     let b := ringInit ⟨0, 0, 0⟩ 1 64 b
     (ringFree 0 b).isSome = true ∧ ((ringFree 0 b).map (fun r => (ringFree 0 r.2).isNone)) = some true ∧ (ringSlot b 0 (ringRp b 0)).f = false ∧
     ringBad (putOrf b 0 true) 0 = true ∧ ringValid b 0 = true ∧ tget (putOrf b 0 true).rings 0 = some true) ∧
    (let e : CopyFault := ⟨⟨0, 0, 0⟩, 0, 5, 0, 1, 80, false⟩
     let b := { putSlot (ringInit ⟨0, 0, 0⟩ 2 64 loadBlock) 0 0 ⟨64, 0, true, true, false, true, 0⟩ with faults := [e] }
     (ringSlot b 0 (ringRp b 0)).ft = true ∧ b.faults.find? (fun e => e.ring == ⟨0, 0, 0⟩ && e.slot == ringRp b 0 && !e.delivered) = some e) ∧
    (let s := modNet ringed (fun n => { n with ports := [(70, ⟨70, 0, some 9, ⟨0, 0, 0x10⟩, .store 40 [(0x10, [5])], false, 70⟩)] })
     meets (.rrel (ub 0 4 0 0 0)) s (fun x => match ringPlace x s 0 16 with
       | .ok p => isLocal s x.w p.rank && heldBehind s x.w x.wid p.cluster p.rank [(p.off, 16)]
       | .error _ => false) = true) := by decide +kernel
/-- A context that owns queue 0, enabled and with 64 entries, holding a packet. -/
def queued : State := modQueue one 0 (fun q => { q with en := true, mode := true, lsize := 6, tail := 1 })
/-- QueuesComplete: DEQ of a packet, of none; ENQ with room; LAUNCH of a readable record. -/
theorem test_meets_queues : meets (.deq (ub 0 30 0 0 0)) queued (fun x => !queueFault x queued 0 true false && decide (0 < queueCount (queueOf queued 0))) = true ∧
    meets (.deq { ub 0 30 0 0 0 with sub := 1 }) (modQueue queued 0 (fun q => { q with tail := 0 })) (fun x =>
      !queueFault x (modQueue queued 0 (fun q => { q with tail := 0 })) 0 true false && decide (queueCount (queueOf (modQueue queued 0 (fun q => { q with tail := 0 })) 0) = 0)) = true ∧
    meets (.enq (ub 1 30 0 0 0)) (modWarp queued 0 (fun w => swrite w 0 5)) (fun x => !queueFault x queued 0 false false &&
      decide (queueCount (queueOf queued 0) < queueCap (queueOf queued 0))) = true ∧
    meets (.launch (ub 1 4 0 0 0)) one (fun x => spair x.w 4 % 64 == 0 && (readRecord one x.w.core x.ctx 0 0).1.toOption.isSome) = true := by decide +kernel
/-- QueuesComplete: a parked DEQ and ENQ; LAUNCH of a record that the checks refuse and of one that they admit, cooperative or not, with
room in the list and without. -/
theorem test_meets_queues_full :
    meets (.deq { ub 0 30 0 0 0 with sub := 1 }) (modQueue queued 0 (fun q => { q with tail := 0 })) (fun _ => true) = true ∧
    meets (.enq { ub 1 30 0 0 0 with sub := 1 }) (modWarp (modQueue queued 0 (fun q => { q with tail := 64 })) 0 (fun w => swrite w 0 5)) (fun x =>
      decide (queueCap (queueOf (modQueue queued 0 (fun q => { q with tail := 64 })) 0) ≤ queueCount (queueOf (modQueue queued 0 (fun q => { q with tail := 64 })) 0))
        && !queueFault x (modQueue queued 0 (fun q => { q with tail := 64 })) 0 false false) = true ∧
    recordRefused one 0 [] false = true ∧ recordRefused one 0 loadRecord false = false ∧ recCoop loadRecord = false ∧
    (let r := lset loadRecord 4 9
     recordRefused one 0 r false = false ∧ recCoop r = true ∧ (dieOf one 0).launches.length < 64 ∧ tryFits one 0 0 0 r = true) ∧
    (dieOf (modDie one 0 (fun d => { d with launches := List.replicate 64 ⟨0, 0, 0, 0, 0, [], false, 0⟩ })) 0).launches.length = 64 := by decide +kernel
/-! ### Copies, channels and the plane array -/

/-- A tensor of 64 int8 elements, box 64 (R217), at scratch offset 0x4000 with a ring at 0x2000 and registers that name them. -/
def copying : State := modBlock (oneW (fun w => swrite (swrite (swrite (swrite (swrite (swrite w 20 0x4000) 21 64) 30 0x5000) 31 0x6000) 32 2) 33 0x2000)) 0
  (fun b => { ringInit ⟨0, 0, 0x2000⟩ 2 64 b with scratch := [(0x4008, 1), (0x4009, 1), (0x4010, 64), (0x4014, 1), (0x4018, 1), (0x401C, 1), (0x4020, 1),
    (0x4034, 64), (0x4036, 1), (0x4038, 1), (0x403A, 1), (0x403C, 1)] })
/-- A descriptor instruction's premises: the addresses lie in scratch, the descriptor passes its checks, the form admits it. -/
def copyClear (kind : CopyKind) (mask count : Nat) (wr : Bool) (x : Issue) : Bool :=
  (copyPlace x copying 0x4000 64).toOption == some ⟨0, 0, 0x4000⟩ && (copyPlaces x copying mask 0x2000 16).toOption.isSome &&
  (match readDesc x copying 0x4000 ⟨0, 0, 0x4000⟩ false with
    | .got bs s1 => descCheck bs == 0 && !coordsBad kind (parseDesc bs) (coordsAt x.w 20) &&
        (formBytes kind (parseDesc bs) count).any (fun n => (copyPlaces x s1 mask 0x5000 n).toOption.isSome)
    | _ => false) && !(wr && cwFull x.w ⟨true, true, true, true⟩)
/-- CopiesAndChannelsComplete, the first three clauses: each copy instruction; the indexed ones with a full index tensor of 2. -/
theorem test_meets_copies : meets (.cpyG2s (ub 12 20 30 33 1)) copying (copyClear .g2s 1 0 false) = true ∧
    meets (.cpyG2s (ub 12 20 30 33 0)) copying (copyClear .g2s 0 0 false) = true ∧ meets (.cpyS2g { ub 12 20 30 33 0 with sub := 1 }) copying (copyClear .s2g 0 0 true) = true ∧
    meets (.cpgth (ub 12 20 30 33 0)) copying (fun x => copyClear (.gth 0) 0 2 false x && (copyPlace x copying 0x6000 8).toOption.isSome) = true ∧
    meets (.cpsct (ub 12 20 30 33 0)) copying (copyClear (.sct 0) 0 2 true) = true ∧ meets (.cpxf (ub 12 20 30 33 0)) copying (copyClear .tr 0 0 false) = true ∧
    xfKind 0 0 = .tr ∧ meets (.cpyS2s { ub 12 20 30 33 0 with sub := 2 }) copying (fun x => (copyPlace x copying 0x4000 64).toOption.isSome &&
      decide ((startCopy x copying { newCopy x copying .s2s false [⟨⟨0, 0, 0x2000⟩, 0, ⟨0, 0, 0x5000⟩⟩] with src := ⟨0, 0, 0x4000⟩ }).1 = .advance)) = true ∧
    meets (.tdchk (ub 12 20 0 0 0)) copying (fun x => !descHeld copying x ⟨0, 0, 0x4000⟩ && match readDesc x copying 0x4000 ⟨0, 0, 0x4000⟩ true with | .got _ _ => true | _ => false) = true := by decide +kernel
/-- COLL's: a group of one package. -/
def grouped : State := modFab (modWarp copying 0 (fun w => swrite (swrite (swrite (swrite w 24 7) 26 0x8000) 27 0x8080) 28 4)) (fun f => { f with groups := [⟨0, 7, 0, 0, 0, 0, [0]⟩] })
theorem test_meets_coll : meets (.coll (ub 12 24 26 33 0)) grouped (fun x => (findGroup (settleGroups grouped) x.ctx 7).isSome &&
    (let e := collElems 0 1 4
     (copyPlace x grouped 0x8000 (e.1 * collSize 0)).toOption.isSome && (copyPlace x grouped 0x8080 (e.2 * collSize 0)).toOption.isSome) &&
    (collsOf grouped x.ctx 7).isEmpty) = true := by decide +kernel
/-- A cluster that receives from itself on channel 3: two slots of 128 bytes. -/
def channelled : State := modGrid (modWarp one 0 (fun w => swrite w 11 128)) 0 (fun g => { g with
  record := g.record.take 0x98 ++ toBytes 8 (1 + 2 ^ 16 + 2 ^ 32) ++ g.record.drop 0xA0 })
/-- CHSEND, CHRECV.take of a filled slot and of none, CHRECV.done. -/
theorem test_meets_channels : meets (.chsend (ub 0 10 11 0 3)) channelled (fun x => chV (recChannel x.record 3) && chSrank (recChannel x.record 3) == 0 &&
      chMline (recChannel x.record 3) == 1 && (copyPlace x channelled 0 128).toOption.isSome && (blockAt channelled 0 0 0).any (fun b => !b.2.ended) &&
      chCluster BitVec.toNat (recChannel x.record 3) (clusterIdx channelled x.w) (recGrid x.record) 0 == some 0) = true ∧
    meets (.chrecvTake (ub 9 0 0 0 3)) (modBlock channelled 0 (fun b => { b with chSlots := [(3, 1, .filled)] })) (fun x =>
      !chrecvBad x channelled 3) = true ∧ takeable { loadBlock with chSlots := [(3, 1, .filled)] } 3 = some 1 ∧ takeable loadBlock 3 = none ∧
    meets (.chrecvDone { ub 0 0 0 0 3 with sub := 1 }) (modBlock channelled 0 (fun b => { b with chSlots := [(3, 1, .taken)] })) (fun x => !chrecvBad x channelled 3) = true := by decide +kernel
/-- A block whose name 2 is mapped to slot 1, with hitches of one and of two signers. -/
def planed : State := modBlock one 0 (fun b => { b with accs := lset b.accs 2 (.mapped 1), hitches := lset (lset b.hitches 1 ⟨1, none, []⟩) 2 ⟨2, none, []⟩ })
/-- MMA's premises: the key's hitch has `n` signers, the fragment is in the window, B is in scratch. -/
def mmaClear (f : LB) (n : Nat) (x : Issue) : Bool :=
  let k := mmaKey x.w f
  let r := fragRegs k.ty k.ka x.w.width n
  !waitsForLoad planed x.wid { noUses with vsrc := [(f.va.toNat, r)] } && decide (f.va.toNat + r ≤ x.w.win) && decide ((bScratch k).1 % (bScratch k).2.1 = 0) &&
    (scratchPlace x.record 0 (bScratch k).1 (bScratch k).2.2).isSome && (blockOf planed x.w).any (fun b => (b.hitches[k.hitch]?).any (fun h => decide (h.s = n ∧ h.sigs = [])) &&
      (nameState b k.name == .mapped 1) && !relQueued planed x.w.block b k.name && !namePoisoned b k.name) &&
    (poisTrap x.w (widthMask x.w.width) [(f.va.toNat, r)] (usesOf x.w (.mma f)).ssrc).isNone
/-- MatrixComplete: HSET of an idle hitch, an MMA that signs and one that issues, the accumulator instructions, MCHKRD of an empty and
a written log. -/
theorem test_meets_matrix : meets (.hset { ub 7 0 0 0 0 with sub := 4 }) one (fun x => (blockOf one x.w).any (fun b => (b.hitches[7]?).any (fun h => h.sigs.isEmpty))) = true ∧
    meets (.mma { lb (2 + 16 * 2) 32 40 0 with sb := true }) planed (mmaClear { lb (2 + 16 * 2) 32 40 0 with sb := true } 2) = true ∧
    meets (.mma { lb (2 + 16 * 1) 32 40 0 with sb := true }) planed (mmaClear { lb (2 + 16 * 1) 32 40 0 with sb := true } 1) = true ∧
    runs (.accz (ub 2 0 0 0 0)) planed = true ∧ runs (.accrel (ub 2 0 0 0 0)) planed = true ∧ runs (.accrd { lb 32 0 0 0 with sub := 2, t := 2 }) planed = true ∧
    runs (.accrd { lb 32 0 0 0 with sub := 3, t := 2 }) planed = true ∧ runs (.accwr { lb 32 0 0 0 with sub := 2, t := 2 }) planed = true ∧
    nameState loadBlock 3 = .unmapped ∧ runs (.mchkrd (ub 12 0 0 0 0)) planed = true := by decide +kernel
/-- A tile handle of FMT 11 with two planes at 0x4000, with a page cached, and its MMA at KB 1 with one signer. -/
def handled : State := modBlock (modCore (modWarp planed 0 (fun w => swrite w 40 0x4000)) 0 (fun c => { c with tlb := [⟨0, 0, 1, 31⟩] })) 0 (fun b => { b with
  scratch := [(0x4008, 11), (0x4009, 2), (0x400A, 2), (0x4010, 32), (0x4014, 128), (0x4018, 1), (0x401C, 1), (0x4020, 1),
    (0x4034, 32), (0x4036, 128), (0x4038, 1), (0x403A, 1), (0x403C, 1)] })
/-- The tile handle's clause of MatrixComplete. -/
theorem test_meets_handle : meets (.mma { lb (2 + 16 * 1) 32 40 0 with sb := true, sub := 6 }) handled (fun x =>
    bPlace handled 0 0x4000 64 == some ⟨0, 0, 0x4000⟩ && (match readDesc x handled 0x4000 ⟨0, 0, 0x4000⟩ false with
      | .got bs s1 => tileOk (mmaKey x.w { lb (2 + 16 * 1) 32 40 0 with sb := true, sub := 6 }) bs (coordsAt x.w 40) &&
        (tileFault s1 x (tileVas (mmaKey x.w { lb (2 + 16 * 1) 32 40 0 with sb := true, sub := 6 }) bs (coordsAt x.w 40))).isNone
      | _ => false)) = true := by decide +kernel
/-! ### Events -/

/-- `one` with the host's function 0 in the access table, and its master. -/
def hosted : State := modSec one (fun x => { x with atab := tput x.atab (hostMaster 0) openEntry })
def hostM : Master := ⟨8, 0⟩
/-- MayWrite, as a test. -/
def mayWrite (s : State) (m : Master) (off : Nat) : Bool := permits s (midOf s m) (mmioBase + off) false true && s.sec.ready && s.sec.fatal.isNone
/-- A store of four bytes at 0x100 in its warp's queue, and the same in the window. -/
def storing : State := oneW (fun w => { w with storeQ := [.global 40 .store [⟨0x100, [1, 2, 3, 4]⟩]], st := 1 })
def winEnt (kind : WKind) (done : Bool) : WinEnt := ⟨50, 0, 0, 40, kind, 8, [⟨0x100, [1, 2, 3, 4]⟩], done, false, 0, false, 0, none, false, false⟩
def windowed (kind : WKind) (done : Bool) : State := modBay one 0 (fun b => { b with window := [winEnt kind done] })
/-- A load of lane 0 at 0x100, performed or not. -/
def pload (v : Option (List Byte)) : PLoad := ⟨60, 0, .vec 4, 4, false, none, false, true, 0, 0, 256, [⟨0, 0x100, 0x100, v, false, [], []⟩], []⟩
def loading (v : Option (List Byte)) : State := modNet one (fun n => { n with loads := [(60, pload v)], reqs := [(61, ⟨61, 0, some 60, 0, 0, 0, 0, false, 0, 0⟩)] })

/-- IssueEventsComplete: a free quadrant with a ready sub-braid, an elapsed sleep, a performed load, a store at the head of its queue, a
performed packet, a store at a port. -/
theorem test_meets_issue_events : (let s := modCore one 0 (fun c => { c with runs := [none, none, none, none] })
      (runOf s 0 0).isSome = false ∧ (bestOf (mergeQuad s 0 0) ((quadBraids (mergeQuad s 0 0) 0 0).filter (fun e => ready (mergeQuad s 0 0) e.1 e.2.1 e.2.2))).isSome = true) ∧
    ((tget (oneW (fun w => { w with braids := w.braids.map (fun b => { b with wake := 7 }) })).warps 0).bind (fun w => braidOf w 0)).map (fun b => b.wake) = some 7 ∧
    ({ one with clock := 7 } : State).clock = 7 ∧
    tget (loading (some [1, 2, 3, 4])).net.loads 60 = some (pload (some [1, 2, 3, 4])) ∧ allPerformed (pload (some [1, 2, 3, 4])) = true ∧
    respBehind (loading (some [1, 2, 3, 4])) 0 0 [] = false ∧ loadBefore storing 0 40 = false ∧ windowRoom storing 0 1 = true ∧ (warpOf storing).map (·.storeQ) = some [.global 40 .store [⟨0x100, [1, 2, 3, 4]⟩]] ∧
    findEnt (windowed .store true) 50 = some (winEnt .store true) ∧ tget (windowed .store true).net.flushes 50 = none ∧
    (let m : PortMsg := ⟨70, 1, some 0, ⟨0, 0, 0x80⟩, .store 40 [(0x80, [5])], false, 70⟩
     let s := modNet one (fun n => { n with ports := [(70, m)] })
     tget s.net.ports 70 = some m ∧ portReady s m = true ∧ (rankBlock s 0 0).isSome = true ∧ s.net.ports.all (fun e => !portBefore s m e.2) = true) ∧
    (let m : PortMsg := ⟨70, 0, some 0, ⟨0, 1, 0x80⟩, .load 60, true, 70⟩
     let s := modNet (loading none) (fun n => { n with ports := [(70, m)] })
     tget s.net.ports 70 = some m ∧ loadBefore s (pload none).warp 60 = false) := by decide +kernel
/-- An entry of the plane array, and the block whose name 2 is slot 1. -/
def plane (work : PlaneWork) (on : Bool) : State := modCore planed 0 (fun c => { c with queue := [⟨0, some 1, on, 1, [], work, 0, [], [], none⟩] })
def mkey : MmaKey := ⟨2, 1, false, 2, 1, 1, false, .scratch 0⟩
/-- MatrixEventsComplete: what has not started, what completes, a command from the odd core, a window's end, the times of a golden test. -/
theorem test_meets_matrix_events : ((coreOf (plane (.accz 0 2) false) 0).queue.zipIdx).find? (fun e => !e.1.started) = some (⟨0, some 1, false, 1, [], .accz 0 2, 0, [], [], none⟩, 0) ∧
    (bRead (plane (.mma mkey [] [] [] none) false) 0 mkey).isSome = true ∧ (coreOf (plane (.accz 0 2) true) 0).queue = [⟨0, some 1, true, 1, [], .accz 0 2, 0, [], [], none⟩] ∧
    (blockIn (plane (.accz 0 2) true)).any (fun b => !b.ended && !namePoisoned b 2) = true ∧
    planePois (plane (.mma mkey [] [] [] (some [])) true) ⟨0, some 1, true, 1, [], .mma mkey [] [] [] (some []), 0, [], [], none⟩ = false ∧
    (blockIn (modBlock planed 0 (fun b => { b with oddAccs := [(0, 2, true)] }))).any (fun b => b.oddAccs == [(0, 2, true)] && decide ((coreOf planed b.core).queue.length < 8)) = true ∧
    (coreOf one 0).windowStart + 2 ^ 32 ≤ ({ one with clock := 2 ^ 33 } : State).clock ∧ (coreOf one 0).goldenRun = none ∧ (coreOf one 0).queue = [] ∧
    (coreOf one 0).goldenLast + 2 ^ 31 ≤ 2 ^ 33 ∧ (coreOf one 0).idleSince + 1024 ≤ 2 ^ 33 ∧ max (coreOf one 0).goldenLast (coreOf one 0).idleSince + 2 ^ 33 ≤ 2 ^ 33 ∧
    (coreOf (modCore one 0 (fun c => { c with goldenRun := some 79 })) 0).goldenRun = some 79 := by decide +kernel
/-- A request for 8 more registers, in a resource queue. -/
def resEnt : ResEnt := ⟨0, ⟨1, 0, 4, .resource, 0, false⟩, .grow 48 8, 0⟩
def asking : State := { modCore (oneW (fun w => { w with braids := [] })) 0 (fun c => { c with resQ := [resEnt] }) with clock := 16384 }
/-- ResourceEventsComplete: an aged head; a request that nothing can meet; an ended warp with nothing open; an arrival of the last bar whose
release is done; an event from the odd core; a block's arrival. -/
theorem test_meets_resource_events : agedHead asking 0 = some resEnt ∧ (coreOf asking 0).resQ.getLast? = some resEnt ∧
    mustRefuse (modWarp asking 0 (fun w => { w with parked := [resEnt.sub] })) 0 = true ∧
    (warpOf (oneW (fun w => { w with ended := true, braids := [] }))).any (fun w => w.ended && w.ld == 0 && w.mx == 0 && w.st == 0 && w.storeQ.isEmpty &&
      !hasSignature one 0 w && w.arrives.all (fun a => !a.2.pending)) = true ∧
    (let s := oneW (fun w => setArrive w (barOf 24) ⟨1, 0, true, none⟩)
     (warpOf s).any (fun w => (arriveOf w (barOf 24)).pending && releaseDone s 0 w (barScope (barOf 24))) = true) ∧
    (blockIn (modBlock one 0 (fun b => { b with oddEvents := [.attach [0] 15] }))).map (fun b => b.oddEvents.head?) = some (some (.attach [0] 15)) ∧ (barOf 23 = .cb 7) ∧
    (let s := modBlock one 0 (fun b => { b with cbDone := [(23, [0])] })
     (blockIn s).any (fun b => blockArrived s 0 b 23 && !b.ended && (tget s.clusters b.cluster).any (fun c => (c.cbs[7]?).any (fun r => !r.came.contains b.rank))) = true) := by decide +kernel
/-- A copy of 64 bytes from global memory at 0x100 to scratch 0x80 with ring 0x2000. -/
def copyCmd (kind : CopyKind) : CopyCmd :=
  { id := 80, bay := 0, core := 0, warp := 0, ctx := 0, cluster := 0, block := 0, kind := kind, ord := false,
    desc := [], coords := [0, 0, 0, 0, 0], src := ⟨0, 0, 0x400⟩, idx := ⟨0, 0, 0⟩, count := 0, recvs := [⟨⟨0, 0, 0x2000⟩, 0, ⟨0, 0, 0x80⟩⟩],
    total := 64, made := 0, srcOld := List.replicate 64 0, srcRead := none, buf := [], bufClamps := 0, acked := 0, grp := none, w0 := 0, failed := none,
    opened := false, uncleared := [], carry := [], counts := false, done := false, tainted := [] }
def withCopy (c : CopyCmd) : State := modNet (modBlock one 0 (ringInit ⟨0, 0, 0x2000⟩ 2 64)) (fun n => { n with copies := [(80, c)] })
def lineMsg (held : Bool) : LineMsg := ⟨81, 80, ⟨0, 0, 0x80⟩, [(7, false)], true, held, 81⟩
def ringMsg : RingMsg := ⟨82, 80, ⟨0, 0, 0x2000⟩, 0, 64, 0, []⟩
/-- CopyEventsComplete: a source that is present, of an open copy; lines to clear; a piece to move; a line and a ring message; a failure; a delivered
fault of the slot that a wait is at; a held line. -/
theorem test_meets_copy_events : copyOpened (withCopy (copyCmd .s2s)) (copyCmd .s2s) = true ∧ sourceHeld (withCopy (copyCmd .s2s)) (copyCmd .s2s) = false ∧
    (sourceBytes (withCopy (copyCmd .s2s)) (copySources (copyCmd .s2s))).isSome = true ∧
    (let c := { copyCmd .s2s with srcRead := some [] }
     clearNext (withCopy c) c = none ∧ copyOpen (withCopy c) c = true ∧ (clearNext (withCopy { c with uncleared := [lineKey 0 1] }) { c with uncleared := [lineKey 0 1] }).isSome = true) ∧
    (let s := modNet (withCopy (copyCmd .s2s)) (fun n => { n with lines := [(81, lineMsg false)], rings := [(82, ringMsg)] })
     lineReady s (lineMsg false) = true ∧ (lineMsg false).data.length ≤ 16 ∧ tget (wakeLines (modNet (writeLine s (lineMsg false) 16 true) (fun n => { n with lines := terase n.lines 81 }))).net.copies 80 ≠ none ∧
     ordBlocked s (copyCmd .s2s) = false ∧ tget s.net.rings 82 = some ringMsg ∧ (placedBlock s 0 0).isSome = true) ∧
    (let c := { copyCmd .s2s with failed := some (3, 0, 0) }
     (liveReceivers (withCopy c) c).length = 1 ∧ (blockIn (withCopy c)).any (fun b => decide (b.faults.length < 16) && !onTheWay (withCopy c) b) = true) ∧
    (lineMsg true).held = true := by decide +kernel
/-- CopyEventsComplete's replay: RWAIT.full parked at the slot whose fault has been delivered. -/
def faulted : CopyFault := ⟨⟨0, 0, 0x2000⟩, 0, 5, 0x100, 1, 80, true⟩
theorem test_meets_copy_replay : (let s := modWarp (modBlock (withCopy { copyCmd .s2s with failed := some (5, 0, 0), done := true }) 0 (fun b => { b with faults := [faulted] })) 0 (
        fun w => { w with braids := [], parked := [⟨1, 0, 0, .ring ⟨0, 0, 0x2000⟩ false 0 0, 0, false⟩] })
    (blockIn s).any (fun b => b.faults[0]? == some faulted && slotAwaited s b faulted) = true) := by decide +kernel
/-- CopyEventsComplete's claim: a send to the cluster's own rank 0, queued at the receiver. -/
theorem test_meets_claim : (let c := { copyCmd (.chan 3 0) with recvs := [] }
    let s := modNet (modBlock channelled 0 (fun b => { b with chWait := [(3, 80)] })) (fun n => { n with copies := [(80, c)] })
    (tget s.clusters 0).map (·.grid) = some 0 ∧ (tget s.grids 0).isSome = true ∧ (warpOf s).any (fun w => decide (w.cp < 63)) = true ∧
    (blockAt s 0 0 0).any (fun b => b.2.started && !b.2.ended && b.2.chWait.find? (fun q => q.1 == 3) == some (3, 80) && (freeSlot s b.2 3 2).isSome) = true) := by decide +kernel
/-- REDG of one word, and a splice entry of its grain. -/
def redgOp : AtomOp := ⟨0, 1, 0, 0, 0, false⟩
def spliceEnt (done : Bool) (ws : List Nat) : SpliceEnt := ⟨8, 0, 1, List.replicate 32 0, 1, done, done, 0, ws, 0⟩
def spliced (done : Bool) (ws : List Nat) (d : List SpliceDir) : State :=
  modSlice (modBay one 0 (fun b => { b with splice := [spliceEnt done ws] })) ((homeOf one 0x100).getD 0) (fun y => { y with splice := d })
/-- HomeEventsComplete: a request of a load, a prefetch, a fill, packets, the splice buffer's steps. -/
theorem test_meets_home_events : tget (loading none).net.reqs 61 = some ⟨61, 0, some 60, 0, 0, 0, 0, false, 0, 0⟩ ∧ loadBefore (loading none) 0 60 = false ∧
    (let s := modSlice one ((homeOf one 0x100).getD 0) (fun y => { y with fills := [⟨62, 0, 0x100, false, 0, 0, 0, none, [], 0, 0⟩] })
     findFill s 62 = some ((homeOf one 0x100).getD 0, ⟨62, 0, 0x100, false, 0, 0, 0, none, [], 0, 0⟩) ∧ (homeOf s 0x100).isSome = true ∧
     (fillHome s ((homeOf one 0x100).getD 0) ⟨62, 0, 0x100, false, 0, 0, 0, none, [], 0, 0⟩ 0).isSome = true) ∧
    entReady (windowed .store false) (winEnt .store false) = true ∧
    (let s := windowed (.redg redgOp) false
     findEnt s 50 = some (winEnt (.redg redgOp) false) ∧ bayOfEnt s 50 = some 0 ∧ absorbable s (winEnt (.redg redgOp) false) = true ∧ absorbed s 50 = false ∧
     behindLive s 0 (winEnt (.redg redgOp) false) = false ∧ spliceEntOf s 0 8 = none ∧ (bayOf s 0).splice.length < 512) ∧
    (let s := modBay (windowed (.redg redgOp) false) 0 (fun b => { b with splice := [spliceEnt true []] })
     absorbable s (winEnt (.redg redgOp) false) = true ∧ spliceEntOf s 0 8 = some (spliceEnt true []) ∧ absorbed s 50 = false) := by decide +kernel
theorem test_meets_splice : (spliceEntOf (spliced false [50] []) 0 8 = some (spliceEnt false [50]) ∧ (homeOf (spliced false [50] []) (32 * 8)).isSome = true) ∧
    ((sliceOf (spliced false [50] [⟨8, 0, 1, 1, false⟩]) ((homeOf one 0x100).getD 0)).splice.any (fun d => d.grain == 8 && d.bays.getLsbD 0)) = true ∧
    ((sliceOf (spliced true [] [⟨8, 0, 1, 1, true⟩]) ((homeOf one 0x100).getD 0)).splice.any (fun d => d.grain == 8 && d.called && d.bays.getLsbD 0)) = true ∧
    (spliced true [] []).net.partials = [] ∧ (spliced true [] []).sec.reel = none := by decide +kernel
/-- A home slice that holds the grain at 0x100, with a partial on its way; and HomeStoreWrites' store to it. -/
def present : State := modSlice (windowed .store false) ((homeOf one 0x100).getD 0) (fun y => { y with
  blocks := [⟨0, 8, 1, 0, 0, 0, false, 0, false, 0, 0, 0, 0, 0, 0, []⟩] })
theorem test_meets_home_store : (let s := present
    let k := (homeOf s 0x100).getD 0
    entReady s (winEnt .store false) = true ∧ routed s (32 * 8) = 32 * 8 ∧ homeOf s 0x100 = some k ∧ permits s (entMaster s (winEnt .store false)).1 (32 * 8) false true = true ∧
    spliceOf s k 8 = none ∧ recordsHit s 0x100 4 = [] ∧ findBlk s k false 0x100 ≠ none ∧ memWf [] ∧ partialsOf s 8 = [] ∧ grainPresent s k false 0x100 = true ∧
    (match exec (.homeWrite 50) s with | .next t => homeByte t 0x102 == 3 | _ => false) = true) := by decide +kernel
/-- A knot at record 0 whose holder, cluster 0, gives it up. -/
def knotted : State := modSlice one ((homeOf one 0).getD 0) (fun y => { y with knots := [⟨0, some (.cluster 0), [], true⟩] })
/-- A queue of the engines with a packet of a type at index 0, in memory at 0x40000. -/
def engined (packet : List Byte) : State :=
  { modQueue one 0 (fun q => { q with en := true, mode := false, lsize := 6, tail := 1, baselo := 0x40000 }) with mem := setBytes one.mem 0x40000 packet }
/-- The same with the packet started. -/
def started (bytes : List Byte) (stage : Nat) (grid : Option Nat) : State := modQueue one 0 (fun q => { q with
  en := true, lsize := 6, head := 1, tail := 1, started := [⟨0, 0, bytes, stage, grid, none, none⟩] })
def packet (ws : List Nat) : List Byte := (ws.flatMap (fun w => toBytes 4 w) ++ List.replicate 64 0).take 64
/-- QueueEventsComplete: knots, the window and QCTL, the head packets and the started ones. -/
theorem test_meets_queue_events : (knotOf knotted 0).isSome = true ∧
    (let m := hostM
     let s := hosted
     mayWrite s m (0x20000 + 0x40 * 511 + 0x08) = true ∧ queueThere s 511 = true ∧ fnPresent s 0 = true ∧
     permits s (hostMaster 0) (mmioBase + (0x30000 + 0x40 * 511)) false true = true ∧ queueAllowed s (hostMaster 0) 511 = true) ∧
    (let s := modQueue hosted 511 (fun q => { q with en := true, lsize := 6 })
     (queueOf s 511).en = true ∧ queueCount (queueOf s 511) < queueCap (queueOf s 511)) := by decide +kernel
theorem test_meets_packets : headType (engined (packet [2])) 0 = some 2 ∧ packetOk (startPacket (engined (packet [2])) 0).1.bytes = true ∧
    nextQueue (engined (packet [3])) 0 = some 0 ∧ recField (readPacket (engined (packet [3])) 0 0).1 0 1 = 3 ∧ recField (readPacket (engined (packet [4])) 0 0).1 0 1 = 4 := by decide +kernel
/-- A KLAUNCH of a record at 0x50000. -/
def klaunched : State := { engined (packet [1, 0, 0x50000]) with mem := setBytes (engined (packet [1, 0, 0x50000])).mem 0x50000 loadRecord }
theorem test_meets_klaunch : packetOk (startPacket klaunched 0).1.bytes = true ∧
    ctxClosed (startPacket klaunched 0).2 (queueOf klaunched 0).ctx = false ∧ recField (startPacket klaunched 0).1.bytes 8 8 % 2 ^ 57 = 0x50000 ∧ recField (startPacket klaunched 0).1.bytes 0 1 = 1 := by decide +kernel
theorem test_meets_klaunch_record : (readRecord klaunched (engineCore 0) 0 3 0x50000).1.toOption = some (some loadRecord) := by decide +kernel
theorem test_meets_started : (queueOf (started (packet [2, 0, 0]) 0 none) 0).started = [⟨0, 0, packet [2, 0, 0], 0, none, none, none⟩] ∧
    recField (packet [2]) 0 1 = 2 ∧ ((queueOf (started (packet [2]) 0 none) (bits (recField (packet [2]) 0 4) 16 16)).ccnt + 2 ^ 32 - 0) % 2 ^ 32 < 2 ^ 31 ∧
    recField (packet [1]) 0 1 = 1 ∧ (let s := { started (packet [1]) 0 (some 0) with warps := [], grids := [(0, ⟨0, loadRecord, 0, 0, some (0, 0), 0, false, 1, 1, false, [], []⟩)] }
     gridQuiet s 0 = true ∧ tsorted s.grids = true ∧ recGrid loadRecord * recCsize loadRecord = 1) ∧
    (packetOf (started (packet [3]) 3 none) 0 0).map (fun p => (recField p.bytes 0 1, p.stage, p.knot)) = some (3, 3, none) := by decide +kernel
/-- A record that KLAUNCH and LAUNCH accept. -/
theorem test_record_accepted : recordRefused one 0 loadRecord true = false := by decide +kernel
/-- A cluster without a run, drained, whose image the pool holds: PlacementEventsComplete's save, and a restore. -/
def quiet : State :=
  { modCtx (modCore one 0 (fun c => { c with runs := [none, none, none, none] })) 0 (fun x => { x with cssize := 64, csavelo := 0x100000 }) with
    saving := [⟨0, 1⟩] }
theorem test_meets_placement : (dieOf (modDie one 1 (fun d => { d with passDue := true })) 1).passDue = true ∧ (dieOf one 0).forwarded = [] ∧
    (⟨0, 0, 0, 0, 0, [], false, 0⟩ : Launch) ∈ (dieOf (modDie { one with clock := 65536 } 0 (fun d => { d with launches := [⟨0, 0, 0, 0, 0, [], false, 0⟩] })) 0).launches ∧
    (blockIn (modBlock one 0 (fun b => { b with started := false }))).any (fun b => !b.started && !onTheWay one b) = true ∧
    clusterBusy quiet 0 = false ∧ (ctxOf quiet 0).fencing = false ∧ (saveImages 0 0 loadRecord (savedOf quiet 0).blocks quiet).isSome = true ∧
    (let s := { quiet with saving := [], saved := [savedOf quiet 0] }
     s.saved.find? (fun v => v.cluster == 0) = some (savedOf quiet 0) ∧ (savedOf quiet 0).blocks.all (fun e => (tget s.blocks e.1).any (fun b => !onTheWay s b)) = true) := by decide +kernel
/-- ContextEventsComplete: writes of function 0 to a context's registers and a migration's, a drained fence, an invalidation, a migration. -/
theorem test_meets_context_events : mayWrite hosted hostM (0x100 * 63 + 0x10) = true ∧ mayWrite hosted hostM (0x100 * 0 + 0x38) = true ∧ mayWrite hosted hostM (0x50000 + 0x20 * 7 + 0x10) = true ∧
    (ctxOf hosted 0).go = false ∧ ctxBusy { quiet with warps := [], blocks := [] } 0 = false ∧ accessOpen one 5 = false ∧ one.memsys.migs[7]? = some resetMigration ∧
    one.clock % 65536 = 0 ∧ ({ resetMigration with busy := true } : Migration).bnd < migSize { resetMigration with busy := true } / 32 := by decide +kernel
/-- A started COLL, its group of two packages, this package's contribution and a result, of its kind or of another. -/
def collected (kind : Nat) : State := modFab (withCopy (copyCmd (.coll 0 0 1 7 5))) (fun f => { f with
  groups := [⟨0, 7, 0, 0, 0, 0, [0, 1]⟩], colls := [(95, ⟨some 80, some 1, true, 0, 7, 5, 0, 0, 1, 1, [⟨0, 7, 5, 0, 0, 0, 1, 1, 0, [1, 0], []⟩, ⟨0, 7, 5, 2, kind, 0, 1, 1, 0, [3, 0], []⟩]⟩)] })
/-- A queue pair of context 0 on port 0 with a SEND of 4 bytes at the head of its send ring and in its lists. -/
def qpair : QPair := ⟨0, 0, 0, 0x60000, 0x61000, 0x62000, 4, 4, 4, false, 1, [], 77, 0, 0, 0, [(0, toBytes 1 1 ++ toBytes 1 2 ++ toBytes 2 0 ++ toBytes 4 4)], [(3, toBytes 4 4 ++ toBytes 4 4)]⟩
def paired : State := { modFab one (fun f => { f with qps := [(5, qpair)] }) with mem := setBytes one.mem 0x60000 ([3, 1, 0, 0, 4, 0, 0, 0]) }
/-- FabricEventsComplete: the host's ranges and functions, a message that is due, a domain, Lanyard requests, the fabric's groups, queue pairs. -/
theorem test_meets_fabric_events : fnPresent one 0 = true ∧ barAddr 2 (2 ^ 41 - 1) = some (2 ^ 41 - 1) ∧ (barAddr 4 (2 ^ 43 - 1)).isSome = true ∧
    dumpOpen one ⟨0, 2, 0, false, 4, []⟩ = false ∧ one.sec.recov = false ∧ one.sec.fatal = none ∧
    (31 : Nat) ≤ ({ one.port with vfs := 31 } : Port).vfs ∧ ({ one.port with owed := [0] } : Port).owed.contains 0 = true ∧ one.port.lastMsg = [] ∧
    (modFab one (fun f => { f with pkgv := true })).fabric.pkgv = true ∧ one.sec.ready = true ∧
    (tget (modFab { one with clock := 4194304 } (fun f => { f with lanyard := [(96, ⟨none, none, 3, 0, 0, some 4, [], []⟩)] })).fabric.lanyard 96).map (fun r => decide (r.sent + 4194304 ≤ 4194304)) = some true ∧
    one.clock < 0 + 4194304 ∧ gapPassed one 0 = true ∧
    one.memsys.expFenced[7]? = some false ∧ 31 ∉ one.memsys.lostStacks ∧ (findGroup (settleGroups (collected 0)) 0 7).map (fun x => (x.members.length, x.myRank)) = some (2, 0) ∧
    (tget (collected 0).fabric.colls 95).any (fun r => r.copy == some 80 && (r.parts.find? (fun p => p.rank == 0)).any (fun own =>
      r.parts.all (fun p => p.rank != 2 || !differs own p) && rankElems r.parts 2 (resultLen 0 2 1) == some [some 3])) = true ∧
    (tget (collected 1).fabric.colls 95).any (fun r => (r.parts.find? (fun p => p.rank == 0)).any (fun own =>
      r.parts.any (fun p => p.rank == 2 && differs own p))) = true ∧
    (let s := modFab (withCopy { copyCmd (.coll 0 0 1 7 5) with srcRead := some [(1, false), (0, false)], count := 2 }) (fun f => { f with groups := [⟨0, 7, 0, 0, 0, 0, [0, 1]⟩] })
     (ownColl (settleGroups s) 0 7 5).map (·.id) = some 80 ∧ (settleGroups s).fabric.colls = []) := by decide +kernel
theorem test_meets_rdma : tget paired.fabric.qps 5 = some qpair ∧ paired.fabric.enup.getLsbD 0 = true ∧
    (outRead paired 0 (qpMaster paired qpair) (some 0) 0x60000 64).2.1 = false ∧ recField (outRead paired 0 (qpMaster paired qpair) (some 0) 0x60000 64).1 1 1 % 2 = passParity 0 4 ∧
    qpHub qpair = 0 ∧ workWaits paired qpair (outRead paired 0 (qpMaster paired qpair) (some 0) 0x60000 64).1 = false ∧
    workOk qpair false (outRead paired 0 (qpMaster paired qpair) (some 0) 0x60000 64).1 = true ∧
    qpair.pending.head? = some (0, toBytes 1 1 ++ toBytes 1 2 ++ toBytes 2 0 ++ toBytes 4 4) ∧
    recField (toBytes 1 1 ++ toBytes 1 2 ++ toBytes 2 0 ++ toBytes 4 4) 0 1 ≠ 2 ∧ (qpair.recvs.head?).map (fun e => recField e.2 4 4) = some 4 := by decide +kernel
/-- RasEventsComplete: a counted error, a grain outside the event queue, a stored record, the event registers, a fatal error and its dump, a
reel job with a chunk left and one without. -/
theorem test_meets_ras_events : (tget (dieOf (modDie { one with clock := 2 ^ 24 } 0 (fun d => { d with corrected := [(errKey ⟨1, 0⟩ 2, (1, 3))] })) 0).corrected (errKey ⟨1, 0⟩ 2)) = some (1, 3) ∧
    1 - 1 + 2 ^ 24 ≤ 2 ^ 24 ∧ inEventQueue one 0x100 = false ∧ placeOf one 0x100 = .hbm ((homeOf one 0x100).getD 0) ∧ evCount one < 8192 ∧
    (dieOf (modDie one 1 (fun d => { d with store := [List.replicate 32 0] })) 1).store = List.replicate 32 0 :: [] ∧ one.port.drops = 0 ∧
    mayWrite hosted hostM 0x60008 = true ∧ permits hosted (midOf hosted hostM) (mmioBase + 0x60010) true false = true ∧ one.sec.fatal = none ∧
    (modSec one (fun x => { x with fatal := some 3, dump := some 0 })).sec.dump = some 0 ∧
    ([(0x10000, 0x01000000000)] : List (Nat × Nat)).find? (fun c => hubChunk ⟨1, 2, [], [(0x10000, 0x01000000000)], 0, 0, false⟩ (2 * (0x10000 / 2 ^ 40) + hbmSlice 0x10000 / 32) c.1) ≠ none := by decide +kernel
/-- Function 0's command `op` with operands, at the head of the queue; `mem` at 0x70000. -/
def commanded (op : Nat) (args : List Nat) (mem : List Byte) : State :=
  { modSec one (fun x => { x with queue := [(0, op)], boxes := lset x.boxes 0 { resetSecBox with args := args.map (fun a => BitVec.ofNat 32 a), busy := true } }) with
    mem := setBytes one.mem 0x70000 mem }
/-- The command heads the queue and is permitted. -/
def mayRun (s : State) (op : Nat) : Bool := s.sec.queue.head? == some (0, op) && (secRefused s 0 op).isNone
/-- An access table entry that grants HBM in one range of 64 KiB. -/
def rangeEntry : List Byte := toBytes 16 3 ++ toBytes 8 0 ++ toBytes 8 0x10000 ++ List.replicate 224 0
/-- SecurityCommandsComplete, the tables and contexts: ATAB of the last master, CTXASN, CGREG of a group of one, CGDEL. -/
theorem test_meets_commands : mayRun (commanded 1 [0xFFF, 0x70000, 0] rangeEntry) 1 = true ∧ onlyBits 0xFFF 0xFFF = true ∧
    (secBytes (commanded 1 [0xFFF, 0x70000, 0] rangeEntry) 0x70000 256).any (atabOk 0xFFF) = true ∧
    mayRun (commanded 2 [0x33F] []) 2 = true ∧ sarg (commanded 2 [0x33F] []) 0 0 = 0x33F ∧ onlyBits 0x33F 0x1F3F = true ∧ bit (ctxOf one 63).cctl.toNat 0 = false ∧
    (let s := modFab (commanded 3 [0x700, 0x70000, 0] [1]) (fun f => { f with pkgv := true })
     mayRun s 3 = true ∧ sarg s 0 0 = 0x700 ∧ sargAddr s 0 1 = 0x70000 ∧ (secBytes s 0x70000 18).any (fun bs => groupOk s bs (parseGroup 0 7 bs)) = true) ∧
    (let s := modFab (commanded 4 [0x700] []) (fun f => { f with groups := [⟨0, 7, 0, 0, 0, 0, [0]⟩] })
     (findGroup (settleGroups s) 0 7).isSome = true ∧ (ctxOf (settleGroups s) 0).fn = 0) := by decide +kernel
/-- REEL of one chunk to the first expander, QPNEW, QPDEL, DOMAIN, ATTEST, GVCNT, FWUPD, CAP. -/
theorem test_meets_commands_b :
    (let hd := toBytes 4 9 ++ toBytes 2 3 ++ toBytes 2 1 ++ toBytes 8 0 ++ toBytes 8 0x80000 ++ toBytes 8 tierBase ++ toBytes 8 1
     let s := modQueue (commanded 5 [0x70000, 0] hd) 3 (fun q => { q with en := true, mode := true })
     mayRun s 5 = true ∧ secBytes s 0x70000 40 = some hd ∧ recField hd 6 2 = 1 ∧ jobOk s hd (jobRanges hd 1) = true) ∧
    qpOk (toBytes 24 0 ++ toBytes 1 4 ++ toBytes 1 16 ++ toBytes 1 4 ++ toBytes 37 0) = true ∧ onlyBits (0x73F : Nat) 0x73F = true ∧ mayRun (commanded 6 [0x700, 0x70000, 0] []) 6 = true ∧
    (tget (modFab (commanded 7 [5] []) (fun f => { f with qps := [(5, qpair)] })).fabric.qps (sarg (commanded 7 [5] []) 0 0)).map (·.fn) = some 0 ∧
    mayRun (commanded 8 [575, 0x70000, 0] []) 8 = true ∧ (secBytes (commanded 8 [575, 0x70000, 0] []) 0x70000 72).isSome = true ∧ one.fabric.domainClosed = false ∧
    mayRun (commanded 9 [0x70000, 0, 0x72000, 0] []) 9 = true ∧ secBacked (commanded 9 [0x70000, 0, 0x72000, 0] []) 0x72000 192 = true ∧
    mayRun (commanded 10 [191] []) 10 = true ∧ mayRun (commanded 11 [0x70000, 0, 64, 1] []) 11 = true ∧ (secBytes (commanded 11 [0x70000, 0, 64, 1] []) 0x70000 64).isSome = true ∧
    mayRun (commanded 13 [3600] []) 13 = true := by decide +kernel
/-- A signature of the transition from life cycle 1 to 2 (the message of R462), and a key chosen, with the curve of FIPS 186 and outside the
model, so that it verifies. -/
def lcKey : List Byte := toBytesBe 32 0x71c1270c4fca66073179e36d528e94fd1ef9c942e0b76eb7e734425cd2c5fd36 ++
  toBytesBe 32 0x32bd4d92e87bd8a2d79a5247eefa5b0416b4debade58153c74402f6cb2fa524a
def lcSig : List Byte := toBytesBe 32 0xf449d6e4f00559fa1516e3728caf59ff098e8473974c455ccfc2cd8d12301d53 ++
  toBytesBe 32 0xf449d6e4f00559fa1516e3728caf59ff098e8473974c455ccfc2cd8d12301d53
/-- LCSET's premises: the commands of life cycle 1 allow it, and the signature is good. -/
theorem test_meets_lcset : (let s := modSec (commanded 12 [2, 0x70000, 0, 0x70040, 0, 0] (lcSig ++ lcKey)) (fun x => { x with lc := 1 })
    mayRun s 12 = true ∧ secBytes s (sargAddr s 0 1) 64 = some lcSig ∧ secBytes s (sargAddr s 0 3) 64 = some lcKey ∧
    (lcTransition s.sec (sarg s 0 0) (sha256 lcKey)).isSome = true ∧
    ecdsaOk (ofBytesBe (lcKey.take 32)) (ofBytesBe ((lcKey.drop 32).take 32)) (ofBytesBe (lcSig.take 32)) (ofBytesBe ((lcSig.drop 32).take 32))
      (ofBytesBe (sha256 (lcMessage s.sec 2))) = true) := by decide +kernel
/-- DebugAndPowerEventsComplete: a mailbox that function 0 reaches, a halt and an invalidation in progress, a device reset, a step to take,
a register write, as many functions as there may be. -/
theorem test_meets_debug : mayWrite hosted hostM (0x10000 + 0x100 * 63) = true ∧ mayWrite hosted hostM (0x10000 + 0x100 * 63 + 0x2C) = true ∧ debugReach hosted hostM 63 = true ∧
    permits hosted (midOf hosted hostM) (mmioBase + (0x10000 + 0x30)) true false = true ∧ one.ctxs.length = 64 ∧
    (let s := modDebug quiet 0 (fun d => { d with busy := true, dcmd := 1, halting := [0] })
     (ctxOf s 0).dbox.busy = true ∧ (ctxOf s 0).dbox.halting = [0] ∧ blockBusy s 0 = false) ∧
    (ctxOf (modDebug one 0 (fun d => { d with busy := true, dcmd := 5 })) 0).dbox.dcmd = 5 ∧ (modSec one (fun x => { x with resetDue := true })).sec.resetDue = true ∧
    one.power.changing = false ∧ ({ one.power with changing := true } : Power).changing = true ∧ mayWrite hosted hostM 0x20000 = true ∧ 0x20000 < 2 ^ 26 ∧ 0x20000 / 65536 ≠ 3 := by decide +kernel

/-! ### The rest of the cases that the statements set apart -/

/-- `copying` with a descriptor that fails its checks. -/
def broken : State := modBlock copying 0 (fun b => { b with scratch := setBytes b.scratch 0x4008 [99] })
/-- CopiesAndChannelsComplete: a descriptor that fails its checks, for each form. -/
theorem test_meets_copies_invalid :
    ((([(Instr.cpyG2s (ub 12 20 30 33 1), none), (.cpyS2g { ub 12 20 30 33 0 with sub := 1 }, none), (.cpgth (ub 12 20 30 33 0), some (0x6000, 2)),
      (.cpsct (ub 12 20 30 33 0), some (0x6000, 2)), (.cpxf (ub 12 20 30 33 0), none)] : List (Instr × Option (Nat × Nat)))).all (fun e =>
      meets e.1 broken (fun x => (copyAlignFault x (copyArgs x.w (ub 12 20 30 33 0) e.2) false).isNone &&
        (match copyFixed x broken (copyArgs x.w (ub 12 20 30 33 0) e.2) 1, readDesc x broken 0x4000 ⟨0, 0, 0x4000⟩ false with
         | .ok _, .got bs _ => descCheck bs != 0
         | _, _ => false) && !cwFull x.w ⟨true, true, true, true⟩))) = true ∧
    meets (.cpgth (ub 12 20 30 33 0)) broken (fun x => (copyArgs x.w (ub 12 20 30 33 0) (some ((sread x.w 31).toNat, (sread x.w 32).toNat))).index == some (0x6000, 2)) = true ∧
    meets (.chsend (ub 0 10 11 0 3)) channelled (fun x => !waitsForLoad channelled x.wid (chsendUses x.record (ub 0 10 11 0 3)) &&
      (poisUses x channelled (chsendUses x.record (ub 0 10 11 0 3))).isNone) = true := by decide +kernel
/-- MatrixComplete: the round that issues, and the instructions that map their name, have room in the queue and a slot. -/
theorem test_meets_matrix_slots :
    meets (.mma { lb (2 + 16 * 1) 32 40 0 with sb := true }) planed (fun x => (blockOf planed x.w).any (fun b =>
      decide (planeLoad (coreOf planed b.core) < 8) && (mapFor x planed b 2 (some 1)).any (fun t =>
        (tget t.blocks x.w.block).any (fun b1 => nameState b1 2 == .mapped 1)))) = true ∧
    meets (.accz (ub 3 0 0 0 0)) one (fun x => (blockOf one x.w).any (fun b => !namePoisoned b 3 && !relQueued one x.w.block b 3 &&
      (mapFor x one b 3 none).isSome)) = true ∧
    meets (.accwr { lb 32 0 0 0 with sub := 3, t := 2 }) one (fun x => guardLanes x.w x.b.lanes false 7 != 0 && (blockOf one x.w).any (fun b => !namePoisoned b 3 &&
      !relQueued one x.w.block b 3 && (mapFor x one b 3 none).any (fun t => (tget t.blocks x.w.block).any (fun b1 =>
        match nameState b1 3 with | .mapped _ => true | _ => false)))) = true ∧
    meets (.accwr { lb 32 0 0 0 with sub := 3, t := 2, gn := true }) one (fun x => guardLanes x.w x.b.lanes true 7 == 0) = true ∧
    runs (.mchkrd (ub 12 0 0 0 0)) (modBlock planed 0 (fun b => { b with mlog := [⟨2, 1, ⟨false, 3, 4, 1, 0, 5⟩⟩] })) = true ∧
    runs (.hset { ub 1 0 0 0 0 with sub := 1 }) (modBlock planed 0 (fun b => { b with hitches := lset b.hitches 1 ⟨1, none, [⟨9, 1, 0, 32, 0, []⟩]⟩ })) = true := by decide +kernel
/-- IssueEventsComplete: a sub-braid that has waited 4 096 clocks; the rest of the messages a port performs, and the queue's head to a peer. -/
theorem test_meets_issue_events_more :
    (let s := { modCore one 0 (fun c => { c with runs := [none, none, none, none] }) with clock := 5000 }
     (bestOf (mergeQuad s 0 0) ((readyBraids (mergeQuad s 0 0) 0 0).filter (fun e => guarded (mergeQuad s 0 0) e.2.2))).isSome && (bestOf (mergeQuad s 0 0) (readyBraids (mergeQuad s 0 0) 0 0)).isSome) = true ∧
    (let m : PortMsg := ⟨70, 0, some 0, ⟨0, 1, 0x80⟩, .store 40 [(0x80, [5])], true, 70⟩
     let s := modNet (oneW (fun w => { w with storeQ := [.port 70], st := 1 })) (fun n => { n with ports := [(70, m)] })
     loadBefore s 0 70 = false ∧ tget s.net.ports 70 = some m) ∧
    ackBehind (windowed .store true) (winEnt .store true) = false ∧
    tget (modNet one (fun n => { n with flushes := [(90, ⟨90, 0, 0, []⟩)] })).net.flushes 90 = some ⟨90, 0, 0, []⟩ ∧
    ([PortOp.load 60, .atomic 60, .ringInit 2 64, .ringRel].all (fun op =>
      portReady (modNet (loading none) (fun n => { n with ports := [(70, ⟨70, 1, some 0, ⟨0, 0, 0x80⟩, op, false, 70⟩)] })) ⟨70, 1, some 0, ⟨0, 0, 0x80⟩, op, false, 70⟩)) = true := by decide +kernel
/-- A round of MMA on a tile handle's B, and one whose name is poisoned. -/
def tkey : MmaKey := { mkey with b := .tile 0x4000 [0, 0, 0, 0, 0] }
/-- MatrixEventsComplete: each kind of entry that starts and completes. -/
theorem test_meets_plane_entries :
    ((coreOf (plane (.mma tkey [] [] [] none) false) 0).queue.zipIdx).find? (fun e => !e.1.started) = some (⟨0, some 1, false, 1, [], .mma tkey [] [] [] none, 0, [], [], none⟩, 0) ∧
    (([PlaneWork.accz 0 2, .accrel 0 2, .blockEnd, .mma mkey [] [] [] (some [])]).all (fun w =>
      (coreOf (plane w true) 0).queue == [⟨0, some 1, true, 1, [], w, 0, [], [], none⟩] && badAllowed (plane w true) ⟨0, some 1, true, 1, [], w, 0, [], [], none⟩ none)) = true ∧
    badAllowed (plane (.mma mkey [] [] [] (some [])) true) ⟨0, some 1, true, 1, [], .mma mkey [] [] [] (some []), 0, [], [], none⟩ (some ⟨false, 3, 4, 1, 0, 5⟩) = true ∧
    namePoisoned { loadBlock with accs := lset loadBlock.accs 2 (.poisoned 1) } 2 = true ∧
    (coreOf one 0).fenced = false ∧
    tget one.blocks 7 = none := by decide +kernel
/-- ResourceEventsComplete: slots that have gone, the three events of an odd core, arrivals of a block at its grid. -/
theorem test_meets_resource_more :
    (warpOf (oneW (fun w => { w with ended := true, braids := [], returned := true }))).any (fun w => w.ended && w.returned && w.ld == 0 && w.mx == 0 && w.st == 0 &&
      w.storeQ.isEmpty && !hasSignature (oneW (fun w => { w with ended := true, braids := [], returned := true })) 0 w) = true ∧
    (blockIn (oneW (fun w => { w with ended := true }))).any (fun b => b.oddEvents.all (fun e => !oddEventOf 0 e)) = true ∧
    ([OddEvent.arrive 0 3, .detach 0 3].all (fun e => (blockIn (modBlock one 0 (fun b => { b with oddEvents := [e] }))).any (fun b => b.oddEvents.head? == some e))) = true ∧
    (let s := modBlock one 0 (fun b => { b with cbDone := [(24, [0])] })
     (blockIn s).any (fun b => blockArrived s 0 b 24 && (tget s.clusters b.cluster).any (fun c => (tget s.grids c.grid).any (fun g => !g.came.contains (c.index, b.rank))))) = true ∧
    barOf 24 = .grid := by decide +kernel
/-- CopyEventsComplete: a line of several pieces, one of a copy that has gone, a claim of an ended receiver and one that is not queued yet. -/
theorem test_meets_copy_more :
    (let m : LineMsg := ⟨81, 80, ⟨0, 0, 0x88⟩, List.replicate 16 (7, false), true, false, 81⟩
     lineReady (modNet (withCopy (copyCmd .s2s)) (fun n => { n with lines := [(81, m)] })) m && decide (16 - m.place.off % 16 < m.data.length)) = true ∧
    (let s := modNet one (fun n => { n with lines := [(81, lineMsg false)] })
     lineReady s (lineMsg false) && (tget (wakeLines (modNet (writeLine s (lineMsg false) 16 true) (fun n => { n with lines := terase n.lines 81 }))).net.copies 80).isNone) = true ∧
    (let c := { copyCmd (.chan 3 0) with recvs := [] }
     let s := modNet channelled (fun n => { n with copies := [(80, c)] })
     (blockAt s 0 0 0).any (fun b => b.2.started && !b.2.ended && !b.2.chWait.contains (3, 80)) && decide (coreCopies s 0 < 16) && decide (bayCopies s 0 < 128)) = true ∧
    (let s := modNet (modBlock channelled 0 (fun b => { b with ended := true })) (fun n => { n with copies := [(80, { copyCmd (.chan 3 0) with recvs := [] })] })
     (blockAt s 0 0 0).any (fun b => b.2.started && b.2.ended)) = true ∧
    (tget (modNet (withCopy (copyCmd .s2s)) (fun n => { n with lines := [(81, lineMsg true)] })).net.lines 81).any (·.held) = true := by decide +kernel
/-- A fill of grain 8 under lease at a proxy, asked for or served. -/
def leaseFill (at' : Option Nat) : Fill := ⟨62, 0, 0x100, true, 0, 0, 0, at', [], 0, 0⟩
def filling (at' : Option Nat) : State := modSlice present 3 (fun y => { y with fills := [leaseFill at'] })
/-- HomeEventsComplete: a prefetch, lease fills that their home serves and has served, a fill whose home is gone, a flush. -/
theorem test_meets_fills :
    (let r : L2Req := ⟨61, 0, none, 0, 0, 0, 0, false, 0, 0⟩
     tget (modNet one (fun n => { n with reqs := [(61, r)] })).net.reqs 61 = some r) ∧
    (findFill (filling (some 9)) 62 = some (3, leaseFill (some 9)) ∧ (fillLease (filling (some 9)) 3 (leaseFill (some 9)) 9).isSome = true) ∧
    (findFill (filling none) 62 = some (3, leaseFill none) ∧ (serveLease (filling none) (leaseFill none)).1.isSome = true) ∧
    ((serveLease (filling none) (leaseFill none)).1.any (fun t => ((leaveLease t (leaseFill none)).slices[3]?).isSome)) = true ∧
    homeOf { one with memsys := { one.memsys with lostStacks := List.range 32 } } 0x100 = none ∧
    tget (modNet one (fun n => { n with flushes := [(90, ⟨90, 0, 0, [(8, 9)]⟩)] })).net.flushes 90 = some ⟨90, 0, 0, [(8, 9)]⟩ := by decide +kernel
/-- HomeEventsComplete: a full splice buffer, the directory with and without the grain, entries that are recorded, confirmed, called and combined. -/
theorem test_meets_splice_more :
    (let s := modBay (windowed (.redg redgOp) false) 0 (fun b => { b with splice := List.replicate 512 { spliceEnt true [] with grain := 9 } })
     512 ≤ (bayOf s 0).splice.length ∧ spliceEntOf s 0 8 = none ∧ absorbable s (winEnt (.redg redgOp) false) = true ∧ absorbed s 50 = false ∧
     sortBy (fun (a b : SpliceEnt) => decide (a.age ≤ b.age)) (bayOf s 0).splice ≠ []) ∧
    (let s := spliced false [50] [⟨8, 0, 1, 1, false⟩]
     (spliceEntOf s 0 8).any (fun x => !x.recorded && !x.confirmed) && !partialAway s 0 8 && !heldAt s ((homeOf one 0x100).getD 0) 8 &&
       ((sliceOf s ((homeOf one 0x100).getD 0)).splice.find? (fun d => d.grain == 8)).any (fun d => !d.called)) = true ∧
    ((sliceOf (spliced false [50] []) ((homeOf one 0x100).getD 0)).splice.all (fun d => d.grain != 8)) = true ∧
    (let s := modBay one 0 (fun b => { b with splice := [{ spliceEnt false [50] with recorded := true }] })
     (spliceEntOf s 0 8).any (fun x => x.recorded && !x.confirmed)) = true ∧
    (let s := modNet (modSlice present ((homeOf one 0x100).getD 0) (fun y => { y with splice := [] })) (fun n => { n with partials := [(95, (0, spliceEnt true []))] })
     tget s.net.partials 95 = some (0, spliceEnt true []) ∧ grainPresent s ((homeOf one 0x100).getD 0) false 0x100 = true ∧ reelHook s 0x100 = s ∧
     atTurn s ((homeOf one 0x100).getD 0) 8 95 = true ∧ spliceOf s ((homeOf one 0x100).getD 0) 8 = none ∧ (spliceEnt true []).recorded = true ∧ (spliceEnt false []).recorded = false) := by decide +kernel
/-- A knot request of the warp of `one`. -/
def knotReq (op : KnotOp) (sent resend : Option Nat) : KnotReq := ⟨90, some 0, .cluster 0, 0, 1, op, sent, false, resend, false, none⟩
def asked (r : KnotReq) : State := modNet one (fun n => { n with knots := [(90, r)] })
/-- QueueEventsComplete: requests that are sent, that arrive and that are sent again; packets that complete with and without a knot. -/
theorem test_meets_queue_more :
    (tget (asked (knotReq .give none none)).net.knots 90 = some (knotReq .give none none) ∧ giveDrained (asked (knotReq .give none none)) (knotReq .give none none) = true) ∧
    knotBehind (asked (knotReq .free (some 3) none)) (knotReq .free (some 3) none) = false ∧
    (knotMaster one (knotReq .free (some 3) none)).any (fun m => permits one m.1 0 true true && decide (placeOf one 0 ≠ .unbacked)) = true ∧
    (tget { asked (knotReq (.take true) none (some 5)) with clock := 6 }.net.knots 90).any (fun r => r.resendAt == some 5) = true ∧
    (let s := started (packet [1]) 1 none
     ((queueOf s 0).started.find? (fun p => p.idx == 0)).any (fun p => recField p.bytes 0 1 == 1 && p.stage == 1 && p.grp.isNone && recField p.bytes 0x10 8 == 0)) = true ∧
    (let s := modQueue (started (packet [3]) 3 none) 0 (fun q => { q with started := q.started.map (fun (p : Packet) => { p with knot := some 0 }) })
     let s := modSlice s ((homeOf one 0).getD 0) (fun y => { y with knots := [⟨0, some (.signal 0 0), [], false⟩] })
     (packetOf s 0 0).any (fun p => p.knot == some 0 && recField p.bytes 0 1 == 3 && p.stage == 3) && (knotOf s 0).any (fun k => k.2.holder == some (.signal 0 0))) = true ∧
    (recordRefused klaunched 0 loadRecord true) = false := by decide +kernel
/-- PlacementEventsComplete: a context without room for the image, a forwarded half, a saved cluster. -/
theorem test_meets_placement_more :
    (let s := modCtx quiet 0 (fun x => { x with cssize := 0 })
     saveImages 0 0 loadRecord (savedOf s 0).blocks s = none) ∧
    clusterBusy (modCtx quiet 0 (fun x => { x with cssize := 0 })) 0 = false ∧
    (dieOf (modDie one 0 (fun d => { d with forwarded := [⟨0, 0, 0, 96, false⟩] })) 0).forwarded ≠ [] ∧
    mayPlace (modDie one 0 (fun d => { d with placing := [⟨0, 0, 0, 0, false⟩] })) 0 = true ∧
    ((tget one.clusters 0).any (fun c => (tget one.grids c.grid).isSome)) = true ∧
    (let s := { quiet with saved := [savedOf quiet 0] }
     s.saving.any (fun v => v.cluster == 0) && s.saved.any (fun v => v.cluster == 0)) = true := by decide +kernel
/-- ContextEventsComplete: a period that has ended; a fence whose KLAUNCH has a status word to write, and one without; an ended migration. -/
theorem test_meets_context_more :
    ({ one with clock := 65536 } : State).watched < ({ one with clock := 65536 } : State).clock / 65536 ∧
    (let s := modNet (modCtx { modQueue (started (packet [1]) 0 none) 0 (fun q => { q with started := q.started.map (fun (p : Packet) => { p with grp := some 40 }) }) with
       warps := [], blocks := [] } 0 (fun x => { x with fencing := true })) (fun n => { n with cpw := [winEnt .store false] })
     (ctxOf s 0).fencing && !ctxBusy s 0 && (queueOf (endPackets s 0 0) 0).started.any (fun p => p.ctx == 0 && decide (recField p.bytes 0 1 = 1))) = true ∧
    (let s := modCtx { started ((packet [1])) 0 none with warps := [], blocks := [] } 0 (fun x => { x with fencing := true })
     !(queueOf (endPackets s 0 0) 0).started.any (fun p => p.ctx == 0 && decide (recField p.bytes 0 1 = 1))) = true ∧
    ({ resetMigration with ended := some 0 } : Migration).ended = some 0 := by decide +kernel
/-- `lone` with the leaf of its addresses in the caches of its core and its bay. -/
def walked : State := cacheVa lone 0 0 0
/-- GlobalIssueFrame, HintsAndFencesComplete: every leaf cached. HomeStoreWrites: the packet has its turn. -/
theorem test_meets_cached :
    meets (.stg (lm 4 8 4)) walked (fun x => homeClear x walked 4 (globalLanes x (lm 4 8 4) false) false true && !(globalLanes x (lm 4 8 4) false).isEmpty &&
      (globalLanes x (lm 4 8 4) false).all (fun a => (tlbFind (coreOf walked x.w.core).tlb x.ctx a.2).any (fun e => (bayOf walked (bayOfCore x.w.core)).tlb.contains e))) = true ∧
    (atTurn present ((homeOf present 0x100).getD 0) 8 50 = true ∧ (winEnt .store false).pois = false ∧ present.sec.reel = none) := by decide +kernel
/-- ChecksComeFirst: a load with LD at 63 waits. TrapInstructionsComplete: ERET where the word at EPC has no page, and lanes resume
behind it, who take that fault at EPC (R400). -/
theorem test_meets_stall_and_eret :
    (let s := oneW (fun w => { w with ld := 63 })
     let i := Instr.ldg (lm 4 8 4)
     (issuerOf s i).any (fun x => i.wf && warpOk x.w i && (privOf i).isNone && !roleBars x.w.role i && !waitsForLoad s x.wid (usesOf x.w i) &&
       valuesOk x.w i && (regwOf x.w.win (usesOf x.w i)).isNone && stalls s x)) = true ∧
    (let s := oneW (fun w => { w with trapMode := true, emask := 1, epc := 0x2000000000 })
     meets (.eret (ua 0 0)) s (fun x => (eretFetch s x.w).1.toOption.isNone && handlerLanes x.w &&& ~~~x.w.emask != 0) = true ∧
     (warpOf (after (.eret (ua 0 0)) s)).map (fun w => (w.ecause.toNat % 64, w.emask, w.epc)) = some (cPAGE, 0xFFFFFFFE, 0x2000000000)) := by decide +kernel
/-- HomeStoreWrites: a packet of two pieces that overlap; the last one decides the byte (R155). -/
theorem test_meets_home_pieces : (let e := { winEnt .store false with pieces := [⟨0x100, [1, 2, 3, 4]⟩, ⟨0x102, [9]⟩] }
    let s := modBay present 0 (fun b => { b with window := [e] })
    entReady s e = true ∧ e.pieces.all (fun p => p.addr / 32 == 8 && decide (p.addr % 32 + p.data.length ≤ 32) && (recordsHit s p.addr p.data.length).isEmpty) = true ∧
    (match exec (.homeWrite 50) s with | .next t => [homeByte t 0x101, homeByte t 0x102, homeByte t 0x103] == [2, 9, 4] | _ => false) = true) := by decide +kernel
/-- RasEventsComplete: a second fatal error; a grain in the event queue's region. -/
theorem test_meets_fatal : (modSec one (fun x => { x with fatal := some 3 })).sec.fatal = some 3 ∧
    (let s := { one with port := { one.port with evbase := 0x100000 } }
     inEventQueue s 0x100000 = true ∧ placeOf s 0x100000 = .hbm ((homeOf s 0x100000).getD 0)) := by decide +kernel

/-- Instruction `i` reaches its address checks in `s` (`Reaches`), and its issue meets `c`. -/
def reaches (i : Instr) (s : State) (c : Issue → Bool) : Bool := (issuerOf s i).any (fun x => (prologue s x).isNone && c x)
/-- The access of a memory instruction meets `c`. -/
def accessMeets (form : Issue → Instr → Option Access) (i : Instr) (s : State) (c : Issue → Access → Bool) : Bool :=
  reaches i s (fun x => (form x i).any (c x))
/-- TilesComplete: a row and a column outside the view, a marked element. -/
theorem test_meets_tile_traps :
    reaches (.trd ⟨false, 6, 0, 0, false, 2, 9, 31, 3, 0⟩) (modWarp tiled 0 (fun w => swrite w 9 1)) (fun x => decide (32 ≤ tileIndex x.w ⟨false, 6, 0, 0, false, 2, 9, 31, 3, 0⟩)) = true ∧
    reaches (.twr ⟨false, 0, 6, 0, true, 2, 9, 31, 3, 0⟩) (modWarp tiled 0 (fun w => swrite w 9 1)) (fun x => decide (x.w.width ≤ tileIndex x.w ⟨false, 0, 6, 0, true, 2, 9, 31, 3, 0⟩)) = true ∧
    meets (.trd ⟨false, 6, 0, 0, false, 2, 9, 0, 3, 0⟩) (modWarp tiled 0 (fun w => { w with marks := [(224 * 64 + 5, ⟨80, 1⟩)] })) (fun x =>
      (oldestMark ((tileMarks x.w ⟨false, 6, 0, 0, false, 2, 9, 0, 3, 0⟩ (ltLanes x.w x.b.lanes ⟨false, 6, 0, 0, false, 2, 9, 0, 3, 0⟩)).map Prod.snd)).isSome) = true := by
  decide +kernel
/-- ScratchTraps, of a lane and of a uniform access: an address that is not aligned, one outside the allocation, a marked base, a watchpoint. -/
theorem test_meets_scratch_traps : ([Instr.lds (lm 4 8 4), .slds { ub 4 8 0 0 0 with sub := 4 }].all (fun i =>
    accessMeets scratchForm i (oneS 8 2) (fun _ a => a.addrs.any (fun e => e.2 % a.size != 0)) &&
    accessMeets scratchForm i (oneS 8 0x10000) (fun x a => a.addrs.all (fun e => e.2 % a.size == 0) &&
      a.addrs.any (fun e => (scratchPlace x.record (rankOf one x.w) e.2 a.size).isNone)) &&
    accessMeets scratchForm i (oneW (fun w => { w with smarks := [(8, ⟨80, 1⟩)] })) (fun x a =>
      (scratchFault x (rankOf one x.w) a.size a.addrs).isNone && (poisOf x one).isSome) &&
    (let s := modBlock one 0 (fun b => { b with watches := [⟨false, 0, 4, 3⟩, ⟨true, 2, 4, 1⟩] })
     accessMeets scratchForm i s (fun x a => (scratchFault x (rankOf s x.w) a.size a.addrs).isNone && (poisOf x s).isNone && !x.w.trapMode &&
       (x.w.exempt &&& x.b.lanes == 0) && (scratchCells x s a.size a.addrs).any (fun c => watchHits ⟨true, 2, 4, 1⟩ c.2.1 a.size a.rd a.wr) &&
       (scratchCells x s a.size a.addrs).all (fun c => !watchHits ⟨false, 0, 4, 3⟩ c.2.1 a.size a.rd a.wr))))) = true ∧
    meets (.ssts { ub 0 8 4 0 0 with sub := 4 }) one (fun x => (scratchForm x (.ssts { ub 0 8 4 0 0 with sub := 4 })).isSome) = true := by
  decide +kernel
/-- `one` with a leaf that admits nothing for the pages of its addresses, and with a range at 0 that a knot of nobody's guards. -/
def shut : State := modCore one 0 (fun c => { c with tlb := [⟨0, 0, 1, 0⟩] })
def guarded0 : State := modSlice one 0 (fun y => { y with ranges := [⟨0, 4, 0x1000⟩], knots := [⟨0x1000, none, [], false⟩] })
/-- GlobalTraps, of a lane and of a uniform access: an address that is not aligned, one without a page, one without permission, a guarded one,
a marked base. -/
theorem test_meets_global_traps : ([Instr.stg (lm 4 8 4), .sstg { ub 0 8 4 0 0 with sub := 4 }].all (fun i =>
    accessMeets globalForm i (oneS 8 2) (fun _ a => a.addrs.any (fun e => e.2 % a.size != 0)) &&
    accessMeets globalForm i (oneS 9 0x20) (fun x a => a.addrs.all (fun e => e.2 % a.size == 0) && !(walkFaults x (oneS 9 0x20) a cPAGE).isEmpty) &&
    accessMeets globalForm i shut (fun x a => (walkFaults x shut a cPAGE).isEmpty && !(walkFaults x shut a cPERM).isEmpty) &&
    accessMeets globalForm i guarded0 (fun x a => (pageFault guarded0 x a.addrs a.rd a.wr).isNone && a.wr &&
      (globalCells x guarded0 a.addrs a.rd a.wr).any (fun c => tokenMissing guarded0 (clusterIdOf guarded0 x.w) c.2.1 a.size == some 0x1000)) &&
    accessMeets globalForm i (oneW (fun w => { w with smarks := [(8, ⟨80, 1⟩)] })) (fun x a => homeClear x one a.size a.addrs a.rd a.wr &&
      (poisTrap x.w (activeOf x.w x.b.lanes (usesOf x.w i)) (usesOf x.w i).vsrc (usesOf x.w i).ssrc).isSome))) = true := by decide +kernel
/-- ChecksComeFirst: marked sources of a lane operation, in one lane, and of a scalar one. -/
theorem test_meets_pois :
    reaches (longForm .iadd (lb 3 1 2 0)) (oneW (fun w => { w with marks := [(1 * 64 + 5, ⟨80, 1⟩)] })) (fun x =>
      (poisTrap x.w (activeOf x.w x.b.lanes (usesOf x.w x.instr)) (usesOf x.w x.instr).vsrc (usesOf x.w x.instr).ssrc).map (fun t => (t.lanes, t.eaddr)) == some (0x20, 80)) = true ∧
    reaches (uaForm .sadd (ua 1 2)) (oneW (fun w => { w with smarks := [(2, ⟨80, 1⟩)] })) (fun x => (poisOf x one).isSome) = true := by decide +kernel
/-- FetchReadsMemory: a word as it was when the caches were invalidated, and one that has changed since. -/
theorem test_meets_fetch_words : (let s := one
    let t := cacheVa s 0 0 0x100
    (xlate s 0 0 0x100 false false true).toOption.isSome = true ∧ tget (coreOf t 0).icache (icKey 0 0x100) = none ∧ oldWord t 0 0x100 = 0 ∧
    homeByte t 0x100 = 0 ∧ (homeOf t 0x100).isSome = true ∧ homePois t 0x100 = false ∧ permits t (masterOf t 0 0) 0x100 true false = true ∧
    oldWord (modCtx t 0 (fun x => { x with code := [(0x100, 7)] })) 0 0x100 = 7) := by decide +kernel
/-- MatrixEventsComplete: the bytes of a handle's B are read where its pages are mapped. -/
theorem test_meets_handle_bytes : (xlate handled 0 0 0x100 true false false).toOption.isSome = true ∧ bBytes tkey ≠ 0 ∧
    (PlaneWork.accz 0 2).isMma = false := by decide +kernel
/-- HomeEventsComplete: an STNT that its core holds, whose warp has no earlier load. -/
theorem test_meets_held : (let e := { winEnt .nt false with held := true }
    let s := modNet one (fun n => { n with nts := [e] })
    findEnt s 50 = some e ∧ tget s.net.flushes 50 = none ∧ loadBefore s e.warp e.grp = false) := by decide +kernel
/-- QueueEventsComplete: a request at its record's home, whose two grains it may read and write, and a reply that nothing comes before. -/
theorem test_meets_replies : (let r := knotReq .free (some 3) none
    (knotMaster one r).any (fun m => permits one m.1 (routed one 0) true true && permits one m.1 (routed one 32) true true) = true ∧ (homeOf one (routed one 0)).isSome = true ∧
    (let r := { r with reply := some (1, 4) }
     (tget (asked r).net.knots 90).map (·.reply) = some (some (1, 4)) ∧ replyBehind (asked r) r 4 = false)) := by decide +kernel
/-- PlacementEventsComplete: an image that is all written; a saved cluster that a core takes back. -/
theorem test_meets_put_saved : imageAway quiet 0 = false ∧
    (let v := savedOf quiet 0
     (v.blocks.find? (fun e => e.2.rank == 0)).isSome = true ∧ (v.warps.map Prod.fst).Nodup ∧
     (putSaved v { quiet with blocks := [], warps := [], cores := quiet.cores.map (fun c => { c with accOwner := List.replicate 32 none }) } 0 0 0).isSome = true) := by decide +kernel

end Sys2Proof.Tests
end

section
/-! SUPPORT. A permitted access of four bytes to the MMIO range reads or writes its one register (R382), and what that is for the
registers of a debug mailbox (R448). -/

namespace Sys2Proof.Machine

open Sys2Proof

variable {s : State} {m : Master} {off ctx reg v : Nat}

/-- The changed place of a fixed-length list. -/
theorem getD_lmod_same {α : Type} {l : List α} {k : Nat} (h : k < l.length) (f : α → α) (d : α) :
    (lmod l k f).getD k d = f (l.getD k d) := by
  induction l generalizing k with
  | nil => simp at h
  | cons x xs ih =>
    cases k with
    | zero => rfl
    | succ k => exact ih (Nat.lt_of_succ_lt_succ h)

/-- A changed mailbox is the one that is read. -/
theorem dbox_modDebug_same (h : ctx < s.ctxs.length) (f : DebugBox → DebugBox) :
    (ctxOf (modDebug s ctx f) ctx).dbox = f (ctxOf s ctx).dbox :=
  congrArg Ctx.dbox (getD_lmod_same h _ resetCtx)

/-- The host's reply to a read leaves the contexts alone. -/
@[simp] theorem ctxOf_hostReply (s : State) (fn : Nat) (bs : List Byte) (p : Bool) (c : Nat) :
    ctxOf (hostReply s fn bs p) c = ctxOf s c := rfl

/-- Four bytes at a multiple of four are an access that registers take (R382). -/
theorem mmioShape_four (h : off % 4 = 0) : mmioShape off 4 = true := by simp [mmioShape, h]

/-- A permitted write of four bytes outside the enqueue windows writes its register (R382, R384). -/
theorem masterWrite_register (hoff : off < 2 ^ 26) (h : MayWrite s m off) (hal : off % 4 = 0) (hwin : off / 65536 ≠ 3) (v : Nat) :
    masterWrite s m off 4 v = regWrite s m off (BitVec.ofNat 32 v) := by
  obtain ⟨hperm, hready, hfatal⟩ := h
  rw [masterWrite, if_neg (Nat.not_le.mpr hoff)]
  simp [mmioWrite, blockServed, inWindow, mmioShape_four hal, hperm, hready, hfatal, hwin]

/-- A permitted read of four bytes reads its register, with what that clears, and a host function sees the value (R382, R384). -/
theorem masterRead_register (hperm : permits s (midOf s m) (mmioBase + off) true false = true) (hready : s.sec.ready = true)
    (hal : off % 4 = 0) :
    masterRead s m off 4 = if m.cls = 8 then hostReply (regRead s m off).2 m.who (toBytes 4 (regRead s m off).1.toNat) false
      else (regRead s m off).2 := by
  simp [masterRead, mmioRead, blockServed, mmioShape_four hal, hperm, hready]

/-- A register offset of a context's mailbox: its block, the context and the register (R381, R448). -/
theorem debugOffset_fields (hctx : ctx < 64) (hreg : reg < 0x100) :
    let off := 0x10000 + 0x100 * ctx + reg
    off < 2 ^ 26 ∧ off / 65536 = 1 ∧ off % 65536 < 0x4000 ∧ off % 65536 / 256 = ctx ∧ off % 65536 % 256 = reg := by
  intro off
  have hoff : off = 0x10000 + (0x100 * ctx + reg) := Nat.add_assoc ..
  refine ⟨?_, ?_, ?_, ?_, ?_⟩ <;> omega

/-- The register that a master writes in a mailbox it reaches (R447, R448). -/
theorem regWrite_debug (hctx : ctx < 64) (hreg : reg < 0x100) (hreach : debugReach s m ctx = true) (v : Word) :
    regWrite s m (0x10000 + 0x100 * ctx + reg) v = debugWrite s ctx reg v := by
  obtain ⟨-, hblock, hin, hc, hr⟩ := debugOffset_fields hctx hreg
  simp only [regWrite, hblock, hc, hr]
  simp [hin, hreach]

/-- The register that a master reads in a mailbox it reaches (R447, R448). -/
theorem regRead_debug (hctx : ctx < 64) (hreg : reg < 0x100) (hreach : debugReach s m ctx = true) :
    regRead s m (0x10000 + 0x100 * ctx + reg) = debugRead s ctx reg := by
  obtain ⟨-, hblock, hin, hc, hr⟩ := debugOffset_fields hctx hreg
  simp only [regRead, hblock, hc, hr]
  simp [hin, hreach]

/-- A permitted write by a master that reaches the mailbox writes its register (R382, R447, R448). -/
theorem masterWrite_debug (hctx : ctx < 64) (hreg : reg < 0x100) (hal : reg % 4 = 0)
    (h : MayWrite s m (0x10000 + 0x100 * ctx + reg)) (hreach : debugReach s m ctx = true) (v : Nat) :
    masterWrite s m (0x10000 + 0x100 * ctx + reg) 4 v = debugWrite s ctx reg (BitVec.ofNat 32 v) := by
  obtain ⟨hoff, hblock, -⟩ := debugOffset_fields hctx hreg
  rw [masterWrite_register hoff h (by omega) (by omega), regWrite_debug hctx hreg hreach]

/-- DCMD takes its low byte as the command (R448). -/
theorem debugWrite_dcmd {op : Nat} (h : op < 256) : debugWrite s ctx 0 (BitVec.ofNat 32 op) = debugCmd s ctx op := by
  simp [debugWrite, Nat.mod_eq_of_lt h]

/-- DPOST3 is written, and posts, while nothing is posted (R448). -/
theorem debugWrite_dpost3 (v : Word) :
    debugWrite s ctx 0x2C v = modDebug s ctx (fun d => if d.post then d else { d with dposts := lset d.dposts 3 v, post := true }) := by
  simp [debugWrite]

/-- A 1 written to DSTAT.POST clears it, and frees DCLAIM where something was posted (R448). -/
theorem debugWrite_postClear :
    debugWrite s ctx 0x1C 4 = modDebug s ctx (fun d => { d with post := false, free := d.free || d.post }) := by
  simp [debugWrite]

/-- Whoever reads DCLAIM leaves FREE clear (R448). -/
theorem debugRead_dclaim_free (h : ctx < s.ctxs.length) : (ctxOf (debugRead s ctx 0x30).2 ctx).dbox.free = false := by
  simp [debugRead, dbox_modDebug_same h]

/-- No instruction cache holds a line of a context whose code is dropped (R74). -/
theorem icache_dropCode {c : Core} (hc : c ∈ (dropCode s ctx).cores) {e : Nat × Word} (he : e ∈ c.icache) : e.1 / 2 ^ 57 ≠ ctx := by
  simp only [dropCode, List.mem_map] at hc
  obtain ⟨c, -, rfl⟩ := hc
  simpa using (List.mem_filter.mp he).2

/-- Below 115 degrees nothing is done (R468). -/
theorem overheated_below (h : s.power.temp < 115) : overheated s = s := if_pos h

end Sys2Proof.Machine
end

section
/-! PROOF. The debug mailbox, reset and power events happen. -/

namespace Sys2Proof.Machine

open Sys2Proof

variable {s : State} {m : Master} {ctx : Nat}

/-- The events that write a command into DCMD run it (R449 to R452). -/
theorem debugCommand_happens {i : Instr} {op : Nat}
    (hi : (i = .halt m ctx ∧ op = 1) ∨ (i = .resume m ctx ∧ op = 2) ∨ (i = .step m ctx ∧ op = 3) ∨ (i = .watch m ctx ∧ op = 4) ∨
      (i = .icinv m ctx ∧ op = 5))
    (hctx : ctx < 64) (h : MayWrite s m (0x10000 + 0x100 * ctx)) (hreach : debugReach s m ctx = true) :
    Happens i s (debugCmd s ctx op) := by
  have hop : op < 256 := by omega
  have hwrite : masterWrite s m (0x10000 + 0x100 * ctx) 4 op = debugCmd s ctx op := by
    rw [← debugWrite_dcmd hop]
    exact masterWrite_debug (reg := 0) hctx (by decide) rfl h hreach op
  have hexec : exec i s = if 64 ≤ ctx then .next s else .next (masterWrite s m (0x10000 + 0x100 * ctx) 4 op) := by
    rcases hi with ⟨rfl, rfl⟩ | ⟨rfl, rfl⟩ | ⟨rfl, rfl⟩ | ⟨rfl, rfl⟩ | ⟨rfl, rfl⟩ <;> rfl
  rw [Happens, hexec, if_neg (Nat.not_le.mpr hctx), hwrite]

/-- HALT ends when no block it waits for has work under way (R450). -/
theorem haltComplete_happens (hbusy : (ctxOf s ctx).dbox.busy = true) (hcmd : (ctxOf s ctx).dbox.dcmd = 1)
    (hidle : ∀ b ∈ (ctxOf s ctx).dbox.halting, blockBusy s b = false) :
    Happens (.haltComplete ctx) s (modDebug s ctx (fun d => { d with busy := false, halting := [] })) := by
  have hnone : (ctxOf s ctx).dbox.halting.any (blockBusy s) = false := by simpa using hidle
  change execHaltComplete ctx s = _
  simp [execHaltComplete, hbusy, hcmd, hnone]

/-- ICINV ends with the caches empty of the context's lines (R449). -/
theorem icinvComplete_happens (hbusy : (ctxOf s ctx).dbox.busy = true) (hcmd : (ctxOf s ctx).dbox.dcmd = 5) :
    Happens (.icinvComplete ctx) s (modDebug (dropCode s ctx) ctx (fun d => { d with busy := false })) := by
  change execIcinvComplete ctx s = _
  simp [execIcinvComplete, hbusy, hcmd]

/-- DPOST3 is written (R448). -/
theorem dpost3Write_happens (v : Word) (hctx : ctx < 64) (h : MayWrite s m (0x10000 + 0x100 * ctx + 0x2C))
    (hreach : debugReach s m ctx = true) :
    Happens (.dpost3Write m ctx v) s
      (modDebug s ctx (fun d => if d.post then d else { d with dposts := lset d.dposts 3 v, post := true })) := by
  change execDpost3Write m ctx v s = _
  rw [execDpost3Write, if_neg (Nat.not_le.mpr hctx), masterWrite_debug hctx (by decide) rfl h hreach, BitVec.ofNat_toNat,
    BitVec.setWidth_eq, debugWrite_dpost3]

/-- DSTAT.POST is cleared (R448). -/
theorem dstatPostClear_happens (hctx : ctx < 64) (h : MayWrite s m (0x10000 + 0x100 * ctx + 0x1C)) (hreach : debugReach s m ctx = true) :
    Happens (.dstatPostClear m ctx) s (modDebug s ctx (fun d => { d with post := false, free := d.free || d.post })) := by
  change execDstatPostClear m ctx s = _
  rw [execDstatPostClear, if_neg (Nat.not_le.mpr hctx), masterWrite_debug hctx (by decide) rfl h hreach]
  exact congrArg _ debugWrite_postClear

/-- A read of DCLAIM clears FREE, whether or not a host function sees the value (R448). -/
theorem dclaimRead_happens (hctx : ctx < 64) (hthere : ctx < s.ctxs.length)
    (hperm : permits s (midOf s m) (mmioBase + (0x10000 + 0x100 * ctx + 0x30)) true false = true) (hready : s.sec.ready = true)
    (hreach : debugReach s m ctx = true) : ∃ t, Happens (.dclaimRead m ctx) s t ∧ (ctxOf t ctx).dbox.free = false := by
  refine ⟨masterRead s m (0x10000 + 0x100 * ctx + 0x30) 4, if_neg (Nat.not_le.mpr hctx), ?_⟩
  rw [masterRead_register hperm hready (by omega), regRead_debug hctx (by decide) hreach]
  split
  · rw [ctxOf_hostReply, debugRead_dclaim_free hthere]
  · exact debugRead_dclaim_free hthere

/-- A reset that is due, or needs no request, boots the package (R457). -/
theorem deviceReset_happens {source : Nat} (hsource : source < 4) (hdue : 2 ≤ source → s.sec.resetDue = true) :
    Happens (.deviceReset source) s (bootState s true) := by
  have hgo : (4 ≤ source || (2 ≤ source && !s.sec.resetDue)) = false := by
    simpa [hsource] using hdue
  change execDeviceReset source s = _
  simp only [execDeviceReset, hgo, Bool.false_eq_true, if_false]

/-- The power controller picks a step where none is being taken (R468). -/
theorem powerStepSelect_happens (pwr : Nat) {temp : Nat} (hidle : s.power.changing = false) (htemp : temp < 115) :
    let new := max (powerStep s.free s.power pwr) (if 105 ≤ temp then 5 else 0)
    Happens (.powerStepSelect pwr temp) s { s with
      free := s.free + 1, power := { s.power with pwr := pwr, temp := temp, next := new, changing := new != s.power.stp } } := by
  intro new
  change execPowerStepSelect pwr temp s = _
  rw [execPowerStepSelect, hidle, if_neg (by decide)]
  exact congrArg _ (overheated_below htemp)

/-- A permitted write of a register (R13, R382). -/
theorem registerWrite_happens {off : Nat} (v : BitVec 64) (hoff : off < 2 ^ 26) (h : MayWrite s m off) (hal : off % 4 = 0)
    (hwin : off / 65536 ≠ 3) : Happens (.registerWrite m off 4 v) s (regWrite s m off (BitVec.ofNat 32 v.toNat)) :=
  congrArg _ (masterWrite_register hoff h hal hwin v.toNat)

/-- Settles O50: each event passes the guards of its meaning; the accesses to the mailbox and to other registers are those of a
permitted master. -/
theorem debugAndPowerEventsComplete : Obligations.DebugAndPowerEventsComplete := by
  unfold Obligations.DebugAndPowerEventsComplete
  refine ⟨?commands, ?haltComplete, ?icinvComplete, ?icaches, ?dpost3, ?postClear, ?dclaim, ?reset, ?powerLoss, ?powerStep,
    ?clockStep, ?register, ?functions⟩
  case commands => exact fun _ _ _ _ _ => debugCommand_happens
  case haltComplete => exact fun _ _ => haltComplete_happens
  case icinvComplete => exact fun _ _ => icinvComplete_happens
  case icaches => exact fun _ _ _ hc _ he => icache_dropCode hc he
  case dpost3 => exact fun _ _ v _ => dpost3Write_happens v
  case postClear => exact fun _ _ _ => dstatPostClear_happens
  case dclaim => exact fun _ _ _ => dclaimRead_happens
  case reset => exact fun _ _ => deviceReset_happens
  case powerLoss => exact fun _ => rfl
  case powerStep => exact fun pwr _ _ => powerStepSelect_happens pwr
  case clockStep => exact fun _ h => if_pos h
  case register => exact fun _ _ v _ => registerWrite_happens v
  case functions => exact fun _ _ hn => if_neg (Nat.not_lt.mpr hn)

end Sys2Proof.Machine
end

section
/-! SUPPORT. What stands before an instruction (R43, R75, R85): each check of `prologue`, in its order, and how every instruction of a
warp goes through `issue`. -/

namespace Sys2Proof.Machine

open Sys2Proof

variable {s : State} {x : Issue} {i : Instr} {v : Verdict} {win : Nat} {u : Uses}

/-- No register lies at or beyond the window (R23). -/
theorem regwOf_eq_none_iff : regwOf win u = none ↔ ∀ r ∈ u.vdst ++ u.vsrc, r.1 + r.2 ≤ win := by
  simp only [regwOf, Option.map_eq_none_iff, List.find?_eq_none, decide_eq_true_eq, Nat.not_lt]

/-- The register that REGW names lies at or beyond the window (R23). -/
theorem win_le_of_regwOf {n : Nat} (h : regwOf win u = some n) : win ≤ n := by
  obtain ⟨r, hfind, rfl⟩ := Option.map_eq_some_iff.mp h
  have hpast : win < r.1 + r.2 := by simpa using List.find?_some hfind
  split <;> omega

/-- PRIV names nothing in trap mode, and nothing for a form that is not privileged. -/
theorem noPrivilege (h : x.w.trapMode = true ∨ privOf x.instr = none) :
    (if x.w.trapMode = true then none else privOf x.instr) = none := by
  rcases h with h | h <;> simp [h]

/-- Fields that no row or no warp like this admits. -/
theorem prologue_badFields (h : x.instr.wf = false ∨ warpOk x.w x.instr = false) :
    prologue s x = some (.trap (trapOf cILL x.b.lanes (word0 x.instr).toNat)) := by
  rcases h with h | h <;> simp [prologue, h]

section Fields

variable (hwf : x.instr.wf = true) (hok : warpOk x.w x.instr = true)

include hwf hok

/-- A register that awaits a load. -/
theorem prologue_waits (hload : waitsForLoad s x.wid (usesOf x.w x.instr) = true) : prologue s x = some .stall := by
  simp [prologue, hwf, hok, hload]

variable (hload : waitsForLoad s x.wid (usesOf x.w x.instr) = false)

include hload

/-- Register values that the row does not allow. -/
theorem prologue_badValues (hval : valuesOk x.w x.instr = false) :
    prologue s x = some (.trap (trapOf cILL x.b.lanes (word0 x.instr).toNat)) := by
  simp [prologue, hwf, hok, hload, hval]

variable (hval : valuesOk x.w x.instr = true)

include hval

/-- A privileged form outside trap mode. -/
theorem prologue_privileged {n : Nat} (htrap : x.w.trapMode = false) (hpriv : privOf x.instr = some n) :
    prologue s x = some (.trap (trapOf cPRIV x.b.lanes n)) := by
  simp [prologue, hwf, hok, hload, hval, htrap, hpriv]

variable (hpriv : x.w.trapMode = true ∨ privOf x.instr = none)

include hpriv

/-- A barred role. -/
theorem prologue_barred (hrole : roleBars x.w.role x.instr = true) :
    prologue s x = some (.trap (trapOf cROLE x.b.lanes x.w.role)) := by
  simp [prologue, hwf, hok, hload, hval, noPrivilege hpriv, hrole]

variable (hrole : roleBars x.w.role x.instr = false)

include hrole

/-- A grid barrier without a cooperative launch. -/
theorem prologue_notCooperative (hbar : ∃ f, x.instr = .gridbar f) (hcoop : recCoop x.record = false) :
    prologue s x = some (.trap (trapOf cGRIDB x.b.lanes 0)) := by
  have hnone := noPrivilege hpriv
  obtain ⟨f, hf⟩ := hbar
  rw [hf] at hwf hok hload hval hnone hrole
  simp [prologue, hf, hwf, hok, hload, hval, hnone, hrole, hcoop]

/-- What is left behind the other checks: the window, then the dependences. -/
theorem prologue_admitted (hgrid : (∃ f, x.instr = .gridbar f) → recCoop x.record = true) :
    prologue s x = (regwOf x.w.win (usesOf x.w x.instr)).elim (if stalls s x = true then some .stall else none)
      (fun n => some (.trap (trapOf cREGW x.b.lanes n))) := by
  simp only [prologue, hwf, hok, hload, hval, noPrivilege hpriv, hrole, Bool.not_true, Bool.or_self, Bool.false_eq_true, if_false]
  rw [if_neg ?coop]
  case coop =>
    split
    next f hf => simp [hgrid ⟨f, hf⟩]
    next => simp
  cases regwOf x.w.win (usesOf x.w x.instr) <;> rfl

end Fields

/-- Nothing stands before an instruction exactly where every check passes. -/
theorem prologue_eq_none_iff : prologue s x = none ↔
    (x.instr.wf = true ∧ warpOk x.w x.instr = true ∧ (x.w.trapMode = true ∨ privOf x.instr = none) ∧
      roleBars x.w.role x.instr = false ∧ ((∃ f, x.instr = .gridbar f) → recCoop x.record = true) ∧
      waitsForLoad s x.wid (usesOf x.w x.instr) = false ∧ valuesOk x.w x.instr = true ∧
      (∀ r ∈ (usesOf x.w x.instr).vdst ++ (usesOf x.w x.instr).vsrc, r.1 + r.2 ≤ x.w.win) ∧ stalls s x = false) := by
  constructor
  · intro h
    have fails {v : Verdict} (hv : prologue s x = some v) : False := by simp [hv] at h
    have hfields : x.instr.wf = true ∧ warpOk x.w x.instr = true := by
      by_contra hc
      exact fails (prologue_badFields (by grind))
    obtain ⟨hwf, hok⟩ := hfields
    have hload := Bool.eq_false_iff.mpr fun hc => fails (prologue_waits hwf hok hc)
    have hval := (Bool.eq_false_or_eq_true _).resolve_right fun hc => fails (prologue_badValues hwf hok hload hc)
    have hpriv : x.w.trapMode = true ∨ privOf x.instr = none := by
      cases hp : privOf x.instr with
      | none => exact .inr rfl
      | some n =>
        exact .inl ((Bool.eq_false_or_eq_true _).resolve_right fun hc => fails (prologue_privileged hwf hok hload hval hc hp))
    have hrole := Bool.eq_false_iff.mpr fun hc => fails (prologue_barred hwf hok hload hval hpriv hc)
    have hgrid (hbar : ∃ f, x.instr = .gridbar f) : recCoop x.record = true :=
      (Bool.eq_false_or_eq_true _).resolve_right fun hc => fails (prologue_notCooperative hwf hok hload hval hpriv hrole hbar hc)
    rw [prologue_admitted hwf hok hload hval hpriv hrole hgrid] at h
    cases hwin : regwOf x.w.win (usesOf x.w x.instr) with
    | some n => simp [hwin] at h
    | none => exact ⟨hwf, hok, hpriv, hrole, hgrid, hload, hval, regwOf_eq_none_iff.mp hwin, by simpa [hwin] using h⟩
  · rintro ⟨hwf, hok, hpriv, hrole, hgrid, hload, hval, hwin, hstall⟩
    rw [prologue_admitted hwf hok hload hval hpriv hrole hgrid, regwOf_eq_none_iff.mpr hwin, Option.elim_none, hstall]
    rfl

/-- Every instruction of a warp, which an event is not, goes through its issue. -/
theorem exec_eq_issue (h : encode i ≠ []) : ∃ body, ∀ s, exec i s = issue i s body := by
  cases i
  any_goals exact absurd rfl h
  all_goals exact ⟨_, fun _ => rfl⟩

/-- What stands before an instruction is carried out in its place (R43, R75). -/
theorem does_of_prologue (h : encode i ≠ []) (hx : issuerOf s i = some x) (hp : prologue s x = some v) : Does i s x v s := by
  obtain ⟨body, hbody⟩ := exec_eq_issue h
  rw [Does, hbody, issue_stopped hx hp]

end Sys2Proof.Machine
end

section
/-! PROOF. When an instruction issues. -/

namespace Sys2Proof.Machine

/-- Settles O11: `prologue` passes exactly where each of its checks does. -/
theorem issueConditions : Obligations.IssueConditions := by
  unfold Obligations.IssueConditions
  exact fun _ _ => prologue_eq_none_iff

end Sys2Proof.Machine
end

section
/-! SUPPORT. Marked sources (R157): the marks an instruction looks at, which of them POIS reports and in which lanes, and the
instructions that look at them before anything of their own. -/

namespace Sys2Proof.Machine

open Sys2Proof

variable {w : Warp} {act : Mask} {vs ss : List (Nat × Nat)} {l : Nat} {m : Mark} {t : Trap}

/-- A lane is in the mask of one lane where it is that one. -/
theorem inMask_laneBit {k : Nat} : inMask (laneBit k) l = true ↔ l = k ∧ l < 64 := by
  simp only [inMask, laneBit, BitVec.getLsbD_ofNat, Nat.testBit_two_pow, Bool.and_eq_true, decide_eq_true_eq]
  rw [and_comm, eq_comm]

/-- The lanes of a mask made of a list. -/
theorem inMask_maskOf {ls : List Nat} : inMask (maskOf ls) l = true ↔ l ∈ ls ∧ l < 64 := by
  induction ls using List.reverseRecOn with
  | nil => simp [maskOf, inMask]
  | append_singleton ls k ih =>
    have hmask : maskOf (ls ++ [k]) = maskOf ls ||| laneBit k := by simp [maskOf]
    have hor : inMask (maskOf (ls ++ [k])) l = true ↔ inMask (maskOf ls) l = true ∨ inMask (laneBit k) l = true := by
      simp [hmask, inMask]
    rw [hor, ih, inMask_laneBit, List.mem_append, List.mem_singleton, or_and_right]

/-- The lanes of a mask, as a list. -/
theorem mem_lanesOf : l ∈ lanesOf act ↔ inMask act l = true := by
  simp only [lanesOf, List.mem_filter, List.mem_range]
  exact and_iff_right_of_imp BitVec.lt_of_getLsbD

/-- The empty mask has no lanes. -/
@[simp] theorem lanesOf_zero : lanesOf 0#64 = [] := by
  simp [List.eq_nil_iff_forall_not_mem, mem_lanesOf, inMask]

/-- The marks of the scalar registers that an instruction reads. -/
def scalarMarks (w : Warp) (ss : List (Nat × Nat)) : List Mark := ss.flatMap (smarksIn w)

/-- The marks of the vector registers that an instruction reads in a lane. -/
def laneMarks (w : Warp) (vs : List (Nat × Nat)) (l : Nat) : List Mark := vs.flatMap (marksIn w l)

theorem mem_scalarMarks : m ∈ scalarMarks w ss ↔ ∃ r ∈ ss, ∃ k, k < r.2 ∧ tget w.smarks (r.1 + k) = some m := by
  simp [scalarMarks, smarksIn]

theorem mem_laneMarks : m ∈ laneMarks w vs l ↔ ∃ r ∈ vs, ∃ k, k < r.2 ∧ tget w.marks ((r.1 + k) * 64 + l) = some m := by
  simp [laneMarks, marksIn]

/-- One more mark takes the place of the oldest where it is older still. -/
theorem oldestMark_append_singleton (ms : List Mark) (m : Mark) :
    oldestMark (ms ++ [m]) = some ((oldestMark ms).elim m (fun a => if m.age < a.age then m else a)) := by
  simp only [oldestMark, List.foldl_append, List.foldl_cons, List.foldl_nil]
  split <;> simp_all

/-- Only no marks have no oldest one. -/
theorem oldestMark_eq_none {ms : List Mark} (h : oldestMark ms = none) : ms = [] := by
  cases ms using List.reverseRecOn with
  | nil => rfl
  | append_singleton ms m => simp [oldestMark_append_singleton] at h

/-- The oldest of some marks is one of them, and none is older. -/
theorem oldestMark_spec {ms : List Mark} (h : oldestMark ms = some m) : m ∈ ms ∧ ∀ a ∈ ms, m.age ≤ a.age := by
  induction ms using List.reverseRecOn generalizing m with
  | nil => cases h
  | append_singleton ms b ih =>
    rw [oldestMark_append_singleton, Option.some_inj] at h
    cases hms : oldestMark ms with
    | none =>
      obtain rfl : b = m := by simpa [hms] using h
      simp [oldestMark_eq_none hms]
    | some a =>
      obtain ⟨hmem, hle⟩ := ih hms
      rw [hms, Option.elim_some] at h
      simp only [List.mem_append, List.mem_singleton]
      split at h
      next hlt =>
        subst h
        exact ⟨.inr rfl, by rintro c (hc | rfl) <;> grind⟩
      next hge =>
        subst h
        exact ⟨.inl hmem, by rintro c (hc | rfl) <;> grind⟩

/-- POIS needs an active lane, and reports the oldest mark that the instruction looks at: in every active lane where a scalar register
is marked, else in those that read a marked one. -/
theorem poisTrap_eq_some (h : poisTrap w act vs ss = some t) :
    act ≠ 0 ∧ ∃ m, oldestMark (scalarMarks w ss ++ (lanesOf act).flatMap (laneMarks w vs)) = some m ∧
      t = ⟨cPOIS, if (scalarMarks w ss).isEmpty then maskOf ((lanesOf act).filter (fun l => !(laneMarks w vs l).isEmpty)) else act,
        m.addr, 0, false, false⟩ := by
  have hact : act ≠ 0 := by
    rintro rfl
    simp [poisTrap, oldestMark] at h
  refine ⟨hact, ?_⟩
  simp only [poisTrap, hact, if_false, Option.map_eq_some_iff] at h
  obtain ⟨m, hm, rfl⟩ := h
  rw [List.flatMap_map] at hm
  simp only [List.filter_map, List.map_map, Function.comp_def, List.map_id']
  exact ⟨m, hm, rfl⟩

/-- The lanes of POIS: the active ones that read a marked register, scalar or of their own. -/
theorem inMask_poisTrap (h : poisTrap w act vs ss = some t) :
    inMask t.lanes l = true ↔ inMask act l = true ∧ ((∃ m, m ∈ scalarMarks w ss) ∨ ∃ m, m ∈ laneMarks w vs l) := by
  obtain ⟨-, m, -, rfl⟩ := poisTrap_eq_some h
  cases hs : scalarMarks w ss with
  | nil =>
    simp only [List.isEmpty_nil, if_true, inMask_maskOf, List.mem_filter, mem_lanesOf, Bool.not_eq_true',
      List.isEmpty_eq_false_iff_exists_mem, List.not_mem_nil, exists_false, false_or]
    exact and_iff_left_of_imp fun h => BitVec.lt_of_getLsbD h.1
  | cons a as => simp

/-- The address of POIS is that of the earliest access that set a mark which some active lane reads. -/
theorem poisTrap_earliest (h : poisTrap w act vs ss = some t) :
    ∃ m, (m ∈ scalarMarks w ss ∨ ∃ l, inMask act l = true ∧ m ∈ laneMarks w vs l) ∧ t.eaddr = m.addr ∧
      ∀ a, (a ∈ scalarMarks w ss ∨ ∃ l, inMask act l = true ∧ a ∈ laneMarks w vs l) → m.age ≤ a.age := by
  obtain ⟨-, m, hm, rfl⟩ := poisTrap_eq_some h
  obtain ⟨hmem, hle⟩ := oldestMark_spec hm
  have hread (a : Mark) : a ∈ scalarMarks w ss ++ (lanesOf act).flatMap (laneMarks w vs) ↔
      a ∈ scalarMarks w ss ∨ ∃ l, inMask act l = true ∧ a ∈ laneMarks w vs l := by simp [mem_lanesOf]
  exact ⟨m, (hread m).mp hmem, rfl, fun a ha => hle a ((hread a).mpr ha)⟩

variable {s : State} {x : Issue} {i : Instr} {op : AluOp} {sop : ScalOp}

/-- An instruction whose sources are looked at takes POIS of a marked one, and its marks are cleared. -/
theorem poisOf_of_poisTrap {u : Uses} (hu : usesOf x.w x.instr = u) (htests : u.tests = true)
    (h : poisTrap x.w (activeOf x.w x.b.lanes u) u.vsrc u.ssrc = some t) :
    poisOf x s = some (.trap t, modWarp s x.wid (fun w => clearMarks w (activeOf x.w x.b.lanes u) u.vsrc u.ssrc)) := by
  simp [poisOf, poisUses, hu, htests, h]

/-- An instruction that looks at its sources before anything else takes POIS where nothing before it fails. -/
theorem poisTraps_of_issueOp (hop : ∃ body, ∀ s, exec i s = issueOp i s body) (htests : (usesOf x.w i).tests = true)
    (hx : Reaches i s x) : PoisTraps i s x s := by
  obtain ⟨body, hop⟩ := hop
  obtain ⟨hissuer, hp⟩ := hx
  intro t ht
  rw [Does, hop, issueOp, issue_of hissuer hp, poisOf_of_poisTrap (by rw [issuerOf_instr hissuer]) htests ht]

/-- The long form of a lane operation is its operation in the lanes of its guard. -/
theorem exec_longForm (op : AluOp) (f : LB) (s : State) : exec (longForm op f) s = laneLb op (longForm op f) f s := by
  cases op <;> rfl

theorem usesOf_longForm (w : Warp) (op : AluOp) (f : LB) : usesOf w (longForm op f) = aluUses op f := by
  cases op <;> rfl

/-- The short form of a lane operation is its operation in every live issuing lane. -/
theorem exec_shortForm {f : LA} (h : shortForm op f = some i) (s : State) : exec i s = laneLa op i f s := by
  cases op <;> cases h <;> rfl

theorem usesOf_shortForm {f : LA} (h : shortForm op f = some i) (w : Warp) : usesOf w i = laUses op f := by
  cases op <;> cases h <;> rfl

/-- The three forms of a scalar operation. -/
theorem exec_uaForm (op : ScalOp) (f : UA) (s : State) : exec (uaForm op f) s = scalUa op (uaForm op f) f s := by
  cases op <;> rfl
theorem exec_ubForm (op : ScalOp) (f : UB) (s : State) : exec (ubForm op f) s = scalUb op (ubForm op f) f s := by
  cases op <;> rfl
theorem exec_uiForm (op : ScalOp) (f : UI) (s : State) : exec (uiForm op f) s = scalUi op (uiForm op f) f s := by
  cases op <;> rfl

theorem usesOf_uaForm (w : Warp) (op : ScalOp) (f : UA) : usesOf w (uaForm op f) = scalUaUses op f := by
  cases op <;> rfl
theorem usesOf_ubForm (w : Warp) (op : ScalOp) (f : UB) : usesOf w (ubForm op f) = scalUbUses op f := by
  cases op <;> rfl
theorem usesOf_uiForm (w : Warp) (op : ScalOp) (f : UI) : usesOf w (uiForm op f) = scalUiUses op f := by
  cases op <;> rfl

end Sys2Proof.Machine
end

section
/-! PROOF. What fails before an instruction raises its cause alone. -/

namespace Sys2Proof.Machine

open Sys2Proof

/-- POIS of the lane and scalar operations (R157): each looks at its sources before anything else. -/
theorem poisTraps_of_form {i : Instr} {s : State} {x : Issue}
    (hi : (∃ op f, i = longForm op f) ∨ (∃ op f, shortForm op f = some i) ∨ (∃ op f, i = uaForm op f) ∨
      (∃ op f, i = ubForm op f) ∨ (∃ op f, i = uiForm op f)) (hx : Reaches i s x) : PoisTraps i s x s := by
  obtain ⟨op, f, rfl⟩ | ⟨op, f, hf⟩ | ⟨op, f, rfl⟩ | ⟨op, f, rfl⟩ | ⟨op, f, rfl⟩ := hi
  · exact poisTraps_of_issueOp ⟨_, exec_longForm op f⟩ (by rw [usesOf_longForm]; rfl) hx
  · exact poisTraps_of_issueOp ⟨_, exec_shortForm hf⟩ (by rw [usesOf_shortForm hf]; rfl) hx
  · exact poisTraps_of_issueOp ⟨_, exec_uaForm op f⟩ (by rw [usesOf_uaForm]; rfl) hx
  · exact poisTraps_of_issueOp ⟨_, exec_ubForm op f⟩ (by rw [usesOf_ubForm]; rfl) hx
  · exact poisTraps_of_issueOp ⟨_, exec_uiForm op f⟩ (by rw [usesOf_uiForm]; rfl) hx

/-- Settles O51: the checks of `prologue` in their order, each carried out in the instruction's place; the lane and scalar operations
look at their sources first, and POIS reports the oldest of the marks. -/
theorem checksComeFirst : Obligations.ChecksComeFirst := by
  unfold Obligations.ChecksComeFirst
  refine ⟨fun _ _ _ => poisTraps_of_form, ?pois, ?checks⟩
  case pois =>
    intro w act vs ss t ht marked smarked
    have hcode : t.code = 0x07 ∧ t.etval = 0 := by
      obtain ⟨-, _, -, rfl⟩ := poisTrap_eq_some ht
      exact ⟨rfl, rfl⟩
    refine ⟨hcode.1, hcode.2, ?lanes, ?earliest⟩
    case lanes =>
      intro l _
      simpa only [mem_scalarMarks, mem_laneMarks] using inMask_poisTrap ht
    case earliest =>
      obtain ⟨m, hm, haddr, hle⟩ := poisTrap_earliest ht
      simp only [mem_scalarMarks, mem_laneMarks] at hm hle
      exact ⟨m, hm, haddr, fun a ha => hle a (ha.imp_right fun ⟨l, _, h⟩ => ⟨l, h⟩)⟩
  case checks =>
    intro i s x hi hx
    obtain rfl := issuerOf_instr hx
    refine ⟨fun h => does_of_prologue hi hx (prologue_badFields h),
      fun hwf hok h => does_of_prologue hi hx (prologue_waits hwf hok h),
      fun hwf hok hload h => does_of_prologue hi hx (prologue_badValues hwf hok hload h),
      fun hwf hok hload hval => ⟨fun v htrap h => does_of_prologue hi hx (prologue_privileged hwf hok hload hval htrap h),
        fun hpriv => ⟨fun h => does_of_prologue hi hx (prologue_barred hwf hok hload hval hpriv h),
          fun hrole hbar h => does_of_prologue hi hx (prologue_notCooperative hwf hok hload hval hpriv hrole hbar h),
          fun hrole hgrid => ?admitted⟩⟩⟩
    have hp := prologue_admitted hwf hok hload hval hpriv hrole hgrid
    refine ⟨fun r hr => ⟨win_le_of_regwOf hr, does_of_prologue hi hx (by rw [hp, hr]; rfl)⟩, fun hr hstall => ?_⟩
    exact does_of_prologue hi hx (by rw [hp, hr, Option.elim_none, if_pos hstall])

end Sys2Proof.Machine
end

section
/-! SUPPORT. A changed warp among the others, and the warp that enters its handler (R398). -/

namespace Sys2Proof.Machine

open Sys2Proof

variable {α : Type} {s : State} {wid grant : Nat} {w : Warp} {pc : VAddr} {t : Trap}

/-- The entry that is changed. -/
theorem tget_tmod_same {m : Tbl α} {k : Nat} {a : α} (h : tget m k = some a) (f : α → α) : tget (tmod m k f) k = some (f a) := by
  simp [tmod, h]

/-- A change leaves every other entry alone. -/
theorem tget_tmod_other {m : Tbl α} {k j : Nat} (h : j ≠ k) (f : α → α) : tget (tmod m k f) j = tget m j := by
  unfold tmod
  split
  · rfl
  · exact tget_tput_other m h _

/-- A change of one warp keeps every other. -/
theorem keepsWarps_modWarp (s : State) (wid : Nat) (f : Warp → Warp) : KeepsWarps s (modWarp s wid f) wid :=
  fun _ hk => tget_tmod_other hk f

/-- The warp in its handler (R398): what it held, its current and its deferred lanes but for the trapping ones are held, and these form
its one sub-braid at the handler. -/
theorem enterHandler_eq (h : t.lanes ≠ 0) (w : Warp) (handler : VAddr) (grant clock : Nat) :
    enterHandler w t handler grant clock =
      { holdAll (takeOut w t.lanes) with
        trapMode := true
        braids := [⟨w.nextId, t.lanes, handler, grant, clock, 0⟩]
        nextId := w.nextId + 1 } := by
  simpa [enterHandler, addBraid, addAsleep, holdAll, takeOut] using h

/-- The lanes of a sub-braid that do not trap are held, each at its PC (R398). -/
theorem held_holdAll_takeOut {g : SubBraid} {m : Mask} (hg : g ∈ w.braids) (hrest : g.lanes &&& ~~~m ≠ 0) :
    ∃ k ∈ (holdAll (takeOut w m)).held, k.lanes = g.lanes &&& ~~~m ∧ k.pc = g.pc := by
  refine ⟨⟨g.lanes &&& ~~~m, g.pc, g.lastGrant, g.wake⟩, ?_, rfl, rfl⟩
  have hstays : { g with lanes := g.lanes &&& ~~~m } ∈ (takeOut w m).braids :=
    List.mem_filter.mpr ⟨List.mem_map_of_mem hg, by simpa using hrest⟩
  exact List.mem_append_left _ (List.mem_append_right _ (List.mem_map_of_mem hstays))

/-- A cause outside trap mode in a context with a handler (R398). -/
theorem takeTrap_handler (hw : tget s.warps wid = some w) (htrap : w.trapMode = false)
    (hhandler : bit (ctxOf s (ctxOfWarp s w)).tveclo.toNat 0 = true) :
    takeTrap s wid pc grant t = modWarp (modWarp s wid (fun w => writeTrapRegs w pc t)) wid
      (fun w' => enterHandler w' t (handlerOf (ctxOf s (ctxOfWarp s w))) grant s.clock) := by
  have hsame : ctxOf (modWarp s wid (fun w => writeTrapRegs w pc t)) (ctxOfWarp s w) = ctxOf s (ctxOfWarp s w) := rfl
  simp [takeTrap, hw, htrap, hsame, hhandler]

end Sys2Proof.Machine
end

section
/-! PROOF. Trap entry. -/

namespace Sys2Proof.Machine

open Sys2Proof

/-- Settles O52: the trap registers are written and the handler entered in the one warp. -/
theorem trapEntry : Obligations.TrapEntry := by
  unfold Obligations.TrapEntry
  intro s wid w pc grant t hw htrap hlanes hhandler
  rw [takeTrap_handler hw htrap hhandler]
  refine ⟨?warp, ?others, rfl⟩
  case warp =>
    have hentered := tget_tmod_same (tget_tmod_same hw (fun w => writeTrapRegs w pc t))
      (fun w' => enterHandler w' t (handlerOf (ctxOf s (ctxOfWarp s w))) grant s.clock)
    rw [enterHandler_eq hlanes] at hentered
    exact ⟨_, _, hentered, rfl, rfl, rfl, rfl, rfl, rfl, rfl, rfl, rfl, rfl, fun _ => held_holdAll_takeOut,
      rfl, rfl, rfl, rfl, rfl, rfl, rfl, rfl, rfl⟩
  case others =>
    intro k hk
    rw [keepsWarps_modWarp _ wid _ k hk, keepsWarps_modWarp s wid _ k hk]

end Sys2Proof.Machine
end

section
/-! SUPPORT. Scratch accesses of a warp: their checks in the order of R43 (ALIGN, SCRB, POIS, WATCH), and a load from the warp's own
scratch whose lines are present. -/

namespace Sys2Proof.Machine

open Sys2Proof

variable {s : State} {x : Issue} {i : Instr} {rank size : Nat} {addrs : List (Nat × Nat)} {rd wr uni : Bool}
  {go : List (Nat × Nat × Nat) → Verdict × State}

/-- The lanes of an access whose addresses are not multiples of its size (R153). -/
def misaligned (size : Nat) (addrs : List (Nat × Nat)) : List (Nat × Nat) := addrs.filter (fun e => e.2 % size != 0)

/-- The lanes of an access whose addresses name no place of scratch (R154, R261). -/
def outside (x : Issue) (rank size : Nat) (addrs : List (Nat × Nat)) : List (Nat × Nat) :=
  addrs.filter (fun e => (scratchPlace x.record rank e.2 size).isNone)

/-- ALIGN before SCRB (R43). -/
theorem scratchFault_misaligned {e : Nat × Nat} {es : List (Nat × Nat)} (h : misaligned size addrs = e :: es) :
    scratchFault x rank size addrs = some ⟨cALIGN, maskOf ((misaligned size addrs).map Prod.fst), e.2, size, false, false⟩ := by
  unfold misaligned at h ⊢
  simp [scratchFault, h]

/-- SCRB where no address is misaligned. -/
theorem scratchFault_outside {e : Nat × Nat} {es : List (Nat × Nat)} (hmis : misaligned size addrs = [])
    (h : outside x rank size addrs = e :: es) :
    scratchFault x rank size addrs =
      some ⟨cSCRB, maskOf ((outside x rank size addrs).map Prod.fst), e.2, recScrg x.record, false, false⟩ := by
  unfold misaligned at hmis
  unfold outside at h ⊢
  simp [scratchFault, hmis, h]

/-- Neither ALIGN nor SCRB. -/
theorem scratchFault_eq_none_iff :
    scratchFault x rank size addrs = none ↔ misaligned size addrs = [] ∧ outside x rank size addrs = [] := by
  constructor
  · intro h
    cases hmis : misaligned size addrs with
    | cons e es => simp [scratchFault_misaligned hmis] at h
    | nil =>
      cases hout : outside x rank size addrs with
      | cons e es => simp [scratchFault_outside hmis hout] at h
      | nil => exact ⟨rfl, rfl⟩
  · rintro ⟨hmis, hout⟩
    unfold misaligned at hmis
    unfold outside at hout
    simp [scratchFault, hmis, hout]

/-- Where every address names a place, an access of some lane reaches one. -/
theorem scratchCells_ne_nil (hfault : scratchFault x (rankOf s x.w) size addrs = none) (h : addrs ≠ []) :
    scratchCells x s size addrs ≠ [] := by
  obtain ⟨e, es, rfl⟩ := List.exists_cons_of_ne_nil h
  have hout := (scratchFault_eq_none_iff.mp hfault).2
  have hplace : (scratchPlace x.record (rankOf s x.w) e.2 size).isSome = true := by
    simpa [Option.isSome_iff_ne_none] using (List.filter_eq_nil_iff.mp hout) e List.mem_cons_self
  obtain ⟨p, hp⟩ := Option.isSome_iff_exists.mp hplace
  simp [scratchCells, hp]

/-- WATCH (R452): the lowest watchpoint that some lane's bytes overlap, in the lanes that overlap one. -/
theorem watchTrap_eq_some {b : Block} {cells es : List (Nat × Nat × Nat)} {e : Nat × Nat × Nat} {k : Nat} {v : Watch}
    (hblock : blockOf s x.w = some b) (htrap : x.w.trapMode = false) (hexempt : x.w.exempt &&& x.b.lanes = 0)
    (hhits : cells.filter (fun c => b.watches.any (fun v => watchHits v c.2.1 size rd wr)) = e :: es)
    (hk : b.watches[k]? = some v) (hv : ∃ c ∈ cells, watchHits v c.2.1 size rd wr = true)
    (hlow : ∀ j u, j < k → b.watches[j]? = some u → ∀ c ∈ cells, watchHits u c.2.1 size rd wr = false) :
    watchTrap s x size cells rd wr = some ⟨cWATCH,
      maskOf ((cells.filter (fun c => b.watches.any (fun v => watchHits v c.2.1 size rd wr))).map Prod.fst), e.2.2, k, false, false⟩ := by
  obtain ⟨c, hc, hhit⟩ := hv
  have hmem : c ∈ e :: es := by
    rw [← hhits]
    exact List.mem_filter.mpr ⟨hc, List.any_eq_true.mpr ⟨v, List.mem_of_getElem? hk, hhit⟩⟩
  have hcells : ∀ a ∈ e :: es, a ∈ cells := fun a ha => List.mem_of_mem_filter (hhits ▸ ha)
  simp only [watchTrap, hexempt, htrap, hblock, Option.map_some, Option.getD_some, hhits, bne_self_eq_false, Bool.or_self,
    Bool.false_eq_true, if_false, Option.some_inj, Trap.mk.injEq, true_and, and_true]
  rw [(List.find?_range_eq_some (i := k)).mpr ?lowest, Option.getD_some]
  case lowest =>
    refine ⟨List.any_eq_true.mpr ⟨c, hmem, by rw [hk]; exact hhit⟩, List.mem_range.mpr (List.getElem?_eq_some_iff.mp hk).1, ?_⟩
    intro j hj
    have hu := List.getElem?_eq_getElem (hj.trans (List.getElem?_eq_some_iff.mp hk).1)
    rw [Bool.not_eq_true', List.any_eq_false]
    intro a ha
    simp [hu, hlow j _ hj hu a (hcells a ha)]

/-- A scratch access that a fault stands before. -/
theorem scratchAccess_fault {t : Trap} (h : scratchFault x (rankOf s x.w) size addrs = some t) :
    scratchAccess x s uni size addrs rd wr go = (.trap (if uni then uniformLanes x t else t), s) := by
  simp [scratchAccess, h]

/-- A scratch access that a marked source stands before. -/
theorem scratchAccess_pois {r : Verdict × State} (hfault : scratchFault x (rankOf s x.w) size addrs = none)
    (h : poisOf x s = some r) : scratchAccess x s uni size addrs rd wr go = r := by
  simp [scratchAccess, hfault, h]

/-- A scratch access that a watchpoint stands before. -/
theorem scratchAccess_watch {t : Trap} (hfault : scratchFault x (rankOf s x.w) size addrs = none) (hpois : poisOf x s = none)
    (h : watchTrap s x size (scratchCells x s size addrs) rd wr = some t) :
    scratchAccess x s uni size addrs rd wr go = (.trap (if uni then uniformLanes x t else t), s) := by
  unfold scratchCells at h
  simp [scratchAccess, hfault, hpois, h]

/-- A scratch access that passes its checks; without an active lane it goes on. -/
theorem scratchAccess_clear (h : ScratchClear x s size addrs rd wr) (hpois : poisOf x s = none) :
    scratchAccess x s uni size addrs rd wr go =
      if scratchCells x s size addrs = [] then (.advance, s) else go (scratchCells x s size addrs) := by
  obtain ⟨hfault, hwatch⟩ := h
  unfold scratchCells at hwatch ⊢
  simp only [scratchAccess, hfault, hpois, hwatch]
  exact if_congr List.isEmpty_iff rfl rfl

/-- The lanes that a fault of an access names: the faulting ones, every issuing one for a uniform access (R158). -/
theorem named_trap (a : Access) (x : Issue) (ls : List Nat) (code eaddr etval : Nat) :
    (if a.uni then uniformLanes x ⟨code, maskOf ls, eaddr, etval, false, false⟩
      else ⟨code, maskOf ls, eaddr, etval, false, false⟩) =
      (⟨code, a.named x ls, eaddr, etval, false, false⟩ : Trap) := by
  unfold Access.named uniformLanes
  split <;> rfl

/-- An instruction that is a scratch access, and whose sources are looked at, traps where the rules say. -/
theorem scratchTraps_of_access (htests : ∀ w, (usesOf w i).tests = true)
    (hexec : ∀ s x a, Reaches i s x → scratchForm x i = some a →
      ∃ go, exec i s = .next (finish x (scratchAccess x s a.uni a.size a.addrs a.rd a.wr go))) : ScratchTraps i := by
  intro s x a hx ha
  obtain ⟨go, hgo⟩ := hexec s x a hx ha
  have does {v : Verdict} {t : State} (h : scratchAccess x s a.uni a.size a.addrs a.rd a.wr go = (v, t)) : Does i s x v t := by
    rw [Does, hgo, h]
  refine ⟨fun e es hmis => ?align, fun e es hmis hout => ?scrb, fun hmis hout => ?pois, ?watch⟩
  case align => exact does ((scratchAccess_fault (scratchFault_misaligned hmis)).trans (by rw [named_trap]; rfl))
  case scrb => exact does ((scratchAccess_fault (scratchFault_outside hmis hout)).trans (by rw [named_trap]; rfl))
  case pois =>
    intro t ht
    have hpois := poisOf_of_poisTrap (s := s) (by rw [issuerOf_instr hx.1]) (htests x.w) ht
    exact does (scratchAccess_pois (scratchFault_eq_none_iff.mpr ⟨hmis, hout⟩) hpois)
  case watch =>
    intro b e es k v hmis hout hpois hblock htrap hexempt hits hhits hk hv hlow
    have hwatch := watchTrap_eq_some hblock htrap hexempt hhits hk hv hlow
    have haccess := scratchAccess_watch (uni := a.uni) (go := go) (scratchFault_eq_none_iff.mpr ⟨hmis, hout⟩) hpois hwatch
    exact does (haccess.trans (by rw [named_trap]))

/-- Places that all lie in one rank. -/
theorem ranksOf_same {codes : List Nat} (hne : codes ≠ []) (h : ∀ c ∈ codes, codeRank c = rank) : ranksOf codes = [rank] := by
  have hrep : codes.map codeRank = List.replicate codes.length rank :=
    List.eq_replicate_iff.mpr ⟨by simp, by simpa using h⟩
  rw [ranksOf, hrep, List.replicate_dedup (by simpa using hne)]

/-- A placed rank is one of its cluster. -/
theorem rankBlock_of_placedBlock {cluster : Nat} {b : Nat × Block} (h : placedBlock s cluster rank = some b) :
    rankBlock s cluster rank = some b := by
  obtain ⟨c, hc, hb⟩ := Option.bind_eq_some_iff.mp h
  split at hb
  · cases hb
  · rwa [← Option.some_inj.mp hb]

variable {bid n : Nat} {b : Block} {cells : List (Nat × Nat × Nat)} {dst : LoadDst} {signed : Bool}

/-- The parts of a load that reaches `cells`, none of them performed. -/
def unreadParts (cells : List (Nat × Nat × Nat)) : List LanePart := cells.map (fun c => ⟨c.1, c.2.1, c.2.2, none, false, [], []⟩)

/-- The same parts with the bytes of a block's scratch. -/
def readParts (b : Block) (n : Nat) (cells : List (Nat × Nat × Nat)) : List LanePart :=
  cells.map (fun c => ⟨c.1, c.2.1, c.2.2, some (bytesAt b.scratch (codeOff c.2.1) n), linesPoisoned b (codeOff c.2.1) n, [], []⟩)

/-- The present lines of a rank hold nothing back (R265). -/
theorem rankReady_ownPresent (h : OwnPresent s x n cells bid b) :
    rankReady s (clusterIdOf s x.w) (rankOf s x.w) (cells.map (fun c => (c.2.1, n))) = true := by
  obtain ⟨-, hplaced, hlive, hpresent, -⟩ := h
  simp only [rankReady, hplaced, hlive, Bool.false_or, List.all_map, List.all_eq_true]
  intro c hc
  simp [(hpresent c hc).2]

/-- A load's parts in a rank are performed at its block (R156). -/
theorem performRank_load {cluster : Nat} {l : PLoad} (hblock : rankBlock s cluster rank = some (bid, b)) (hlive : b.ended = false)
    (hload : l.atom = none) (hparts : l.parts = unreadParts cells) (hrank : ∀ c ∈ cells, codeRank c.2.1 = rank) :
    performRank s cluster rank l = (s, { l with parts := readParts b l.size cells }) := by
  simp only [performRank, hblock, hload, hparts, unreadParts, readParts, List.map_map]
  congr 2
  refine List.map_congr_left fun c hc => ?_
  simp [hrank c hc, loadPart, hlive]

/-- A load from the warp's own scratch whose lines are present returns at once (R156). -/
theorem scratchLoad_ownPresent (hne : cells ≠ []) (h : OwnPresent s x n cells bid b) :
    scratchLoad x s (scratchPLoad x dst n signed none (unreadParts cells)) =
      (.advance, returnLoad { s with fresh := s.fresh + 1 } { scratchPLoad x dst n signed none (unreadParts cells) with
        id := s.fresh
        counts := false
        parts := readParts b n cells }) := by
  have hready := rankReady_ownPresent h
  obtain ⟨hlocal, hplaced, hlive, hpresent, hheld⟩ := h
  have hranks : ranksOf (cells.map (fun c => c.2.1)) = [rankOf s x.w] :=
    ranksOf_same (by simpa using hne) (by simpa using fun _ _ _ hc => (hpresent _ hc).1)
  have hspans : (unreadParts cells).map (fun p => (p.addr, n)) = cells.map (fun c => (c.2.1, n)) := List.map_map
  have hcodes : (cells.map (fun c => (c.2.1, n))).map Prod.fst = cells.map (fun c => c.2.1) := List.map_map
  have hown : [rankOf s x.w].filter (isLocal s x.w) = [rankOf s x.w] := by simp [hlocal]
  have hpeers : [rankOf s x.w].filter (fun r => !isLocal s x.w r) = [] := by simp [hlocal]
  have hblock : rankBlock (nextId s).2 (clusterIdOf s x.w) (rankOf s x.w) = some (bid, b) := rankBlock_of_placedBlock hplaced
  have hperform (l : PLoad) (hload : l.atom = none) (hparts : l.parts = unreadParts cells) :=
    performRank_load hblock hlive hload hparts fun c hc => (hpresent c hc).1
  simp only [scratchLoad, scratchPLoad, hspans, hcodes, hranks, hown, hpeers, List.all_cons, List.all_nil, hready, hheld,
    List.foldl_cons, List.foldl_nil]
  rw [show ({ s with fresh := s.fresh + 1 } : State) = (nextId s).2 from rfl]
  simp [hperform]

/-- LDS is a scratch access that ends in a load. -/
theorem exec_lds {f : LM} (h : Reaches (.lds f) s x) :
    exec (.lds f) s = .next (finish x (scratchAccess x s false (szBytes (f.sub.toNat % 8))
      (scratchLanes x f (bit f.sub.toNat 3)) true false fun cells => scratchLoad x s
        (scratchPLoad x (.vec f.vd.toNat) (szBytes (f.sub.toNat % 8)) (szSigned (f.sub.toNat % 8)) none (unreadParts cells)))) := by
  rw [show exec (.lds f) s = execLds f s from rfl, execLds, issue_of h.1 h.2]
  rfl

/-- SLDS is one too, of every issuing lane. -/
theorem exec_slds {f : UB} (h : Reaches (.slds f) s x) :
    exec (.slds f) s = .next (finish x (scratchAccess x s true (szBytes f.sub.toNat)
      [(lowestLane x.b.lanes, scratchUniAddr x.w f)] true false fun cells => scratchLoad x s
        (scratchPLoad x (.scal f.sd.toNat) (szBytes f.sub.toNat) (szSigned f.sub.toNat) none (unreadParts cells)))) := by
  rw [show exec (.slds f) s = execSlds f s from rfl, execSlds, issue_of h.1 h.2]
  rfl

end Sys2Proof.Machine
end

section
/-! PROOF. Scratch loads complete, and where they trap. -/

namespace Sys2Proof.Machine

open Sys2Proof

theorem scratchTraps_lds (f : LM) : ScratchTraps (.lds f) := by
  refine scratchTraps_of_access (fun _ => rfl) fun s x a hx ha => ?_
  obtain rfl := Option.some_inj.mp ha
  exact ⟨_, exec_lds hx⟩

theorem scratchTraps_slds (f : UB) : ScratchTraps (.slds f) := by
  refine scratchTraps_of_access (fun _ => rfl) fun s x a hx ha => ?_
  obtain rfl := Option.some_inj.mp ha
  exact ⟨_, exec_slds hx⟩

/-- Settles O24: the loads are scratch accesses, which trap by their checks; past these a load is sent, and from the warp's own present
lines it returns at once. -/
theorem scratchLoadsComplete : Obligations.ScratchLoadsComplete := by
  unfold Obligations.ScratchLoadsComplete
  refine ⟨scratchTraps_lds, scratchTraps_slds, ?lds, ?slds⟩
  case lds =>
    intro f s x bid b hx sz addrs cells l hclear
    obtain ⟨hissuer, hp, hpois⟩ := hx
    have hexec := exec_lds ⟨hissuer, hp⟩
    rw [scratchAccess_clear hclear hpois] at hexec
    refine ⟨fun hnone => by rw [Does, hexec, if_pos hnone], fun hne => by rw [hexec, if_neg hne]; rfl, fun hne hown => ?_⟩
    rw [Does, hexec, if_neg hne, scratchLoad_ownPresent hne hown]
    rfl
  case slds =>
    intro f s x bid b hx sz addrs cells l hclear
    obtain ⟨hissuer, hp, hpois⟩ := hx
    have hne : cells ≠ [] := scratchCells_ne_nil hclear.1 (List.cons_ne_nil _ _)
    have hexec := exec_slds ⟨hissuer, hp⟩
    rw [scratchAccess_clear hclear hpois, if_neg hne] at hexec
    refine ⟨hexec, fun hown => ?_⟩
    rw [Does, hexec, scratchLoad_ownPresent hne hown]
    rfl

end Sys2Proof.Machine
end

section
/-! SUPPORT. The steps of the stochastic rounding key (R64) on 64-bit words, and the numbers the model computes them with. -/

namespace Sys2Proof.Machine

theorem toNat_add_mul_setWidth (index c : BitVec 64) (rank : BitVec 32) :
    (index + rank.setWidth 64 * c).toNat = (index.toNat % 2 ^ 64 + rank.toNat % 2 ^ 32 * c.toNat) % 2 ^ 64 := by
  rw [Nat.mod_eq_of_lt index.isLt, Nat.mod_eq_of_lt rank.isLt]
  simp

theorem toNat_xor_mul_setWidth (x c : BitVec 64) (stp : BitVec 32) :
    (x ^^^ stp.setWidth 64 * c).toNat = (x.toNat ^^^ stp.toNat % 2 ^ 32 * c.toNat % 2 ^ 64) % 2 ^ 64 := by
  rw [Nat.mod_eq_of_lt stp.isLt, Nat.mod_eq_of_lt (Nat.xor_lt_two_pow x.isLt (Nat.mod_lt _ (Nat.two_pow_pos 64)))]
  simp

theorem toNat_xor_ushiftRight {n : Nat} (x : BitVec n) (k : Nat) : (x ^^^ (x >>> k)).toNat = x.toNat ^^^ x.toNat / 2 ^ k := by
  rw [BitVec.toNat_xor, BitVec.toNat_ushiftRight, Nat.shiftRight_eq_div_pow]

theorem toNat_xor_ushiftRight_mul (x c : BitVec 64) (k : Nat) :
    ((x ^^^ (x >>> k)) * c).toNat = (x.toNat ^^^ x.toNat / 2 ^ k) * c.toNat % 2 ^ 64 := by
  rw [BitVec.toNat_mul, toNat_xor_ushiftRight]

end Sys2Proof.Machine
end

section
/-! PROOF. The stochastic rounding key. -/

namespace Sys2Proof.Machine

/-- Settles O59: step by step, the number `srKey` has reached is the one the 64-bit word of R64 stands for. -/
theorem srKeyValue : Obligations.SrKeyValue := by
  unfold Obligations.SrKeyValue
  intro rank stp index ranked stepped mixedOnce mixedTwice
  have hkey : srKey rank.toNat stp.toNat index.toNat = (mixedTwice ^^^ (mixedTwice >>> 32)).toNat := by
    rw [toNat_xor_ushiftRight, toNat_xor_ushiftRight_mul, toNat_xor_ushiftRight_mul, toNat_xor_mul_setWidth,
      toNat_add_mul_setWidth]
    rfl
  rw [hkey]
  exact ⟨(BitVec.ofNat_toNat _ _).trans (BitVec.setWidth_eq _), BitVec.isLt _⟩

end Sys2Proof.Machine
end

section
/-! SUPPORT. The decoder as an equivalence, set by set and length by length, and the row tables it looks an opcode up in. -/

namespace Sys2Proof

section Decoder

variable {w0 w1 : Word} {i : Instr}

theorem orElseInstr_eq_some {a b : Option Instr} : orElseInstr a b = some i ↔ a = some i ∨ a = none ∧ b = some i := by
  cases a <;> simp [orElseInstr]

theorem decodeShort_lane_iff (hset : w0.getLsbD 31 = false) :
    decodeShort w0 = .ok i ↔ laneShort (opOf w0) (decLA w0) = some i := by
  simp only [decodeShort, hset, Bool.false_eq_true, if_false]
  cases laneShort (opOf w0) (decLA w0) <;> simp

theorem decodeShort_uni_iff (hset : w0.getLsbD 31 = true) (hop : opOf w0 ≠ 0) :
    decodeShort w0 = .ok i ↔ orElseInstr (uniShort (opOf w0) (decUA w0)) (uniUJ (opOf w0) (decUJ w0)) = some i := by
  simp only [decodeShort, hset, hop, if_true, if_false]
  cases orElseInstr (uniShort (opOf w0) (decUA w0)) (uniUJ (opOf w0) (decUJ w0)) <;> simp

theorem decodeShort_nop_iff (hset : w0.getLsbD 31 = true) (hop : opOf w0 = 0) :
    decodeShort w0 = .ok i ↔ w0.extractLsb' 0 22 = 0 ∧ i = .nop (w0.getLsbD 29) := by
  simp only [decodeShort, hset, hop, if_true]
  split <;> simp_all only [Except.ok.injEq, true_and, false_and, reduceCtorEq, eq_comm (a := i)]

theorem decodeLong_lane_iff (hset : w0.getLsbD 31 = false) :
    decodeLong w0 w1 = .ok i ↔ orElseInstr (laneLB (opOf w0) (decLB w0 w1))
      (orElseInstr (laneLM (opOf w0) (decLM w0 w1)) (laneLT (opOf w0) (decLT w0 w1))) = some i := by
  simp only [decodeLong, hset, Bool.false_eq_true, if_false]
  split <;> simp_all

theorem decodeLong_uni_iff (hset : w0.getLsbD 31 = true) :
    decodeLong w0 w1 = .ok i ↔ opOf w0 ≠ 0 ∧ uniLong w0 w1 = some i := by
  simp only [decodeLong, hset, if_true]
  split
  · simp_all
  · split <;> simp_all

end Decoder

/-! An opcode stands in one of the tables of its set and length. -/

section Tables

variable {op : Nat} {i : Instr}

theorem laneLB_of_laneLM {f : LM} (h : laneLM op f = some i) (g : LB) : laneLB op g = none := by
  unfold laneLM at h
  split at h
  case h_10 => cases h
  all_goals rfl

theorem laneLB_of_laneLT {f : LT} (h : laneLT op f = some i) (g : LB) : laneLB op g = none := by
  unfold laneLT at h
  split at h
  case h_3 => cases h
  all_goals rfl

theorem laneLM_of_laneLT {f : LT} (h : laneLT op f = some i) (g : LM) : laneLM op g = none := by
  unfold laneLT at h
  split at h
  case h_3 => cases h
  all_goals rfl

theorem uniShort_of_uniUJ {f : UJ} (h : uniUJ op f = some i) (g : UA) : uniShort op g = none := by
  unfold uniUJ at h
  split at h
  case h_3 => cases h
  all_goals rfl

theorem uniUI_of_uniUB {f : UB} (h : uniUB op f = some i) (hop : 0x12 < op) (g : UI) : uniUI op g = none := by
  unfold uniUI
  split
  case h_19 => cases h
  case h_20 => cases h
  case h_21 => rfl
  all_goals contradiction

end Tables

end Sys2Proof
end

section
/-! SUPPORT. What an encoded instruction decodes to, format by format. -/

namespace Sys2Proof

theorem opOf_encLaneWord (long e : Bool) (op : BitVec 7) (vd va : BitVec 8) (sub : BitVec 6) :
    opOf (encLaneWord long e op vd va sub) = op.toNat := by rw [opOf, encLaneWord_op]

theorem opOf_encUniWord (long e : Bool) (op : BitVec 7) (sd sa : BitVec 9) (sub : BitVec 4) :
    opOf (encUniWord long e op sd sa sub) = op.toNat := by rw [opOf, encUniWord_op]

/-- The I bit of a scalar operation is bit 3 of its sub-operation (R82). -/
theorem encUniWord_iBit (long e : Bool) (op : BitVec 7) (sd sa : BitVec 9) (sub : BitVec 4) :
    (encUniWord long e op sd sa sub).getLsbD 3 = sub.getLsbD 3 := by
  simp only [encUniWord, BitVec.getLsbD_append]; simp

variable {op : BitVec 7} {i : Instr}

/-! One lemma for each set and length: a word with these set, length and opcode bits decodes by its table. -/

section Words

variable {w0 w1 : Word} {n : Nat} (rest : List Byte)

theorem decode_shortLane (hset : w0.getLsbD 31 = false) (hlong : longOf w0 = false) (hop : opOf w0 = n)
    (h : laneShort n (decLA w0) = some i) : decode (bytesOfWords [w0] ++ rest) = .ok (i, rest) := by
  rw [decode_short w0 rest hlong, (decodeShort_lane_iff hset).mpr (hop ▸ h)]
  rfl

theorem decode_longLane (hset : w0.getLsbD 31 = false) (hlong : longOf w0 = true) (hop : opOf w0 = n)
    (h : orElseInstr (laneLB n (decLB w0 w1)) (orElseInstr (laneLM n (decLM w0 w1)) (laneLT n (decLT w0 w1))) = some i) :
    decode (bytesOfWords [w0, w1] ++ rest) = .ok (i, rest) := by
  rw [decode_long w0 w1 rest hlong, (decodeLong_lane_iff hset).mpr (hop ▸ h)]
  rfl

theorem decode_shortUni (hset : w0.getLsbD 31 = true) (hlong : longOf w0 = false) (hop : opOf w0 = n) (hn : n ≠ 0)
    (h : orElseInstr (uniShort n (decUA w0)) (uniUJ n (decUJ w0)) = some i) :
    decode (bytesOfWords [w0] ++ rest) = .ok (i, rest) := by
  rw [decode_short w0 rest hlong, (decodeShort_uni_iff hset (hop.trans_ne hn)).mpr (hop ▸ h)]
  rfl

theorem decode_longUni (hset : w0.getLsbD 31 = true) (hlong : longOf w0 = true) (hop : opOf w0 = n) (hn : n ≠ 0)
    (h : uniLong w0 w1 = some i) : decode (bytesOfWords [w0, w1] ++ rest) = .ok (i, rest) := by
  rw [decode_long w0 w1 rest hlong, (decodeLong_uni_iff hset).mpr ⟨hop.trans_ne hn, h⟩]
  rfl

end Words

theorem decode_encLA {f : LA} (rest : List Byte) (h : laneShort op.toNat f = some i) :
    decode (bytesOfWords (encLA op f) ++ rest) = .ok (i, rest) :=
  decode_shortLane (w0 := headWord (encLA op f)) rest (encLaneWord_set ..) (encLaneWord_long ..) (opOf_encLaneWord ..)
    (by rw [decLA_encLA, h])

theorem decode_encLB {f : LB} (rest : List Byte) (h : laneLB op.toNat f = some i) :
    decode (bytesOfWords (encLB op f) ++ rest) = .ok (i, rest) :=
  decode_longLane (w0 := headWord (encLB op f)) (w1 := lastWord (encLB op f)) rest (encLaneWord_set ..) (encLaneWord_long ..)
    (opOf_encLaneWord ..) (by rw [decLB_encLB, h]; rfl)

theorem decode_encLM {f : LM} (rest : List Byte) (h : laneLM op.toNat f = some i) :
    decode (bytesOfWords (encLM op f) ++ rest) = .ok (i, rest) :=
  decode_longLane (w0 := headWord (encLM op f)) (w1 := lastWord (encLM op f)) rest (encLaneWord_set ..) (encLaneWord_long ..)
    (opOf_encLaneWord ..) (by rw [laneLB_of_laneLM h, decLM_encLM, h]; rfl)

theorem decode_encLT {f : LT} (rest : List Byte) (h : laneLT op.toNat f = some i) :
    decode (bytesOfWords (encLT op f) ++ rest) = .ok (i, rest) :=
  decode_longLane (w0 := headWord (encLT op f)) (w1 := lastWord (encLT op f)) rest (encLaneWord_set ..) (encLaneWord_long ..)
    (opOf_encLaneWord ..) (by rw [laneLB_of_laneLT h, laneLM_of_laneLT h, decLT_encLT, h]; rfl)

theorem decode_encUA {f : UA} (rest : List Byte) (h : uniShort op.toNat f = some i) :
    decode (bytesOfWords (encUA op f) ++ rest) = .ok (i, rest) :=
  decode_shortUni (w0 := headWord (encUA op f)) rest (encUniWord_set ..) (encUniWord_long ..) (opOf_encUniWord ..)
    (fun h0 => by simp [h0, uniShort] at h) (by rw [decUA_encUA, h]; rfl)

theorem uniLong_encUB {f : UB} (h : uniUB op.toNat f = some i) (hbit : op.toNat ≤ 0x12 → f.sub.getLsbD 3 = false) :
    uniLong (headWord (encUB op f)) (lastWord (encUB op f)) = some i := by
  rw [uniLong, show opOf (headWord (encUB op f)) = op.toNat from opOf_encUniWord ..,
    show (headWord (encUB op f)).getLsbD 3 = f.sub.getLsbD 3 from encUniWord_iBit .., decUB_encUB]
  split
  next hscal => rw [hbit hscal, if_neg Bool.false_ne_true, h]
  next hscal => rw [uniUI_of_uniUB h (by omega), h]; rfl

theorem uniLong_encUI {f : UI} (h : uniUI op.toNat f = some i) (hbit : op.toNat ≤ 0x12 → f.sub.getLsbD 3 = true) :
    uniLong (headWord (encUI op f)) (lastWord (encUI op f)) = some i := by
  rw [uniLong, show opOf (headWord (encUI op f)) = op.toNat from opOf_encUniWord ..,
    show (headWord (encUI op f)).getLsbD 3 = f.sub.getLsbD 3 from encUniWord_iBit .., decUI_encUI]
  split
  next hscal => rw [hbit hscal, if_pos rfl, h]
  next => rw [h]; rfl

theorem decode_encUB {f : UB} (rest : List Byte) (h : uniUB op.toNat f = some i)
    (hbit : op.toNat ≤ 0x12 → f.sub.getLsbD 3 = false) : decode (bytesOfWords (encUB op f) ++ rest) = .ok (i, rest) :=
  decode_longUni (w0 := headWord (encUB op f)) (w1 := lastWord (encUB op f)) rest (encUniWord_set ..) (encUniWord_long ..)
    (opOf_encUniWord ..) (fun h0 => by simp [h0, uniUB] at h) (uniLong_encUB h hbit)

theorem decode_encUI {f : UI} (rest : List Byte) (h : uniUI op.toNat f = some i)
    (hbit : op.toNat ≤ 0x12 → f.sub.getLsbD 3 = true) : decode (bytesOfWords (encUI op f) ++ rest) = .ok (i, rest) :=
  decode_longUni (w0 := headWord (encUI op f)) (w1 := lastWord (encUI op f)) rest (encUniWord_set ..) (encUniWord_long ..)
    (opOf_encUniWord ..) (fun h0 => by simp [h0, uniUI] at h) (uniLong_encUI h hbit)

/-- Word 0 of format UJ: its bits and its opcode (R83). -/
theorem encUJ_bits (op : BitVec 7) (f : UJ) : (headWord (encUJ op f)).getLsbD 31 = true ∧ longOf (headWord (encUJ op f)) = false ∧
    opOf (headWord (encUJ op f)) = op.toNat := by
  refine ⟨?_, ?_, congrArg BitVec.toNat (BitVec.eq_of_getLsbD_eq fun k hk => ?_)⟩
  · simp only [headWord, encUJ, List.headD_cons, BitVec.getLsbD_append]; simp
  · simp only [longOf, headWord, encUJ, List.headD_cons, BitVec.getLsbD_append]; simp
  · simp only [headWord, encUJ, List.headD_cons, BitVec.getLsbD_extractLsb', BitVec.getLsbD_append]
    interval_cases k <;> simp

theorem decode_encUJ {f : UJ} (rest : List Byte) (h : uniUJ op.toNat f = some i) :
    decode (bytesOfWords (encUJ op f) ++ rest) = .ok (i, rest) := by
  obtain ⟨hset, hlong, hop⟩ := encUJ_bits op f
  exact decode_shortUni (w0 := headWord (encUJ op f)) rest hset hlong hop (fun h0 => by simp [h0, uniUJ] at h)
    (by rw [uniShort_of_uniUJ h, decUJ_encUJ, h]; rfl)

theorem decode_encode_nop (e : Bool) (rest : List Byte) :
    decode (bytesOfWords (encode (.nop e)) ++ rest) = .ok (.nop e, rest) := by
  cases e <;> rfl

end Sys2Proof
end

section
/-! SUPPORT. The sub-operations of well-formed scalar operations: the I bit tells form UB from form UI (R82, R123). -/

namespace Sys2Proof.Machine

theorem scalSubs_le (op : ScalOp) : scalSubs op ≤ 8 := by cases op <;> decide

theorem iBit_of_scalUbOk {op : ScalOp} {f : UB} (h : scalUbOk op f = true) : f.sub.getLsbD 3 = false := by
  simp only [scalUbOk, Bool.and_eq_true, decide_eq_true_eq] at h
  have hsubs := scalSubs_le op
  exact Nat.testBit_lt_two_pow (by omega)

theorem iBit_of_scalUiOk {op : ScalOp} {f : UI} (h : scalUiOk op f = true) : f.sub.getLsbD 3 = true := by
  simp only [scalUiOk, Bool.and_eq_true] at h
  obtain ⟨⟨⟨⟨hbit, -⟩, -⟩, -⟩, -⟩ := h
  exact hbit

end Sys2Proof.Machine
end

section
/-! SUPPORT. Rows that share an opcode, told apart by their well-formed sub-operations (R182, R187, R190, R223). -/

namespace Sys2Proof.Machine

variable {f : UB}

/-- Bit 0 of the sub-operation, where it is 0 or 1, chooses between two rows. -/
theorem rowOfSub_zero {a b : Instr} (h : f.sub = 0) : some (if f.sub.getLsbD 0 then a else b) = some b :=
  congrArg some (if_neg (by rw [h]; decide))

theorem rowOfSub_one {a b : Instr} (h : f.sub = 1) : some (if f.sub.getLsbD 0 then a else b) = some a :=
  congrArg some (if_pos (by rw [h]; decide))

theorem uniUB_kinitReg (hwf : knotOk 1 f = true) : uniUB 0x56 f = some (.kinitReg f) := by
  simp only [knotOk, Bool.and_eq_true, decide_eq_true_eq] at hwf
  exact rowOfSub_zero (BitVec.eq_of_toNat_eq (show f.sub.toNat = 0 by omega))

theorem uniUB_cpyG2s (hwf : cpyG2sOk f = true) : uniUB 0x70 f = some (.cpyG2s f) := by
  simp only [cpyG2sOk, Bool.and_eq_true, beq_iff_eq] at hwf
  obtain ⟨⟨-, hsub⟩, -⟩ := hwf
  exact congrArg some ((if_neg (by rw [hsub]; decide)).trans (if_neg (by rw [hsub]; decide)))

theorem uniUB_cpyS2g (hwf : cpyS2gOk f = true) : uniUB 0x70 f = some (.cpyS2g f) := by
  simp only [cpyS2gOk, Bool.and_eq_true, beq_iff_eq] at hwf
  obtain ⟨⟨-, hsub⟩, -⟩ := hwf
  exact congrArg some (if_pos hsub)

theorem uniUB_cpyS2s (hwf : cpyS2sOk f = true) : uniUB 0x70 f = some (.cpyS2s f) := by
  simp only [cpyS2sOk, Bool.and_eq_true, beq_iff_eq] at hwf
  obtain ⟨⟨-, hsub⟩, -⟩ := hwf
  exact congrArg some ((if_neg (by rw [hsub]; decide)).trans (if_pos hsub))

end Sys2Proof.Machine
end

section
/-! PROOF. An encoded instruction decodes to itself. -/

namespace Sys2Proof

open Machine

/-- Settles O1: format by format, by `decode_enc…`; rows that share an opcode are told apart by their sub-operation, which
well-formedness fixes. -/
theorem decodeOfEncode : Obligations.DecodeOfEncode := by
  unfold Obligations.DecodeOfEncode
  intro i rest hwf henc
  cases i with
  | iaddShort f | isubShort f | imulShort f | imulhShort f | imadShort f | iminShort f | imaxShort f | iabsShort f
  | idp4Short f | shlShort f | shrShort f | sarShort f | shfShort f | logicShort f | bfeShort f | bfiShort f | popcShort f
  | clzShort f | brevShort f | ffsShort f | icmpShort f | selShort f | isadShort f | bmixShort f | faddShort f | fsubShort f
  | fmulShort f | ffmaShort f | fminShort f | fmaxShort f | fcmpShort f | frcpShort f | frsqShort f | fsqrtShort f
  | fdivShort f | fexp2Short f | flog2Short f | fsinpiShort f | fcospiShort f | ftanhShort f | fclassShort f | fscaleShort f
  | frndShort f | movShort f =>
    exact decode_encLA rest rfl
  | iadd f | isub f | imul f | imulh f | imad f | imin f | imax f | iabs f | idp4 f | shl f | shr f | sar f | shf f | knit f
  | logic f | bfe f | bfi f | popc f | clz f | brev f | ffs f | icmp f | sel f | isad f | bmix f | fadd f | fsub f | fmul f
  | ffma f | fmin f | fmax f | fcmp f | frcp f | frsq f | fsqrt f | fdiv f | fexp2 f | flog2 f | fsinpi f | fcospi f | ftanh f
  | fclass f | fscale f | frnd f | dadd f | dmul f | dfma f | dcmp f | cvt f | qplane f | dqplane f | pack f | unpack f
  | srnd f | mov f | xlane f | peer f | qpoll f | redx f | scan f | plop f | brp f | mma f | accrd f | accwr f =>
    exact decode_encLB rest rfl
  | lds f | sts f | ldg f | stg f | stnt f | atoms f | atomg f | redg f | prefg f =>
    exact decode_encLM rest rfl
  | trd f | twr f =>
    exact decode_encLT rest rfl
  | sadd f | ssub f | smul f | smulh f | smad f | smin f | smax f | sshl f | sshr f | ssar f | slogic f | sbfe f | sbfi f
  | spopc f | sclz f | scmp f | ssel f | smov f | ret f | jmpi f | exit f | join f | leave f | wait f | mops f | brk f
  | eret f | yield f | detach f | reggrow f | regshrink f =>
    exact decode_encUA rest rfl
  | bra f | call f =>
    exact decode_encUJ rest rfl
  | saddUi f | ssubUi f | smulUi f | smulhUi f | smadUi f | sminUi f | smaxUi f | sshlUi f | sshrUi f | ssarUi f | slogicUi f
  | sbfeUi f | sbfiUi f | spopcUi f | sclzUi f | scmpUi f | sselUi f | smovUi f =>
    exact decode_encUI rest rfl fun _ => iBit_of_scalUiOk hwf
  | brc f | attach f =>
    exact decode_encUI rest rfl fun h => absurd h (by decide)
  | saddUb f | ssubUb f | smulUb f | smulhUb f | smadUb f | sminUb f | smaxUb f | sshlUb f | sshrUb f | ssarUb f | slogicUb f
  | sbfeUb f | sbfiUb f | spopcUb f | sclzUb f | scmpUb f | sselUb f | smovUb f =>
    exact decode_encUB rest rfl fun _ => iBit_of_scalUbOk hwf
  | trap f | sleepc f | waitc f | srd f | swr f | sldg f | sstg f | slds f | ssts f | satomg f | fence f | drainnt f | flush f
  | pref f | bara f | barw f | bars f | cbara f | cbarw f | gridbar f | ktake f | kgive f | rinit f | rrel f | rarr f
  | chsend f | deq f | enq f | launch f | hset f | accz f | accrel f | mchkrd f | tdef f | cpgth f | cpsct f | cpxf f
  | tdchk f | coll f =>
    exact decode_encUB rest rfl fun h => absurd h (by decide)
  | kinitReg f =>
    exact decode_encUB rest (uniUB_kinitReg hwf) fun h => absurd h (by decide)
  | cpyG2s f =>
    exact decode_encUB rest (uniUB_cpyG2s hwf) fun h => absurd h (by decide)
  | cpyS2g f =>
    exact decode_encUB rest (uniUB_cpyS2g hwf) fun h => absurd h (by decide)
  | cpyS2s f =>
    exact decode_encUB rest (uniUB_cpyS2s hwf) fun h => absurd h (by decide)
  | rwaitFull f | chrecvTake f =>
    exact decode_encUB rest (rowOfSub_zero (eq_of_beq (Bool.and_elim_left hwf))) fun h => absurd h (by decide)
  | kinitFree f | rwaitFree f | chrecvDone f =>
    exact decode_encUB rest (rowOfSub_one (eq_of_beq (Bool.and_elim_left hwf))) fun h => absurd h (by decide)
  | nop e => exact decode_encode_nop e rest
  | _ => exact absurd rfl henc

end Sys2Proof
end

section
/-! SUPPORT. The encoder undoes the decoder: a row's instruction is encoded with the opcode it was looked up by, and a word is made
of its fields. -/

namespace Sys2Proof

section Rows

variable {n : Nat} {i : Instr}

theorem encode_of_laneShort {f : LA} (h : laneShort n f = some i) : encode i = encLA (BitVec.ofNat 7 n) f := by
  unfold laneShort at h
  split at h <;> cases h <;> rfl

theorem encode_of_laneLB {f : LB} (h : laneLB n f = some i) : encode i = encLB (BitVec.ofNat 7 n) f := by
  unfold laneLB at h
  split at h <;> cases h <;> rfl

theorem encode_of_laneLM {f : LM} (h : laneLM n f = some i) : encode i = encLM (BitVec.ofNat 7 n) f := by
  unfold laneLM at h
  split at h <;> cases h <;> rfl

theorem encode_of_laneLT {f : LT} (h : laneLT n f = some i) : encode i = encLT (BitVec.ofNat 7 n) f := by
  unfold laneLT at h
  split at h <;> cases h <;> rfl

theorem encode_of_uniShort {f : UA} (h : uniShort n f = some i) : encode i = encUA (BitVec.ofNat 7 n) f := by
  unfold uniShort at h
  split at h <;> cases h <;> rfl

theorem encode_of_uniUJ {f : UJ} (h : uniUJ n f = some i) : encode i = encUJ (BitVec.ofNat 7 n) f := by
  unfold uniUJ at h
  split at h <;> cases h <;> rfl

theorem encode_of_uniUI {f : UI} (h : uniUI n f = some i) : encode i = encUI (BitVec.ofNat 7 n) f := by
  unfold uniUI at h
  split at h <;> cases h <;> rfl

theorem encode_of_uniUB {f : UB} (h : uniUB n f = some i) : encode i = encUB (BitVec.ofNat 7 n) f := by
  unfold uniUB at h
  split at h
  case h_39 | h_43 | h_47 => cases h; split <;> rfl
  case h_56 => cases h; split; rfl; split <;> rfl
  all_goals cases h
  all_goals rfl

end Rows

section Words

variable {w0 w1 : Word}

theorem ofNat_opOf (w0 : Word) : BitVec.ofNat 7 (opOf w0) = w0.extractLsb' 22 7 :=
  (BitVec.ofNat_toNat _ _).trans (BitVec.setWidth_eq _)

/-- Word 0 of a lane format is made of its bits and fields (R72, R76). -/
theorem encLaneWord_fields (hset : w0.getLsbD 31 = false) :
    encLaneWord (longOf w0) (w0.getLsbD 29) (BitVec.ofNat 7 (opOf w0)) (w0.extractLsb' 14 8) (w0.extractLsb' 6 8)
      (w0.extractLsb' 0 6) = w0 := by
  rw [ofNat_opOf, longOf]
  apply BitVec.eq_of_getLsbD_eq
  intro k hk
  simp only [encLaneWord, BitVec.getLsbD_extractLsb', BitVec.getLsbD_append]
  interval_cases k <;> simp_all

/-- Word 0 of a uniform format is made of its bits and fields (R72, R81). -/
theorem encUniWord_fields (hset : w0.getLsbD 31 = true) :
    encUniWord (longOf w0) (w0.getLsbD 29) (BitVec.ofNat 7 (opOf w0)) (w0.extractLsb' 13 9) (w0.extractLsb' 4 9)
      (w0.extractLsb' 0 4) = w0 := by
  rw [ofNat_opOf, longOf]
  apply BitVec.eq_of_getLsbD_eq
  intro k hk
  simp only [encUniWord, BitVec.getLsbD_extractLsb', BitVec.getLsbD_append]
  interval_cases k <;> simp_all

theorem encLA_decLA (hset : w0.getLsbD 31 = false) (hlong : longOf w0 = false) :
    encLA (BitVec.ofNat 7 (opOf w0)) (decLA w0) = [w0] := by
  have hhead := encLaneWord_fields hset
  rw [hlong] at hhead
  exact congrArg (· :: []) hhead

theorem encLB_decLB (hset : w0.getLsbD 31 = false) (hlong : longOf w0 = true) :
    encLB (BitVec.ofNat 7 (opOf w0)) (decLB w0 w1) = [w0, w1] := by
  have hhead := encLaneWord_fields hset
  rw [hlong] at hhead
  simp only [encLB, decLB, hhead, List.cons.injEq, true_and, and_true]
  apply BitVec.eq_of_getLsbD_eq
  intro k hk
  simp only [BitVec.getLsbD_extractLsb', BitVec.getLsbD_append]
  interval_cases k <;> simp

theorem encLM_decLM (hset : w0.getLsbD 31 = false) (hlong : longOf w0 = true) :
    encLM (BitVec.ofNat 7 (opOf w0)) (decLM w0 w1) = [w0, w1] := by
  have hhead := encLaneWord_fields hset
  rw [hlong] at hhead
  simp only [encLM, decLM, hhead, List.cons.injEq, true_and, and_true]
  apply BitVec.eq_of_getLsbD_eq
  intro k hk
  simp only [BitVec.getLsbD_extractLsb', BitVec.getLsbD_append]
  interval_cases k <;> simp

theorem encLT_decLT (hset : w0.getLsbD 31 = false) (hlong : longOf w0 = true) :
    encLT (BitVec.ofNat 7 (opOf w0)) (decLT w0 w1) = [w0, w1] := by
  have hhead := encLaneWord_fields hset
  rw [hlong] at hhead
  simp only [encLT, decLT, hhead, List.cons.injEq, true_and, and_true]
  apply BitVec.eq_of_getLsbD_eq
  intro k hk
  simp only [BitVec.getLsbD_extractLsb', BitVec.getLsbD_append]
  interval_cases k <;> simp

theorem encUA_decUA (hset : w0.getLsbD 31 = true) (hlong : longOf w0 = false) :
    encUA (BitVec.ofNat 7 (opOf w0)) (decUA w0) = [w0] := by
  have hhead := encUniWord_fields hset
  rw [hlong] at hhead
  exact congrArg (· :: []) hhead

theorem encUB_decUB (hset : w0.getLsbD 31 = true) (hlong : longOf w0 = true) :
    encUB (BitVec.ofNat 7 (opOf w0)) (decUB w0 w1) = [w0, w1] := by
  have hhead := encUniWord_fields hset
  rw [hlong] at hhead
  simp only [encUB, decUB, hhead, List.cons.injEq, true_and, and_true]
  apply BitVec.eq_of_getLsbD_eq
  intro k hk
  simp only [BitVec.getLsbD_extractLsb', BitVec.getLsbD_append]
  interval_cases k <;> simp

theorem encUI_decUI (hset : w0.getLsbD 31 = true) (hlong : longOf w0 = true) :
    encUI (BitVec.ofNat 7 (opOf w0)) (decUI w0 w1) = [w0, w1] := by
  have hhead := encUniWord_fields hset
  rw [hlong] at hhead
  exact congrArg (· :: [w1]) hhead

theorem encUJ_decUJ (hset : w0.getLsbD 31 = true) (hlong : longOf w0 = false) :
    encUJ (BitVec.ofNat 7 (opOf w0)) (decUJ w0) = [w0] := by
  simp only [encUJ, decUJ, ofNat_opOf, List.cons.injEq, and_true]
  simp only [longOf] at hlong
  apply BitVec.eq_of_getLsbD_eq
  intro k hk
  simp only [BitVec.getLsbD_extractLsb', BitVec.getLsbD_append]
  interval_cases k <;> simp_all

theorem encode_nop_of_fields (hset : w0.getLsbD 31 = true) (hlong : longOf w0 = false) (hop : opOf w0 = 0)
    (hrest : w0.extractLsb' 0 22 = 0) : encode (.nop (w0.getLsbD 29)) = [w0] := by
  have hword : encUJ (BitVec.ofNat 7 (opOf w0)) (decUJ w0) = [w0] := encUJ_decUJ hset hlong
  rw [← hword, hop, decUJ, hrest]
  cases w0.getLsbD 29 <;> rfl

end Words

end Sys2Proof
end

section
/-! PROOF. What words decode to is encoded by them. -/

namespace Sys2Proof

variable {w0 w1 : Word} {i : Instr}

theorem encode_of_decodeShort (hlong : longOf w0 = false) (h : decodeShort w0 = .ok i) : encode i = [w0] := by
  cases hset : w0.getLsbD 31 with
  | false => rw [encode_of_laneShort ((decodeShort_lane_iff hset).mp h), encLA_decLA hset hlong]
  | true =>
    by_cases hop : opOf w0 = 0
    · obtain ⟨hrest, rfl⟩ := (decodeShort_nop_iff hset hop).mp h
      exact encode_nop_of_fields hset hlong hop hrest
    · rcases orElseInstr_eq_some.mp ((decodeShort_uni_iff hset hop).mp h) with hrow | ⟨-, hrow⟩
      · rw [encode_of_uniShort hrow, encUA_decUA hset hlong]
      · rw [encode_of_uniUJ hrow, encUJ_decUJ hset hlong]

/-- A long uniform instruction stands in the UI or the UB table. -/
theorem uniUI_or_uniUB (h : uniLong w0 w1 = some i) :
    uniUI (opOf w0) (decUI w0 w1) = some i ∨ uniUB (opOf w0) (decUB w0 w1) = some i := by
  unfold uniLong at h
  split at h
  · split at h
    · exact .inl h
    · exact .inr h
  · exact (orElseInstr_eq_some.mp h).imp_right And.right

theorem encode_of_decodeLong (hlong : longOf w0 = true) (h : decodeLong w0 w1 = .ok i) : encode i = [w0, w1] := by
  cases hset : w0.getLsbD 31 with
  | false =>
    rcases orElseInstr_eq_some.mp ((decodeLong_lane_iff hset).mp h) with hrow | ⟨-, hrest⟩
    · rw [encode_of_laneLB hrow, encLB_decLB hset hlong]
    · rcases orElseInstr_eq_some.mp hrest with hrow | ⟨-, hrow⟩
      · rw [encode_of_laneLM hrow, encLM_decLM hset hlong]
      · rw [encode_of_laneLT hrow, encLT_decLT hset hlong]
  | true =>
    rcases uniUI_or_uniUB ((decodeLong_uni_iff hset).mp h).2 with hrow | hrow
    · rw [encode_of_uniUI hrow, encUI_decUI hset hlong]
    · rw [encode_of_uniUB hrow, encUB_decUB hset hlong]

/-- Settles O2: short words and long ones, each from the table that the instruction was found in. -/
theorem encodeOfDecode : Obligations.EncodeOfDecode := by
  unfold Obligations.EncodeOfDecode
  intro w0 w1 i h
  rw [decodeWords] at h
  cases hlong : longOf w0 with
  | true => exact encode_of_decodeLong hlong (by simpa [hlong] using h)
  | false => exact encode_of_decodeShort hlong (by simpa [hlong] using h)

end Sys2Proof
end

section
/-! PROOF. The manual's words, and the words that are no instruction. -/

namespace Sys2Proof

open Machine

/-- Settles O3: each word decodes by evaluation. -/
theorem manualWordsDecode : Obligations.ManualWordsDecode := by
  unfold Obligations.ManualWordsDecode
  refine ⟨?_, ?_, ?_, ?_, ?_, ?_, ?_, ?_, ?_, ?_, ?_, ?_⟩ <;> rfl

section Unassigned

variable {n : Nat}

theorem laneShort_of_unassigned (h : laneAssigned n = false) (f : LA) : laneShort n f = none := by
  unfold laneShort
  split
  case h_45 => rfl
  all_goals cases h

theorem laneLB_of_unassigned (h : laneAssigned n = false) (f : LB) : laneLB n f = none := by
  unfold laneLB
  split
  case h_66 => rfl
  all_goals cases h

theorem laneLM_of_unassigned (h : laneAssigned n = false) (f : LM) : laneLM n f = none := by
  unfold laneLM
  split
  case h_10 => rfl
  all_goals cases h

theorem laneLT_of_unassigned (h : laneAssigned n = false) (f : LT) : laneLT n f = none := by
  unfold laneLT
  split
  case h_3 => rfl
  all_goals cases h

theorem uniShort_of_unassigned (h : uniAssigned n = false) (f : UA) : uniShort n f = none := by
  unfold uniShort
  split
  case h_32 => rfl
  all_goals cases h

theorem uniUJ_of_unassigned (h : uniAssigned n = false) (f : UJ) : uniUJ n f = none := by
  unfold uniUJ
  split
  case h_3 => rfl
  all_goals cases h

theorem uniUB_of_unassigned (h : uniAssigned n = false) (f : UB) : uniUB n f = none := by
  unfold uniUB
  split
  case h_62 => rfl
  all_goals cases h

theorem uniUI_of_unassigned (h : uniAssigned n = false) (f : UI) : uniUI n f = none := by
  unfold uniUI
  split
  case h_21 => rfl
  all_goals cases h

end Unassigned

variable {w0 : Word}

theorem decodeWords_unassignedLane (w1 : Word) (hset : w0.getLsbD 31 = false) (hop : laneAssigned (opOf w0) = false) :
    decodeWords w0 w1 = .error .laneOpcode := by
  simp [decodeWords, decodeLong, decodeShort, -BitVec.getLsbD_eq_getElem, hset, hop, orElseInstr, laneShort_of_unassigned hop,
    laneLB_of_unassigned hop, laneLM_of_unassigned hop, laneLT_of_unassigned hop]

theorem decodeWords_unassignedUni (w1 : Word) (hset : w0.getLsbD 31 = true) (hop : uniAssigned (opOf w0) = false) :
    decodeWords w0 w1 = .error .uniformOpcode := by
  have hop0 : opOf w0 ≠ 0 := fun h => by simp [h, uniAssigned] at hop
  simp [decodeWords, decodeLong, decodeShort, -BitVec.getLsbD_eq_getElem, hset, hop, hop0, orElseInstr, uniLong,
    uniShort_of_unassigned hop, uniUJ_of_unassigned hop, uniUB_of_unassigned hop, uniUI_of_unassigned hop]

/-- With S = 1 and OP = 0x00, only the two words of NOP are an instruction (R86). -/
theorem decodeWords_nopFields (w1 : Word) (hset : w0.getLsbD 31 = true) (hop : opOf w0 = 0) (h0 : w0 ≠ 0x80000000)
    (h1 : w0 ≠ 0xA0000000) : decodeWords w0 w1 = .error .nopFields := by
  cases hlong : longOf w0 with
  | true => simp [decodeWords, hlong, decodeLong, -BitVec.getLsbD_eq_getElem, hset, hop]
  | false =>
    have hfields : w0.extractLsb' 0 22 ≠ 0 := fun hrest => by
      have hword := encode_nop_of_fields hset hlong hop hrest
      cases he : w0.getLsbD 29 <;> rw [he] at hword
      · exact h0 (List.cons.inj hword).1.symm
      · exact h1 (List.cons.inj hword).1.symm
    rw [decodeWords, hlong, if_neg Bool.false_ne_true, decodeShort, hset, if_pos rfl, if_pos hop, if_neg hfields]

/-- Settles O4: no table holds an unassigned opcode, and NOP's word has no other field set. -/
theorem unassignedOpcodesReject : Obligations.UnassignedOpcodesReject := by
  unfold Obligations.UnassignedOpcodesReject
  exact fun w0 w1 => ⟨decodeWords_unassignedLane w1, decodeWords_unassignedUni w1, decodeWords_nopFields w1⟩

end Sys2Proof
end

section
/-! SUPPORT. Whether a long word opens an instruction does not depend on word 1, and what a fetch then gives (R72, R73). -/

namespace Sys2Proof

section Rows

variable {n : Nat} {i : Instr}

theorem laneLB_isSome {f : LB} (h : laneLB n f = some i) (g : LB) : ∃ j, laneLB n g = some j := by
  unfold laneLB at h
  split at h
  case h_66 => cases h
  all_goals exact ⟨_, rfl⟩

theorem laneLM_isSome {f : LM} (h : laneLM n f = some i) (g : LM) : ∃ j, laneLM n g = some j := by
  unfold laneLM at h
  split at h
  case h_10 => cases h
  all_goals exact ⟨_, rfl⟩

theorem laneLT_isSome {f : LT} (h : laneLT n f = some i) (g : LT) : ∃ j, laneLT n g = some j := by
  unfold laneLT at h
  split at h
  case h_3 => cases h
  all_goals exact ⟨_, rfl⟩

theorem uniUB_isSome {f : UB} (h : uniUB n f = some i) (g : UB) : ∃ j, uniUB n g = some j := by
  unfold uniUB at h
  split at h
  case h_62 => cases h
  all_goals exact ⟨_, rfl⟩

theorem uniUI_isSome {f : UI} (h : uniUI n f = some i) (g : UI) : ∃ j, uniUI n g = some j := by
  unfold uniUI at h
  split at h
  case h_21 => cases h
  all_goals exact ⟨_, rfl⟩

theorem orElseInstr_isSome {a b : Option Instr} : (∃ j, orElseInstr a b = some j) ↔ (∃ j, a = some j) ∨ ∃ j, b = some j := by
  cases a <;> simp [orElseInstr]

end Rows

variable {w0 w1 : Word} {i : Instr}

theorem uniLong_isSome (h : uniLong w0 w1 = some i) (v : Word) : ∃ j, uniLong w0 v = some j := by
  unfold uniLong at h ⊢
  split at h
  next hscal =>
    rw [if_pos hscal]
    split at h
    next hbit => rw [if_pos hbit]; exact uniUI_isSome h _
    next hbit => rw [if_neg hbit]; exact uniUB_isSome h _
  next hscal =>
    rw [if_neg hscal]
    exact orElseInstr_isSome.mpr ((orElseInstr_eq_some.mp h).imp (uniUI_isSome · _) fun ⟨_, h⟩ => uniUB_isSome h _)

/-- A word 0 that opens a long instruction does so with any word 1. -/
theorem decodeLong_isOk (h : decodeLong w0 w1 = .ok i) (v : Word) : ∃ j, decodeLong w0 v = .ok j := by
  cases hset : w0.getLsbD 31 with
  | false =>
    simp only [decodeLong_lane_iff hset] at h ⊢
    refine orElseInstr_isSome.mpr ((orElseInstr_eq_some.mp h).imp (laneLB_isSome · _) fun ⟨_, h⟩ => ?_)
    exact orElseInstr_isSome.mpr ((orElseInstr_eq_some.mp h).imp (laneLM_isSome · _) fun ⟨_, h⟩ => laneLT_isSome h _)
  | true =>
    simp only [decodeLong_uni_iff hset] at h ⊢
    obtain ⟨hop, hrow⟩ := h
    exact (uniLong_isSome hrow v).imp fun _ => .intro hop

theorem decode_two (w0 w1 : Word) : decode (bytesOfWords [w0, w1]) =
    if longOf w0 then (decodeLong w0 w1).map (·, []) else (decodeShort w0).map (·, bytesOfWords [w1]) := by
  simp [decode, bytesOfWords, wordOfBytes_bytes]

end Sys2Proof

namespace Sys2Proof.Machine

open Sys2Proof

variable {s u v : State} {core ctx : Nat} {pc : VAddr} {w0 w1 : Word} {i : Instr}

/-- Words that are fetched and decode to an instruction are what a fetch at the PC gives (R73, R85). -/
theorem fetchInstr_of_decodeWords (lanes : Mask) (h0 : fetchWord s core ctx pc.toNat = (.ok w0, u))
    (h1 : longOf w0 = true → fetchWord u core ctx (pc + 4).toNat = (.ok w1, v)) (hshort : longOf w0 = false → v = u)
    (hi : decodeWords w0 w1 = .ok i) : fetchInstr s core ctx pc lanes = (.ok i, v) := by
  unfold fetchInstr
  dsimp only
  rw [h0]
  dsimp only
  cases hlong : longOf w0 with
  | true =>
    rw [decodeWords, if_pos hlong] at hi
    obtain ⟨j, hj⟩ := decodeLong_isOk hi 0
    simp only [decode_two, hlong, hj, hi, h1 hlong, show w0.getLsbD 30 = true from hlong, if_true, Except.map]
  | false =>
    rw [decodeWords, hlong, if_neg Bool.false_ne_true] at hi
    simp only [decode_two, hlong, hi, hshort hlong, show w0.getLsbD 30 = false from hlong, Bool.false_eq_true, if_false, Except.map]

end Sys2Proof.Machine
end

section
/-! PROOF. A granted run executes what it fetches. -/

namespace Sys2Proof.Machine

open Sys2Proof

/-- Settles O5: the turn's move is the run's next instruction, which the fetch gives. -/
theorem stepRunsDecoded : Obligations.StepRunsDecoded := by
  unfold Obligations.StepRunsDecoded
  intro s n core quad ts r w b w0 w1 u v i hagenda s0 hrun hbraid h0 h1 hshort hi
  have hmove : step s = issueNext s0 core quad := by rw [step, hagenda]; rfl
  rw [hmove, issueNext, hrun]
  dsimp only
  rw [hbraid]
  dsimp only
  rw [fetchInstr_of_decodeWords b.lanes h0 h1 hshort hi]

end Sys2Proof.Machine
end

section
/-! SUPPORT. A word of code at a backed address, and the choice between its forms (R73, R74). -/

namespace Sys2Proof.Machine

open Sys2Proof

variable {s : State} {core ctx pa k : Nat}

/-- Four bytes as a number and as a word (R10). -/
theorem ofNat_ofBytes_four (b0 b1 b2 b3 : Byte) : BitVec.ofNat 32 (ofBytes [b0, b1, b2, b3]) = wordOfBytes b0 b1 b2 b3 := by
  apply BitVec.eq_of_toNat_eq
  have h0 := b0.isLt
  have h1 := b1.isLt
  have h2 := b2.isLt
  have h3 := b3.isLt
  simp only [wordOfBytes, ofBytes, BitVec.toNat_ofNat, BitVec.toNat_append, Nat.shiftLeft_eq]
  rw [← Nat.shiftLeft_eq, ← Nat.shiftLeft_eq, ← Nat.shiftLeft_eq, ← Nat.shiftLeft_add_eq_or_of_lt (by omega),
    ← Nat.shiftLeft_add_eq_or_of_lt (by omega), ← Nat.shiftLeft_add_eq_or_of_lt (by omega)]
  omega

/-- The word that memory holds at an address, low byte first (R10). -/
def wordAt (s : State) (pa : Nat) : Word :=
  wordOfBytes (homeByte s pa) (homeByte s (pa + 1)) (homeByte s (pa + 2)) (homeByte s (pa + 3))

/-- A permitted, unpoisoned read at a backed address gives memory's word. -/
theorem codeWord_backed (hhome : homeOf s pa = some k) (hperm : permits s (masterOf s ctx 0) pa true false = true)
    (hpois : homePois s pa = false) : (codeWord s core ctx pa).1 = some (wordAt s pa) := by
  have hbytes : BitVec.ofNat 32 (ofBytes (homeBytes s pa 4)) = wordAt s pa := ofNat_ofBytes_four _ _ _ _
  unfold homeOf at hhome
  unfold codeWord
  split at hhome
  next hplace => simp [hplace, hperm, hpois, hbytes]
  next hplace => simp [hplace, hperm, hpois, hbytes]
  next => cases hhome

theorem pickVal_eq {α : Type} [DecidableEq α] (n : Nat) (a b : α) : pickVal n a b = a ∨ pickVal n a b = b := by
  unfold pickVal
  split
  · exact .inl rfl
  · split
    · exact .inr rfl
    · exact .inl rfl

/-- The word that a fetch sees where memory gives `new` at a backed address (R74): `new` alone where the word has no other form, and
otherwise one of its forms. -/
theorem fetchWord_backed {pc : Nat} {e : TlbEnt} {t : State} {new : Word} {held : Option Word}
    (hx : xlate s core ctx pc false false true = .ok (pa, e)) (ht : cacheVa s core ctx pc = t)
    (hheld : tget (coreOf t core).icache (icKey ctx pc) = held) (hhome : homeOf t pa = some k)
    (hnew : (codeWord t core ctx pa).1 = some new) :
    ∃ n m, (fetchWord s core ctx pc).1 = .ok (if held.getD new = new ∧ oldWord t ctx pa = new then new
      else pickVal n new (pickVal m (oldWord t ctx pa) (held.getD new))) := by
  unfold fetchWord
  rw [hx]
  dsimp only
  rw [ht, hheld, hnew, hhome]
  simp only [Option.isSome_some, if_true]
  by_cases hsame : held.getD new = new ∧ oldWord t ctx pa = new
  · refine ⟨0, 0, ?_⟩
    cases held <;> simp only [if_pos hsame]
  · let free := (if held.isSome then t else (codeWord t core ctx pa).2).free
    refine ⟨free, free + 1, ?_⟩
    cases held <;> simp only [if_neg hsame] <;> rfl

end Sys2Proof.Machine
end

section
/-! PROOF. A fetch reads memory. -/

namespace Sys2Proof.Machine

open Sys2Proof

/-- Settles O6. -/
theorem fetchReadsMemory : Obligations.FetchReadsMemory := by
  unfold Obligations.FetchReadsMemory
  intro s core ctx pc pa k e hx t held new hhome hperm hpois
  obtain ⟨n, m, hseen⟩ := fetchWord_backed hx rfl rfl hhome (codeWord_backed (core := core) hhome hperm hpois)
  change (fetchWord s core ctx pc).1 = .ok (if held.getD new = new ∧ oldWord t ctx pa = new then new
    else pickVal n new (pickVal m (oldWord t ctx pa) (held.getD new))) at hseen
  have hold : held.getD new = new ∨ held = some (held.getD new) := by cases held <;> simp
  refine ⟨fun hheld hsame => ?_, _, ?_, hseen⟩
  · rw [hseen, if_pos ⟨by rcases hheld with h | h <;> rw [h] <;> rfl, hsame⟩]
  · split
    · exact .inl rfl
    · rcases pickVal_eq n new (pickVal m (oldWord t ctx pa) (held.getD new)) with h | h
      · exact .inl h
      · rw [h]
        rcases pickVal_eq m (oldWord t ctx pa) (held.getD new) with h | h
        · exact .inr (.inl h)
        · rw [h]
          exact hold.imp_right .inr

end Sys2Proof.Machine
end

section
/-! SUPPORT. What the end of an instruction leaves of the issuing sub-braid and of its run (R73, R75). -/

namespace Sys2Proof.Machine

open Sys2Proof

/-- A byte sequence that decodes to its end holds one short word or one long pair (R72). -/
theorem longOf_of_decode {w0 : Word} {ws : List Word} {i : Instr} (h : decode (bytesOfWords (w0 :: ws)) = .ok (i, [])) :
    longOf w0 = decide ((w0 :: ws).length = 2) := by
  simp only [bytesOfWords, decode, wordOfBytes_bytes] at h
  cases hlong : longOf w0 with
  | false =>
    match ws with
    | [] => rfl
    | w1 :: ws' => simp [hlong, bytesOfWords] at h; cases hd : decodeShort w0 <;> simp [hd, Except.map] at h
  | true =>
    match ws with
    | [] => simp [hlong, bytesOfWords] at h
    | [_] => rfl
    | w1 :: w2 :: ws' =>
      simp only [hlong, bytesOfWords, if_true] at h
      cases hd : decodeLong w0 _ <;> rw [hd] at h <;> simp [Except.map] at h

/-- The L bit of a well-formed instruction's word 0 is set exactly when there is a word 1; an event has neither. -/
theorem longOf_word0 {i : Instr} (hwf : i.wf = true) : longOf (word0 i) = isLong i := by
  unfold word0 isLong
  cases hws : encode i with
  | nil => rfl
  | cons w0 ws =>
    have hdecode := decodeOfEncode i [] hwf (by simp [hws])
    rw [List.append_nil, hws] at hdecode
    exact longOf_of_decode hdecode

theorem nextPc_eq {i : Instr} (hwf : i.wf = true) (pc : VAddr) : nextPc pc i = pc + if longOf (word0 i) then 8 else 4 := by
  rw [longOf_word0 hwf, nextPc, instrBytes]
  cases isLong i <;> rfl

section Runs

variable {s : State} {x : Issue} {w : Warp}

theorem getD_lset_same {α : Type} (l : List α) (k : Nat) (d : α) : (lset l k d).getD k d = d := by
  induction l generalizing k with
  | nil => rfl
  | cons y ys ih =>
    cases k with
    | zero => rfl
    | succ k => exact ih k

theorem coreOf_modCore_same {k : Nat} (h : k < s.cores.length) (f : Core → Core) : coreOf (modCore s k f) k = f (coreOf s k) :=
  getD_lmod_same h f _

theorem lmod_length {α : Type} (l : List α) (k : Nat) (f : α → α) : (lmod l k f).length = l.length := by
  induction l generalizing k with
  | nil => rfl
  | cons y ys ih =>
    cases k with
    | zero => rfl
    | succ k => exact congrArg (· + 1) (ih k)

/-- No run is left in the warp's quadrant. -/
theorem runOf_endRun (h : w.core < s.cores.length) : runOf (endRun s w) w.core (quadOf w.slot) = none := by
  rw [runOf, endRun, coreOf_modCore_same h]
  exact getD_lset_same _ _ _

/-- The run's accounting changes no warp. -/
theorem countIssue_warps (s : State) (x : Issue) (ends : Bool) : (countIssue s x ends).warps = s.warps := by
  unfold countIssue
  dsimp only
  split
  · rfl
  · split <;> rfl

/-- An instruction that ends the run leaves none (R75). -/
theorem runOf_countIssue_ends (h : x.w.core < s.cores.length) {ends : Bool} (hends : (ends || eBit x.instr) = true) :
    runOf (countIssue s x ends) x.w.core (quadOf x.w.slot) = none := by
  rw [countIssue, if_pos (by simp [hends])]
  exact runOf_endRun h

/-- The 24th instruction of a run ends it (R75). -/
theorem runOf_countIssue_24th {r : Run} (h : x.w.core < s.cores.length) (hrun : runOf s x.w.core (quadOf x.w.slot) = some r)
    (hcount : 23 ≤ r.count) (ends : Bool) : runOf (countIssue s x ends) x.w.core (quadOf x.w.slot) = none := by
  have hn : 24 ≤ (((coreOf s x.w.core).runs.getD (quadOf x.w.slot) none).map (·.count)).getD 0 + 1 := by
    rw [show (coreOf s x.w.core).runs.getD (quadOf x.w.slot) none = some r from hrun]
    exact Nat.succ_le_succ hcount
  unfold countIssue
  dsimp only
  rw [if_pos hn]
  split
  · exact runOf_endRun h
  · exact runOf_endRun (by rwa [modCore, lmod_length])

/-- The use of credits changes no core. -/
theorem useCredit_cores (s : State) (x : Issue) : (useCredit s x).cores = s.cores := by
  unfold useCredit useExemption
  dsimp only
  split <;> split <;> rfl

/-- Runs stand in the cores. -/
theorem runOf_eq_of_cores {t : State} (h : t.cores = s.cores) (core quad : Nat) : runOf t core quad = runOf s core quad := by
  rw [runOf, coreOf, h]
  rfl

end Runs

section Lanes

variable {s t : State} {x : Issue} {w v : Warp} {sub : Nat} {b : SubBraid}

theorem braidOf_modBraid (h : braidOf w sub = some b) {f : SubBraid → SubBraid} (hf : ∀ b, (f b).id = b.id) :
    braidOf (modBraid w sub f) sub = some (f b) := by
  have hid : (b.id == sub) = true := List.find?_some (p := fun b : SubBraid => b.id == sub) h
  have hkeep : ((fun b : SubBraid => b.id == sub) ∘ fun b => if b.id == sub then f b else b) = fun b => b.id == sub := by
    funext b
    dsimp only [Function.comp]
    split <;> simp [hf]
  rw [braidOf] at h
  rw [braidOf, modBraid, List.find?_map, hkeep, h, Option.map_some, if_pos hid]

theorem braidOf_advanceBraid (h : braidOf w sub = some b) (pc : VAddr) :
    braidOf (advanceBraid w sub pc) sub = some { b with pc := pc } := braidOf_modBraid h fun _ => rfl

theorem braidOf_stampReady (h : braidOf w sub = some b) (clock : Nat) :
    braidOf (stampReady w sub clock) sub = some { b with readySince := clock } := braidOf_modBraid h fun _ => rfl

/-- Warp `wid` of a state, and its sub-braid `sub`. -/
def HasBraid (s : State) (wid sub : Nat) (b : SubBraid) : Prop := ∃ w, tget s.warps wid = some w ∧ braidOf w sub = some b

theorem HasBraid.modWarp {wid : Nat} (h : HasBraid s wid sub b) {f : Warp → Warp} (hf : ∀ w, (f w).braids = w.braids) :
    HasBraid (modWarp s wid f) wid sub b := by
  obtain ⟨w, hw, hb⟩ := h
  exact ⟨f w, tget_tmod_same hw f, by rw [braidOf, hf]; exact hb⟩

/-- The use of credits changes no sub-braid. -/
theorem HasBraid.useCredit (h : HasBraid s x.wid sub b) : HasBraid (useCredit s x) x.wid sub b := by
  have hex : HasBraid (useExemption s x) x.wid sub b := by
    unfold useExemption
    split
    · exact h
    · exact h.modWarp fun _ => rfl
  unfold Machine.useCredit
  dsimp only
  split
  · exact hex.modWarp fun _ => rfl
  · exact hex

/-- A verdict that moves the issuing lanes to `pc` and is counted: the sub-braid stands there. -/
theorem pc_of_moved (hw : tget t.warps x.wid = some w) (hb : braidOf w x.b.id = some x.b) (pc : VAddr) (ends : Bool) (clock : Nat) :
    ∃ w', tget (modWarp (useCredit (countIssue (modWarp t x.wid fun w => advanceBraid w x.b.id pc) x ends) x) x.wid
        fun w => stampReady w x.b.id clock).warps x.wid = some w' ∧ (braidOf w' x.b.id).map (·.pc) = some pc := by
  have hmoved : HasBraid (modWarp t x.wid fun w => advanceBraid w x.b.id pc) x.wid x.b.id { x.b with pc := pc } :=
    ⟨_, tget_tmod_same hw _, braidOf_advanceBraid hb pc⟩
  have hcounted : HasBraid (countIssue (modWarp t x.wid fun w => advanceBraid w x.b.id pc) x ends) x.wid x.b.id
      { x.b with pc := pc } := by
    obtain ⟨w', hw', hb'⟩ := hmoved
    exact ⟨w', by rw [countIssue_warps, hw'], hb'⟩
  obtain ⟨w', hw', hb'⟩ := hcounted.useCredit
  exact ⟨_, tget_tmod_same hw' _, by rw [braidOf_stampReady hb']; rfl⟩

end Lanes

end Sys2Proof.Machine
end

section
/-! PROOF. What a verdict leaves of the sub-braid and its run. -/

namespace Sys2Proof.Machine

open Sys2Proof

variable {x : Issue} {t : State}

theorem runOf_finish_advance (h : runOf (countIssue (modWarp t x.wid fun w => advanceBraid w x.b.id (nextPc x.b.pc x.instr)) x false)
    x.w.core (quadOf x.w.slot) = none) : runOf (finish x (.advance, t)) x.w.core (quadOf x.w.slot) = none :=
  (runOf_eq_of_cores (useCredit_cores _ x) _ _).trans h

/-- Settles O12: `finish` moves the sub-braid, counts the instruction, and nothing after that changes a PC or a run. -/
theorem verdictMovesLanes : Obligations.VerdictMovesLanes := by
  unfold Obligations.VerdictMovesLanes
  rintro i s x ⟨hissuer, hprologue, -⟩
  obtain rfl := issuerOf_instr hissuer
  obtain ⟨hwf, -⟩ := prologue_eq_none_iff.mp hprologue
  refine ⟨fun t w hw hb => ⟨?advance, fun a => pc_of_moved hw hb a true _, ?stall⟩, fun t a _ _ hcore => ⟨?_, ?_, ?_, ?_⟩⟩
  case advance =>
    rw [← nextPc_eq hwf]
    exact pc_of_moved hw hb _ false _
  case stall => exact ⟨_, tget_tmod_same hw _, by rw [braidOf_stampReady hb]; rfl, rfl, rfl, rfl, rfl⟩
  · exact (runOf_eq_of_cores (useCredit_cores _ x) _ _).trans (runOf_countIssue_ends (s := modWarp t x.wid _) hcore rfl)
  · exact runOf_endRun (by rwa [modCore, lmod_length])
  · exact fun he => runOf_finish_advance (runOf_countIssue_ends (s := modWarp t x.wid _) hcore (by rw [he, Bool.or_true]))
  · exact fun r hr hcount => runOf_finish_advance (runOf_countIssue_24th (s := modWarp t x.wid _) hcore hr hcount false)

end Sys2Proof.Machine
end

section
/-! SUPPORT. What a fetch leaves of the state that the next move depends on: the agenda, and every warp's sub-braids. A fetch
fills caches, reads at homes and leaves records (R74, R322, R385), and the fence that a record may begin parks nothing anew
(R390). -/

namespace Sys2Proof.Machine

open Sys2Proof

/-- What decides who issues next: the agenda, and the sub-braids of every warp. -/
def standing (s : State) : List Turn × List (Nat × List SubBraid) := (s.agenda, s.warps.map fun e => (e.1, e.2.braids))

theorem agenda_of_standing {s t : State} (h : standing t = standing s) : t.agenda = s.agenda := congrArg Prod.fst h

/-- Steps over a list keep what each of them keeps. -/
theorem foldl_standing {α : Type} {f : State → α → State} (h : ∀ s a, standing (f s a) = standing s) (l : List α) (s : State) :
    standing (l.foldl f s) = standing s := by
  induction l generalizing s with
  | nil => rfl
  | cons a l ih => exact (ih _).trans (h s a)

theorem getD_standing {o : Option State} {s : State} (h : ∀ t, o = some t → standing t = standing s) :
    standing (o.getD s) = standing s := by
  cases o with
  | none => rfl
  | some t => exact h t rfl

theorem map_tput_of_tget {α β : Type} {g : Nat × α → β} {t : Tbl α} {k : Nat} {a b : α} (h : tget t k = some a)
    (hg : g (k, b) = g (k, a)) : (tput t k b).map g = t.map g := by
  induction t with
  | nil => cases h
  | cons e t ih =>
    obtain ⟨j, c⟩ := e
    unfold tget at h
    unfold tput
    split at h
    next hkj =>
      obtain rfl := Option.some_inj.mp h
      subst hkj
      rw [if_pos rfl, List.map_cons, List.map_cons, hg]
    next hkj =>
      rw [if_neg hkj]
      split at h
      next => cases h
      next hlt => rw [if_neg hlt, List.map_cons, List.map_cons, ih h]

/-- A change of a warp that leaves its sub-braids as they are. -/
theorem modWarp_standing (s : State) (k : Nat) {f : Warp → Warp} (hf : ∀ w, (f w).braids = w.braids) :
    standing (modWarp s k f) = standing s := by
  refine congrArg (Prod.mk s.agenda) ?_
  unfold modWarp tmod
  dsimp only
  split
  next => rfl
  next w hw => exact map_tput_of_tget hw (congrArg (Prod.mk k) (hf w))

@[simp] theorem modSlice_standing (s k f) : standing (modSlice s k f) = standing s := rfl

@[simp] theorem dropParked_standing (s k) : standing (dropParked s k) = standing s := modWarp_standing s k fun _ => rfl

@[simp] theorem startFence_standing (s c f) : standing (startFence s c f) = standing s := by
  unfold startFence
  dsimp only
  split
  · rfl
  · exact foldl_standing dropParked_standing _ s

@[simp] theorem report_standing (s die e) : standing (report s die e) = standing s := by
  unfold report
  dsimp only
  split
  · rfl
  · split
    · split
      · exact startFence_standing ..
      · rfl
    · rfl

@[simp] theorem denyAccess_standing (s die mid ctx a acc) : standing (denyAccess s die mid ctx a acc) = standing s := by
  unfold denyAccess
  cases ctx with
  | none => exact report_standing ..
  | some c => exact (startFence_standing ..).trans (report_standing ..)

@[simp] theorem unbackedAccess_standing (s die mid ctx a wr) : standing (unbackedAccess s die mid ctx a wr) = standing s := by
  grind [unbackedAccess, report_standing]

@[simp] theorem sendMsg_standing (s m) : standing (sendMsg s m) = standing s := rfl

@[simp] theorem sendBy_standing (s link pkg head body) : standing (sendBy s link pkg head body) = standing s := by
  grind [sendBy, sendMsg_standing, foldl_standing]

@[simp] theorem sendLink_standing (s pkg a head body) : standing (sendLink s pkg a head body) = standing s := by
  grind [sendLink, sendBy_standing]

@[simp] theorem peerRead_standing (s k mid a n) : standing (peerRead s k mid a n) = standing s := by
  grind [peerRead, sendLink_standing, report_standing]

@[simp] theorem markPois_standing (s g p) : standing (markPois s g p) = standing s := rfl

@[simp] theorem markWritten_standing (s g p) : standing (markWritten s g p) = standing s := by
  grind [markWritten, markPois_standing]

@[simp] theorem memPut_standing (s a bs) : standing (memPut s a bs) = standing s := by
  unfold memPut
  split <;> rfl

@[simp] theorem writeBack_standing (s b m) : standing (writeBack s b m) = standing s := by
  grind [writeBack, memPut_standing, markWritten_standing, foldl_standing]

@[simp] theorem trainPredictor_standing (s slice b) : standing (trainPredictor s slice b) = standing s := by
  grind [trainPredictor, modSlice_standing]

@[simp] theorem dropBlk_standing (s slice b) : standing (dropBlk s slice b) = standing s := rfl

@[simp] theorem putBlk_standing (s slice b c) : standing (putBlk s slice b c) = standing s := rfl

@[simp] theorem purgeExpired_standing (s slice) : standing (purgeExpired s slice) = standing s := rfl

@[simp] theorem evict_standing (s slice b) : standing (evict s slice b) = standing s := by
  grind [evict, trainPredictor_standing, dropBlk_standing, writeBack_standing]

theorem ensureRoom_standing (slice set n keep a b) :
    ∀ t, ensureRoom slice set n keep a b = some t → standing t = standing b := by
  fun_induction ensureRoom <;> grind [evict_standing, foldl_standing]

@[simp] theorem compact_standing (s slice set) : standing (compact s slice set) = standing s := rfl

@[simp] theorem mergeRegion_standing (slice region lease a b) : standing (mergeRegion slice region lease a b) = standing b := by
  fun_induction mergeRegion <;> grind [dropBlk_standing, putBlk_standing]

theorem installBlk_standing (s slice b) : ∀ t, installBlk s slice b = some t → standing t = standing s := by
  grind [installBlk, modSlice_standing, mergeRegion_standing, purgeExpired_standing, ensureRoom_standing, compact_standing,
    Option.bind_eq_some_iff, Option.map_eq_some_iff]

@[simp] theorem touchBlk_standing (s slice lease a) : standing (touchBlk s slice lease a) = standing s := by
  grind [touchBlk, putBlk_standing]

@[simp] theorem portAt_standing (s die own slice) : standing (portAt s die own slice).2 = standing s := by
  unfold portAt
  split <;> rfl

@[simp] theorem blkWrite_standing (s slice a ps full) : standing (blkWrite s slice a ps full) = standing s := by
  grind [blkWrite, putBlk_standing, foldl_standing]

@[simp] theorem putGrain_standing (s a bs) : standing (putGrain s a bs) = standing s := by
  grind [putGrain, blkWrite_standing, memPut_standing, markWritten_standing]

@[simp] theorem setSplc_standing (s k g v) : standing (setSplc s k g v) = standing s := by grind [setSplc, putBlk_standing]

@[simp] theorem applyPartial_standing (s e) : standing (applyPartial s e) = standing s := by
  grind [applyPartial, report_standing, putGrain_standing, getD_standing]

theorem installAll_standing (slice a b) : ∀ t, installAll slice a b = some t → standing t = standing b := by
  induction a generalizing b with
  | nil => grind [installAll]
  | cons c cs ih => grind [installAll, installBlk_standing, Option.bind_eq_some_iff]

theorem fillGrains_standing (s k f) : ∀ t, fillGrains s k f = some t → standing t = standing s := by
  grind [fillGrains, installAll_standing]

@[simp] theorem dropFill_standing (s k id) : standing (dropFill s k id) = standing s := rfl

@[simp] theorem bringGrains_standing (s k region port m) : standing (bringGrains s k region port m) = standing s := by
  grind [bringGrains, fillGrains_standing, dropFill_standing, foldl_standing, getD_standing]

@[simp] theorem mapEnts_standing (s f) : standing (mapEnts s f) = standing s := rfl

@[simp] theorem performEnt_standing (s id) : standing (performEnt s id) = standing s := rfl

@[simp] theorem performAtBay_standing (s id) : standing (performAtBay s id) = standing s := rfl

@[simp] theorem performEnts_standing (s ids) : standing (performEnts s ids) = standing s := by
  grind [performEnts, performAtBay_standing, foldl_standing]

@[simp] theorem settleGrain_standing (s g) : standing (settleGrain s g) = standing s := by
  unfold settleGrain
  split
  · rfl
  · split
    · rfl
    · rw [performEnts_standing, setSplc_standing]
      exact (foldl_standing applyPartial_standing _ _).trans (bringGrains_standing ..)

@[simp] theorem readGrains_standing (s k region port m) : standing (readGrains s k region port m) = standing s := by
  grind [readGrains, touchBlk_standing, settleGrain_standing, bringGrains_standing, foldl_standing]

@[simp] theorem engTouch_standing (s die own pas) : standing (engTouch s die own pas) = standing s := by
  grind [engTouch, readGrains_standing, portAt_standing, foldl_standing]

@[simp] theorem modDebug_standing (s c f) : standing (modDebug s c f) = standing s := rfl

@[simp] theorem debugRead_standing (s c off) : standing (debugRead s c off).2 = standing s := by
  unfold debugRead
  dsimp only
  split <;> rfl

@[simp] theorem evRead_standing (s reg) : standing (evRead s reg).2 = standing s := by
  unfold evRead
  dsimp only
  split <;> rfl

@[simp] theorem regRead_standing (s m off) : standing (regRead s m off).2 = standing s := by
  grind [regRead, evRead_standing, debugRead_standing]

@[simp] theorem malformedBy_standing (s mid ctx off size reason) :
    standing (malformedBy s mid ctx off size reason) = standing s := by
  grind [malformedBy, report_standing]

@[simp] theorem malformed_standing (s m off size reason) : standing (malformed s m off size reason) = standing s := by
  grind [malformed, malformedBy_standing]

@[simp] theorem mmioRead_standing (s m off size) : standing (mmioRead s m off size).2 = standing s := by
  grind [mmioRead, regRead_standing, malformed_standing]

@[simp] theorem pteRead_standing (s k core ctx a) : standing (pteRead s k core ctx a) = standing s := by
  unfold pteRead
  dsimp only
  split
  · exact denyAccess_standing ..
  · split
    · exact engTouch_standing ..
    · exact engTouch_standing ..
    · exact mmioRead_standing ..
    · exact peerRead_standing ..
    · exact unbackedAccess_standing ..

@[simp] theorem cacheLeaf_standing (s core e) : standing (cacheLeaf s core e) = standing s := rfl

@[simp] theorem walkReads_standing (s0 core ctx va a b c) : standing (walkReads s0 core ctx va a b c) = standing c := by
  fun_induction walkReads <;> grind [pteRead_standing]

@[simp] theorem cacheVa_standing (s core ctx va) : standing (cacheVa s core ctx va) = standing s := by
  grind [cacheVa, cacheLeaf_standing, walkReads_standing]

@[simp] theorem codeWord_standing (s core ctx pa) : standing (codeWord s core ctx pa).2 = standing s := by
  unfold codeWord
  dsimp only
  split
  · exact unbackedAccess_standing ..
  · split
    · exact denyAccess_standing ..
    · split <;> exact engTouch_standing ..
  · split
    · exact denyAccess_standing ..
    · split <;> exact engTouch_standing ..
  · split
    · exact denyAccess_standing ..
    · exact mmioRead_standing ..
  · split
    · exact denyAccess_standing ..
    · exact peerRead_standing ..

@[simp] theorem fetchWord_standing (s core ctx pc) : standing (fetchWord s core ctx pc).2 = standing s := by
  have hcode (s : State) (pa : Nat) : standing (codeWord (cacheVa s core ctx pc) core ctx pa).2 = standing s :=
    (codeWord_standing ..).trans (cacheVa_standing ..)
  have hmove (s : State) (pa : Nat) (c : Bool) :
      standing (if c then cacheVa s core ctx pc else (codeWord (cacheVa s core ctx pc) core ctx pa).2) = standing s := by
    cases c
    · exact hcode s pa
    · exact cacheVa_standing ..
  unfold fetchWord
  split
  · exact cacheVa_standing ..
  · dsimp only
    split
    · exact cacheVa_standing ..
    · exact hcode ..
    · split <;> split <;> exact hmove ..

@[simp] theorem fetchInstr_standing (s core ctx pc lanes) : standing (fetchInstr s core ctx pc lanes).2 = standing s := by
  have hword (s : State) (a : Nat) {r : Except (Nat × Nat) Word} {t : State} (h : fetchWord s core ctx a = (r, t)) :
      standing t = standing s := by rw [← fetchWord_standing s core ctx a, h]
  unfold fetchInstr
  dsimp only
  split
  next h0 => exact hword _ _ h0
  next h0 =>
    split
    · exact hword _ _ h0
    · split
      · split
        next h1 => exact (hword _ _ h1).trans (hword _ _ h0)
        next h1 => split <;> exact (hword _ _ h1).trans (hword _ _ h0)
      · exact hword _ _ h0

end Sys2Proof.Machine
end

section
/-! SUPPORT. Only `step` takes a turn off the agenda. In the sections that follow `f_agenda` says that `f` leaves the agenda as it
was; it follows from what the functions that `f` calls leave, in the order of the model. Here: outcomes and folds. -/

namespace Sys2Proof.Machine

open Sys2Proof

/-- The agenda that an outcome leaves, where it is a next state. -/
def agendaAfter : Host.Outcome State Fault Refusal → Option (List Turn)
  | .next t => some t.agenda
  | _ => none

theorem agendaAfter_ite_next {c : Prop} [Decidable c] {s : State} {o} (h : ¬c → agendaAfter o = some s.agenda) :
    agendaAfter (if c then .next s else o) = some s.agenda := by
  split <;> [rfl; exact h ‹_›]

theorem agendaAfter_ite {c : Prop} [Decidable c] {a : Option (List Turn)} {o p} (ho : agendaAfter o = a) (hp : agendaAfter p = a) :
    agendaAfter (if c then o else p) = a := by
  split <;> [exact ho; exact hp]

theorem agendaAfter_next {s t : State} (h : t.agenda = s.agenda) : agendaAfter (.next t) = some s.agenda := congrArg some h

/-- Steps over a list keep the agenda where each of them does. -/
theorem foldl_agenda {α : Type} {f : State → α → State} (h : ∀ s a, (f s a).agenda = s.agenda) (l : List α) (s : State) :
    (l.foldl f s).agenda = s.agenda := by
  induction l generalizing s with
  | nil => rfl
  | cons a l ih => exact (ih _).trans (h s a)

/-- Stated apart: where the state comes from a long computation, `rfl` would have the kernel run it. -/
theorem withSaved_agenda (s : State) (x : List Saved) : ({ s with saved := x } : State).agenda = s.agenda := rfl

/-- The same of a state that the security processor's part changes. -/
theorem withSec_agenda (s : State) (x : Sec) : ({ s with sec := x } : State).agenda = s.agenda := rfl

theorem foldl_fst_agenda {α β : Type} {f : State × β → α → State × β} (h : ∀ r a, (f r a).1.agenda = r.1.agenda) (l : List α)
    (r : State × β) : (l.foldl f r).1.agenda = r.1.agenda := by
  induction l generalizing r with
  | nil => rfl
  | cons a l ih => exact (ih _).trans (h r a)

theorem foldl_snd_agenda {α β : Type} {f : β × State → α → β × State} (h : ∀ r a, (f r a).2.agenda = r.2.agenda) (l : List α)
    (r : β × State) : (l.foldl f r).2.agenda = r.2.agenda := by
  induction l generalizing r with
  | nil => rfl
  | cons a l ih => exact (ih _).trans (h r a)

/-- Steps over a list that may fail keep the agenda where each of them does. -/
theorem foldl_bind_agenda {α : Type} {f : State → α → Option State} (h : ∀ s a t, f s a = some t → t.agenda = s.agenda)
    (l : List α) (s : State) : ∀ t, l.foldl (fun o a => o.bind fun s => f s a) (some s) = some t → t.agenda = s.agenda := by
  induction l generalizing s with
  | nil => rintro _ ⟨⟩; rfl
  | cons a l ih =>
    intro t ht
    rw [List.foldl_cons, Option.bind_some] at ht
    cases hf : f s a with
    | none =>
      rw [hf] at ht
      clear ih hf
      induction l with
      | nil => cases ht
      | cons b l ih => exact ih ht
    | some u => exact (ih u t (hf ▸ ht)).trans (h s a u hf)

theorem getD_agenda {o : Option State} {s : State} (h : ∀ t, o = some t → t.agenda = s.agenda) :
    (o.getD s).agenda = s.agenda := by
  cases o with
  | none => rfl
  | some t => exact h t rfl

end Sys2Proof.Machine
end

section
/-! SUPPORT. What the operations over warps, sub-braids, records and homes leave of the agenda (R19 to R33, R233 to R238, R316,
R436). -/

namespace Sys2Proof.Machine

open Sys2Proof

@[simp] theorem freePick_agenda (s) : (freePick s).2.agenda = s.agenda := rfl

@[simp] theorem startFence_agenda (s c f) : (startFence s c f).agenda = s.agenda := agenda_of_standing (startFence_standing ..)

@[simp] theorem report_agenda (s die e) : (report s die e).agenda = s.agenda := agenda_of_standing (report_standing ..)

@[simp] theorem dropDescs_agenda (s wid) : (dropDescs s wid).agenda = s.agenda := by
  grind [dropDescs, modBay_agenda, foldl_agenda]

@[simp] theorem dropDescsOf_agenda (s wid op) : (dropDescsOf s wid op).agenda = s.agenda := by
  grind [dropDescsOf, dropDescs_agenda]

@[simp] theorem noteRelease_agenda (s wid) : (noteRelease s wid).agenda = s.agenda := by
  grind [noteRelease, modWarp_agenda, dropDescs_agenda]

@[simp] theorem entPort_agenda (s core engine g) : (entPort s core engine g).2.agenda = s.agenda := by grind [entPort]

@[simp] theorem denyAccess_agenda (s die mid ctx a acc) : (denyAccess s die mid ctx a acc).agenda = s.agenda :=
  agenda_of_standing (denyAccess_standing ..)

@[simp] theorem unbackedAccess_agenda (s die mid ctx a wr) : (unbackedAccess s die mid ctx a wr).agenda = s.agenda :=
  agenda_of_standing (unbackedAccess_standing ..)

@[simp] theorem sendMsg_agenda (s m) : (sendMsg s m).agenda = s.agenda := agenda_of_standing (sendMsg_standing ..)

@[simp] theorem sendBy_agenda (s link pkg head body) : (sendBy s link pkg head body).agenda = s.agenda :=
  agenda_of_standing (sendBy_standing ..)

@[simp] theorem sendLink_agenda (s pkg a head body) : (sendLink s pkg a head body).agenda = s.agenda :=
  agenda_of_standing (sendLink_standing ..)

@[simp] theorem sendEth_agenda (s port bs) : (sendEth s port bs).agenda = s.agenda := rfl

@[simp] theorem peerRead_agenda (s k mid a n) : (peerRead s k mid a n).agenda = s.agenda :=
  agenda_of_standing (peerRead_standing ..)

end Sys2Proof.Machine
end

section
/-! SUPPORT. What slices, reads of the MMIO range and the walks of translation leave of the agenda (R319 to R329, R381, R391 to
R396). -/

namespace Sys2Proof.Machine

open Sys2Proof

@[simp] theorem markPois_agenda (s g p) : (markPois s g p).agenda = s.agenda := agenda_of_standing (markPois_standing ..)

@[simp] theorem markWritten_agenda (s g p) : (markWritten s g p).agenda = s.agenda :=
  agenda_of_standing (markWritten_standing ..)

@[simp] theorem writeBack_agenda (s b m) : (writeBack s b m).agenda = s.agenda := agenda_of_standing (writeBack_standing ..)

@[simp] theorem trainPredictor_agenda (s slice b) : (trainPredictor s slice b).agenda = s.agenda :=
  agenda_of_standing (trainPredictor_standing ..)

@[simp] theorem dropBlk_agenda (s slice b) : (dropBlk s slice b).agenda = s.agenda := agenda_of_standing (dropBlk_standing ..)

@[simp] theorem putBlk_agenda (s slice b c) : (putBlk s slice b c).agenda = s.agenda := agenda_of_standing (putBlk_standing ..)

@[simp] theorem purgeExpired_agenda (s slice) : (purgeExpired s slice).agenda = s.agenda :=
  agenda_of_standing (purgeExpired_standing ..)

theorem ensureRoom_agenda (slice set n keep a b) : ∀ t, ensureRoom slice set n keep a b = some t → t.agenda = b.agenda :=
  fun t h => agenda_of_standing (ensureRoom_standing _ _ _ _ _ _ t h)

theorem installBlk_agenda (s slice b) : ∀ t, installBlk s slice b = some t → t.agenda = s.agenda :=
  fun t h => agenda_of_standing (installBlk_standing _ _ _ t h)

@[simp] theorem touchBlk_agenda (s slice lease a) : (touchBlk s slice lease a).agenda = s.agenda :=
  agenda_of_standing (touchBlk_standing ..)

@[simp] theorem portAt_agenda (s die own slice) : (portAt s die own slice).2.agenda = s.agenda :=
  agenda_of_standing (portAt_standing ..)

@[simp] theorem startFills_agenda (s slice region lease port seam m) :
    (startFills s slice region lease port seam m).agenda = s.agenda := by
  grind [startFills, modSlice_agenda, nextId_agenda, foldl_agenda]

@[simp] theorem blkWrite_agenda (s slice a ps full) : (blkWrite s slice a ps full).agenda = s.agenda :=
  agenda_of_standing (blkWrite_standing ..)

@[simp] theorem putGrain_agenda (s a bs) : (putGrain s a bs).agenda = s.agenda := agenda_of_standing (putGrain_standing ..)

@[simp] theorem poisonHome_agenda (s a) : (poisonHome s a).agenda = s.agenda := by
  grind [poisonHome, putBlk_agenda, markPois_agenda]

@[simp] theorem setSplc_agenda (s k g v) : (setSplc s k g v).agenda = s.agenda := agenda_of_standing (setSplc_standing ..)

@[simp] theorem applyPartial_agenda (s e) : (applyPartial s e).agenda = s.agenda :=
  agenda_of_standing (applyPartial_standing ..)

theorem installAll_agenda (slice a b) : ∀ t, installAll slice a b = some t → t.agenda = b.agenda :=
  fun t h => agenda_of_standing (installAll_standing _ _ _ t h)

theorem fillGrains_agenda (s k f) : ∀ t, fillGrains s k f = some t → t.agenda = s.agenda :=
  fun t h => agenda_of_standing (fillGrains_standing _ _ _ t h)

@[simp] theorem dropFill_agenda (s k id) : (dropFill s k id).agenda = s.agenda := agenda_of_standing (dropFill_standing ..)

@[simp] theorem bringGrains_agenda (s k region port m) : (bringGrains s k region port m).agenda = s.agenda :=
  agenda_of_standing (bringGrains_standing ..)

@[simp] theorem mapEnts_agenda (s f) : (mapEnts s f).agenda = s.agenda := agenda_of_standing (mapEnts_standing ..)

@[simp] theorem performEnt_agenda (s id) : (performEnt s id).agenda = s.agenda := agenda_of_standing (performEnt_standing ..)

@[simp] theorem performAtBay_agenda (s id) : (performAtBay s id).agenda = s.agenda :=
  agenda_of_standing (performAtBay_standing ..)

@[simp] theorem performEnts_agenda (s ids) : (performEnts s ids).agenda = s.agenda :=
  agenda_of_standing (performEnts_standing ..)

@[simp] theorem settleGrain_agenda (s g) : (settleGrain s g).agenda = s.agenda := agenda_of_standing (settleGrain_standing ..)

@[simp] theorem engTouch_agenda (s die own pas) : (engTouch s die own pas).agenda = s.agenda :=
  agenda_of_standing (engTouch_standing ..)

@[simp] theorem engTouchN_agenda (s die own a n) : (engTouchN s die own a n).agenda = s.agenda := by
  grind [engTouchN, engTouch_agenda]

@[simp] theorem cutLease_agenda (s slice a) : (cutLease s slice a).agenda = s.agenda := by grind [cutLease, modSlice_agenda]

@[simp] theorem staleFills_agenda (s slice a) : (staleFills s slice a).agenda = s.agenda := rfl

@[simp] theorem dropLeaseGrain_agenda (s die a) : (dropLeaseGrain s die a).agenda = s.agenda := by
  grind [dropLeaseGrain, cutLease_agenda, staleFills_agenda]

@[simp] theorem retireGrain_agenda (s g) : (retireGrain s g).agenda = s.agenda := by
  grind [retireGrain, mapEnts_agenda, dropLeaseGrain_agenda, foldl_agenda]

@[simp] theorem reelNote_agenda (s a wr) : (reelNote s a wr).agenda = s.agenda := by
  grind [reelNote, denyAccess_agenda, unbackedAccess_agenda, getD_agenda]

@[simp] theorem reelGrain_agenda (s src dst) : (reelGrain s src dst).1.agenda = s.agenda := by
  grind [reelGrain, settleGrain_agenda, poisonHome_agenda, putGrain_agenda]

@[simp] theorem reelCopy_agenda (s src dst) : (reelCopy s src dst).agenda = s.agenda := by
  have hpages (m : Bool) (l : List Nat) (s : State) : (l.foldl (fun s a => reelNote s a m) s).agenda = s.agenda :=
    foldl_agenda (fun s a => reelNote_agenda s a m) l s
  unfold reelCopy
  refine (withSec_agenda _ _).trans ?_
  refine Eq.trans (foldl_fst_agenda (by intro r i; exact reelGrain_agenda ..) _ _) ?_
  exact (hpages true _ _).trans (hpages false _ _)

@[simp] theorem reelHook_agenda (s a) : (reelHook s a).agenda = s.agenda := by grind [reelHook, reelCopy_agenda]

@[simp] theorem openGrain_agenda (s a) : (openGrain s a).agenda = s.agenda := by
  grind [openGrain, settleGrain_agenda, reelHook_agenda]

@[simp] theorem homeStoreBy_agenda (s die own a bs) : (homeStoreBy s die own a bs).agenda = s.agenda := by
  grind [homeStoreBy, blkWrite_agenda, installBlk_agenda, portAt_agenda, retireGrain_agenda, bringGrains_agenda,
    openGrain_agenda, putGrain_agenda, dropLeaseGrain_agenda, getD_agenda]

@[simp] theorem homeFill_agenda (s die own a) : (homeFill s die own a).agenda = s.agenda := by
  grind [homeFill, portAt_agenda, retireGrain_agenda, bringGrains_agenda, openGrain_agenda]

@[simp] theorem homeStore_agenda (s a bs) : (homeStore s a bs).agenda = s.agenda := by
  grind [homeStore, homeStoreBy_agenda, getD_agenda]

@[simp] theorem writeBytesBy_agenda (s die own a bs) : (writeBytesBy s die own a bs).agenda = s.agenda := by
  grind [writeBytesBy, homeStoreBy_agenda, foldl_agenda]

@[simp] theorem writeBytes_agenda (s a bs) : (writeBytes s a bs).agenda = s.agenda := by
  grind [writeBytes, homeStore_agenda, foldl_agenda]

@[simp] theorem uncorrectedGrain_agenda (s a) : (uncorrectedGrain s a).agenda = s.agenda := by
  grind [uncorrectedGrain, report_agenda, markPois_agenda, getD_agenda]

@[simp] theorem muddleRecords_agenda (s a n) : (muddleRecords s a n).agenda = s.agenda := by
  grind [muddleRecords, writeBytes_agenda, foldl_agenda]

@[simp] theorem modDebug_agenda (s c f) : (modDebug s c f).agenda = s.agenda := agenda_of_standing (modDebug_standing ..)

@[simp] theorem malformedBy_agenda (s mid ctx off size reason) : (malformedBy s mid ctx off size reason).agenda = s.agenda :=
  agenda_of_standing (malformedBy_standing ..)

@[simp] theorem malformed_agenda (s m off size reason) : (malformed s m off size reason).agenda = s.agenda :=
  agenda_of_standing (malformed_standing ..)

@[simp] theorem mmioRead_agenda (s m off size) : (mmioRead s m off size).2.agenda = s.agenda :=
  agenda_of_standing (mmioRead_standing ..)

@[simp] theorem cacheVa_agenda (s core ctx va) : (cacheVa s core ctx va).agenda = s.agenda :=
  agenda_of_standing (cacheVa_standing ..)

end Sys2Proof.Machine
end

section
/-! SUPPORT. What a trap, the fetch, the end of an issue, barriers and the life of warps and blocks leave of the agenda (R73,
R178, R243, R398). -/

namespace Sys2Proof.Machine

open Sys2Proof

@[simp] theorem takeTrap_agenda (s wid pc grant t) : (takeTrap s wid pc grant t).agenda = s.agenda := by
  grind [takeTrap, modWarp_agenda, startFence_agenda]

@[simp] theorem fetchWord_agenda (s core ctx pc) : (fetchWord s core ctx pc).2.agenda = s.agenda :=
  agenda_of_standing (fetchWord_standing ..)

@[simp] theorem eretFetch_agenda (s w) : (eretFetch s w).2.agenda = s.agenda := by grind [eretFetch, fetchWord_agenda]

@[simp] theorem eretDone_agenda (wid w grant r) : (eretDone wid w grant r).agenda = r.2.agenda := by
  unfold eretDone
  dsimp only
  split
  · exact modWarp_agenda ..
  · exact (takeTrap_agenda ..).trans (modWarp_agenda ..)

@[simp] theorem endRun_agenda (s w) : (endRun s w).agenda = s.agenda := rfl

@[simp] theorem countIssue_agenda (s x ends) : (countIssue s x ends).agenda = s.agenda := by
  grind [countIssue, endRun_agenda, modCore_agenda, getD_agenda]

@[simp] theorem useExemption_agenda (s x) : (useExemption s x).agenda = s.agenda := by grind [useExemption, modWarp_agenda]

@[simp] theorem useCredit_agenda (s x) : (useCredit s x).agenda = s.agenda := by
  grind [useCredit, modWarp_agenda, useExemption_agenda]

@[simp] theorem finish_agenda (x r) : (finish x r).agenda = r.2.agenda := by
  obtain ⟨v, t⟩ := r
  cases v <;>
    simp only [finish, modWarp_agenda, modCore_agenda, useCredit_agenda, countIssue_agenda, endRun_agenda, takeTrap_agenda,
      useExemption_agenda]

@[simp] theorem parkIssuing_agenda (s x m cond) : (parkIssuing s x m cond).agenda = s.agenda := rfl

@[simp] theorem parkAll_agenda (s x cond) : (parkAll s x cond).2.agenda = s.agenda := rfl

@[simp] theorem unpark_agenda (s wid c) : (unpark s wid c).agenda = s.agenda := rfl

@[simp] theorem reissue_agenda (s wid c) : (reissue s wid c).agenda = s.agenda := rfl

@[simp] theorem modLoad_agenda (s id f) : (modLoad s id f).agenda = s.agenda := rfl

theorem poisUses_agenda (x s u) : ∀ t, poisUses x s u = some t → t.2.agenda = s.agenda := by
  grind [poisUses, modWarp_agenda, Option.bind_eq_some_iff, Option.map_eq_some_iff, List.findSome?_eq_some_iff]

theorem poisOf_agenda (x s) : ∀ t, poisOf x s = some t → t.2.agenda = s.agenda := poisUses_agenda x s _

@[simp] theorem trapAtIssue_agenda (s wid w b t) : (trapAtIssue s wid w b t).agenda = s.agenda := by
  grind [trapAtIssue, takeTrap_agenda, modWarp_agenda, endRun_agenda]

@[simp] theorem checkArrive_agenda (s wid b) : (checkArrive s wid b).agenda = s.agenda := by
  grind [checkArrive, modWarp_agenda, getD_agenda]

theorem arriveLanes_agenda (s wid b lanes k) : ∀ t, arriveLanes s wid b lanes k = some t → t.agenda = s.agenda := by
  grind [arriveLanes, checkArrive_agenda, modWarp_agenda, getD_agenda]

@[simp] theorem takeParkedGo_agenda (wid b a c) : (takeParkedGo wid b a c).agenda = c.agenda := by
  fun_induction takeParkedGo <;> grind [modWarp_agenda, arriveLanes_agenda]

@[simp] theorem takeParked_agenda (s wid b) : (takeParked s wid b).agenda = s.agenda := by
  grind [takeParked, takeParkedGo_agenda]

@[simp] theorem wakeBar_agenda (s ws b) : (wakeBar s ws b).agenda = s.agenda := by
  grind [wakeBar, modWarp_agenda, takeParked_agenda, unpark_agenda, foldl_agenda]

@[simp] theorem flipBar_agenda (s blk n) : (flipBar s blk n).agenda = s.agenda := by
  grind [flipBar, modWarp_agenda, wakeBar_agenda, modBlock_agenda, foldl_agenda]

@[simp] theorem flipTest_agenda (s blk n) : (flipTest s blk n).agenda = s.agenda := by grind [flipTest, flipBar_agenda]

@[simp] theorem leaveBar_agenda (s wid w n) : (leaveBar s wid w n).agenda = s.agenda := by
  grind [leaveBar, modWarp_agenda, flipTest_agenda, modBlock_agenda, getD_agenda]

@[simp] theorem detachBars_agenda (s wid w) : (detachBars s wid w).agenda = s.agenda := by
  grind [detachBars, leaveBar_agenda, modBlock_agenda, foldl_agenda]

@[simp] theorem passDue_agenda (s) : (passDue s).agenda = s.agenda := rfl

@[simp] theorem modKnot_agenda (s slice krec f) : (modKnot s slice krec f).agenda = s.agenda := rfl

@[simp] theorem restartWatchdog_agenda (s c) : (restartWatchdog s c).agenda = s.agenda := rfl

@[simp] theorem fenceCore_agenda (s core cause) : (fenceCore s core cause).agenda = s.agenda := by
  grind [fenceCore, report_agenda, startFence_agenda, modCore_agenda, foldl_agenda]

@[simp] theorem fenceDrained_agenda (s core) : (fenceDrained s core).agenda = s.agenda := by
  grind [fenceDrained, fenceCore_agenda]

@[simp] theorem flipCluster_agenda (s cid n) : (flipCluster s cid n).agenda = s.agenda := by
  grind [flipCluster, modCluster_agenda, wakeBar_agenda, modBlock_agenda, foldl_agenda, getD_agenda]

@[simp] theorem clusterArrive_agenda (s cid n rank) : (clusterArrive s cid n rank).agenda = s.agenda := by
  grind [clusterArrive, flipCluster_agenda, modCluster_agenda]

@[simp] theorem flipGrid_agenda (s g) : (flipGrid s g).agenda = s.agenda := by
  grind [flipGrid, modGrid_agenda, wakeBar_agenda, modBlock_agenda, foldl_agenda]

@[simp] theorem gridArrive_agenda (s g cidx rank) : (gridArrive s g cidx rank).agenda = s.agenda := by
  grind [gridArrive, modGrid_agenda, flipGrid_agenda]

@[simp] theorem freeBlockSlots_agenda (s bid core) : (freeBlockSlots s bid core).agenda = s.agenda := rfl

@[simp] theorem queueBlockEnd_agenda (s bid core) : (queueBlockEnd s bid core).agenda = s.agenda := rfl

@[simp] theorem endTaker_agenda (s t) : (endTaker s t).agenda = s.agenda := by grind [endTaker, modKnot_agenda, foldl_agenda]

@[simp] theorem giveRequests_agenda (s t) : (giveRequests s t).agenda = s.agenda := by
  grind [giveRequests, modNet_agenda, nextId_agenda, foldl_agenda]

@[simp] theorem endBlock_agenda (s bid) : (endBlock s bid).agenda = s.agenda := by
  grind [endBlock, modGrid_agenda, reissue_agenda, clusterArrive_agenda, gridArrive_agenda, modNet_agenda, fenceDrained_agenda,
    modCluster_agenda, giveRequests_agenda, passDue_agenda, restartWatchdog_agenda, endTaker_agenda, queueBlockEnd_agenda,
    modBlock_agenda, foldl_agenda, getD_agenda]

@[simp] theorem endWarp_agenda (s wid) : (endWarp s wid).agenda = s.agenda := by
  grind [endWarp, modWarp_agenda, endBlock_agenda, detachBars_agenda]

@[simp] theorem reconCheck_agenda (s wid) : (reconCheck s wid).agenda = s.agenda := by
  grind [reconCheck, takeTrap_agenda, modWarp_agenda, foldl_agenda, getD_agenda]

@[simp] theorem settleWarp_agenda (s wid) : (settleWarp s wid).agenda = s.agenda := by
  grind [settleWarp, reconCheck_agenda, modWarp_agenda, endWarp_agenda, foldl_agenda]

@[simp] theorem exitOp_agenda (s wid m) : (exitOp s wid m).agenda = s.agenda := by
  grind [exitOp, checkArrive_agenda, modWarp_agenda, settleWarp_agenda, foldl_agenda]

@[simp] theorem addWarp_agenda (s w) : (addWarp s w).agenda = s.agenda := rfl

theorem attachOne_agenda (s att label members args fctl) :
    ∀ t, attachOne s att label members args fctl = some t → t.agenda = s.agenda := by
  grind [attachOne, addWarp_agenda, modBlock_agenda, foldl_agenda, getD_agenda, Option.bind_eq_some_iff, Option.map_eq_some_iff,
    List.findSome?_eq_some_iff]

@[simp] theorem attachMany_agenda (att label members args fctl a b) :
    (attachMany att label members args fctl a b).2.agenda = b.agenda := by
  fun_induction attachMany <;> grind [attachOne_agenda]

@[simp] theorem joinBar_agenda (s blk ids n) : (joinBar s blk ids n).agenda = s.agenda := by
  grind [joinBar, modWarp_agenda, flipTest_agenda, modBlock_agenda, foldl_agenda, getD_agenda]

@[simp] theorem joinBars_agenda (s att members ids) : (joinBars s att members ids).agenda = s.agenda := by
  grind [joinBars, joinBar_agenda, modBlock_agenda, foldl_agenda]

@[simp] theorem attachAll_agenda (att label members args fctl n s) :
    (attachAll att label members args fctl n s).2.agenda = s.agenda := by
  grind [attachAll, attachMany_agenda, joinBars_agenda]

end Sys2Proof.Machine
end

section
/-! SUPPORT. What the resource queue, scratch, global accesses and rings leave of the agenda (R141, R260 to R270, R281). -/

namespace Sys2Proof.Machine

open Sys2Proof

@[simp] theorem zeroSlot_agenda (s core slot) : (zeroSlot s core slot).agenda = s.agenda := rfl

@[simp] theorem mapName_agenda (s blk n k) : (mapName s blk n k).agenda = s.agenda := by
  grind [mapName, modCore_agenda, modBlock_agenda, zeroSlot_agenda]

@[simp] theorem unmapName_agenda (s blk n) : (unmapName s blk n).agenda = s.agenda := by
  grind [unmapName, modCore_agenda, modBlock_agenda, getD_agenda]

theorem grantNow_agenda (s wid m r) : ∀ t, grantNow s wid m r = some t → t.agenda = s.agenda := by
  intro t h
  obtain ⟨w, -, h⟩ := Option.bind_eq_some_iff.mp h
  cases r with
  | attach sd c label members args =>
    dsimp only at h
    split at h
    · cases h
      exact (modWarp_agenda ..).trans (attachAll_agenda ..)
    · cases h
  | grow sd n => grind [modWarp_agenda]
  | acc n _ => grind [mapName_agenda, Option.bind_eq_some_iff, Option.map_eq_some_iff]

@[simp] theorem endRequest_agenda (s e) : (endRequest s e).agenda = s.agenda := by
  grind [endRequest, reissue_agenda, unpark_agenda]

@[simp] theorem dropEntry_agenda (s core e) : (dropEntry s core e).agenda = s.agenda := rfl

theorem serveGo_agenda (s core a b) : ∀ t, serveGo s core a b = some t → t.agenda = s.agenda := by
  fun_induction serveGo <;> grind [endRequest_agenda, grantNow_agenda, dropEntry_agenda]

theorem serveOne_agenda (s core) : ∀ t, serveOne s core = some t → t.agenda = s.agenda := by grind [serveOne, serveGo_agenda]

@[simp] theorem serveAll_agenda (core a b) : (serveAll core a b).agenda = b.agenda := by
  fun_induction serveAll <;> grind [serveOne_agenda]

@[simp] theorem serveCore_agenda (s core) : (serveCore s core).agenda = s.agenda := by grind [serveCore, serveAll_agenda]

@[simp] theorem servePair_agenda (s core) : (servePair s core).agenda = s.agenda := by grind [servePair, serveCore_agenda]

@[simp] theorem enqueueRequest_agenda (s x core r) : (enqueueRequest s x core r).2.agenda = s.agenda := by
  grind [enqueueRequest, parkAll_agenda, modCore_agenda]

theorem requestNow_agenda (s x core r) : ∀ t, requestNow s x core r = some t → t.agenda = s.agenda := by
  grind [requestNow, serveCore_agenda, grantNow_agenda, Option.bind_eq_some_iff, Option.map_eq_some_iff,
    List.findSome?_eq_some_iff]

@[simp] theorem refuse_agenda (s core e) : (refuse s core e).agenda = s.agenda := by
  grind [refuse, endRequest_agenda, takeTrap_agenda, modWarp_agenda, dropEntry_agenda]

@[simp] theorem performRank_agenda (s cluster rank l) : (performRank s cluster rank l).1.agenda = s.agenda := by
  grind [performRank, modBlock_agenda, getD_agenda]

@[simp] theorem returnLoad_agenda (s l) : (returnLoad s l).agenda = s.agenda := by
  grind [returnLoad, modWarp_agenda, modNet_agenda, noteRelease_agenda, unpark_agenda, foldl_agenda, getD_agenda]

@[simp] theorem sendPort_agenda (s src wid cluster rank op queued) :
    (sendPort s src wid cluster rank op queued).2.agenda = s.agenda :=
  rfl

@[simp] theorem sendLoad_agenda (s m l w) : (sendLoad s m l w).agenda = s.agenda := by
  grind [sendLoad, modLoad_agenda, modNet_agenda, nextId_agenda]

@[simp] theorem scratchLoad_agenda (x s l0) : (scratchLoad x s l0).2.agenda = s.agenda := by
  unfold scratchLoad
  extract_lets cluster cells ranks own peers ready counts
  split
  · rfl
  next s1 _ =>
    have h1 : s1.agenda = s.agenda := getD_agenda fun t h => by
      obtain ⟨op, -, rfl⟩ := Option.map_eq_some_iff.mp h
      exact dropDescsOf_agenda ..
    have h2 : (nextId s1).2.agenda = s1.agenda := nextId_agenda s1
    split
    next id s2 hid =>
    rw [hid] at h2
    extract_lets l s3 s4 r
    have h3 : s3.agenda = s2.agenda := by grind [modWarp_agenda]
    have h4 : s4.agenda = s3.agenda := by grind [modWarp_agenda]
    have hr : r.1.agenda = s4.agenda := by
      unfold r
      split
      · exact foldl_fst_agenda (fun r k => performRank_agenda r.1 ..) _ _
      · rfl
    split
    · grind [returnLoad_agenda]
    next absent s5 s6 s7 _ =>
      have h5 : s5.agenda = r.1.agenda := modNet_agenda ..
      have h6 : s6.agenda = s5.agenda := by
        unfold s6
        split
        · rfl
        · exact foldl_agenda (fun s k => sendPort_agenda s ..) _ _
      have h7 : s7.agenda = s6.agenda := foldl_agenda (by grind [sendPort_agenda, modWarp_agenda]) _ _
      grind [parkAll_agenda]

@[simp] theorem ackGroup_agenda (s grp) : (ackGroup s grp).agenda = s.agenda := by
  grind [ackGroup, modWarp_agenda, modNet_agenda, noteRelease_agenda, unpark_agenda]

@[simp] theorem scratchStore_agenda (x s cells) : (scratchStore x s cells).2.agenda = s.agenda := by
  grind [scratchStore, modWarp_agenda, sendPort_agenda, modNet_agenda, nextId_agenda, parkAll_agenda, modBlock_agenda,
    foldl_agenda]

theorem scratchAccess_agenda {go : List (Nat × Nat × Nat) → Verdict × State} {s : State}
    (h : ∀ cells, (go cells).2.agenda = s.agenda) (x uni size addrs rd wr) :
    (scratchAccess x s uni size addrs rd wr go).2.agenda = s.agenda := by
  unfold scratchAccess
  dsimp only
  split
  · rfl
  · split
    next r hr => exact poisOf_agenda x s r hr
    · split
      · rfl
      · split
        · rfl
        · exact h _

theorem globalAccess_agenda {go : State → List (Nat × Nat × Nat) → Verdict × State}
    (h : ∀ t cells, (go t cells).2.agenda = t.agenda) (x s uni size addrs rd wr) :
    (globalAccess x s uni size addrs rd wr go).2.agenda = s.agenda := by
  have hwalk (l : List (Nat × Nat)) : (l.foldl (fun s e => cacheVa s x.w.core x.ctx e.2) s).agenda = s.agenda :=
    foldl_agenda (fun s e => cacheVa_agenda s _ _ _) l s
  unfold globalAccess
  dsimp only
  split
  · rfl
  · split
    · exact hwalk _
    · split
      · exact hwalk _
      · split
        next r hr => exact (poisOf_agenda x _ r hr).trans (hwalk _)
        · split
          · exact hwalk _
          · exact (h _ _).trans (hwalk _)

@[simp] theorem addReq_agenda (core load span addrs s region) : (addReq core load span addrs s region).agenda = s.agenda := by
  grind [addReq, entPort_agenda, modNet_agenda, nextId_agenda]

@[simp] theorem startLoad_agenda (x s dst size signed span parts) :
    (startLoad x s dst size signed span parts).agenda = s.agenda := by
  grind [startLoad, modWarp_agenda, modNet_agenda, nextId_agenda, addReq_agenda, foldl_agenda]

@[simp] theorem startStore_agenda (x s kind ps) : (startStore x s kind ps).2.agenda = s.agenda := by
  grind [startStore, modWarp_agenda, modNet_agenda, nextId_agenda]

@[simp] theorem addNt_agenda (x grp s p) : (addNt x grp s p).agenda = s.agenda := by
  grind [addNt, entPort_agenda, modNet_agenda, nextId_agenda]

@[simp] theorem startAtomic_agenda (x s dst op parts) : (startAtomic x s dst op parts).agenda = s.agenda := by
  grind [startAtomic, modWarp_agenda, modNet_agenda, nextId_agenda, dropDescsOf_agenda]

@[simp] theorem prefetch_agenda (x s span vas) : (prefetch x s span vas).agenda = s.agenda := by
  grind [prefetch, cacheVa_agenda, addReq_agenda, foldl_agenda]

@[simp] theorem scramble_agenda (s bid off alloc) : (scramble s bid off alloc).agenda = s.agenda := by
  grind [scramble, modBlock_agenda, foldl_agenda, getD_agenda]

@[simp] theorem ringDone_agenda (s wid m sd i clamped) : (ringDone s wid m sd i clamped).agenda = s.agenda := rfl

@[simp] theorem parkedTrap_agenda (s wid p t) : (parkedTrap s wid p t).agenda = s.agenda := by
  grind [parkedTrap, takeTrap_agenda]

theorem ringAttempt_agenda (s bid a wid p free sd) : ∀ t, ringAttempt s bid a wid p free sd = some t → t.agenda = s.agenda := by
  grind [ringAttempt, parkedTrap_agenda, ringDone_agenda, unpark_agenda, modBlock_agenda, Option.bind_eq_some_iff,
    Option.map_eq_some_iff, List.findSome?_eq_some_iff]

@[simp] theorem wakeRing_agenda (s a) : (wakeRing s a).agenda = s.agenda := by
  grind [wakeRing, ringAttempt_agenda, foldl_agenda, getD_agenda]

@[simp] theorem ringArrive_agenda (s a slot bytes clamp) : (ringArrive s a slot bytes clamp).agenda = s.agenda := by
  grind [ringArrive, scramble_agenda, modCluster_agenda, wakeRing_agenda, modBlock_agenda, getD_agenda]

@[simp] theorem ringFail_agenda (s a slot) : (ringFail s a slot).agenda = s.agenda := by
  grind [ringFail, scramble_agenda, modCluster_agenda, wakeRing_agenda, modBlock_agenda, getD_agenda]

/-- The state that a ring operation at its port leaves, `s` itself where the operation waits. -/
def RingAct.after (s : State) : RingAct → State
  | .done t => t
  | .waits => s
  | .trap _ t => t

theorem ringPerform_after_agenda (s wid lanes m at' op) : ((ringPerform s wid lanes m at' op).after s).agenda = s.agenda := by
  unfold ringPerform
  split
  · rfl
  · split
    · rfl
    · cases op with
      | ringInit n e => grind [RingAct.after, wakeRing_agenda, modBlock_agenda]
      | ringArrive slot bytes clamp e => grind [RingAct.after, ringArrive_agenda, scramble_agenda]
      | ringRel => grind [RingAct.after, wakeRing_agenda, modBlock_agenda, scramble_agenda]
      | ringWait free sd => grind [RingAct.after, ringDone_agenda, modBlock_agenda, scramble_agenda]
      | load | store | atomic => exact scramble_agenda ..

theorem ringPerform_done_agenda {s t : State} {wid lanes m at' op} (h : ringPerform s wid lanes m at' op = .done t) :
    t.agenda = s.agenda := by
  rw [← ringPerform_after_agenda s wid lanes m at' op, h, RingAct.after]

theorem ringPerform_trap_agenda {s u : State} {wid lanes m at' op t} (h : ringPerform s wid lanes m at' op = .trap t u) :
    u.agenda = s.agenda := by
  rw [← ringPerform_after_agenda s wid lanes m at' op, h, RingAct.after]

@[simp] theorem ringIssue_agenda (x s a size op) : (ringIssue x s a size op).2.agenda = s.agenda := by
  unfold ringIssue
  split
  · rfl
  · split
    next r hr => exact poisOf_agenda x s r hr
    · split
      · split
        next h => exact ringPerform_done_agenda h
        next h => exact ringPerform_trap_agenda h
        · grind [parkAll_agenda, nextId_agenda]
      · grind [parkAll_agenda, nextId_agenda, modNet_agenda]

end Sys2Proof.Machine
end

section
/-! SUPPORT. What barriers, knots and the placement of blocks leave of the agenda (R177 to R185, R252 to R258, R369). -/

namespace Sys2Proof.Machine

open Sys2Proof

@[simp] theorem barArrive_agenda (x s b k) : (barArrive x s b k).2.agenda = s.agenda := by
  grind [barArrive, parkAll_agenda, arriveLanes_agenda]

@[simp] theorem barWait_agenda (x s b) : (barWait x s b).2.agenda = s.agenda := by
  grind [barWait, modWarp_agenda, parkAll_agenda]

@[simp] theorem knotSend_agenda (x s krec sd op drains) : (knotSend x s krec sd op drains).2.agenda = s.agenda := rfl

theorem knotIssue_agenda {go : State → Nat → Verdict × State} (h : ∀ t k, (go t k).2.agenda = t.agenda) (x s sa) :
    (knotIssue x s sa go).2.agenda = s.agenda := by
  unfold knotIssue
  dsimp only
  split
  · split
    · rfl
    · exact cacheVa_agenda ..
  · split
    next r hr => exact (poisOf_agenda x _ r hr).trans (cacheVa_agenda ..)
    · exact (h _ _).trans (cacheVa_agenda ..)

@[simp] theorem knotWalks_agenda (x s bs) : (knotWalks x s bs).agenda = s.agenda := by
  grind [knotWalks, cacheVa_agenda, foldl_agenda]

@[simp] theorem startGive_agenda (s t krec) : (startGive s t krec).agenda = s.agenda := rfl

theorem startWarps_agenda (s bid r core a) : ∀ t, startWarps s bid r core a = some t → t.agenda = s.agenda := by
  fun_induction startWarps with
  | case1 => grind
  | case2 s i is ih => grind [Option.bind_eq_some_iff, addWarp_agenda]

@[simp] theorem reserveAccs_agenda (s core bid ks) : (reserveAccs s core bid ks).agenda = s.agenda := rfl

@[simp] theorem noteResident_agenda (s c halted) : (noteResident s c halted).agenda = s.agenda := rfl

theorem putBlock_agenda (s gid cid rank core) : ∀ t, putBlock s gid cid rank core = some t → t.agenda = s.agenda := by
  grind [putBlock, reserveAccs_agenda, modCluster_agenda, nextId_agenda, noteResident_agenda, startWarps_agenda,
    Option.bind_eq_some_iff, Option.map_eq_some_iff, List.findSome?_eq_some_iff]

theorem fitRanks_agenda {put : State → Nat → Nat → Option State}
    (h : ∀ s r c t, put s r c = some t → t.agenda = s.agenda) (cs rs s) :
    ∀ t, fitRanks put cs rs s = some t → t.agenda = s.agenda := by
  fun_induction fitRanks put cs rs s with
  | case1 => grind
  | case2 => grind
  | case3 c cs r rs s t hput ih => grind
  | case4 c cs r rs s hput ih => exact ih

theorem putCluster_agenda (s gid idx bay) : ∀ t, putCluster s gid idx bay = some t → t.agenda = s.agenda := by
  have hfit (cid : Nat) (pair : Bool) (u : State) (h : Nat × List Nat) (t : State) :=
    fitRanks_agenda (fun s r c t => putBlock_agenda s gid cid r c t) (baySpots pair h.1) h.2 u t
  intro t h
  obtain ⟨g, -, h⟩ := Option.bind_eq_some_iff.mp h
  exact (foldl_bind_agenda (hfit _ _) _ _ t h).trans (nextId_agenda s)

@[simp] theorem setLast_agenda (s die bay seam) : (setLast s die bay seam).agenda = s.agenda := rfl

theorem putAnywhere_agenda (s die gid idx) : ∀ t, putAnywhere s die gid idx = some t → t.1.agenda = s.agenda := by
  grind [putAnywhere, putCluster_agenda, setLast_agenda, Option.bind_eq_some_iff, Option.map_eq_some_iff,
    List.findSome?_eq_some_iff]

theorem putWhole_agenda (die gid a b c) : ∀ t, putWhole die gid a b c = some t → t.agenda = c.agenda := by
  fun_induction putWhole with
  | case1 => grind
  | case2 n i s ih =>
    intro t h
    obtain ⟨r, hr, ht⟩ := Option.bind_eq_some_iff.mp h
    exact (ih r t ht).trans (putAnywhere_agenda _ _ _ _ r hr)

@[simp] theorem dropCode_agenda (s ctx) : (dropCode s ctx).agenda = s.agenda := rfl

@[simp] theorem enterLaunch_agenda (s die ctx prio r rep noWait) :
    (enterLaunch s die ctx prio r rep noWait).2.agenda = s.agenda :=
  rfl

@[simp] theorem admitGo_agenda (die a b) : (admitGo die a b).agenda = b.agenda := by
  fun_induction admitGo <;> grind [modDie_agenda]

@[simp] theorem roomMade_agenda (s die) : (roomMade s die).agenda = s.agenda := by
  grind [roomMade, reissue_agenda, admitGo_agenda, foldl_agenda]

@[simp] theorem handOut_agenda (s die cid restore) : (handOut s die cid restore).agenda = s.agenda := rfl

@[simp] theorem takeHalves_agenda (s die) : (takeHalves s die).agenda = s.agenda := rfl

@[simp] theorem modLaunch_agenda (s die gid f) : (modLaunch s die gid f).agenda = s.agenda := rfl

@[simp] theorem notePlaced_agenda (s die gid cid) : (notePlaced s die gid cid).agenda = s.agenda := rfl

@[simp] theorem placeGo_agenda (die gid a b c) : (placeGo die gid a b c).agenda = c.agenda := by
  fun_induction placeGo with
  | case1 => rfl
  | case2 => rfl
  | case3 n i s t b ht ih => exact ih.trans ((notePlaced_agenda ..).trans (putAnywhere_agenda _ _ _ _ _ ht))

theorem restoreWarps_agenda (core r a b) : ∀ t, restoreWarps core r a b = some t → t.agenda = b.agenda := by
  fun_induction restoreWarps <;> grind [Option.bind_eq_some_iff]

theorem putSaved_agenda (v s gid rank core) : ∀ t, putSaved v s gid rank core = some t → t.agenda = s.agenda := by
  intro t h
  obtain ⟨g, -, h⟩ := Option.bind_eq_some_iff.mp h
  obtain ⟨⟨bid, b⟩, -, h⟩ := Option.bind_eq_some_iff.mp h
  obtain ⟨-, h⟩ := Option.ite_none_right_eq_some.mp h
  refine (restoreWarps_agenda _ _ _ _ t h).trans ((foldl_agenda (fun u p => modCore_agenda u _ _) _ _).trans ?_)
  refine (foldl_agenda (fun u e => ?_) _ _).trans
    ((noteResident_agenda ..).trans ((reserveAccs_agenda ..).trans (modCluster_agenda ..)))
  split <;> rfl

theorem putSavedCluster_agenda (s gid v bay) : ∀ t, putSavedCluster s gid v bay = some t → t.agenda = s.agenda := by
  intro t h
  obtain ⟨g, -, h⟩ := Option.bind_eq_some_iff.mp h
  exact (foldl_bind_agenda (fun s h t => fitRanks_agenda (fun s r c t => putSaved_agenda v s gid r c t) _ _ s t) _ _ t h).trans
    (modCluster_agenda ..)

theorem restoreAll_agenda (die gid a b) : ∀ t, restoreAll die gid a b = some t → t.agenda = b.agenda := by
  fun_induction restoreAll with
  | case1 => grind
  | case2 c cs s ih =>
    intro t h
    obtain ⟨v, -, h⟩ := Option.bind_eq_some_iff.mp h
    obtain ⟨g, -, h⟩ := Option.bind_eq_some_iff.mp h
    obtain ⟨u, hu, h⟩ := Option.bind_eq_some_iff.mp h
    obtain ⟨b, -, hput⟩ := List.exists_of_findSome?_eq_some hu
    obtain ⟨w, hw, rfl⟩ := Option.map_eq_some_iff.mp hput
    rw [ih _ _ h, modLaunch_agenda, handOut_agenda, setLast_agenda]
    exact putSavedCluster_agenda s gid v b w hw

@[simp] theorem restoreSome_agenda (die gid a b) : (restoreSome die gid a b).agenda = b.agenda := by
  fun_induction restoreSome <;> grind [restoreAll_agenda]

@[simp] theorem withoutBlocks_agenda (s gone) : (withoutBlocks s gone).agenda = s.agenda := rfl

@[simp] theorem preemptFor_agenda (s die l g) : (preemptFor s die l g).agenda = s.agenda := by
  grind [preemptFor, modDie_agenda, restoreAll_agenda, putWhole_agenda, putAnywhere_agenda, withoutBlocks_agenda]

@[simp] theorem dropPlaced_agenda (s die) : (dropPlaced s die).agenda = s.agenda := by
  grind [dropPlaced, modDie_agenda, roomMade_agenda, getD_agenda]

@[simp] theorem setStatus_agenda (s rep status) : (setStatus s rep status).agenda = s.agenda := by
  unfold setStatus
  split <;> rfl

@[simp] theorem notAdmitted_agenda (s die l g) : (notAdmitted s die l g).agenda = s.agenda := by
  grind [notAdmitted, setStatus_agenda, modDie_agenda, roomMade_agenda]

@[simp] theorem passWhole_agenda (s die l g) : (passWhole s die l g).agenda = s.agenda := by
  grind [passWhole, restoreAll_agenda, putWhole_agenda, notAdmitted_agenda, notePlaced_agenda, preemptFor_agenda, foldl_agenda,
    getD_agenda]

@[simp] theorem passGo_agenda (die a b) : (passGo die a b).agenda = b.agenda := by
  fun_induction passGo <;> grind [restoreSome_agenda, placeGo_agenda, passWhole_agenda, preemptFor_agenda, getD_agenda]

@[simp] theorem placementPass_agenda (s die) : (placementPass s die).agenda = s.agenda := by
  grind [placementPass, modDie_agenda, passGo_agenda, dropPlaced_agenda]

@[simp] theorem countArrival_agenda (s wid n) : (countArrival s wid n).agenda = s.agenda := by
  grind [countArrival, modWarp_agenda, flipTest_agenda, modBlock_agenda, getD_agenda]

@[simp] theorem detachOne_agenda (s wid n) : (detachOne s wid n).agenda = s.agenda := by grind [detachOne, leaveBar_agenda]

@[simp] theorem receiveArrival_agenda (s wid w b) : (receiveArrival s wid w b).agenda = s.agenda := by
  unfold receiveArrival
  split
  · split
    · rfl
    · dsimp only
      split
      · exact (detachOne_agenda ..).trans (countArrival_agenda ..)
      · exact countArrival_agenda ..
  · rfl

@[simp] theorem dropDone_agenda (s wid) : (dropDone s wid).agenda = s.agenda := by grind [dropDone]

end Sys2Proof.Machine
end

section
/-! SUPPORT. What copies, the copy engines and channels leave of the agenda (R217 to R229, R265 to R280). -/

namespace Sys2Proof.Machine

open Sys2Proof

@[simp] theorem cacheDesc_agenda (s core p bs) : (cacheDesc s core p bs).agenda = s.agenda := rfl

@[simp] theorem clearAt_agenda (s r keys) : (clearAt s r keys).1.agenda = s.agenda := by
  grind [clearAt, modBlock_agenda, foldl_agenda, getD_agenda]

@[simp] theorem noteSources_agenda (s) : (noteSources s).agenda = s.agenda := rfl

theorem readDesc_got_agenda {x} {s t : State} {a p fresh bs} (h : readDesc x s a p fresh = .got bs t) : t.agenda = s.agenda := by
  grind [readDesc, cacheDesc_agenda]

@[simp] theorem startCopy_agenda (x s c) : (startCopy x s c).2.agenda = s.agenda := by
  unfold startCopy
  extract_lets wr all
  split
  · rfl
  · have h1 : (nextId s).2.agenda = s.agenda := nextId_agenda s
    split
    next id s1 hid =>
    rw [hid] at h1
    have h2 : (nextId s1).2.agenda = s1.agenda := nextId_agenda s1
    split
    next g s2 hg =>
    rw [hg] at h2
    extract_lets s3 s4 own t
    have h3 : s3.agenda = s2.agenda := by grind [modWarp_agenda, modNet_agenda]
    have h4 : s4.agenda = s3.agenda := modWarp_agenda ..
    have ht : t.1.agenda = s4.agenda := foldl_fst_agenda (fun t r => clearAt_agenda t.1 ..) _ _
    calc t.1.agenda = s4.agenda := ht
      _ = s.agenda := by rw [h4, h3, ← h1, ← h2]

@[simp] theorem copyDesc_agenda (x s kind f mask index) : (copyDesc x s kind f mask index).2.agenda = s.agenda := by
  unfold copyDesc
  dsimp only
  split
  · rfl
  · split
    · rfl
    · split
      · split
        next r hr => exact poisOf_agenda x s r hr
        · exact parkAll_agenda ..
      · split
        next r hr => exact poisOf_agenda x s r hr
        · rfl
      next bs u hbs =>
        have hu := readDesc_got_agenda hbs
        split
        · exact hu
        · split
          next r hr => exact (poisOf_agenda x u r hr).trans hu
          · exact (startCopy_agenda ..).trans hu

@[simp] theorem engNote_agenda (s die mid ctx wr pa) : (engNote s die mid ctx wr pa).agenda = s.agenda := by
  grind [engNote, denyAccess_agenda, unbackedAccess_agenda, malformedBy_agenda]

@[simp] theorem engNotes_agenda (s die own mid ctx pas) : (engNotes s die own mid ctx pas).agenda = s.agenda := by
  grind [engNotes, engNote_agenda, engTouch_agenda, peerRead_agenda, foldl_agenda]

@[simp] theorem walkPages_agenda (s core ctx vas) : (walkPages s core ctx vas).agenda = s.agenda := by
  grind [walkPages, cacheVa_agenda, foldl_agenda]

@[simp] theorem modCopy_agenda (s id f) : (modCopy s id f).agenda = s.agenda := rfl

@[simp] theorem sendRing_agenda (s copy r bytes clamp after) : (sendRing s copy r bytes clamp after).agenda = s.agenda := by
  grind [sendRing, modNet_agenda, nextId_agenda]

@[simp] theorem sendLines_agenda (s c r bs) : (sendLines s c r bs).1.agenda = s.agenda := by
  unfold sendLines
  exact foldl_fst_agenda (by intro r e; exact nextId_agenda r.1) _ _

@[simp] theorem settleCopy_agenda (s id) : (settleCopy s id).agenda = s.agenda := by
  grind [settleCopy, modNet_agenda, modCopy_agenda, ackGroup_agenda]

@[simp] theorem failCopy_agenda (s id e) : (failCopy s id e).agenda = s.agenda := rfl

@[simp] theorem deliverPiece_agenda (s c) : (deliverPiece s c).agenda = s.agenda := by
  grind [deliverPiece, sendRing_agenda, sendLines_agenda, modCopy_agenda, settleCopy_agenda, foldl_agenda]

@[simp] theorem readPiece_agenda (s c) : (readPiece s c).agenda = s.agenda := by
  grind [readPiece, walkPages_agenda, failCopy_agenda, deliverPiece_agenda, engNotes_agenda, foldl_agenda, getD_agenda]

@[simp] theorem sendGrains_agenda (s c ws) : (sendGrains s c ws).agenda = s.agenda := by
  grind [sendGrains, entPort_agenda, modNet_agenda, nextId_agenda, foldl_agenda]

@[simp] theorem writePiece_agenda (s c) : (writePiece s c).agenda = s.agenda := by
  grind [writePiece, walkPages_agenda, failCopy_agenda, sendGrains_agenda, sendRing_agenda, modCopy_agenda, settleCopy_agenda,
    foldl_agenda]

theorem clearNext_agenda (s c) : ∀ t, clearNext s c = some t → t.agenda = s.agenda := by
  grind [clearNext, clearAt_agenda, modCopy_agenda, Option.bind_eq_some_iff, Option.map_eq_some_iff, List.findSome?_eq_some_iff]

@[simp] theorem wakeLines_agenda (s) : (wakeLines s).agenda = s.agenda := by grind [wakeLines, reissue_agenda, foldl_agenda]

@[simp] theorem wakeTakes_agenda (s bid n) : (wakeTakes s bid n).agenda = s.agenda := by
  grind [wakeTakes, modWarp_agenda, unpark_agenda, modBlock_agenda, getD_agenda]

@[simp] theorem fillSlot_agenda (s c) : (fillSlot s c).agenda = s.agenda := by
  grind [fillSlot, wakeTakes_agenda, modBlock_agenda]

@[simp] theorem writeLine_agenda (s m n final) : (writeLine s m n final).agenda = s.agenda := by
  grind [writeLine, modCopy_agenda, modBlock_agenda, getD_agenda]

@[simp] theorem uncountCopy_agenda (s c) : (uncountCopy s c).agenda = s.agenda := by
  grind [uncountCopy, modWarp_agenda, ackGroup_agenda]

@[simp] theorem dropLines_agenda (s c) : (dropLines s c).agenda = s.agenda := by
  grind [dropLines, modBlock_agenda, foldl_agenda]

@[simp] theorem failSlots_agenda (s rs id e) : (failSlots s rs id e).agenda = s.agenda := by
  grind [failSlots, ringFail_agenda, modBlock_agenda, foldl_agenda]

@[simp] theorem sweepCopies_agenda (s) : (sweepCopies s).agenda = s.agenda := rfl

end Sys2Proof.Machine
end

section
/-! SUPPORT. What the hardware queues and the memory system leave of the agenda (R281 to R309, R317 to R337, R359 to R366). -/

namespace Sys2Proof.Machine

open Sys2Proof

@[simp] theorem masterPart_agenda (s die own mid ctx a n) : (masterPart s die own mid ctx a n).2.2.agenda = s.agenda := by
  grind [masterPart, denyAccess_agenda, unbackedAccess_agenda, engTouchN_agenda, malformedBy_agenda, peerRead_agenda]

@[simp] theorem masterBytes_agenda (s die own mid ctx a n) : (masterBytes s die own mid ctx a n).2.2.agenda = s.agenda := by
  have hpart (l : List (Nat × Nat)) (r : List Byte × Bool × State) : (l.foldl (fun (t : List Byte × Bool × State) p =>
      let r := masterPart t.2.2 die own mid ctx p.1 p.2
      (t.1 ++ r.1, t.2.1 || r.2.1, r.2.2)) r).2.2.agenda = r.2.2.agenda := by
    induction l generalizing r with
    | nil => rfl
    | cons p l ih => exact (ih _).trans (masterPart_agenda ..)
  exact hpart _ _

@[simp] theorem readPacket_agenda (s q i) : (readPacket s q i).2.2.agenda = s.agenda := by
  grind [readPacket, masterBytes_agenda]

@[simp] theorem sendStore_agenda (s die who grp a bs) : (sendStore s die who grp a bs).agenda = s.agenda := rfl

@[simp] theorem engineWrite_agenda (s q ctx a bs) : (engineWrite s q ctx a bs).2.agenda = s.agenda := by
  grind [engineWrite, denyAccess_agenda, unbackedAccess_agenda, nextId_agenda, sendStore_agenda, writeBytesBy_agenda]

@[simp] theorem enqueue_agenda (s q packet) : (enqueue s q packet).agenda = s.agenda := by
  grind [enqueue, modQueue_agenda, engineWrite_agenda]

@[simp] theorem dequeue_agenda (s q wid m sd) : (dequeue s q wid m sd).agenda = s.agenda := by
  grind [dequeue, modWarp_agenda, modQueue_agenda, readPacket_agenda, foldl_agenda]

@[simp] theorem serveDeq_agenda (q a b) : (serveDeq q a b).agenda = b.agenda := by
  fun_induction serveDeq <;> grind [modQueue_agenda, dequeue_agenda, unpark_agenda]

@[simp] theorem serveEnq_agenda (q a b) : (serveEnq q a b).agenda = b.agenda := by
  fun_induction serveEnq <;> grind [modWarp_agenda, modQueue_agenda, enqueue_agenda, unpark_agenda]

@[simp] theorem serveQueue_agenda (s q) : (serveQueue s q).agenda = s.agenda := by
  grind [serveQueue, serveDeq_agenda, serveEnq_agenda, foldl_agenda]

@[simp] theorem recordParts_agenda (core ctx cls a b) : (recordParts core ctx cls a b).2.agenda = b.agenda := by
  fun_induction recordParts <;> grind [masterBytes_agenda]

@[simp] theorem readRecord_agenda (s core ctx cls va) : (readRecord s core ctx cls va).2.agenda = s.agenda := by
  grind [readRecord, cacheVa_agenda, recordParts_agenda, foldl_agenda]

@[simp] theorem tryWhole_agenda (s die gid) : (tryWhole s die gid).2.agenda = s.agenda := by
  grind [tryWhole, placementPass_agenda, takeHalves_agenda, notAdmitted_agenda]

@[simp] theorem completePacket_agenda (s q idx) : (completePacket s q idx).agenda = s.agenda := rfl

@[simp] theorem badPacket_agenda (s q idx) : (badPacket s q idx).agenda = s.agenda := by
  grind [badPacket, report_agenda, modQueue_agenda]

@[simp] theorem startPacket_agenda (s q) : (startPacket s q).2.agenda = s.agenda := by
  grind [startPacket, modDie_agenda, modQueue_agenda, serveQueue_agenda, readPacket_agenda]

@[simp] theorem modPacket_agenda (s q idx f) : (modPacket s q idx f).agenda = s.agenda := rfl

@[simp] theorem writeStatus_agenda (s q idx ctx va status) : (writeStatus s q idx ctx va status).agenda = s.agenda := by
  grind [writeStatus, modPacket_agenda, cacheVa_agenda, engineWrite_agenda, badPacket_agenda]

@[simp] theorem endKlaunch_agenda (s q p st) : (endKlaunch s q p st).agenda = s.agenda := by
  grind [endKlaunch, completePacket_agenda, restartWatchdog_agenda, writeStatus_agenda]

@[simp] theorem dropEnt_agenda (s id) : (dropEnt s id).agenda = s.agenda := rfl

@[simp] theorem enterWindow_agenda (s core wid grp kind ps) : (enterWindow s core wid grp kind ps).agenda = s.agenda := by
  grind [enterWindow, entPort_agenda, nextId_agenda, modBay_agenda, foldl_agenda]

@[simp] theorem enterGroup_agenda (s grp) : (enterGroup s grp).agenda = s.agenda := by
  grind [enterGroup, modWarp_agenda, modNet_agenda, noteRelease_agenda]

@[simp] theorem popStore_agenda (s wid) : (popStore s wid).agenda = s.agenda := rfl

@[simp] theorem waitAt_agenda (s k g id) : (waitAt s k g id).agenda = s.agenda := by grind [waitAt, modSlice_agenda]

@[simp] theorem leaveAt_agenda (s k g id) : (leaveAt s k g id).agenda = s.agenda := rfl

@[simp] theorem callSplice_agenda (s k g) : (callSplice s k g).agenda = s.agenda := rfl

@[simp] theorem modReq_agenda (s id f) : (modReq s id f).agenda = s.agenda := rfl

@[simp] theorem refreshLease_agenda (s r m) : (refreshLease s r m).agenda = s.agenda := by
  grind [refreshLease, cutLease_agenda, installAll_agenda, foldl_agenda, getD_agenda]

@[simp] theorem askFills_agenda (s r slice lease port) : (askFills s r slice lease port).agenda = s.agenda := by
  grind [askFills, startFills_agenda, modReq_agenda]

@[simp] theorem fromHome_agenda (s r k a n) : (fromHome s r k a n).2.agenda = s.agenda := by
  grind [fromHome, callSplice_agenda, touchBlk_agenda, modReq_agenda, waitAt_agenda, askFills_agenda]

@[simp] theorem fromSlices_agenda (s r acq k a n) : (fromSlices s r acq k a n).2.agenda = s.agenda := by
  grind [fromSlices, fromHome_agenda, touchBlk_agenda, askFills_agenda]

@[simp] theorem prefetchAt_agenda (s r) : (prefetchAt s r).agenda = s.agenda := by grind [prefetchAt, askFills_agenda]

@[simp] theorem endVisit_agenda (s r left) : (endVisit s r left).agenda = s.agenda := by
  grind [endVisit, refreshLease_agenda, leaveAt_agenda, modReq_agenda, foldl_agenda, getD_agenda]

@[simp] theorem dropReq_agenda (s id) : (dropReq s id).agenda = s.agenda := rfl

@[simp] theorem setPart_agenda (s load lane bs p) : (setPart s load lane bs p).agenda = s.agenda := rfl

theorem fillHome_agenda (s k f bad) : ∀ t, fillHome s k f bad = some t → t.agenda = s.agenda := by
  grind [fillHome, fillGrains_agenda, dropFill_agenda, uncorrectedGrain_agenda, foldl_agenda]

theorem serveLease_agenda (s f) :
    (∀ t, (serveLease s f).1 = some t → t.agenda = s.agenda) ∧ (serveLease s f).2.agenda = s.agenda := by
  unfold serveLease
  refine List.foldlRecOn (motive := fun r : Option State × State => (∀ t, r.1 = some t → t.agenda = s.agenda) ∧
    r.2.agenda = s.agenda) _ _ ⟨by rintro _ ⟨⟩; rfl, rfl⟩ ?_
  rintro r ⟨hdone, hnow⟩ g -
  dsimp only
  split
  · exact ⟨hdone, hnow⟩
  · split
    · exact ⟨by rintro _ ⟨⟩, (waitAt_agenda ..).trans hnow⟩
    · split
      · exact ⟨by rintro _ ⟨⟩, (callSplice_agenda ..).trans ((waitAt_agenda ..).trans hnow)⟩
      · split
        · refine ⟨fun t h => ?_, (touchBlk_agenda ..).trans hnow⟩
          obtain ⟨_, -, rfl⟩ := Option.map_eq_some_iff.mp h
          exact (touchBlk_agenda ..).trans hnow
        · exact ⟨by rintro _ ⟨⟩, (startFills_agenda ..).trans ((waitAt_agenda ..).trans hnow)⟩

@[simp] theorem leaveLease_agenda (s f) : (leaveLease s f).agenda = s.agenda := by
  grind [leaveLease, leaveAt_agenda, foldl_agenda]

theorem fillLease_agenda (s k f a) : ∀ t, fillLease s k f a = some t → t.agenda = s.agenda := by
  grind [fillLease, cutLease_agenda, dropFill_agenda, installAll_agenda, foldl_agenda]

@[simp] theorem atomAtHome_agenda (s k op p) : (atomAtHome s k op p).1.agenda = s.agenda := by
  grind [atomAtHome, blkWrite_agenda]

@[simp] theorem atomsAtHome_agenda (k op a b) : (atomsAtHome k op a b).1.agenda = b.agenda := by
  fun_induction atomsAtHome <;> grind [atomAtHome_agenda]

@[simp] theorem redgAtHome_agenda (s k op mid e) : (redgAtHome s k op mid e).agenda = s.agenda := by
  grind [redgAtHome, report_agenda, blkWrite_agenda, foldl_agenda]

theorem applyEnt_agenda (s k mid e) :
    (∀ t, (applyEnt s k mid e).1 = some t → t.agenda = s.agenda) ∧ (applyEnt s k mid e).2.agenda = s.agenda := by
  grind [applyEnt, modLoad_agenda, blkWrite_agenda, installBlk_agenda, putBlk_agenda, startFills_agenda, redgAtHome_agenda,
    poisonHome_agenda, putGrain_agenda, markWritten_agenda, atomsAtHome_agenda, foldl_agenda, getD_agenda,
    Option.bind_eq_some_iff, Option.map_eq_some_iff, List.findSome?_eq_some_iff]

@[simp] theorem respondEnt_agenda (s k e) : (respondEnt s k e).agenda = s.agenda := by grind [respondEnt, modLoad_agenda]

@[simp] theorem homeWriteAt_agenda (s k mid e) : (homeWriteAt s k mid e).agenda = s.agenda := by
  grind [homeWriteAt, respondEnt_agenda, callSplice_agenda, applyEnt_agenda, leaveAt_agenda, reelHook_agenda, waitAt_agenda,
    muddleRecords_agenda, performEnt_agenda, foldl_agenda]

@[simp] theorem modSplice_agenda (s bay g f) : (modSplice s bay g f).agenda = s.agenda := by grind [modSplice, modBay_agenda]

@[simp] theorem sendPartial_agenda (s bay x) : (sendPartial s bay x).agenda = s.agenda := rfl

@[simp] theorem recordSplice_agenda (s k bay x) : (recordSplice s k bay x).agenda = s.agenda := by
  grind [recordSplice, modSlice_agenda, setSplc_agenda, modSplice_agenda]

@[simp] theorem clearSpliceBit_agenda (s k bay g) : (clearSpliceBit s k bay g).agenda = s.agenda := by
  grind [clearSpliceBit, modSlice_agenda, setSplc_agenda]

theorem splitBlk_agenda (s slice keep b g) : ∀ t, splitBlk s slice keep b g = some t → t.agenda = s.agenda := by
  intro t h
  unfold splitBlk at h
  dsimp only at h
  split at h
  · cases h
    rfl
  · obtain ⟨u, hu, rfl⟩ := Option.map_eq_some_iff.mp h
    exact (modSlice_agenda ..).trans ((ensureRoom_agenda _ _ _ _ _ _ u hu).trans (purgeExpired_agenda ..))

theorem splitEnds_agenda (s slice lo hi) : ∀ t, splitEnds s slice lo hi = some t → t.agenda = s.agenda := by
  have hcut (keep : List L2Blk) (g : Nat) (u : State) (t : State) (h : (straddlers u slice g).foldl (fun o b =>
      o.bind (fun s => splitBlk s slice (partsIn s slice keep) b (g % 16))) (some u) = some t) : t.agenda = u.agenda :=
    foldl_bind_agenda (fun s b => splitBlk_agenda s slice _ b _) _ u t h
  intro t h
  obtain ⟨v, hv, ht⟩ := Option.bind_eq_some_iff.mp h
  obtain ⟨u, hu, hv⟩ := Option.bind_eq_some_iff.mp hv
  cases hu
  exact (hcut _ _ _ _ ht).trans (hcut _ _ _ _ hv)

@[simp] theorem flushBlk_agenda (op slice s b) : (flushBlk op slice s b).agenda = s.agenda := by
  grind [flushBlk, trainPredictor_agenda, dropBlk_agenda, putBlk_agenda, writeBack_agenda]

@[simp] theorem dropPartials_agenda (s g) : (dropPartials s g).agenda = s.agenda := by
  unfold dropPartials
  extract_lets ps s1 s2 s3
  have h3 : s3.agenda = s.agenda := performEnts_agenda ..
  split
  · exact h3
  · exact (setSplc_agenda ..).trans h3

theorem flushSlice_agenda (s op r k) : ∀ t, flushSlice s op r k = some t → t.agenda = s.agenda := by
  intro t h
  unfold flushSlice at h
  split at h
  · cases h
    rfl
  · obtain ⟨u, hu, rfl⟩ := Option.map_eq_some_iff.mp h
    have hflush (l : List L2Blk) : (l.foldl (flushBlk op k) u).agenda = u.agenda := foldl_agenda (flushBlk_agenda op k) l u
    dsimp only
    split
    · exact (hflush _).trans (splitEnds_agenda _ _ _ _ u hu)
    · exact (hflush _).trans (splitEnds_agenda _ _ _ _ u hu)

theorem flushRange_agenda (s op r) : ∀ t, flushRange s op r = some t → t.agenda = s.agenda := by
  intro t h
  have hsplice := foldl_agenda (f := fun s g => if op = 2 then dropPartials s g else settleGrain s g) (fun s g => by
    split
    · exact dropPartials_agenda s g
    · exact settleGrain_agenda s g) (spliceGrains s r) s
  exact (foldl_bind_agenda (fun s k t => flushSlice_agenda s op r k t) _ _ t h).trans hsplice

theorem flushPart_agenda (s f a n) : ∀ t, flushPart s f a n = some t → t.agenda = s.agenda := by
  grind [flushPart, denyAccess_agenda, unbackedAccess_agenda, reelHook_agenda, flushRange_agenda, getD_agenda]

@[simp] theorem flushStep_agenda (s f) : (flushStep s f).agenda = s.agenda := by
  unfold flushStep
  split
  · rfl
  · extract_lets n parts
    split
    · rfl
    · refine getD_agenda fun t h => ?_
      obtain ⟨u, hu, rfl⟩ := Option.map_eq_some_iff.mp h
      exact foldl_bind_agenda (fun s p t => flushPart_agenda s f p.1 p.2 t) _ _ u hu

@[simp] theorem ackEnt_agenda (s e) : (ackEnt s e).agenda = s.agenda := by
  grind [ackEnt, modQueue_agenda, sendRing_agenda, modCopy_agenda, settleCopy_agenda, ackGroup_agenda, foldl_agenda]

@[simp] theorem ringAtPort_agenda (s m) : (ringAtPort s m).agenda = s.agenda := by
  unfold ringAtPort
  extract_lets s1
  have h1 : s1.agenda = s.agenda := modNet_agenda ..
  split
  · exact h1
  · split
    next u hu => exact (unpark_agenda ..).trans ((ringPerform_done_agenda hu).trans h1)
    next u hu => exact (parkedTrap_agenda ..).trans ((ringPerform_trap_agenda hu).trans h1)
    · split
      · exact (modWarp_agenda ..).trans ((nextId_agenda s1).trans h1)
      · exact (unpark_agenda ..).trans h1

@[simp] theorem portRing_agenda (s m) : (portRing s m).agenda = s.agenda := by
  grind [portRing, ringAtPort_agenda, noteRelease_agenda, foldl_agenda]

end Sys2Proof.Machine
end

section
/-! SUPPORT. What knots at their homes and the plane array leave of the agenda (R181 to R185, R194 to R216). -/

namespace Sys2Proof.Machine

open Sys2Proof

@[simp] theorem writeKnot_agenda (s krec kstate holder) : (writeKnot s krec kstate holder).agenda = s.agenda := by
  grind [writeKnot, writeBytes_agenda]

@[simp] theorem replyKnot_agenda (s r v) : (replyKnot s r v).agenda = s.agenda := by
  grind [replyKnot, modNet_agenda, nextId_agenda]

@[simp] theorem dropGuarded_agenda (s t krec) : (dropGuarded s t krec).agenda = s.agenda := by
  grind [dropGuarded, dropLeaseGrain_agenda, foldl_agenda]

@[simp] theorem sendSignal_agenda (s q idx kind a data) : (sendSignal s q idx kind a data).agenda = s.agenda := by
  unfold sendSignal
  extract_lets pa
  split
  next g s1 hg =>
  have h1 : s1.agenda = s.agenda := by rw [← nextId_agenda s, hg]
  split
  next id s2 hid =>
  have h2 : s2.agenda = s1.agenda := by rw [← nextId_agenda s1, hid]
  extract_lets p ctx s3 e
  have h3 : s3.agenda = s2.agenda := by
    unfold s3 p
    cases homeOf s2 pa with
    | none => rfl
    | some k => exact portAt_agenda ..
  exact (modPacket_agenda ..).trans ((modNet_agenda ..).trans (h3.trans (h2.trans h1)))

@[simp] theorem signalWalk_agenda (s q ctx va size) : (signalWalk s q ctx va size).agenda = s.agenda := by
  grind [signalWalk, cacheVa_agenda]

@[simp] theorem failSignal_agenda (s q idx) : (failSignal s q idx).agenda = s.agenda := by
  grind [failSignal, completePacket_agenda, badPacket_agenda]

@[simp] theorem grantToken_agenda (s krec t) : (grantToken s krec t).agenda = s.agenda := by
  grind [grantToken, dropGuarded_agenda, writeKnot_agenda]

@[simp] theorem signalStore_agenda (s q idx) : (signalStore s q idx).agenda = s.agenda := by
  grind [signalStore, modPacket_agenda, sendSignal_agenda]

@[simp] theorem knotAnswered_agenda (s r v) : (knotAnswered s r v).agenda = s.agenda := by
  grind [knotAnswered, modWarp_agenda, failSignal_agenda, modNet_agenda, signalStore_agenda, unpark_agenda]

@[simp] theorem giveToken_agenda (s k krec) : (giveToken s k krec).agenda = s.agenda := by
  grind [giveToken, modKnot_agenda, writeKnot_agenda, replyKnot_agenda, grantToken_agenda, writeBytes_agenda]

@[simp] theorem regKnot_agenda (s krec rs bad) : (regKnot s krec rs bad).2.agenda = s.agenda := by
  grind [regKnot, modSlice_agenda, writeBytes_agenda, foldl_agenda]

@[simp] theorem freeKnot_agenda (s krec) : (freeKnot s krec).2.agenda = s.agenda := by
  grind [freeKnot, modSlice_agenda, writeBytes_agenda]

@[simp] theorem takeKnot_agenda (s r wait_) : (takeKnot s r wait_).agenda = s.agenda := by
  grind [takeKnot, modKnot_agenda, dropGuarded_agenda, modNet_agenda, replyKnot_agenda, grantToken_agenda]

@[simp] theorem drainFirst_agenda (s r) : (drainFirst s r).agenda = s.agenda := by
  grind [drainFirst, modWarp_agenda, modNet_agenda, startGive_agenda, getD_agenda]

@[simp] theorem giveKnot_agenda (s r) : (giveKnot s r).agenda = s.agenda := by
  grind [giveKnot, giveToken_agenda, drainFirst_agenda, replyKnot_agenda]

@[simp] theorem applyKnot_agenda (s r) : (applyKnot s r).agenda = s.agenda := by
  grind [applyKnot, giveKnot_agenda, regKnot_agenda, replyKnot_agenda, freeKnot_agenda, takeKnot_agenda]

@[simp] theorem arriveKnot_agenda (s r) : (arriveKnot s r).agenda = s.agenda := by
  grind [arriveKnot, denyAccess_agenda, modNet_agenda, applyKnot_agenda, unbackedAccess_agenda, engTouchN_agenda,
    malformedBy_agenda, foldl_agenda]

@[simp] theorem startSignal_agenda (s q p) : (startSignal s q p).agenda = s.agenda := by
  grind [startSignal, modPacket_agenda, failSignal_agenda, modNet_agenda, nextId_agenda, signalWalk_agenda, ringArrive_agenda,
    sendSignal_agenda]

@[simp] theorem signalGive_agenda (s q k krec ctx) : (signalGive s q k krec ctx).agenda = s.agenda := by
  grind [signalGive, giveToken_agenda, denyAccess_agenda]

@[simp] theorem modHitch_agenda (s bid k f) : (modHitch s bid k f).agenda = s.agenda := rfl

@[simp] theorem hitchTrap_agenda (x s k) : (hitchTrap x s k).2.agenda = s.agenda := rfl

@[simp] theorem resetHitch_agenda (s bid k h) : (resetHitch s bid k h).agenda = s.agenda := by
  grind [resetHitch, modWarp_agenda, modHitch_agenda, foldl_agenda]

@[simp] theorem enqueueWork_agenda (s core bid slot work counts a) :
    (enqueueWork s core bid slot work counts a).agenda = s.agenda := by
  grind [enqueueWork, modCore_agenda]

@[simp] theorem issueMma_agenda (x s b k sigs desc) : (issueMma x s b k sigs desc).2.agenda = s.agenda := by
  grind [issueMma, modWarp_agenda, modHitch_agenda, enqueueWork_agenda, freePick_agenda, modCore_agenda, getD_agenda]

theorem mapFor_agenda (x s b n hitch) : ∀ t, mapFor x s b n hitch = some t → t.agenda = s.agenda := by
  grind [mapFor, requestNow_agenda]

@[simp] theorem signMma_agenda (x s f b k h desc) : (signMma x s f b k h desc).2.agenda = s.agenda := by
  grind [signMma, modWarp_agenda, issueMma_agenda, mapFor_agenda, modHitch_agenda, enqueueRequest_agenda, resetHitch_agenda,
    hitchTrap_agenda, getD_agenda]

@[simp] theorem checkMma_agenda (x s f b k h desc bad) : (checkMma x s f b k h desc bad).2.agenda = s.agenda := by
  grind [checkMma, modWarp_agenda, walkPages_agenda, signMma_agenda, getD_agenda]

@[simp] theorem queueAcc_agenda (x s b n rel) : (queueAcc x s b n rel).2.agenda = s.agenda := by
  grind [queueAcc, modWarp_agenda, enqueueWork_agenda, modBlock_agenda, getD_agenda]

@[simp] theorem poisonName_agenda (s bid n slot) : (poisonName s bid n slot).agenda = s.agenda := rfl

@[simp] theorem drainCore_agenda (s core) : (drainCore s core).agenda = s.agenda := by
  grind [drainCore, report_agenda, fenceDrained_agenda, modCore_agenda]

@[simp] theorem noteMismatch_agenda (s core bid k sigs slot m) : (noteMismatch s core bid k sigs slot m).agenda = s.agenda := by
  grind [noteMismatch, modWarp_agenda, report_agenda, drainCore_agenda, poisonName_agenda, modCore_agenda, modBlock_agenda,
    foldl_agenda, getD_agenda]

@[simp] theorem settleRows_agenda (s core e) : (settleRows s core e).agenda = s.agenda := by grind [settleRows, modCore_agenda]

@[simp] theorem completeWarps_agenda (s ws flags) : (completeWarps s ws flags).agenda = s.agenda := by
  grind [completeWarps, modWarp_agenda, foldl_agenda]

@[simp] theorem accShow_agenda (s core bid slot rs cs) : (accShow s core bid slot rs cs).2.agenda = s.agenda := by
  grind [accShow, modCore_agenda, foldl_agenda]

end Sys2Proof.Machine
end

section
/-! SUPPORT. What contexts, save and restore, traps and the warps' own instructions leave of the agenda (R125 to R146, R389 to
R404). -/

namespace Sys2Proof.Machine

open Sys2Proof

@[simp] theorem dropHeld_agenda (s c) : (dropHeld s c).agenda = s.agenda := by grind [dropHeld, modNet_agenda, getD_agenda]

@[simp] theorem endPackets_agenda (s ctx q) : (endPackets s ctx q).agenda = s.agenda := by
  grind [endPackets, giveToken_agenda, failSignal_agenda, modNet_agenda, endKlaunch_agenda, foldl_agenda]

@[simp] theorem endTokens_agenda (s cid) : (endTokens s cid).agenda = s.agenda :=
  (giveRequests_agenda ..).trans (endTaker_agenda ..)

@[simp] theorem sweepNet_agenda (s ws cps) : (sweepNet s ws cps).agenda = s.agenda := rfl

@[simp] theorem clearBlocks_agenda (s bs) : (clearBlocks s bs).agenda = s.agenda := rfl

@[simp] theorem servedAll_agenda (s) : (servedAll s).agenda = s.agenda := by grind [servedAll, serveCore_agenda, foldl_agenda]

@[simp] theorem endCtx_agenda (s c) : (endCtx s c).agenda = s.agenda := by
  grind [endCtx, servedAll_agenda, fenceDrained_agenda, sweepNet_agenda, endTokens_agenda, passDue_agenda,
    restartWatchdog_agenda, clearBlocks_agenda, roomMade_agenda, foldl_agenda]

@[simp] theorem watchCtx_agenda (a s c) : (watchCtx a s c).agenda = s.agenda := by
  grind [watchCtx, modCtx_agenda, startFence_agenda]

@[simp] theorem periodStep_agenda (s) : (periodStep s).agenda = s.agenda := by grind [periodStep, watchCtx_agenda, foldl_agenda]

@[simp] theorem startInval_agenda (s c) : (startInval s c).agenda = s.agenda := rfl

@[simp] theorem writeImage_agenda (s ctx a bs) : (writeImage s ctx a bs).agenda = s.agenda := by
  grind [writeImage, denyAccess_agenda, unbackedAccess_agenda, homeStore_agenda, nextId_agenda, sendStore_agenda, foldl_agenda,
    getD_agenda]

@[simp] theorem writeDirectory_agenda (s ctx) : (writeDirectory s ctx).agenda = s.agenda := by
  grind [writeDirectory, writeImage_agenda]

theorem saveImages_agenda (ctx cid r a b) : ∀ t, saveImages ctx cid r a b = some t → t.agenda = b.agenda := by
  fun_induction saveImages with
  | case1 => grind [writeDirectory_agenda]
  | case2 s bid b bs pages x ih =>
    intro t h
    obtain ⟨p, -, h⟩ := Option.bind_eq_some_iff.mp h
    exact (ih p t h).trans ((writeImage_agenda ..).trans (modCtx_agenda ..))

@[simp] theorem withdraw_agenda (s ids) : (withdraw s ids).agenda = s.agenda := rfl

@[simp] theorem relaunch_agenda (s gid cid g) : (relaunch s gid cid g).agenda = s.agenda := by
  grind [relaunch, modLaunch_agenda, modDie_agenda]

@[simp] theorem resumeWarp_agenda (s wid) : (resumeWarp s wid).agenda = s.agenda := by
  grind [resumeWarp, modWarp_agenda, reissue_agenda, takeParked_agenda, unpark_agenda]

@[simp] theorem readImage_agenda (s ctx a n) : (readImage s ctx a n).2.agenda = s.agenda := by
  unfold readImage
  exact foldl_snd_agenda (by intro r i; exact masterBytes_agenda ..) _ _

@[simp] theorem fillAcc_agenda (s bid core n slot bs) : (fillAcc s bid core n slot bs).agenda = s.agenda := by
  grind [fillAcc, poisonName_agenda, modCore_agenda, foldl_agenda]

@[simp] theorem loadImage_agenda (s r bid a bs) : (loadImage s r bid a bs).agenda = s.agenda := by
  unfold loadImage
  extract_lets t n s1
  have ht : t.2.agenda = s.agenda := foldl_snd_agenda (by intro r e; exact modWarp_agenda ..) _ _
  have h1 : s1.agenda = t.2.agenda := modBlock_agenda ..
  split
  · exact h1.trans ht
  · exact (foldl_agenda (fun s e => fillAcc_agenda s _ _ _ _ _) _ _).trans (h1.trans ht)

@[simp] theorem loadImages_agenda (s ctx cid r bs) : (loadImages s ctx cid r bs).agenda = s.agenda := by
  grind [loadImages, loadImage_agenda, readImage_agenda, foldl_agenda]

@[simp] theorem jumpPair_agenda (x sa s) : (jumpPair x sa s).2.agenda = s.agenda := by grind [jumpPair]

@[simp] theorem trimLoads_agenda (s wid win) : (trimLoads s wid win).agenda = s.agenda := by grind [trimLoads, modNet_agenda]

end Sys2Proof.Machine
end

section
/-! SUPPORT. What migration, errors, the debug mailbox and the security processor leave of the agenda (R405 to R410, R431 to
R466). -/

namespace Sys2Proof.Machine

open Sys2Proof

@[simp] theorem modMig_agenda (s ch f) : (modMig s ch f).agenda = s.agenda := rfl

@[simp] theorem migGo_agenda (s ch) : (migGo s ch).agenda = s.agenda := by grind [migGo, modMig_agenda]

@[simp] theorem migClr_agenda (s ch) : (migClr s ch).agenda = s.agenda := rfl

@[simp] theorem cutHome_agenda (s slice a) : (cutHome s slice a).agenda = s.agenda := by
  grind [cutHome, modSlice_agenda, writeBack_agenda]

@[simp] theorem fatal_agenda (s e) : (fatal s e).agenda = s.agenda := by grind [fatal, startFence_agenda, foldl_agenda]

@[simp] theorem fatalType_agenda (s typ) : (fatalType s typ).agenda = s.agenda := by grind [fatalType, fatal_agenda]

@[simp] theorem queueError_agenda (s a u code) : (queueError s a u code).agenda = s.agenda := by
  grind [queueError, fatal_agenda]

@[simp] theorem fenceSlice_agenda (s k) : (fenceSlice s k).agenda = s.agenda := by
  grind [fenceSlice, modSlice_agenda, report_agenda]

@[simp] theorem fenceWarpCtx_agenda (s wid code) : (fenceWarpCtx s wid code).agenda = s.agenda := by
  grind [fenceWarpCtx, report_agenda, startFence_agenda]

@[simp] theorem pushEvent_agenda (s bs) : (pushEvent s bs).agenda = s.agenda := by grind [pushEvent, writeBytes_agenda]

@[simp] theorem writeDump_agenda (s cause status) : (writeDump s cause status).agenda = s.agenda := by
  grind [writeDump, report_agenda, writeBytes_agenda]

@[simp] theorem overheated_agenda (s) : (overheated s).agenda = s.agenda := by grind [overheated, fatalType_agenda]

@[simp] theorem reelPost_agenda (s) : (reelPost s).agenda = s.agenda := by
  grind [reelPost, serveQueue_agenda, enqueue_agenda, foldl_agenda]

@[simp] theorem debugErr_agenda (s c code) : (debugErr s c code).agenda = s.agenda := rfl

@[simp] theorem debugDone_agenda (s c n) : (debugDone s c n).agenda = s.agenda := rfl

theorem onLocated_agenda (s c argsOk) {go : List (Nat × Block) → State} (h : ∀ bs, (go bs).agenda = s.agenda) :
    (onLocated s c argsOk go).agenda = s.agenda := by
  unfold onLocated
  split
  · exact debugErr_agenda ..
  · split
    · exact debugErr_agenda ..
    · exact h _

@[simp] theorem wakeBlock_agenda (s bid) : (wakeBlock s bid).agenda = s.agenda := by
  grind [wakeBlock, modWarp_agenda, foldl_agenda]

@[simp] theorem debugHalt_agenda (s c) : (debugHalt s c).agenda = s.agenda := by
  refine onLocated_agenda s c true fun bs => ?_
  refine (modDebug_agenda ..).trans ((debugDone_agenda ..).trans ((modCtx_agenda ..).trans ?_))
  exact foldl_agenda (fun s e => (wakeBlock_agenda ..).trans (modBlock_agenda ..)) bs s

@[simp] theorem debugResume_agenda (s c) : (debugResume s c).agenda = s.agenda := by
  refine onLocated_agenda s c true fun bs => ?_
  exact (debugDone_agenda ..).trans ((foldl_agenda (fun s e => modBlock_agenda s _ _) bs _).trans (modCtx_agenda ..))

@[simp] theorem debugStep_agenda (s c) : (debugStep s c).agenda = s.agenda := by
  refine onLocated_agenda s c _ fun bs => ?_
  dsimp only
  split
  · exact debugErr_agenda ..
  · exact (debugDone_agenda ..).trans (foldl_agenda (fun s e => modWarp_agenda s _ _) _ s)

@[simp] theorem debugWatch_agenda (s c) : (debugWatch s c).agenda = s.agenda := by
  refine onLocated_agenda s c _ fun bs => ?_
  dsimp only
  split
  · exact debugErr_agenda ..
  · exact (debugDone_agenda ..).trans (foldl_agenda (fun s p => modBlock_agenda s _ _) _ s)

@[simp] theorem debugIcinv_agenda (s c) : (debugIcinv s c).agenda = s.agenda := rfl

@[simp] theorem debugCmd_agenda (s c op) : (debugCmd s c op).agenda = s.agenda := by
  grind [debugCmd, debugIcinv_agenda, modDebug_agenda, debugErr_agenda, debugResume_agenda, debugWatch_agenda, debugStep_agenda,
    debugHalt_agenda]

@[simp] theorem debugWrite_agenda (s c off v) : (debugWrite s c off v).agenda = s.agenda := by
  unfold debugWrite
  split
  · exact debugCmd_agenda ..
  all_goals rfl

@[simp] theorem modBox_agenda (s fn f) : (modBox s fn f).agenda = s.agenda := rfl

@[simp] theorem endCmd_agenda (s fn status) : (endCmd s fn status).agenda = s.agenda := rfl

@[simp] theorem setRsp_agenda (s fn i v) : (setRsp s fn i v).agenda = s.agenda := rfl

@[simp] theorem skipUnknown_agenda (a b) : (skipUnknown a b).agenda = b.agenda := by
  fun_induction skipUnknown <;> grind [endCmd_agenda]

@[simp] theorem secCmd_agenda (s fn op) : (secCmd s fn op).agenda = s.agenda := by
  grind [secCmd, modSec_agenda, modBox_agenda, skipUnknown_agenda]

@[simp] theorem secPut_agenda (s a bs) : (secPut s a bs).agenda = s.agenda := by grind [secPut, homeStore_agenda, foldl_agenda]

theorem secRun_agenda (s fn op) {go : State → Nat × State} (h : (go s).2.agenda = s.agenda) :
    agendaAfter (secRun s fn op go) = some s.agenda := by
  unfold secRun
  split
  · rfl
  · split
    · exact agendaAfter_next ((skipUnknown_agenda ..).trans (endCmd_agenda ..))
    · exact agendaAfter_next ((skipUnknown_agenda ..).trans ((endCmd_agenda ..).trans h))

@[simp] theorem startJob_agenda (s j) : (startJob s j).agenda = s.agenda := by
  grind [startJob, modSec_agenda, settleGrain_agenda, foldl_agenda]

@[simp] theorem secWrite_agenda (s fn off v) : (secWrite s fn off v).agenda = s.agenda := by
  grind [secWrite, modBox_agenda, secCmd_agenda]

@[simp] theorem bootState_agenda (s up) : (bootState s up).agenda = s.agenda := by grind [bootState, getD_agenda]

end Sys2Proof.Machine
end

section
/-! SUPPORT. What the fabric, the MMIO range, packets at their homes and the grants leave of the agenda (R13, R230, R239 to
R242, R414). -/

namespace Sys2Proof.Machine

open Sys2Proof

@[simp] theorem settleGroups_agenda (s) : (settleGroups s).agenda = s.agenda := by
  grind [settleGroups, modFab_agenda, foldl_agenda]

@[simp] theorem addPart_agenda (s p) : (addPart s p).agenda = s.agenda := by grind [addPart, nextId_agenda, modFab_agenda]

@[simp] theorem loseColl_agenda (s x dst p) : (loseColl s x dst p).agenda = s.agenda := by
  grind [loseColl, report_agenda, addPart_agenda]

@[simp] theorem sendColl_agenda (s x hub dst p seq) : (sendColl s x hub dst p seq).agenda = s.agenda := by
  grind [sendColl, sendMsg_agenda, modFab_agenda, loseColl_agenda]

@[simp] theorem sendPart_agenda (s x hub dsts p) : (sendPart s x hub dsts p).agenda = s.agenda := by
  grind [sendPart, sendColl_agenda, foldl_agenda]

@[simp] theorem collStep_agenda (s x ctx stp) : (collStep s x ctx stp).agenda = s.agenda := by
  grind [collStep, sendPart_agenda, modFab_agenda, addPart_agenda, getD_agenda]

@[simp] theorem enterOwn_agenda (s x k) : (enterOwn s x k).agenda = s.agenda := by
  grind [enterOwn, sendPart_agenda, modFab_agenda, addPart_agenda]

@[simp] theorem sendLanyard_agenda (s load grp a head body) : (sendLanyard s load grp a head body).agenda = s.agenda := by
  grind [sendLanyard, sendLink_agenda, nextId_agenda, modFab_agenda]

@[simp] theorem lanyardDone_agenda (s id r bs poison) : (lanyardDone s id r bs poison).agenda = s.agenda := by
  unfold lanyardDone
  extract_lets s1
  have h1 : s1.agenda = s.agenda := modFab_agenda ..
  split
  · exact (modLoad_agenda ..).trans h1
  · split
    · exact h1
    · extract_lets s2
      have h2 : s2.agenda = s1.agenda := by
        unfold s2
        split
        · split
          · rfl
          · exact foldl_agenda (fun s v => setPart_agenda s ..) _ s1
        · rfl
      exact (performEnt_agenda ..).trans (h2.trans h1)
  · exact h1

@[simp] theorem replayReq_agenda (s id r) : (replayReq s id r).agenda = s.agenda := by
  grind [replayReq, sendBy_agenda, modFab_agenda, freePick_agenda]

@[simp] theorem replayColl_agenda (s c) : (replayColl s c).agenda = s.agenda := by
  grind [replayColl, sendColl_agenda, freePick_agenda, loseColl_agenda]

@[simp] theorem outRead_agenda (s hub mid ctx a n) : (outRead s hub mid ctx a n).2.2.2.agenda = s.agenda := by
  grind [outRead, engNote_agenda, engTouch_agenda, foldl_agenda, getD_agenda]

@[simp] theorem outWrite_agenda (s hub mid ctx a bs) : (outWrite s hub mid ctx a bs).2.agenda = s.agenda := by
  grind [outWrite, engNote_agenda, homeStoreBy_agenda, foldl_agenda, getD_agenda]

@[simp] theorem answerPeer_agenda (s r poison bs) : (answerPeer s r poison bs).agenda = s.agenda := by
  grind [answerPeer, sendLink_agenda]

@[simp] theorem modQp_agenda (s qp f) : (modQp s qp f).agenda = s.agenda := rfl

@[simp] theorem completeReq_agenda (s qp recv idx req status bytes) :
    (completeReq s qp recv idx req status bytes).agenda = s.agenda := by
  grind [completeReq, modQp_agenda, outWrite_agenda]

@[simp] theorem sendWork_agenda (s qp p idx r) : (sendWork s qp p idx r).agenda = s.agenda := by
  grind [sendWork, sendEth_agenda, outRead_agenda, completeReq_agenda, modQp_agenda]

@[simp] theorem writeCctl_agenda (s c v) : (writeCctl s c v).agenda = s.agenda := by
  grind [writeCctl, modCtx_agenda, modFab_agenda]

@[simp] theorem writeCstat_agenda (s c v) : (writeCstat s c v).agenda = s.agenda := by
  grind [writeCstat, modCtx_agenda, startFence_agenda, restartWatchdog_agenda]

@[simp] theorem ctxWrite_agenda (s c reg v) : (ctxWrite s c reg v).agenda = s.agenda := by
  have hput (ok : Bool) (f : Ctx → Ctx) : (if ok then modCtx s c f else s).agenda = s.agenda := by
    split <;> rfl
  unfold ctxWrite
  dsimp only
  split
  case h_5 => exact writeCctl_agenda ..
  case h_13 => split <;> [exact startInval_agenda ..; rfl]
  case h_14 => exact writeCstat_agenda ..
  case h_15 => rfl
  all_goals exact hput _ _

@[simp] theorem writeQctl_agenda (s q v) : (writeQctl s q v).agenda = s.agenda := by grind [writeQctl, modQueue_agenda]

@[simp] theorem queueWrite_agenda (s q reg v) : (queueWrite s q reg v).agenda = s.agenda := by
  unfold queueWrite
  split
  · rfl
  · split
    case h_3 => exact writeQctl_agenda ..
    all_goals rfl

@[simp] theorem fmtWrite_agenda (s h w reg v) : (fmtWrite s h w reg v).agenda = s.agenda := by grind [fmtWrite]

@[simp] theorem migWrite_agenda (s ch reg v) : (migWrite s ch reg v).agenda = s.agenda := by
  unfold migWrite
  dsimp only
  split
  case h_5 =>
    have hgo (u : State) : (if v.getLsbD 0 then migGo u ch else u).agenda = u.agenda := by
      split <;> [exact migGo_agenda u ch; rfl]
    split
    · exact (migClr_agenda ..).trans ((hgo _).trans (modMig_agenda ..))
    · exact (hgo _).trans (modMig_agenda ..)
  case h_7 => rfl
  all_goals exact modMig_agenda ..

@[simp] theorem evWrite_agenda (s reg v) : (evWrite s reg v).agenda = s.agenda := by
  unfold evWrite
  dsimp only
  split
  · split <;> rfl
  all_goals rfl

@[simp] theorem regWrite_agenda (s m off v) : (regWrite s m off v).agenda = s.agenda := by
  grind [regWrite, fmtWrite_agenda, ctxWrite_agenda, evWrite_agenda, queueWrite_agenda, debugWrite_agenda, migWrite_agenda,
    secWrite_agenda]

@[simp] theorem mmioWrite_agenda (s m off size v) : (mmioWrite s m off size v).agenda = s.agenda := by
  grind [mmioWrite, regWrite_agenda, malformed_agenda]

@[simp] theorem masterWrite_agenda (s m off size v) : (masterWrite s m off size v).agenda = s.agenda := by
  unfold masterWrite
  split
  · rfl
  · split
    · exact denyAccess_agenda ..
    · exact mmioWrite_agenda ..

@[simp] theorem hostReply_agenda (s fn bs poison) : (hostReply s fn bs poison).agenda = s.agenda := rfl

@[simp] theorem masterRead_agenda (s m off size) : (masterRead s m off size).agenda = s.agenda := by
  have hreply (u : State) (w : Nat) (p : Bool) :
      (if m.cls = 8 then hostReply u m.who (toBytes size w) p else u).agenda = u.agenda := by
    split <;> [exact hostReply_agenda ..; rfl]
  unfold masterRead
  dsimp only
  split
  · exact (hreply _ _ _).trans (denyAccess_agenda ..)
  · exact (hreply _ _ _).trans (mmioRead_agenda ..)

@[simp] theorem windowWrite_agenda (s fn q size words) : (windowWrite s fn q size words).agenda = s.agenda := by
  unfold windowWrite
  extract_lets m off bad
  have hbad (reason : Nat) : (bad reason).agenda = s.agenda := (malformed_agenda ..).trans (modQueue_agenda ..)
  split
  · exact denyAccess_agenda ..
  · split
    · rfl
    · split
      · exact hbad 0
      · split
        · exact hbad 1
        · split
          · exact hbad 2
          · split
            · exact (malformed_agenda ..).trans (modQueue_agenda ..)
            · exact (serveQueue_agenda ..).trans (enqueue_agenda ..)

@[simp] theorem bar0Access_agenda (s r) : (bar0Access s r).agenda = s.agenda := by
  grind [bar0Access, masterWrite_agenda, masterRead_agenda, windowWrite_agenda]

@[simp] theorem configAccess_agenda (s r) : (configAccess s r).agenda = s.agenda := by grind [configAccess, hostReply_agenda]

@[simp] theorem servePart_agenda (s r l ctx first a) : (servePart s r l ctx first a).2.agenda = s.agenda := by
  grind [servePart, denyAccess_agenda, sendLanyard_agenda, mmioRead_agenda, fromSlices_agenda, unbackedAccess_agenda,
    getD_agenda]

@[simp] theorem noteServed_agenda (s r l p a v) : (noteServed s r l p a v).agenda = s.agenda := by
  unfold noteServed
  extract_lets die waits
  split
  · split
    next t s1 hs1 =>
    have h1 : s1.agenda = s.agenda := by rw [← nextId_agenda s, hs1]
    extract_lets lease s2
    have h2 : s2.agenda = s1.agenda := setPart_agenda ..
    split
    · exact (modLoad_agenda ..).trans (h2.trans h1)
    · exact h2.trans h1
  · exact setPart_agenda ..
  · split
    · exact modReq_agenda ..
    · rfl

@[simp] theorem serveLane_agenda (s r l w p) : (serveLane s r l w p).agenda = s.agenda := by
  grind [serveLane, setPart_agenda, noteServed_agenda, servePart_agenda]

@[simp] theorem discardEnt_agenda (s e) : (discardEnt s e).agenda = s.agenda := by
  grind [discardEnt, setPart_agenda, performEnt_agenda, foldl_agenda, getD_agenda]

@[simp] theorem mmioAtomic_agenda (s m op x) : (mmioAtomic s m op x).agenda = s.agenda := by
  grind [mmioAtomic, mmioRead_agenda, setPart_agenda, mmioWrite_agenda]

@[simp] theorem mmioPacket_agenda (s m e) : (mmioPacket s m e).agenda = s.agenda := by
  grind [mmioPacket, mmioRead_agenda, mmioWrite_agenda, mmioAtomic_agenda, performEnt_agenda, foldl_agenda]

@[simp] theorem steerEnt_agenda (s e) : (steerEnt s e).2.agenda = s.agenda := by grind [steerEnt, modLoad_agenda]

@[simp] theorem sendNt_agenda (s e) : (sendNt s e).agenda = s.agenda := by grind [sendNt, modNet_agenda, nextId_agenda]

@[simp] theorem placeEnt_agenda (s e) : (placeEnt s e).agenda = s.agenda := by
  grind [placeEnt, denyAccess_agenda, sendLanyard_agenda, unbackedAccess_agenda, discardEnt_agenda, homeWriteAt_agenda,
    mmioPacket_agenda, steerEnt_agenda, getD_agenda]

@[simp] theorem mergeTest_agenda (s wid w) : (mergeTest s wid w).agenda = s.agenda := by
  grind [mergeTest, modWarp_agenda, freePick_agenda]

@[simp] theorem mergeQuad_agenda (s core quad) : (mergeQuad s core quad).agenda = s.agenda := by
  grind [mergeQuad, mergeTest_agenda, foldl_agenda]

@[simp] theorem resign_agenda (s bid) : (resign s bid).agenda = s.agenda := by
  grind [resign, modWarp_agenda, modBlock_agenda, foldl_agenda, getD_agenda]

@[simp] theorem grantRun_agenda (s core quad wid w b) : (grantRun s core quad wid w b).agenda = s.agenda := by
  grind [grantRun, modWarp_agenda, resign_agenda, trapAtIssue_agenda, modCore_agenda]

@[simp] theorem grantBest_agenda (s core quad kind) : (grantBest s core quad kind).agenda = s.agenda := by
  grind [grantBest, mergeQuad_agenda, grantRun_agenda]

@[simp] theorem countPeriods_agenda (s) : (countPeriods s).agenda = s.agenda := by
  grind [countPeriods, periodStep_agenda, foldl_agenda]

end Sys2Proof.Machine
end

section
/-! SUPPORT. Every event has a next state, with the agenda as it was: where its condition does not hold, the state itself (log
3). -/

namespace Sys2Proof.Machine

open Sys2Proof

@[simp] theorem execWarpArrival_agenda (warp bar s) : agendaAfter (execWarpArrival warp bar s) = some s.agenda := by
  grind [execWarpArrival, agendaAfter, modWarp_agenda, dropDescs_agenda, receiveArrival_agenda, noteRelease_agenda]

@[simp] theorem execPairedBarrierEvent_agenda (block s) : agendaAfter (execPairedBarrierEvent block s) = some s.agenda := by
  grind [execPairedBarrierEvent, agendaAfter, detachOne_agenda, joinBar_agenda, countArrival_agenda, modBlock_agenda]

@[simp] theorem execBlockArrival_agenda (block bar s) : agendaAfter (execBlockArrival block bar s) = some s.agenda := by
  grind [execBlockArrival, agendaAfter, clusterArrive_agenda, gridArrive_agenda, getD_agenda]

@[simp] theorem execResourceQueueService_agenda (core s) : agendaAfter (execResourceQueueService core s) = some s.agenda := by
  grind [execResourceQueueService, agendaAfter, serveCore_agenda]

@[simp] theorem execResourceQueueAgeLimit_agenda (core s) : agendaAfter (execResourceQueueAgeLimit core s) = some s.agenda := by
  grind [execResourceQueueAgeLimit, agendaAfter, serveCore_agenda]

@[simp] theorem execResourceRefusal_agenda (core s) : agendaAfter (execResourceRefusal core s) = some s.agenda := by
  grind [execResourceRefusal, agendaAfter, refuse_agenda]

@[simp] theorem execWarpResourceReturn_agenda (warp s) : agendaAfter (execWarpResourceReturn warp s) = some s.agenda := by
  grind [execWarpResourceReturn, agendaAfter, modWarp_agenda, dropDone_agenda, passDue_agenda, servePair_agenda]

@[simp] theorem execPlacementPass_agenda (die s) : agendaAfter (execPlacementPass die s) = some s.agenda := by
  grind [execPlacementPass, agendaAfter, placementPass_agenda]

@[simp] theorem execPlacementAgeLimit_agenda (die s) : agendaAfter (execPlacementAgeLimit die s) = some s.agenda := by
  grind [execPlacementAgeLimit, agendaAfter, modDie_agenda]

@[simp] theorem execBlockPlace_agenda (die s) : agendaAfter (execBlockPlace die s) = some s.agenda := by
  grind [execBlockPlace, agendaAfter, modDie_agenda]

@[simp] theorem execBlockStart_agenda (block s) : agendaAfter (execBlockStart block s) = some s.agenda := by
  grind [execBlockStart, agendaAfter, modWarp_agenda, modBlock_agenda, foldl_agenda]

@[simp] theorem execSeamHalfForward_agenda (die s) : agendaAfter (execSeamHalfForward die s) = some s.agenda := by
  grind [execSeamHalfForward, agendaAfter, takeHalves_agenda]

@[simp] theorem execCopyPiece_agenda (id s) : agendaAfter (execCopyPiece id s) = some s.agenda := by
  grind [execCopyPiece, agendaAfter, writePiece_agenda, modBay_agenda, readPiece_agenda, clearNext_agenda]

@[simp] theorem execCopySourceRead_agenda (id s) : agendaAfter (execCopySourceRead id s) = some s.agenda := by
  grind [execCopySourceRead, agendaAfter, modWarp_agenda, modCopy_agenda, settleCopy_agenda]

@[simp] theorem execCopyLineWrite_agenda (id s) : agendaAfter (execCopyLineWrite id s) = some s.agenda := by
  grind [execCopyLineWrite, agendaAfter, modNet_agenda, wakeLines_agenda, fillSlot_agenda, writeLine_agenda, settleCopy_agenda]

@[simp] theorem execStreamRelease_agenda (id s) : agendaAfter (execStreamRelease id s) = some s.agenda := by
  grind [execStreamRelease, agendaAfter, modNet_agenda, nextId_agenda]

@[simp] theorem execRingArrival_agenda (id s) : agendaAfter (execRingArrival id s) = some s.agenda := by
  grind [execRingArrival, agendaAfter, modNet_agenda, ringArrive_agenda, settleCopy_agenda]

@[simp] theorem execCopyFailure_agenda (id s) : agendaAfter (execCopyFailure id s) = some s.agenda := by
  grind [execCopyFailure, agendaAfter, failSlots_agenda, wakeLines_agenda, dropLines_agenda, modCopy_agenda, uncountCopy_agenda]

@[simp] theorem execCopyReplay_agenda (block entry s) : agendaAfter (execCopyReplay block entry s) = some s.agenda := by
  grind [execCopyReplay, agendaAfter, sweepCopies_agenda, modNet_agenda, nextId_agenda, modBlock_agenda]

@[simp] theorem execChannelClaim_agenda (id s) : agendaAfter (execChannelClaim id s) = some s.agenda := by
  unfold execChannelClaim
  split
  · rfl
  · split
    · extract_lets e
      split
      · rfl
      · refine agendaAfter_ite_next fun _ => agendaAfter_ite (agendaAfter_next ((reissue_agenda ..).trans (modNet_agenda ..))) ?_
        refine agendaAfter_ite (agendaAfter_next (modBlock_agenda ..)) ?_
        extract_lets first
        split
        · rfl
        · extract_lets dst recvs s1 t s2 old s3 s4
          have ht : t.1.agenda = s1.agenda := foldl_fst_agenda (fun t r => clearAt_agenda t.1 ..) _ _
          exact agendaAfter_next ((unpark_agenda ..).trans ((modWarp_agenda ..).trans ((modCopy_agenda ..).trans ht)))
    · rfl

@[simp] theorem execKlaunch_agenda (q s) : agendaAfter (execKlaunch q s) = some s.agenda := by
  grind [execKlaunch, agendaAfter, modPacket_agenda, completePacket_agenda, readRecord_agenda, startPacket_agenda,
    enterLaunch_agenda, restartWatchdog_agenda, badPacket_agenda]

@[simp] theorem execWaiton_agenda (q s) : agendaAfter (execWaiton q s) = some s.agenda := by
  grind [execWaiton, agendaAfter, completePacket_agenda, startPacket_agenda, badPacket_agenda]

@[simp] theorem execWaitonSatisfied_agenda (q idx s) : agendaAfter (execWaitonSatisfied q idx s) = some s.agenda := by
  grind [execWaitonSatisfied, agendaAfter, completePacket_agenda]

@[simp] theorem execWork_agenda (q s) : agendaAfter (execWork q s) = some s.agenda := by
  grind [execWork, agendaAfter, completePacket_agenda, startPacket_agenda, badPacket_agenda]

@[simp] theorem execKlaunchComplete_agenda (q idx s) : agendaAfter (execKlaunchComplete q idx s) = some s.agenda := by
  grind [execKlaunchComplete, agendaAfter, endKlaunch_agenda]

@[simp] theorem execCoreStoreOrderSend_agenda (core warp s) :
    agendaAfter (execCoreStoreOrderSend core warp s) = some s.agenda := by
  grind [execCoreStoreOrderSend, agendaAfter, popStore_agenda, enterWindow_agenda, enterGroup_agenda, modNet_agenda,
    nextId_agenda]

@[simp] theorem execGapFillArrival_agenda (id bad s) : agendaAfter (execGapFillArrival id bad s) = some s.agenda := by
  grind [execGapFillArrival, agendaAfter, modSlice_agenda, leaveLease_agenda, serveLease_agenda, dropFill_agenda,
    fillHome_agenda, fillLease_agenda, foldl_agenda, getD_agenda]

@[simp] theorem execLoadReturn_agenda (id s) : agendaAfter (execLoadReturn id s) = some s.agenda := by
  grind [execLoadReturn, agendaAfter, returnLoad_agenda]

@[simp] theorem execLeaseExpiry_agenda (slice s) : agendaAfter (execLeaseExpiry slice s) = some s.agenda := by
  grind [execLeaseExpiry, agendaAfter, purgeExpired_agenda]

@[simp] theorem execSpliceAbsorb_agenda (id s) : agendaAfter (execSpliceAbsorb id s) = some s.agenda := by
  unfold execSpliceAbsorb
  split
  · split
    · split
      · rfl
      · split
        · extract_lets x'
          split
          · exact agendaAfter_next ((performAtBay_agenda ..).trans (modSplice_agenda ..))
          · exact agendaAfter_next (modSplice_agenda ..)
        · extract_lets old full s1 x
          have h1 : s1.agenda = s.agenda := by grind [sendPartial_agenda]
          exact agendaAfter_next ((modBay_agenda ..).trans h1)
    · rfl
  · rfl

@[simp] theorem execSpliceRecordRequest_agenda (bay grain s0) :
    agendaAfter (execSpliceRecordRequest bay grain s0) = some s0.agenda := by
  grind [execSpliceRecordRequest, agendaAfter, recordSplice_agenda, sendPartial_agenda, reelHook_agenda]

@[simp] theorem execSpliceConfirm_agenda (bay grain s) : agendaAfter (execSpliceConfirm bay grain s) = some s.agenda := by
  grind [execSpliceConfirm, agendaAfter, performEnts_agenda, modSplice_agenda]

@[simp] theorem execSpliceRecall_agenda (bay grain s) : agendaAfter (execSpliceRecall bay grain s) = some s.agenda := by
  grind [execSpliceRecall, agendaAfter, clearSpliceBit_agenda, sendPartial_agenda]

@[simp] theorem execSplicePartialCombine_agenda (id s) : agendaAfter (execSplicePartialCombine id s) = some s.agenda := by
  grind [execSplicePartialCombine, agendaAfter, clearSpliceBit_agenda, modNet_agenda, callSplice_agenda, performEnts_agenda,
    applyPartial_agenda, leaveAt_agenda, startFills_agenda, portAt_agenda, reelHook_agenda, waitAt_agenda]

@[simp] theorem execTranslationWalk_agenda (core ctx va s) :
    agendaAfter (execTranslationWalk core ctx va s) = some s.agenda := by
  grind [execTranslationWalk, agendaAfter, cacheVa_agenda]

@[simp] theorem execHomeAck_agenda (id s) : agendaAfter (execHomeAck id s) = some s.agenda := by
  grind [execHomeAck, agendaAfter, ackEnt_agenda, modNet_agenda, dropEnt_agenda, dropLeaseGrain_agenda, ackGroup_agenda]

@[simp] theorem execScratchPortAccess_agenda (id s) : agendaAfter (execScratchPortAccess id s) = some s.agenda := by
  unfold execScratchPortAccess
  split
  · rfl
  · split
    · grind [agendaAfter, sendLoad_agenda]
    · split
      · rfl
      · extract_lets gone
        have hgone (u : State) : (gone u).agenda = u.agenda := modNet_agenda ..
        have hload (u : State) (l : Nat) (m : PortMsg) (p : PLoad) :
            agendaAfter (.next (noteSources (gone (modLoad (performRank u m.place.cluster m.place.rank p).1 l
              fun _ => (performRank u m.place.cluster m.place.rank p).2)))) = some u.agenda :=
          agendaAfter_next ((noteSources_agenda ..).trans ((hgone _).trans ((modLoad_agenda ..).trans (performRank_agenda ..))))
        split
        · split
          · exact agendaAfter_next (hgone s)
          · exact hload ..
        · split
          · exact agendaAfter_next (hgone s)
          · exact hload ..
        · split
          · rfl
          · extract_lets s1
            have h1 : s1.agenda = s.agenda := by grind [modBlock_agenda]
            exact agendaAfter_next ((ackGroup_agenda ..).trans ((noteSources_agenda ..).trans ((hgone s1).trans h1)))
        · exact agendaAfter_next (portRing_agenda ..)

@[simp] theorem execKnotRequest_agenda (id s) : agendaAfter (execKnotRequest id s) = some s.agenda := by
  grind [execKnotRequest, agendaAfter, arriveKnot_agenda, modNet_agenda, nextId_agenda, knotAnswered_agenda, noteRelease_agenda,
    getD_agenda]

@[simp] theorem execKtakeResend_agenda (id s) : agendaAfter (execKtakeResend id s) = some s.agenda := by
  grind [execKtakeResend, agendaAfter, modNet_agenda, nextId_agenda]

@[simp] theorem execSignal_agenda (q s) : agendaAfter (execSignal q s) = some s.agenda := by
  grind [execSignal, agendaAfter, startSignal_agenda, startPacket_agenda]

@[simp] theorem execSignalComplete_agenda (q idx s) : agendaAfter (execSignalComplete q idx s) = some s.agenda := by
  grind [execSignalComplete, agendaAfter, signalGive_agenda, completePacket_agenda, failSignal_agenda]

@[simp] theorem execPairedAccCommandArrival_agenda (block s) :
    agendaAfter (execPairedAccCommandArrival block s) = some s.agenda := by
  grind [execPairedAccCommandArrival, agendaAfter, enqueueWork_agenda, modBlock_agenda]

@[simp] theorem execPlaneStepsStart_agenda (core s) : agendaAfter (execPlaneStepsStart core s) = some s.agenda := by
  unfold execPlaneStepsStart
  split
  · rfl
  · extract_lets go
    have hgo (u : State) (work : PlaneWork) : (go u work).agenda = u.agenda := modCore_agenda ..
    split
    · exact agendaAfter_next (hgo ..)
    · exact agendaAfter_next (hgo ..)
    · exact agendaAfter_next (hgo ..)
    · split
      · exact agendaAfter_next ((hgo ..).trans ((engNotes_agenda ..).trans (walkPages_agenda ..)))
      · split
        · exact agendaAfter_next (hgo ..)
        · split
          · exact agendaAfter_next (hgo ..)
          · rfl

@[simp] theorem execMatrixCompletion_agenda (core bad s) : agendaAfter (execMatrixCompletion core bad s) = some s.agenda := by
  grind [execMatrixCompletion, agendaAfter, noteMismatch_agenda, completeWarps_agenda, poisonName_agenda, passDue_agenda,
    serveCore_agenda, unmapName_agenda, freeBlockSlots_agenda, modCore_agenda, settleRows_agenda, getD_agenda]

@[simp] theorem execMismatchWindow_agenda (core s) : agendaAfter (execMismatchWindow core s) = some s.agenda := by
  grind [execMismatchWindow, agendaAfter, modCore_agenda]

@[simp] theorem execGoldenTest_agenda (core test s) : agendaAfter (execGoldenTest core test s) = some s.agenda := by
  unfold execGoldenTest
  dsimp only
  split <;> rfl

@[simp] theorem execGoldenTestResult_agenda (core pass s) : agendaAfter (execGoldenTestResult core pass s) = some s.agenda := by
  grind [execGoldenTestResult, agendaAfter, report_agenda, fenceCore_agenda, modCore_agenda]

@[simp] theorem execFenceComplete_agenda (ctx s) : agendaAfter (execFenceComplete ctx s) = some s.agenda := by
  grind [execFenceComplete, agendaAfter, report_agenda, modCtx_agenda, dropHeld_agenda, endPackets_agenda, endCtx_agenda,
    foldl_agenda]

@[simp] theorem execWatchdogPeriod_agenda (s) : agendaAfter (execWatchdogPeriod s) = some s.agenda := by
  grind [execWatchdogPeriod, agendaAfter, periodStep_agenda]

@[simp] theorem execInvalidationComplete_agenda (ctx s) : agendaAfter (execInvalidationComplete ctx s) = some s.agenda := by
  grind [execInvalidationComplete, agendaAfter, modCtx_agenda]

@[simp] theorem execPreemptSave_agenda (cluster s) : agendaAfter (execPreemptSave cluster s) = some s.agenda := by
  grind [execPreemptSave, agendaAfter, saveImages_agenda, startFence_agenda, withdraw_agenda]

@[simp] theorem execSaveComplete_agenda (cluster s) : agendaAfter (execSaveComplete cluster s) = some s.agenda := by
  grind [execSaveComplete, agendaAfter, servedAll_agenda, relaunch_agenda, fenceDrained_agenda, passDue_agenda,
    clearBlocks_agenda, foldl_agenda]

@[simp] theorem execRestore_agenda (cluster s) : agendaAfter (execRestore cluster s) = some s.agenda := by
  have hstart (u : State) (k : Nat) : (modBlock u k fun b => { b with started := true }).agenda = u.agenda := modBlock_agenda ..
  have hknot (u : State) (k : Knot) :
      (if k.holder == some (.cluster cluster) then writeKnot u k.krec 3 k.holder else u).agenda = u.agenda := by
    split <;> [exact writeKnot_agenda ..; rfl]
  unfold execRestore
  split
  next v g _ _ =>
    refine agendaAfter_ite_next fun _ => ?_
    have hload := loadImages_agenda s g.ctx cluster g.record (v.blocks.map Prod.fst)
    generalize loadImages s g.ctx cluster g.record (v.blocks.map Prod.fst) = s1 at hload ⊢
    refine agendaAfter_next (Eq.trans ?_ hload)
    rw [passDue_agenda, foldl_agenda serveQueue_agenda, foldl_agenda resumeWarp_agenda, foldl_agenda hknot, foldl_agenda hstart,
      withSaved_agenda, writeDirectory_agenda, modCtx_agenda]
  · rfl

@[simp] theorem execMigrationGrain_agenda (ch s) : agendaAfter (execMigrationGrain ch s) = some s.agenda := by
  grind [execMigrationGrain, agendaAfter, homeStore_agenda, engNote_agenda, settleGrain_agenda, poisonHome_agenda,
    cutHome_agenda, modMig_agenda, getD_agenda]

@[simp] theorem execMigrationDone_agenda (ch s) : agendaAfter (execMigrationDone ch s) = some s.agenda := by
  grind [execMigrationDone, agendaAfter, report_agenda, modMig_agenda]

@[simp] theorem execCorrectedError_agenda (u code n s) : agendaAfter (execCorrectedError u code n s) = some s.agenda := by
  grind [execCorrectedError, agendaAfter, modDie_agenda, getD_agenda]

@[simp] theorem execCorrectedErrorReport_agenda (u code s) :
    agendaAfter (execCorrectedErrorReport u code s) = some s.agenda := by
  grind [execCorrectedErrorReport, agendaAfter, report_agenda, modDie_agenda]

@[simp] theorem execFatalError_agenda (cause s) : agendaAfter (execFatalError cause s) = some s.agenda := by
  grind [execFatalError, agendaAfter, fatalType_agenda]

@[simp] theorem execUncorrectedError_agenda (site s) : agendaAfter (execUncorrectedError site s) = some s.agenda := by
  cases site with
  | hbm a => grind [execUncorrectedError, agendaAfter, queueError_agenda, uncorrectedGrain_agenda]
  | tier2 a => grind [execUncorrectedError, agendaAfter, queueError_agenda, uncorrectedGrain_agenda]
  | l2 k a => grind [execUncorrectedError, agendaAfter, queueError_agenda, report_agenda, putBlk_agenda]
  | tags k => grind [execUncorrectedError, agendaAfter, fenceSlice_agenda, report_agenda]
  | scratch bid l => grind [execUncorrectedError, agendaAfter, report_agenda, modBlock_agenda]
  | vreg w => exact agendaAfter_next (fenceWarpCtx_agenda ..)
  | sreg w => exact agendaAfter_next (fenceWarpCtx_agenda ..)
  | acc core slot => grind [execUncorrectedError, agendaAfter, report_agenda, poisonName_agenda]
  | icache | coreTlb => exact agendaAfter_next (modCore_agenda ..)
  | bayTlb bay n => exact agendaAfter_next (modBay_agenda ..)
  | link => exact agendaAfter_next (fatal_agenda ..)
  | sequencer core => grind [execUncorrectedError, agendaAfter, fenceCore_agenda, report_agenda]

@[simp] theorem execExpanderFence_agenda (x s) : agendaAfter (execExpanderFence x s) = some s.agenda := by
  grind [execExpanderFence, agendaAfter, report_agenda, getD_agenda]

@[simp] theorem execHbmStackLoss_agenda (stack s) : agendaAfter (execHbmStackLoss stack s) = some s.agenda := by
  grind [execHbmStackLoss, agendaAfter, report_agenda]

@[simp] theorem execEventStoreRetry_agenda (die s) : agendaAfter (execEventStoreRetry die s) = some s.agenda := by
  grind [execEventStoreRetry, agendaAfter, modDie_agenda, pushEvent_agenda]

@[simp] theorem execMsixMessage_agenda (fn s) : agendaAfter (execMsixMessage fn s) = some s.agenda := by
  grind [execMsixMessage, agendaAfter]

@[simp] theorem execDumpComplete_agenda (status s) : agendaAfter (execDumpComplete status s) = some s.agenda := by
  grind [execDumpComplete, agendaAfter, writeDump_agenda]

@[simp] theorem execOverTemperature_agenda (temp s) : agendaAfter (execOverTemperature temp s) = some s.agenda := by
  grind [execOverTemperature, agendaAfter, overheated_agenda]

@[simp] theorem execPowerStepSelect_agenda (pwr temp s) : agendaAfter (execPowerStepSelect pwr temp s) = some s.agenda := by
  grind [execPowerStepSelect, agendaAfter, overheated_agenda]

@[simp] theorem execClockStepChange_agenda (s) : agendaAfter (execClockStepChange s) = some s.agenda := by
  grind [execClockStepChange, agendaAfter]

@[simp] theorem execReelChunk_agenda (hub s) : agendaAfter (execReelChunk hub s) = some s.agenda := by
  grind [execReelChunk, agendaAfter, reelCopy_agenda]

@[simp] theorem execReelComplete_agenda (s) : agendaAfter (execReelComplete s) = some s.agenda := by
  grind [execReelComplete, agendaAfter, reelPost_agenda]

@[simp] theorem execReelEnqueueRetry_agenda (s) : agendaAfter (execReelEnqueueRetry s) = some s.agenda := by
  grind [execReelEnqueueRetry, agendaAfter, reelPost_agenda]

@[simp] theorem execHaltComplete_agenda (ctx s) : agendaAfter (execHaltComplete ctx s) = some s.agenda := by
  grind [execHaltComplete, agendaAfter, modDebug_agenda]

@[simp] theorem execIcinvComplete_agenda (ctx s) : agendaAfter (execIcinvComplete ctx s) = some s.agenda := by
  grind [execIcinvComplete, agendaAfter, modDebug_agenda, dropCode_agenda]

@[simp] theorem execAtab_agenda (fn s) : agendaAfter (execAtab fn s) = some s.agenda :=
  secRun_agenda s fn 1 (by grind [modSec_agenda])

@[simp] theorem execCtxasn_agenda (fn s) : agendaAfter (execCtxasn fn s) = some s.agenda :=
  secRun_agenda s fn 2 (by grind [modCtx_agenda])

@[simp] theorem execReel_agenda (fn s) : agendaAfter (execReel fn s) = some s.agenda := by
  refine secRun_agenda s fn 0x05 ?_
  dsimp only
  split
  · exact setRsp_agenda ..
  · split
    · exact setRsp_agenda ..
    · split
      · exact (setRsp_agenda ..).trans (startJob_agenda ..)
      · refine (setRsp_agenda ..).trans ?_
        split
        · exact (reelPost_agenda ..).trans (modSec_agenda ..)
        · rfl

@[simp] theorem execAttest_agenda (fn s) : agendaAfter (execAttest fn s) = some s.agenda := by
  refine secRun_agenda s fn 0x09 ?_
  dsimp only
  split <;> [exact secPut_agenda s _ _; rfl]

@[simp] theorem execGvcnt_agenda (fn s) : agendaAfter (execGvcnt fn s) = some s.agenda :=
  secRun_agenda s fn 0x0A (by grind [setRsp_agenda])

@[simp] theorem execFwupd_agenda (fn s) : agendaAfter (execFwupd fn s) = some s.agenda :=
  secRun_agenda s fn 0x0B (by grind [modSec_agenda])

@[simp] theorem execLcset_agenda (fn s) : agendaAfter (execLcset fn s) = some s.agenda := by
  refine secRun_agenda s fn 0x0C ?_
  dsimp only
  split
  · rfl
  · split
    · split
      · rfl
      · split
        · exact (foldl_agenda (fun s c => startFence_agenda s ..) _ _).trans (modSec_agenda ..)
        · rfl
    · rfl

@[simp] theorem execCap_agenda (fn s) : agendaAfter (execCap fn s) = some s.agenda := secRun_agenda s fn 0x0D (by grind)

@[simp] theorem execDeviceReset_agenda (source s) : agendaAfter (execDeviceReset source s) = some s.agenda := by
  grind [execDeviceReset, agendaAfter, bootState_agenda]

@[simp] theorem execMainPowerLoss_agenda (s) : agendaAfter (execMainPowerLoss s) = some s.agenda := by
  grind [execMainPowerLoss, agendaAfter, bootState_agenda]

@[simp] theorem execCgreg_agenda (fn s) : agendaAfter (execCgreg fn s) = some s.agenda :=
  secRun_agenda s fn 3 (by grind [settleGroups_agenda, modFab_agenda])

@[simp] theorem execCgdel_agenda (fn s) : agendaAfter (execCgdel fn s) = some s.agenda :=
  secRun_agenda s fn 4 (by grind [settleGroups_agenda, modFab_agenda])

@[simp] theorem execDomain_agenda (fn s) : agendaAfter (execDomain fn s) = some s.agenda :=
  secRun_agenda s fn 8 (by grind [modFab_agenda])

@[simp] theorem execCollContribution_agenda (c s) : agendaAfter (execCollContribution c s) = some s.agenda := by
  grind [execCollContribution, agendaAfter, enterOwn_agenda, addPart_agenda, settleGroups_agenda, collStep_agenda]

@[simp] theorem execCollResult_agenda (id s) : agendaAfter (execCollResult id s) = some s.agenda := by
  grind [execCollResult, agendaAfter, failCopy_agenda, modFab_agenda, modCopy_agenda, getD_agenda]

@[simp] theorem execLanyardResponse_agenda (id data poison s) :
    agendaAfter (execLanyardResponse id data poison s) = some s.agenda := by
  unfold execLanyardResponse
  split
  · rfl
  · split
    · rfl
    · exact agendaAfter_next (lanyardDone_agenda ..)

@[simp] theorem execLanyardTimeout_agenda (id s) : agendaAfter (execLanyardTimeout id s) = some s.agenda := by
  grind [execLanyardTimeout, agendaAfter, report_agenda, lanyardDone_agenda]

@[simp] theorem execLanyardLinkFail_agenda (link s) : agendaAfter (execLanyardLinkFail link s) = some s.agenda := by
  grind [execLanyardLinkFail, agendaAfter, replayReq_agenda, modFab_agenda, replayColl_agenda, foldl_agenda]

@[simp] theorem execEthernetLinkChange_agenda (port up s) : agendaAfter (execEthernetLinkChange port up s) = some s.agenda := by
  grind [execEthernetLinkChange, agendaAfter, modFab_agenda]

@[simp] theorem execPeerRequest_agenda (r s) : agendaAfter (execPeerRequest r s) = some s.agenda := by
  grind [execPeerRequest, agendaAfter, denyAccess_agenda, answerPeer_agenda, unbackedAccess_agenda, homeFill_agenda,
    outRead_agenda, outWrite_agenda, putGrain_agenda, dropLeaseGrain_agenda, getD_agenda]

@[simp] theorem execRdmaRingPoll_agenda (qp ring s) : agendaAfter (execRdmaRingPoll qp ring s) = some s.agenda := by
  grind [execRdmaRingPoll, agendaAfter, sendWork_agenda, outRead_agenda, completeReq_agenda, modQp_agenda]

@[simp] theorem execRdmaResponse_agenda (qp idx status data s) :
    agendaAfter (execRdmaResponse qp idx status data s) = some s.agenda := by
  grind [execRdmaResponse, agendaAfter, completeReq_agenda, modQp_agenda, outWrite_agenda]

@[simp] theorem execRdmaInboundSend_agenda (qp data s) : agendaAfter (execRdmaInboundSend qp data s) = some s.agenda := by
  grind [execRdmaInboundSend, agendaAfter, completeReq_agenda, modQp_agenda, outWrite_agenda]

@[simp] theorem execRdmaInbound_agenda (r s) : agendaAfter (execRdmaInbound r s) = some s.agenda := by
  grind [execRdmaInbound, agendaAfter, sendEth_agenda, outRead_agenda, outWrite_agenda]

@[simp] theorem execRdmaRetryTimeout_agenda (qp idx s) : agendaAfter (execRdmaRetryTimeout qp idx s) = some s.agenda := by
  grind [execRdmaRetryTimeout, agendaAfter, completeReq_agenda, modQp_agenda]

@[simp] theorem execQpnew_agenda (fn s) : agendaAfter (execQpnew fn s) = some s.agenda :=
  secRun_agenda s fn 6 (by grind [setRsp_agenda, modFab_agenda])

@[simp] theorem execQpdel_agenda (fn s) : agendaAfter (execQpdel fn s) = some s.agenda := by
  refine secRun_agenda s fn 0x07 ?_
  dsimp only
  split
  · rfl
  · split
    · rfl
    · refine (modFab_agenda ..).trans ((foldl_agenda ?_ _ _).trans (foldl_agenda ?_ _ s)) <;>
        exact fun u e => completeReq_agenda ..

@[simp] theorem execCctlWrite_agenda (m ctx v s) : agendaAfter (execCctlWrite m ctx v s) = some s.agenda := by
  grind [execCctlWrite, agendaAfter, masterWrite_agenda]

@[simp] theorem execKill_agenda (m ctx s) : agendaAfter (execKill m ctx s) = some s.agenda := by
  grind [execKill, agendaAfter, masterWrite_agenda]

@[simp] theorem execWkick_agenda (m ctx s) : agendaAfter (execWkick m ctx s) = some s.agenda := by
  grind [execWkick, agendaAfter, masterWrite_agenda]

@[simp] theorem execCinvGo_agenda (m ctx s) : agendaAfter (execCinvGo m ctx s) = some s.agenda := by
  grind [execCinvGo, agendaAfter, masterWrite_agenda]

@[simp] theorem execQctlWrite_agenda (m q v s) : agendaAfter (execQctlWrite m q v s) = some s.agenda := by
  grind [execQctlWrite, agendaAfter, masterWrite_agenda]

@[simp] theorem execMigrationGo_agenda (m ch s) : agendaAfter (execMigrationGo m ch s) = some s.agenda := by
  grind [execMigrationGo, agendaAfter, masterWrite_agenda, getD_agenda]

@[simp] theorem execMigrationClr_agenda (m ch s) : agendaAfter (execMigrationClr m ch s) = some s.agenda := by
  grind [execMigrationClr, agendaAfter, masterWrite_agenda, getD_agenda]

@[simp] theorem execEvheadWrite_agenda (m v s) : agendaAfter (execEvheadWrite m v s) = some s.agenda := by
  grind [execEvheadWrite, agendaAfter, masterWrite_agenda]

@[simp] theorem execEvstatLostRead_agenda (m s) : agendaAfter (execEvstatLostRead m s) = some s.agenda := by
  grind [execEvstatLostRead, agendaAfter, masterRead_agenda]

@[simp] theorem execHalt_agenda (m ctx s) : agendaAfter (execHalt m ctx s) = some s.agenda := by
  grind [execHalt, agendaAfter, masterWrite_agenda]

@[simp] theorem execResume_agenda (m ctx s) : agendaAfter (execResume m ctx s) = some s.agenda := by
  grind [execResume, agendaAfter, masterWrite_agenda]

@[simp] theorem execStep_agenda (m ctx s) : agendaAfter (execStep m ctx s) = some s.agenda := by
  grind [execStep, agendaAfter, masterWrite_agenda]

@[simp] theorem execWatch_agenda (m ctx s) : agendaAfter (execWatch m ctx s) = some s.agenda := by
  grind [execWatch, agendaAfter, masterWrite_agenda]

@[simp] theorem execIcinv_agenda (m ctx s) : agendaAfter (execIcinv m ctx s) = some s.agenda := by
  grind [execIcinv, agendaAfter, masterWrite_agenda]

@[simp] theorem execDpost3Write_agenda (m ctx v s) : agendaAfter (execDpost3Write m ctx v s) = some s.agenda := by
  grind [execDpost3Write, agendaAfter, masterWrite_agenda]

@[simp] theorem execDstatPostClear_agenda (m ctx s) : agendaAfter (execDstatPostClear m ctx s) = some s.agenda := by
  grind [execDstatPostClear, agendaAfter, masterWrite_agenda]

@[simp] theorem execDclaimRead_agenda (m ctx s) : agendaAfter (execDclaimRead m ctx s) = some s.agenda := by
  grind [execDclaimRead, agendaAfter, masterRead_agenda]

@[simp] theorem execRegisterWrite_agenda (m off size v s) : agendaAfter (execRegisterWrite m off size v s) = some s.agenda := by
  grind [execRegisterWrite, agendaAfter, masterWrite_agenda]

@[simp] theorem execEnqueueWindowWrite_agenda (fn q size words s) :
    agendaAfter (execEnqueueWindowWrite fn q size words s) = some s.agenda := by
  grind [execEnqueueWindowWrite, agendaAfter, windowWrite_agenda]

@[simp] theorem execHostAccess_agenda (r s) : agendaAfter (execHostAccess r s) = some s.agenda := by
  grind [execHostAccess, agendaAfter, bar0Access_agenda, configAccess_agenda, outRead_agenda, outWrite_agenda, hostReply_agenda]

@[simp] theorem execFlrVirtual_agenda (fn s) : agendaAfter (execFlrVirtual fn s) = some s.agenda := by
  grind [execFlrVirtual, agendaAfter, startFence_agenda, foldl_agenda]

@[simp] theorem execFlrFunction0_agenda (s) : agendaAfter (execFlrFunction0 s) = some s.agenda := by
  grind [execFlrFunction0, agendaAfter, startFence_agenda, foldl_agenda]

@[simp] theorem execVirtualFunctionEnable_agenda (n s) : agendaAfter (execVirtualFunctionEnable n s) = some s.agenda := by
  grind [execVirtualFunctionEnable, agendaAfter]

@[simp] theorem execL2Request_agenda (id s) : agendaAfter (execL2Request id s) = some s.agenda := by
  unfold execL2Request
  split
  · rfl
  · split
    · exact agendaAfter_next ((dropReq_agenda ..).trans (prefetchAt_agenda ..))
    · split
      · exact agendaAfter_next (dropReq_agenda ..)
      · split
        · exact agendaAfter_next (dropReq_agenda ..)
        next w _ =>
          split
          · rfl
          · extract_lets t left t2
            have ht : t.agenda = s.agenda := foldl_agenda (fun s p => serveLane_agenda s ..) _ _
            have h2 : t2.agenda = t.agenda := endVisit_agenda ..
            split
            · exact agendaAfter_next ((dropReq_agenda ..).trans (h2.trans ht))
            · exact agendaAfter_next (h2.trans ht)

@[simp] theorem execHomeWrite_agenda (id s) : agendaAfter (execHomeWrite id s) = some s.agenda := by
  grind [execHomeWrite, agendaAfter, placeEnt_agenda, sendNt_agenda, flushStep_agenda]

@[simp] theorem execRunGrant_agenda (core quad s) : agendaAfter (execRunGrant core quad s) = some s.agenda := by
  grind [execRunGrant, agendaAfter, grantBest_agenda]

@[simp] theorem execReadyWaitGuard_agenda (core quad s) : agendaAfter (execReadyWaitGuard core quad s) = some s.agenda := by
  grind [execReadyWaitGuard, agendaAfter, grantBest_agenda]

@[simp] theorem execSleepEnd_agenda (warp sub s) : agendaAfter (execSleepEnd warp sub s) = some s.agenda := by
  grind [execSleepEnd, agendaAfter, modWarp_agenda]

end Sys2Proof.Machine
end

section
/-! SUPPORT. Every instruction that a sub-braid issues has a next state, with the agenda as it was. -/

namespace Sys2Proof.Machine

open Sys2Proof

/-- What an issue leaves of the agenda, where a sub-braid issues. -/
theorem issue_agenda {i : Instr} {s : State} {x : Issue} {body : Issue → State → Verdict × State} (hx : issuerOf s i = some x)
    (hbody : (body x s).2.agenda = s.agenda) : agendaAfter (issue i s body) = some s.agenda := by
  unfold issue
  rw [hx]
  dsimp only
  split
  · exact agendaAfter_next (finish_agenda x (_, s))
  · exact agendaAfter_next ((finish_agenda ..).trans hbody)

theorem issueOp_agenda {i : Instr} {s : State} {x : Issue} {body : Issue → State → Verdict × State} (hx : issuerOf s i = some x)
    (hbody : (body x s).2.agenda = s.agenda) : agendaAfter (issueOp i s body) = some s.agenda := by
  refine issue_agenda hx ?_
  split
  next r hr => exact poisOf_agenda x s r hr
  · exact hbody

theorem issueWarp_agenda {i : Instr} {s : State} {x : Issue} (body : Issue → Warp → Warp) (hx : issuerOf s i = some x) :
    agendaAfter (issueWarp i s body) = some s.agenda := issueOp_agenda hx (modWarp_agenda ..)

theorem jumpOp_agenda {i : Instr} {s : State} {x : Issue} (sa : Nat) (hx : issuerOf s i = some x) :
    agendaAfter (jumpOp i sa s) = some s.agenda := by
  have hjump (u : State) : (jumpPair x sa u).2.agenda = u.agenda := jumpPair_agenda ..
  refine issue_agenda hx ?_
  split
  · split
    next r hr => exact poisOf_agenda x s r hr
    · exact hjump s
  · exact hjump s

theorem execLds_agenda (f s x) (hx : issuerOf s (.lds f) = some x) : agendaAfter (execLds f s) = some s.agenda :=
  issue_agenda hx (scratchAccess_agenda (fun _ => scratchLoad_agenda ..) ..)

theorem execSts_agenda (f s x) (hx : issuerOf s (.sts f) = some x) : agendaAfter (execSts f s) = some s.agenda :=
  issue_agenda hx (scratchAccess_agenda (fun _ => scratchStore_agenda ..) ..)

theorem execSlds_agenda (f s x) (hx : issuerOf s (.slds f) = some x) : agendaAfter (execSlds f s) = some s.agenda :=
  issue_agenda hx (scratchAccess_agenda (fun _ => scratchLoad_agenda ..) ..)

theorem execSsts_agenda (f s x) (hx : issuerOf s (.ssts f) = some x) : agendaAfter (execSsts f s) = some s.agenda :=
  issue_agenda hx (scratchAccess_agenda (fun _ => scratchStore_agenda ..) ..)

theorem execAtoms_agenda (f s x) (hx : issuerOf s (.atoms f) = some x) : agendaAfter (execAtoms f s) = some s.agenda :=
  issue_agenda hx (scratchAccess_agenda (fun _ => scratchLoad_agenda ..) ..)

theorem execLdg_agenda (f s x) (hx : issuerOf s (.ldg f) = some x) : agendaAfter (execLdg f s) = some s.agenda :=
  issue_agenda hx (globalAccess_agenda (fun _ _ => startLoad_agenda ..) ..)

theorem execSldg_agenda (f s x) (hx : issuerOf s (.sldg f) = some x) : agendaAfter (execSldg f s) = some s.agenda :=
  issue_agenda hx (globalAccess_agenda (fun _ _ => startLoad_agenda ..) ..)

theorem execStg_agenda (f s x) (hx : issuerOf s (.stg f) = some x) : agendaAfter (execStg f s) = some s.agenda :=
  issue_agenda hx (globalAccess_agenda (fun _ _ => startStore_agenda ..) ..)

theorem execSstg_agenda (f s x) (hx : issuerOf s (.sstg f) = some x) : agendaAfter (execSstg f s) = some s.agenda :=
  issue_agenda hx (globalAccess_agenda (fun _ _ => startStore_agenda ..) ..)

theorem execStnt_agenda (f s x) (hx : issuerOf s (.stnt f) = some x) : agendaAfter (execStnt f s) = some s.agenda := by
  have hadd (l : List (Nat × List Piece)) (id : Nat) (u : State) : (l.foldl (addNt x id) u).agenda = u.agenda :=
    foldl_agenda (addNt_agenda x id) l u
  refine issue_agenda hx (globalAccess_agenda (fun t cells => ?_) ..)
  exact (modWarp_agenda ..).trans ((hadd ..).trans ((modNet_agenda ..).trans (nextId_agenda t)))

theorem execAtomg_agenda (f s x) (hx : issuerOf s (.atomg f) = some x) : agendaAfter (execAtomg f s) = some s.agenda :=
  issue_agenda hx (globalAccess_agenda (fun _ _ => startAtomic_agenda ..) ..)

theorem execSatomg_agenda (f s x) (hx : issuerOf s (.satomg f) = some x) : agendaAfter (execSatomg f s) = some s.agenda :=
  issue_agenda hx (globalAccess_agenda (fun _ _ => startAtomic_agenda ..) ..)

theorem execRedg_agenda (f s x) (hx : issuerOf s (.redg f) = some x) : agendaAfter (execRedg f s) = some s.agenda := by
  refine issue_agenda hx (globalAccess_agenda (fun t cells => ?_) ..)
  dsimp only
  split
  · exact (dropDescsOf_agenda ..).trans (startStore_agenda ..)
  · exact startStore_agenda ..

theorem execPrefg_agenda (f s x) (hx : issuerOf s (.prefg f) = some x) : agendaAfter (execPrefg f s) = some s.agenda :=
  issueOp_agenda hx (prefetch_agenda ..)

theorem execPref_agenda (f s x) (hx : issuerOf s (.pref f) = some x) : agendaAfter (execPref f s) = some s.agenda :=
  issueOp_agenda hx (prefetch_agenda ..)

theorem execFence_agenda (f s x) (hx : issuerOf s (.fence f) = some x) : agendaAfter (execFence f s) = some s.agenda := by
  refine issueOp_agenda hx ?_
  grind [modWarp_agenda, dropDescs_agenda, noteRelease_agenda]

theorem execDrainnt_agenda (f s x) (hx : issuerOf s (.drainnt f) = some x) : agendaAfter (execDrainnt f s) = some s.agenda :=
  issueOp_agenda hx (modWarp_agenda ..)

theorem execFlush_agenda (f s x) (hx : issuerOf s (.flush f) = some x) : agendaAfter (execFlush f s) = some s.agenda := by
  refine issue_agenda hx ?_
  grind [modWarp_agenda, poisOf_agenda, modNet_agenda, cacheVa_agenda, nextId_agenda, foldl_agenda]

theorem execRinit_agenda (f s x) (hx : issuerOf s (.rinit f) = some x) : agendaAfter (execRinit f s) = some s.agenda :=
  issue_agenda hx (ringIssue_agenda ..)

theorem execRwaitFull_agenda (f s x) (hx : issuerOf s (.rwaitFull f) = some x) :
    agendaAfter (execRwaitFull f s) = some s.agenda :=
  issue_agenda hx (ringIssue_agenda ..)

theorem execRwaitFree_agenda (f s x) (hx : issuerOf s (.rwaitFree f) = some x) :
    agendaAfter (execRwaitFree f s) = some s.agenda :=
  issue_agenda hx (ringIssue_agenda ..)

theorem execRrel_agenda (f s x) (hx : issuerOf s (.rrel f) = some x) : agendaAfter (execRrel f s) = some s.agenda :=
  issue_agenda hx ((ringIssue_agenda ..).trans (dropDescs_agenda ..))

theorem execRarr_agenda (f s x) (hx : issuerOf s (.rarr f) = some x) : agendaAfter (execRarr f s) = some s.agenda :=
  issue_agenda hx ((ringIssue_agenda ..).trans (dropDescs_agenda ..))

theorem execBara_agenda (f s x) (hx : issuerOf s (.bara f) = some x) : agendaAfter (execBara f s) = some s.agenda :=
  issueOp_agenda hx (barArrive_agenda ..)

theorem execBarw_agenda (f s x) (hx : issuerOf s (.barw f) = some x) : agendaAfter (execBarw f s) = some s.agenda :=
  issueOp_agenda hx (barWait_agenda ..)

theorem execBars_agenda (f s x) (hx : issuerOf s (.bars f) = some x) : agendaAfter (execBars f s) = some s.agenda :=
  issueOp_agenda hx (by grind [barWait_agenda, parkAll_agenda, arriveLanes_agenda])

theorem execCbara_agenda (f s x) (hx : issuerOf s (.cbara f) = some x) : agendaAfter (execCbara f s) = some s.agenda :=
  issueOp_agenda hx (barArrive_agenda ..)

theorem execCbarw_agenda (f s x) (hx : issuerOf s (.cbarw f) = some x) : agendaAfter (execCbarw f s) = some s.agenda :=
  issueOp_agenda hx (barWait_agenda ..)

theorem execGridbar_agenda (f s x) (hx : issuerOf s (.gridbar f) = some x) : agendaAfter (execGridbar f s) = some s.agenda :=
  issueOp_agenda hx (by grind [parkAll_agenda, arriveLanes_agenda])

theorem execKinitReg_agenda (f s x) (hx : issuerOf s (.kinitReg f) = some x) :
    agendaAfter (execKinitReg f s) = some s.agenda := by
  refine issue_agenda hx ?_
  dsimp only
  split
  · split <;> [rfl; exact cacheVa_agenda ..]
  · split
    · rfl
    · split
      · exact knotWalks_agenda ..
      · exact knotIssue_agenda (fun _ _ => (knotSend_agenda ..).trans (knotWalks_agenda ..)) ..

theorem execKinitFree_agenda (f s x) (hx : issuerOf s (.kinitFree f) = some x) :
    agendaAfter (execKinitFree f s) = some s.agenda :=
  issue_agenda hx (knotIssue_agenda (fun _ _ => knotSend_agenda ..) ..)

theorem execKtake_agenda (f s x) (hx : issuerOf s (.ktake f) = some x) : agendaAfter (execKtake f s) = some s.agenda :=
  issue_agenda hx (knotIssue_agenda (fun _ _ => knotSend_agenda ..) ..)

theorem execKgive_agenda (f s x) (hx : issuerOf s (.kgive f) = some x) : agendaAfter (execKgive f s) = some s.agenda := by
  refine issue_agenda hx (knotIssue_agenda (fun t k => ?_) ..)
  dsimp only
  split
  · exact (knotSend_agenda ..).trans ((modWarp_agenda ..).trans (startGive_agenda ..))
  · exact knotSend_agenda ..

theorem execCpyG2s_agenda (f s x) (hx : issuerOf s (.cpyG2s f) = some x) : agendaAfter (execCpyG2s f s) = some s.agenda :=
  issue_agenda hx (copyDesc_agenda ..)

theorem execCpyS2g_agenda (f s x) (hx : issuerOf s (.cpyS2g f) = some x) : agendaAfter (execCpyS2g f s) = some s.agenda :=
  issue_agenda hx (copyDesc_agenda ..)

theorem execCpgth_agenda (f s x) (hx : issuerOf s (.cpgth f) = some x) : agendaAfter (execCpgth f s) = some s.agenda :=
  issue_agenda hx (copyDesc_agenda ..)

theorem execCpsct_agenda (f s x) (hx : issuerOf s (.cpsct f) = some x) : agendaAfter (execCpsct f s) = some s.agenda :=
  issue_agenda hx (copyDesc_agenda ..)

theorem execCpxf_agenda (f s x) (hx : issuerOf s (.cpxf f) = some x) : agendaAfter (execCpxf f s) = some s.agenda :=
  issue_agenda hx (copyDesc_agenda ..)

theorem execCpyS2s_agenda (f s x) (hx : issuerOf s (.cpyS2s f) = some x) : agendaAfter (execCpyS2s f s) = some s.agenda :=
  issue_agenda hx (by grind [poisOf_agenda, startCopy_agenda])

theorem execTdchk_agenda (f s x) (hx : issuerOf s (.tdchk f) = some x) : agendaAfter (execTdchk f s) = some s.agenda := by
  refine issue_agenda hx ?_
  grind [modWarp_agenda, poisOf_agenda, parkAll_agenda, readDesc_got_agenda]

theorem execChsend_agenda (f s x) (hx : issuerOf s (.chsend f) = some x) : agendaAfter (execChsend f s) = some s.agenda := by
  refine issue_agenda hx ?_
  grind [dropDescs_agenda, modNet_agenda, nextId_agenda, parkAll_agenda, poisUses_agenda, getD_agenda]

theorem execChrecvTake_agenda (f s x) (hx : issuerOf s (.chrecvTake f) = some x) :
    agendaAfter (execChrecvTake f s) = some s.agenda :=
  issueOp_agenda hx (by grind [modWarp_agenda, parkAll_agenda, modBlock_agenda])

theorem execChrecvDone_agenda (f s x) (hx : issuerOf s (.chrecvDone f) = some x) :
    agendaAfter (execChrecvDone f s) = some s.agenda :=
  issueOp_agenda hx (by grind [dropDescs_agenda, modBlock_agenda])

theorem execDeq_agenda (f s x) (hx : issuerOf s (.deq f) = some x) : agendaAfter (execDeq f s) = some s.agenda := by
  refine issueOp_agenda hx ?_
  grind [modWarp_agenda, modQueue_agenda, serveQueue_agenda, parkAll_agenda, dequeue_agenda, foldl_agenda]

theorem execEnq_agenda (f s x) (hx : issuerOf s (.enq f) = some x) : agendaAfter (execEnq f s) = some s.agenda := by
  refine issueOp_agenda hx ?_
  grind [modWarp_agenda, dropDescs_agenda, modQueue_agenda, serveQueue_agenda, enqueue_agenda, parkAll_agenda]

theorem execLaunch_agenda (f s x) (hx : issuerOf s (.launch f) = some x) : agendaAfter (execLaunch f s) = some s.agenda := by
  refine issue_agenda hx ?_
  grind [modWarp_agenda, poisOf_agenda, dropDescs_agenda, readRecord_agenda, tryWhole_agenda, parkAll_agenda,
    enterLaunch_agenda, getD_agenda]

theorem execHset_agenda (f s x) (hx : issuerOf s (.hset f) = some x) : agendaAfter (execHset f s) = some s.agenda :=
  issueOp_agenda hx (by grind [modHitch_agenda, hitchTrap_agenda])

theorem execMma_agenda (f s x) (hx : issuerOf s (.mma f) = some x) : agendaAfter (execMma f s) = some s.agenda := by
  refine issue_agenda hx ?_
  extract_lets k
  split
  · rfl
  · extract_lets n last
    split
    · rfl
    · split
      · split
        · exact checkMma_agenda ..
        · split
          · exact parkAll_agenda ..
          · exact checkMma_agenda ..
          next hread =>
            split
            · exact (checkMma_agenda ..).trans (readDesc_got_agenda hread)
            · exact readDesc_got_agenda hread
      · exact checkMma_agenda ..

theorem execAccz_agenda (f s x) (hx : issuerOf s (.accz f) = some x) : agendaAfter (execAccz f s) = some s.agenda := by
  refine issueOp_agenda hx ?_
  grind [mapFor_agenda, enqueueRequest_agenda, queueAcc_agenda]

theorem execAccrel_agenda (f s x) (hx : issuerOf s (.accrel f) = some x) : agendaAfter (execAccrel f s) = some s.agenda :=
  issueOp_agenda hx (by grind [queueAcc_agenda])

theorem execAccrd_agenda (f s x) (hx : issuerOf s (.accrd f) = some x) : agendaAfter (execAccrd f s) = some s.agenda :=
  issueOp_agenda hx (by grind [modWarp_agenda, accShow_agenda, foldl_agenda])

theorem execAccwr_agenda (f s x) (hx : issuerOf s (.accwr f) = some x) : agendaAfter (execAccwr f s) = some s.agenda := by
  refine issueOp_agenda hx ?_
  grind [mapFor_agenda, enqueueRequest_agenda, modCore_agenda, foldl_agenda, getD_agenda]

theorem execMchkrd_agenda (f s x) (hx : issuerOf s (.mchkrd f) = some x) : agendaAfter (execMchkrd f s) = some s.agenda := by
  refine issueOp_agenda hx ?_
  grind [modWarp_agenda, modBlock_agenda, foldl_agenda, getD_agenda]

theorem execBra_agenda (f s x) (hx : issuerOf s (.bra f) = some x) : agendaAfter (execBra f s) = some s.agenda :=
  issueOp_agenda hx rfl

theorem execBrc_agenda (f s x) (hx : issuerOf s (.brc f) = some x) : agendaAfter (execBrc f s) = some s.agenda := by
  refine issueOp_agenda hx ?_
  split <;> rfl

theorem execCall_agenda (f s x) (hx : issuerOf s (.call f) = some x) : agendaAfter (execCall f s) = some s.agenda :=
  issueOp_agenda hx (modWarp_agenda ..)

theorem execBrp_agenda (f s x) (hx : issuerOf s (.brp f) = some x) : agendaAfter (execBrp f s) = some s.agenda :=
  issueOp_agenda hx (by grind [modWarp_agenda])

theorem execExit_agenda (f s x) (hx : issuerOf s (.exit f) = some x) : agendaAfter (execExit f s) = some s.agenda :=
  issueOp_agenda hx (by grind [exitOp_agenda])

theorem execJoin_agenda (f s x) (hx : issuerOf s (.join f) = some x) : agendaAfter (execJoin f s) = some s.agenda :=
  issueOp_agenda hx (by grind [modWarp_agenda])

theorem execLeave_agenda (f s x) (hx : issuerOf s (.leave f) = some x) : agendaAfter (execLeave f s) = some s.agenda :=
  issueOp_agenda hx (by grind [modWarp_agenda, settleWarp_agenda])

theorem execWait_agenda (f s x) (hx : issuerOf s (.wait f) = some x) : agendaAfter (execWait f s) = some s.agenda :=
  issueOp_agenda hx (by grind [parkIssuing_agenda, settleWarp_agenda])

theorem execMops_agenda (f s x) (hx : issuerOf s (.mops f) = some x) : agendaAfter (execMops f s) = some s.agenda :=
  issueOp_agenda hx (by grind [modWarp_agenda, settleWarp_agenda])

theorem execBrk_agenda (f s x) (hx : issuerOf s (.brk f) = some x) : agendaAfter (execBrk f s) = some s.agenda :=
  issueOp_agenda hx rfl

theorem execTrap_agenda (f s x) (hx : issuerOf s (.trap f) = some x) : agendaAfter (execTrap f s) = some s.agenda :=
  issueOp_agenda hx rfl

theorem execEret_agenda (f s x) (hx : issuerOf s (.eret f) = some x) : agendaAfter (execEret f s) = some s.agenda :=
  issueOp_agenda hx (by grind [eretDone_agenda, eretFetch_agenda])

theorem execYield_agenda (f s x) (hx : issuerOf s (.yield f) = some x) : agendaAfter (execYield f s) = some s.agenda :=
  issueOp_agenda hx (modWarp_agenda ..)

theorem execSleepc_agenda (f s x) (hx : issuerOf s (.sleepc f) = some x) : agendaAfter (execSleepc f s) = some s.agenda :=
  issueOp_agenda hx (modWarp_agenda ..)

theorem execWaitc_agenda (f s x) (hx : issuerOf s (.waitc f) = some x) : agendaAfter (execWaitc f s) = some s.agenda :=
  issueOp_agenda hx (by grind [modWarp_agenda])

theorem execAttach_agenda (f s x) (hx : issuerOf s (.attach f) = some x) : agendaAfter (execAttach f s) = some s.agenda := by
  refine issueOp_agenda hx ?_
  grind [attachAll_agenda, modWarp_agenda, requestNow_agenda, enqueueRequest_agenda]

theorem execDetach_agenda (f s x) (hx : issuerOf s (.detach f) = some x) : agendaAfter (execDetach f s) = some s.agenda :=
  issueOp_agenda hx (by grind [parkIssuing_agenda, settleWarp_agenda])

theorem execReggrow_agenda (f s x) (hx : issuerOf s (.reggrow f) = some x) : agendaAfter (execReggrow f s) = some s.agenda := by
  refine issueOp_agenda hx ?_
  grind [modWarp_agenda, requestNow_agenda, enqueueRequest_agenda]

theorem execRegshrink_agenda (f s x) (hx : issuerOf s (.regshrink f) = some x) :
    agendaAfter (execRegshrink f s) = some s.agenda := by
  refine issueOp_agenda hx ?_
  grind [trimLoads_agenda, modWarp_agenda, passDue_agenda, servePair_agenda]

theorem execSrd_agenda (f s x) (hx : issuerOf s (.srd f) = some x) : agendaAfter (execSrd f s) = some s.agenda :=
  issueOp_agenda hx (modWarp_agenda ..)

theorem execSwr_agenda (f s x) (hx : issuerOf s (.swr f) = some x) : agendaAfter (execSwr f s) = some s.agenda :=
  issueOp_agenda hx (by grind [modWarp_agenda, modBlock_agenda])

theorem execTdef_agenda (f s x) (hx : issuerOf s (.tdef f) = some x) : agendaAfter (execTdef f s) = some s.agenda :=
  issueOp_agenda hx (by grind [modWarp_agenda])

theorem execTrd_agenda (f s x) (hx : issuerOf s (.trd f) = some x) : agendaAfter (execTrd f s) = some s.agenda :=
  issue_agenda hx (by grind [modWarp_agenda, poisOf_agenda, foldl_agenda])

theorem execTwr_agenda (f s x) (hx : issuerOf s (.twr f) = some x) : agendaAfter (execTwr f s) = some s.agenda :=
  issue_agenda hx (by grind [modWarp_agenda, poisOf_agenda, foldl_agenda])

theorem execColl_agenda (f s x) (hx : issuerOf s (.coll f) = some x) : agendaAfter (execColl f s) = some s.agenda := by
  refine issue_agenda hx ?_
  grind [poisOf_agenda, startCopy_agenda, settleGroups_agenda]

end Sys2Proof.Machine
end

section
/-! SUPPORT. The instruction that a run issues next: its fetch leaves the sub-braid that issues it. -/

namespace Sys2Proof.Machine

open Sys2Proof

/-- An event leaves the agenda alone, and so does an instruction that a sub-braid issues. -/
theorem exec_agenda {i : Instr} {s : State} (h : encode i ≠ [] → ∃ x, issuerOf s i = some x) :
    agendaAfter (exec i s) = some s.agenda := by
  cases i
  case runGrant core quad => exact execRunGrant_agenda core quad s
  case readyWaitGuard core quad => exact execReadyWaitGuard_agenda core quad s
  case sleepEnd warp sub => exact execSleepEnd_agenda warp sub s
  case loadReturn id => exact execLoadReturn_agenda id s
  case coreStoreOrderSend core warp => exact execCoreStoreOrderSend_agenda core warp s
  case homeAck id => exact execHomeAck_agenda id s
  case scratchPortAccess id => exact execScratchPortAccess_agenda id s
  case planeStepsStart core => exact execPlaneStepsStart_agenda core s
  case matrixCompletion core bad => exact execMatrixCompletion_agenda core bad s
  case mismatchWindow core => exact execMismatchWindow_agenda core s
  case goldenTest core test => exact execGoldenTest_agenda core test s
  case goldenTestResult core pass => exact execGoldenTestResult_agenda core pass s
  case resourceQueueService core => exact execResourceQueueService_agenda core s
  case resourceQueueAgeLimit core => exact execResourceQueueAgeLimit_agenda core s
  case resourceRefusal core => exact execResourceRefusal_agenda core s
  case warpResourceReturn warp => exact execWarpResourceReturn_agenda warp s
  case warpArrival warp bar => exact execWarpArrival_agenda warp bar s
  case pairedBarrierEvent block => exact execPairedBarrierEvent_agenda block s
  case blockArrival block bar => exact execBlockArrival_agenda block bar s
  case copyPiece id => exact execCopyPiece_agenda id s
  case copySourceRead id => exact execCopySourceRead_agenda id s
  case copyLineWrite id => exact execCopyLineWrite_agenda id s
  case ringArrival id => exact execRingArrival_agenda id s
  case copyFailure id => exact execCopyFailure_agenda id s
  case copyReplay block entry => exact execCopyReplay_agenda block entry s
  case channelClaim id => exact execChannelClaim_agenda id s
  case l2Request id => exact execL2Request_agenda id s
  case gapFillArrival id bad => exact execGapFillArrival_agenda id bad s
  case homeWrite id => exact execHomeWrite_agenda id s
  case leaseExpiry slice => exact execLeaseExpiry_agenda slice s
  case spliceAbsorb id => exact execSpliceAbsorb_agenda id s
  case spliceRecordRequest bay grain => exact execSpliceRecordRequest_agenda bay grain s
  case spliceConfirm bay grain => exact execSpliceConfirm_agenda bay grain s
  case spliceRecall bay grain => exact execSpliceRecall_agenda bay grain s
  case splicePartialCombine id => exact execSplicePartialCombine_agenda id s
  case knotRequest id => exact execKnotRequest_agenda id s
  case ktakeResend id => exact execKtakeResend_agenda id s
  case streamRelease id => exact execStreamRelease_agenda id s
  case translationWalk core ctx va => exact execTranslationWalk_agenda core ctx va s
  case enqueueWindowWrite fn q size words => exact execEnqueueWindowWrite_agenda fn q size words s
  case qctlWrite m q v => exact execQctlWrite_agenda m q v s
  case klaunch q => exact execKlaunch_agenda q s
  case waiton q => exact execWaiton_agenda q s
  case signal q => exact execSignal_agenda q s
  case work q => exact execWork_agenda q s
  case waitonSatisfied q idx => exact execWaitonSatisfied_agenda q idx s
  case klaunchComplete q idx => exact execKlaunchComplete_agenda q idx s
  case signalComplete q idx => exact execSignalComplete_agenda q idx s
  case placementPass die => exact execPlacementPass_agenda die s
  case placementAgeLimit die => exact execPlacementAgeLimit_agenda die s
  case blockPlace die => exact execBlockPlace_agenda die s
  case blockStart block => exact execBlockStart_agenda block s
  case seamHalfForward die => exact execSeamHalfForward_agenda die s
  case preemptSave cluster => exact execPreemptSave_agenda cluster s
  case saveComplete cluster => exact execSaveComplete_agenda cluster s
  case restore cluster => exact execRestore_agenda cluster s
  case cctlWrite m ctx v => exact execCctlWrite_agenda m ctx v s
  case kill m ctx => exact execKill_agenda m ctx s
  case wkick m ctx => exact execWkick_agenda m ctx s
  case watchdogPeriod => exact execWatchdogPeriod_agenda s
  case fenceComplete ctx => exact execFenceComplete_agenda ctx s
  case cinvGo m ctx => exact execCinvGo_agenda m ctx s
  case invalidationComplete ctx => exact execInvalidationComplete_agenda ctx s
  case migrationGo m ch => exact execMigrationGo_agenda m ch s
  case migrationClr m ch => exact execMigrationClr_agenda m ch s
  case migrationGrain ch => exact execMigrationGrain_agenda ch s
  case migrationDone ch => exact execMigrationDone_agenda ch s
  case hostAccess r => exact execHostAccess_agenda r s
  case flrVirtual fn => exact execFlrVirtual_agenda fn s
  case flrFunction0 => exact execFlrFunction0_agenda s
  case msixMessage fn => exact execMsixMessage_agenda fn s
  case peerRequest r => exact execPeerRequest_agenda r s
  case lanyardTimeout id => exact execLanyardTimeout_agenda id s
  case lanyardResponse id data poison => exact execLanyardResponse_agenda id data poison s
  case lanyardLinkFail link => exact execLanyardLinkFail_agenda link s
  case expanderFence x => exact execExpanderFence_agenda x s
  case hbmStackLoss stack => exact execHbmStackLoss_agenda stack s
  case collContribution c => exact execCollContribution_agenda c s
  case collResult id => exact execCollResult_agenda id s
  case rdmaRingPoll qp ring => exact execRdmaRingPoll_agenda qp ring s
  case rdmaInbound r => exact execRdmaInbound_agenda r s
  case correctedError u code n => exact execCorrectedError_agenda u code n s
  case correctedErrorReport u code => exact execCorrectedErrorReport_agenda u code s
  case uncorrectedError site => exact execUncorrectedError_agenda site s
  case eventStoreRetry die => exact execEventStoreRetry_agenda die s
  case evheadWrite m v => exact execEvheadWrite_agenda m v s
  case evstatLostRead m => exact execEvstatLostRead_agenda m s
  case fatalError cause => exact execFatalError_agenda cause s
  case dumpComplete status => exact execDumpComplete_agenda status s
  case overTemperature temp => exact execOverTemperature_agenda temp s
  case reelChunk hub => exact execReelChunk_agenda hub s
  case reelComplete => exact execReelComplete_agenda s
  case reelEnqueueRetry => exact execReelEnqueueRetry_agenda s
  case halt m ctx => exact execHalt_agenda m ctx s
  case haltComplete ctx => exact execHaltComplete_agenda ctx s
  case resume m ctx => exact execResume_agenda m ctx s
  case step m ctx => exact execStep_agenda m ctx s
  case watch m ctx => exact execWatch_agenda m ctx s
  case icinv m ctx => exact execIcinv_agenda m ctx s
  case icinvComplete ctx => exact execIcinvComplete_agenda ctx s
  case dpost3Write m ctx v => exact execDpost3Write_agenda m ctx v s
  case dstatPostClear m ctx => exact execDstatPostClear_agenda m ctx s
  case dclaimRead m ctx => exact execDclaimRead_agenda m ctx s
  case atab fn => exact execAtab_agenda fn s
  case ctxasn fn => exact execCtxasn_agenda fn s
  case cgreg fn => exact execCgreg_agenda fn s
  case cgdel fn => exact execCgdel_agenda fn s
  case reel fn => exact execReel_agenda fn s
  case qpnew fn => exact execQpnew_agenda fn s
  case qpdel fn => exact execQpdel_agenda fn s
  case domain fn => exact execDomain_agenda fn s
  case attest fn => exact execAttest_agenda fn s
  case gvcnt fn => exact execGvcnt_agenda fn s
  case fwupd fn => exact execFwupd_agenda fn s
  case lcset fn => exact execLcset_agenda fn s
  case cap fn => exact execCap_agenda fn s
  case deviceReset source => exact execDeviceReset_agenda source s
  case powerStepSelect pwr temp => exact execPowerStepSelect_agenda pwr temp s
  case clockStepChange => exact execClockStepChange_agenda s
  case registerWrite m off size v => exact execRegisterWrite_agenda m off size v s
  case mainPowerLoss => exact execMainPowerLoss_agenda s
  case ethernetLinkChange port up => exact execEthernetLinkChange_agenda port up s
  case virtualFunctionEnable n => exact execVirtualFunctionEnable_agenda n s
  case rdmaResponse qp idx status data => exact execRdmaResponse_agenda qp idx status data s
  case rdmaInboundSend qp data => exact execRdmaInboundSend_agenda qp data s
  case rdmaRetryTimeout qp idx => exact execRdmaRetryTimeout_agenda qp idx s
  case pairedAccCommandArrival block => exact execPairedAccCommandArrival_agenda block s
  all_goals obtain ⟨x, hx⟩ := h (List.cons_ne_nil _ _)
  case lds => exact execLds_agenda _ _ _ hx
  case sts => exact execSts_agenda _ _ _ hx
  case slds => exact execSlds_agenda _ _ _ hx
  case ssts => exact execSsts_agenda _ _ _ hx
  case atoms => exact execAtoms_agenda _ _ _ hx
  case ldg => exact execLdg_agenda _ _ _ hx
  case sldg => exact execSldg_agenda _ _ _ hx
  case stg => exact execStg_agenda _ _ _ hx
  case sstg => exact execSstg_agenda _ _ _ hx
  case stnt => exact execStnt_agenda _ _ _ hx
  case atomg => exact execAtomg_agenda _ _ _ hx
  case satomg => exact execSatomg_agenda _ _ _ hx
  case redg => exact execRedg_agenda _ _ _ hx
  case prefg => exact execPrefg_agenda _ _ _ hx
  case pref => exact execPref_agenda _ _ _ hx
  case fence => exact execFence_agenda _ _ _ hx
  case drainnt => exact execDrainnt_agenda _ _ _ hx
  case flush => exact execFlush_agenda _ _ _ hx
  case rinit => exact execRinit_agenda _ _ _ hx
  case rwaitFull => exact execRwaitFull_agenda _ _ _ hx
  case rwaitFree => exact execRwaitFree_agenda _ _ _ hx
  case rrel => exact execRrel_agenda _ _ _ hx
  case rarr => exact execRarr_agenda _ _ _ hx
  case bara => exact execBara_agenda _ _ _ hx
  case barw => exact execBarw_agenda _ _ _ hx
  case bars => exact execBars_agenda _ _ _ hx
  case cbara => exact execCbara_agenda _ _ _ hx
  case cbarw => exact execCbarw_agenda _ _ _ hx
  case gridbar => exact execGridbar_agenda _ _ _ hx
  case kinitReg => exact execKinitReg_agenda _ _ _ hx
  case kinitFree => exact execKinitFree_agenda _ _ _ hx
  case ktake => exact execKtake_agenda _ _ _ hx
  case kgive => exact execKgive_agenda _ _ _ hx
  case cpyG2s => exact execCpyG2s_agenda _ _ _ hx
  case cpyS2g => exact execCpyS2g_agenda _ _ _ hx
  case cpgth => exact execCpgth_agenda _ _ _ hx
  case cpsct => exact execCpsct_agenda _ _ _ hx
  case cpxf => exact execCpxf_agenda _ _ _ hx
  case cpyS2s => exact execCpyS2s_agenda _ _ _ hx
  case tdchk => exact execTdchk_agenda _ _ _ hx
  case chsend => exact execChsend_agenda _ _ _ hx
  case chrecvTake => exact execChrecvTake_agenda _ _ _ hx
  case chrecvDone => exact execChrecvDone_agenda _ _ _ hx
  case deq => exact execDeq_agenda _ _ _ hx
  case enq => exact execEnq_agenda _ _ _ hx
  case launch => exact execLaunch_agenda _ _ _ hx
  case hset => exact execHset_agenda _ _ _ hx
  case mma => exact execMma_agenda _ _ _ hx
  case accz => exact execAccz_agenda _ _ _ hx
  case accrel => exact execAccrel_agenda _ _ _ hx
  case accrd => exact execAccrd_agenda _ _ _ hx
  case accwr => exact execAccwr_agenda _ _ _ hx
  case mchkrd => exact execMchkrd_agenda _ _ _ hx
  case bra => exact execBra_agenda _ _ _ hx
  case brc => exact execBrc_agenda _ _ _ hx
  case call => exact execCall_agenda _ _ _ hx
  case brp => exact execBrp_agenda _ _ _ hx
  case exit => exact execExit_agenda _ _ _ hx
  case join => exact execJoin_agenda _ _ _ hx
  case leave => exact execLeave_agenda _ _ _ hx
  case wait => exact execWait_agenda _ _ _ hx
  case mops => exact execMops_agenda _ _ _ hx
  case brk => exact execBrk_agenda _ _ _ hx
  case trap => exact execTrap_agenda _ _ _ hx
  case eret => exact execEret_agenda _ _ _ hx
  case yield => exact execYield_agenda _ _ _ hx
  case sleepc => exact execSleepc_agenda _ _ _ hx
  case waitc => exact execWaitc_agenda _ _ _ hx
  case attach => exact execAttach_agenda _ _ _ hx
  case detach => exact execDetach_agenda _ _ _ hx
  case reggrow => exact execReggrow_agenda _ _ _ hx
  case regshrink => exact execRegshrink_agenda _ _ _ hx
  case srd => exact execSrd_agenda _ _ _ hx
  case swr => exact execSwr_agenda _ _ _ hx
  case tdef => exact execTdef_agenda _ _ _ hx
  case trd => exact execTrd_agenda _ _ _ hx
  case twr => exact execTwr_agenda _ _ _ hx
  case coll => exact execColl_agenda _ _ _ hx
  case ret | jmpi => exact jumpOp_agenda _ hx
  all_goals exact issueWarp_agenda _ hx

theorem tget_map {α β : Type} (g : α → β) (t : Tbl α) (k : Nat) : tget (t.map fun e => (e.1, g e.2)) k = (tget t k).map g := by
  induction t with
  | nil => rfl
  | cons e t ih =>
    simp only [List.map_cons, tget]
    split
    · rfl
    · split
      · rfl
      · exact ih

/-- A warp whose standing is kept has the sub-braids it had. -/
theorem braids_of_standing {s t : State} {k : Nat} {w : Warp} (h : standing t = standing s) (hw : tget s.warps k = some w) :
    ∃ v, tget t.warps k = some v ∧ v.braids = w.braids := by
  have hwarps : t.warps.map (fun e => (e.1, e.2.braids)) = s.warps.map fun e => (e.1, e.2.braids) := congrArg Prod.snd h
  have hget : (tget t.warps k).map Warp.braids = some w.braids := by
    rw [← tget_map, hwarps, tget_map, hw, Option.map_some]
  exact Option.map_eq_some_iff.mp hget

/-- The sub-braid whose instruction a fetch has read still issues. -/
theorem issuerOf_of_standing {s t : State} {r : Run} {w : Warp} {b : SubBraid} (h : standing t = standing s)
    (hr : runBraid s r = some (w, b)) (i : Instr) : ∃ x, issuerOf { t with focus := some ⟨r.warp, r.sub⟩ } i = some x := by
  obtain ⟨w', hw, hb⟩ := Option.bind_eq_some_iff.mp hr
  obtain ⟨v, hv, hbraids⟩ := braids_of_standing h hw
  split at hb
  · cases hb
  · obtain ⟨b', hb', -⟩ := Option.map_eq_some_iff.mp hb
    have hfind : braidOf v r.sub = some b' := by rw [braidOf, hbraids]; exact hb'
    refine ⟨⟨r.warp, v, b', ctxOfWarp { t with focus := some ⟨r.warp, r.sub⟩ } v,
      recordOf { t with focus := some ⟨r.warp, r.sub⟩ } v, i⟩, ?_⟩
    simp only [issuerOf, Option.bind_some, hv, hfind, Option.map_some]

theorem issueNext_agenda (s : State) (core quad : Nat) : agendaAfter (issueNext s core quad) = some s.agenda := by
  unfold issueNext
  split
  · rfl
  · split
    · rfl
    next r _ w b hr =>
      have hst := fetchInstr_standing s core (ctxOfWarp s w) b.pc b.lanes
      split
      next t u hu =>
        rw [hu] at hst
        exact agendaAfter_next ((trapAtIssue_agenda ..).trans (agenda_of_standing hst))
      next i u hu =>
        rw [hu] at hst
        have hexec := exec_agenda (i := i) fun _ => issuerOf_of_standing hst hr i
        rw [hexec]
        exact congrArg some (agenda_of_standing hst)

end Sys2Proof.Machine
end

section
/-! SUPPORT. The moves that can come of themselves. -/

namespace Sys2Proof.Machine

open Sys2Proof

/-- A list of moves each of which has a next state, with the agenda as it was. -/
def Quiet (l : List Act) : Prop := ∀ a ∈ l, ∀ t, agendaAfter (a t) = some t.agenda

@[simp] theorem quiet_nil : Quiet [] := fun _ h => absurd h List.not_mem_nil

@[simp] theorem quiet_cons {a : Act} {l : List Act} :
    Quiet (a :: l) ↔ (∀ t, agendaAfter (a t) = some t.agenda) ∧ Quiet l := List.forall_mem_cons

@[simp] theorem quiet_append {l m : List Act} : Quiet (l ++ m) ↔ Quiet l ∧ Quiet m := List.forall_mem_append

@[simp] theorem quiet_map {α : Type} {f : α → Act} {l : List α} :
    Quiet (l.map f) ↔ ∀ e ∈ l, ∀ t, agendaAfter (f e t) = some t.agenda := List.forall_mem_map

@[simp] theorem quiet_flatMap {α : Type} {f : α → List Act} {l : List α} : Quiet (l.flatMap f) ↔ ∀ e ∈ l, Quiet (f e) :=
  List.forall_mem_flatMap

@[simp] theorem quiet_ite {c : Prop} [Decidable c] {l m : List Act} :
    Quiet (if c then l else m) ↔ (c → Quiet l) ∧ (¬c → Quiet m) := by
  split
  next h => exact ⟨fun hl => ⟨fun _ => hl, fun hn => absurd h hn⟩, fun h' => h'.1 h⟩
  next h => exact ⟨fun hm => ⟨fun hc => absurd hc h, fun _ => hm⟩, fun h' => h'.2 h⟩

@[simp] theorem quiet_perId {α : Type} {t : Tbl α} {f : Nat → Act} :
    Quiet (perId t f) ↔ ∀ e ∈ t, ∀ u, agendaAfter (f e.1 u) = some u.agenda := quiet_map

theorem warpEvents_quiet (e : Nat × Warp) : Quiet (warpEvents e) := by simp [warpEvents]

theorem blockEvents_quiet (e : Nat × Block) : Quiet (blockEvents e) := by simp [blockEvents]

theorem coreEvents_quiet (c : Core) (k : Nat) : Quiet (coreEvents c k) := by simp [coreEvents]

theorem bayEvents_quiet (b : Bay) (k : Nat) : Quiet (bayEvents b k) := by simp [bayEvents]

theorem sliceEvents_quiet (clock : Nat) (y : Slice) (k : Nat) : Quiet (sliceEvents clock y k) := by simp [sliceEvents]

theorem netEvents_quiet (n : Net) : Quiet (netEvents n) := by simp [netEvents]

theorem queueEvents_quiet (q : Queue) (k : Nat) : Quiet (queueEvents q k) := by simp [queueEvents]

theorem dieEvents_quiet (d : Die) (k : Nat) : Quiet (dieEvents d k) := by simp [dieEvents]

theorem ctxEvents_quiet (x : Ctx) (k : Nat) : Quiet (ctxEvents x k) := by simp [ctxEvents]

theorem secEvents_quiet (q : List (Nat × Nat)) : Quiet (secEvents q) := by
  unfold secEvents
  split
  · exact quiet_nil
  · split <;> simp

theorem ownContribution_quiet (s : State) (c : CopyCmd) : Quiet (ownContribution s c) := by
  unfold ownContribution
  split
  · split <;> simp
  · exact quiet_nil

theorem packageEvents_quiet (s : State) : Quiet (packageEvents s) := by
  simp [packageEvents, ownContribution_quiet, secEvents_quiet]

/-- No event that can come of itself faults, or changes the agenda. -/
theorem pending_quiet (s : State) : Quiet (pending s) := by
  simp [pending, warpEvents_quiet, blockEvents_quiet, netEvents_quiet, bayEvents_quiet, sliceEvents_quiet, coreEvents_quiet,
    queueEvents_quiet, dieEvents_quiet, ctxEvents_quiet, packageEvents_quiet]

theorem moves_quiet (s : State) : Quiet (moves s) := by
  intro a ha
  rw [moves, List.mem_rotate] at ha
  exact quiet_append.mpr ⟨quiet_map.mpr fun q _ t => issueNext_agenda t q.1 q.2, pending_quiet s⟩ a ha

end Sys2Proof.Machine
end

section
/-! SUPPORT. One step: the time that passes, and its move. -/

namespace Sys2Proof.Machine

open Sys2Proof

theorem next_of_agendaAfter {o : Host.Outcome State Fault Refusal} {a : List Turn} (h : agendaAfter o = some a) :
    ∃ t, o = .next t ∧ t.agenda = a := by
  cases o with
  | next t => exact ⟨t, rfl, Option.some_inj.mp h⟩
  | fault r => cases h
  | refused r => cases h

theorem firstMove_agenda (s : State) {l : List Act} (h : Quiet l) : agendaAfter (firstMove s l) = some s.agenda := by
  induction l with
  | nil => rfl
  | cons a l ih =>
    obtain ⟨ha, hl⟩ := quiet_cons.mp h
    obtain ⟨t, ht, hta⟩ := next_of_agendaAfter (ha s)
    rw [firstMove, ht]
    dsimp only
    split
    · exact ih hl
    · exact agendaAfter_next hta

@[simp] theorem passTime_agenda (n : Nat) (s : State) : (passTime n s).agenda = s.agenda := by
  rw [passTime, countPeriods_agenda, advanceClock_agenda, settleDue_agenda]

theorem doMove_agenda {s : State} {m : Move} (h : ∀ i, m = .event i → encode i = []) :
    agendaAfter (doMove s m) = some s.agenda := by
  cases m with
  | event i => exact exec_agenda fun hi => absurd (h i rfl) hi
  | issue core quad => exact issueNext_agenda s core quad

/-- A step takes the agenda's first turn off it, and leaves the rest. -/
theorem step_agenda {s : State} (h : AgendaOfEvents s) : agendaAfter (step s) = some s.agenda.tail := by
  unfold step
  split
  next t ts hs =>
    have ht : ∀ i, t.move = .event i → encode i = [] := h t (hs ▸ List.mem_cons_self)
    rw [doMove_agenda ht, passTime_agenda, hs, List.tail_cons]
  next hs => rw [firstMove_agenda _ (moves_quiet _), passTime_agenda, hs, List.tail_nil]

theorem agendaOfEvents_reset : AgendaOfEvents State.reset := fun _ hu => absurd hu List.not_mem_nil

end Sys2Proof.Machine
end

section
/-! PROOF. A step never stops. -/

namespace Sys2Proof.Machine

open Sys2Proof

/-- Settles O8: nothing that `step` calls changes the agenda, every event has a next state, and a fetch leaves the sub-braid whose
instruction it reads in place, so that an issue never finds its focus empty. -/
theorem stepNeverStops : Obligations.StepNeverStops := by
  unfold Obligations.StepNeverStops
  refine ⟨fun s h => ?_, agendaOfEvents_reset⟩
  obtain ⟨t, ht, hagenda⟩ := next_of_agendaAfter (step_agenda h)
  exact ⟨t, ht, fun u hu => h u (List.mem_of_mem_tail (hagenda ▸ hu))⟩

end Sys2Proof.Machine
end

section
/-! SUPPORT. An instruction that issues does what its meaning says. -/

namespace Sys2Proof.Machine

open Sys2Proof

/-- An instruction that `issueOp` runs ends with the verdict and the state of its meaning. -/
theorem does_of_issueOp {i : Instr} {s t : State} {x : Issue} {v : Verdict} {body : Issue → State → Verdict × State} (h : Issues i s x)
    (hi : exec i s = issueOp i s body) (hbody : body x s = (v, t)) : Does i s x v t := by
  rw [Does, hi, issueOp_of h, hbody]

/-- An instruction that `issueWarp` runs changes its warp by its meaning. -/
theorem doesToWarp_of_issueWarp {i : Instr} {s : State} {x : Issue} {body : Issue → Warp → Warp} (h : Issues i s x)
    (hi : exec i s = issueWarp i s body) : DoesToWarp i s x (body x) := does_of_issueOp h hi rfl

end Sys2Proof.Machine
end

section
/-! PROOF. The lane, cross-lane and scalar operations complete. -/

namespace Sys2Proof.Machine

open Sys2Proof

/-- Settles O13: both forms of a lane operation are `laneEffect` of its `aluEval`. -/
theorem laneArithmeticCompletes : Obligations.LaneArithmeticCompletes := by
  unfold Obligations.LaneArithmeticCompletes
  exact ⟨fun op f s _ h => (doesToWarp_of_issueWarp h (exec_longForm op f s) :),
    fun _ _ _ s _ hi h => (doesToWarp_of_issueWarp h (exec_shortForm hi s) :)⟩

/-- Settles O14: each cross-lane instruction, and NOP, is a change of its warp alone. -/
theorem crossLaneCompletes : Obligations.CrossLaneCompletes := by
  unfold Obligations.CrossLaneCompletes
  refine ⟨?qplane, ?srnd, ?xlane, ?peer, ?qpoll, ?redx, ?scan, ?plop, ?nop⟩
  all_goals exact fun _ _ _ h => (doesToWarp_of_issueWarp h rfl :)

/-- Settles O16: the three forms of a scalar operation differ in where the sources of its `scalEval` come from. -/
theorem scalarArithmeticCompletes : Obligations.ScalarArithmeticCompletes := by
  unfold Obligations.ScalarArithmeticCompletes
  exact ⟨fun op f s _ h => (doesToWarp_of_issueWarp h (exec_uaForm op f s) :),
    fun op f s _ h => (doesToWarp_of_issueWarp h (exec_ubForm op f s) :),
    fun op f s _ h => (doesToWarp_of_issueWarp h (exec_uiForm op f s) :)⟩

end Sys2Proof.Machine
end

section
/-! SUPPORT. What the end of an instruction whose lanes go on leaves alone (R73, R75): every other warp, the machine but for the
runs of its cores, and of its own warp all but its groups of lanes, its step credit and its exemptions. -/

namespace Sys2Proof.Machine

open Sys2Proof

/-- A warp but for its current and deferred groups, its step credit and its exemptions. -/
def quietWarp (w : Warp) : Warp := { w with braids := [], deferred := [], nextId := 0, stepCredit := none, exempt := 0 }

/-- Warps that are the same but for what an issue moves agree in every other field. -/
theorem quietWarp_congr {α : Type} {v w : Warp} (field : Warp → α) (h : quietWarp v = quietWarp w) :
    field (quietWarp v) = field (quietWarp w) := congrArg field h

/-- The machine stands in `t` as in `s` but for warp `wid`, which is `w` but for what an issue always moves. -/
structure LeavesWarp (s t : State) (wid : Nat) (w : Warp) : Prop where
  machine : KeepsMachine s t
  warps : KeepsWarps s t wid
  warp : ∃ v, tget t.warps wid = some v ∧ quietWarp v = quietWarp w

/-- No home depends on the warps, the cores or the focus. -/
theorem homeByte_withWarps (s : State) (ws : Tbl Warp) (cs : List Core) (r : Option Issuer) (a : Nat) :
    homeByte { s with warps := ws, cores := cs, focus := r } a = homeByte s a := rfl

theorem keepsMachine_of_parts {s t : State} (hrest : { t with warps := s.warps, cores := s.cores, focus := s.focus } = s)
    (hcores : t.cores.map quietCore = s.cores.map quietCore) : KeepsMachine s t :=
  ⟨hrest, hcores, fun a => by rw [← homeByte_withWarps t s.warps s.cores s.focus, hrest]⟩

theorem map_lmod_of_eq {α β : Type} {g : α → β} {f : α → α} (h : ∀ a, g (f a) = g a) (l : List α) (k : Nat) :
    (lmod l k f).map g = l.map g := by
  induction l generalizing k with
  | nil => rfl
  | cons a l ih =>
    cases k with
    | zero => exact congrArg (· :: l.map g) (h a)
    | succ k => exact congrArg (g a :: ·) (ih k)

section Leaves

variable {s t : State} {x : Issue} {wid : Nat} {w : Warp}

theorem LeavesWarp.refl (h : tget s.warps wid = some w) : LeavesWarp s s wid w :=
  ⟨keepsMachine_of_parts rfl rfl, fun _ _ => rfl, w, h, rfl⟩

/-- A change of the warp itself. -/
theorem leavesWarp_modWarp (h : tget s.warps wid = some w) (f : Warp → Warp) : LeavesWarp s (modWarp s wid f) wid (f w) :=
  ⟨keepsMachine_of_parts rfl rfl, keepsWarps_modWarp s wid f, f w, tget_tmod_same h f, rfl⟩

/-- A change of the warp that only moves its groups. -/
theorem LeavesWarp.modWarp (h : LeavesWarp s t wid w) {f : Warp → Warp} (hf : ∀ v, quietWarp (f v) = quietWarp v) :
    LeavesWarp s (modWarp t wid f) wid w := by
  obtain ⟨⟨hrest, hcores, -⟩, hwarps, v, hv, hquiet⟩ := h
  exact ⟨keepsMachine_of_parts hrest hcores, fun k hk => (keepsWarps_modWarp t wid f k hk).trans (hwarps k hk),
    f v, tget_tmod_same hv f, (hf v).trans hquiet⟩

/-- A change of a core's runs and of the counters of R75. -/
theorem LeavesWarp.modCore (h : LeavesWarp s t wid w) {k : Nat} {f : Core → Core} (hf : ∀ c, quietCore (f c) = quietCore c) :
    LeavesWarp s (modCore t k f) wid w := by
  obtain ⟨⟨hrest, hcores, -⟩, hwarps, hwarp⟩ := h
  exact ⟨keepsMachine_of_parts hrest ((map_lmod_of_eq hf t.cores k).trans hcores), hwarps, hwarp⟩

theorem LeavesWarp.endRun (h : LeavesWarp s t wid w) {v : Warp} : LeavesWarp s (endRun t v) wid w :=
  h.modCore fun _ => rfl

theorem LeavesWarp.countIssue (h : LeavesWarp s t wid w) (x : Issue) (ends : Bool) : LeavesWarp s (countIssue t x ends) wid w := by
  unfold Machine.countIssue
  dsimp only
  split
  · exact h.endRun
  · split
    · refine .endRun ?_
      exact h.modCore fun _ => rfl
    · exact h.modCore fun _ => rfl

theorem LeavesWarp.useCredit (h : LeavesWarp s t x.wid w) : LeavesWarp s (useCredit t x) x.wid w := by
  have hexempt : LeavesWarp s (useExemption t x) x.wid w := by
    unfold useExemption
    split
    · exact h
    · exact h.modWarp fun _ => rfl
  unfold Machine.useCredit
  dsimp only
  split
  · exact hexempt.modWarp fun _ => rfl
  · exact hexempt

/-- The verdicts of an instruction that issues and raises nothing. -/
def Verdict.goesOn : Verdict → Prop
  | .advance | .jump _ | .placed _ => True
  | .stall | .trap _ => False

/-- What an instruction that goes on leaves in the end is what its own effect leaves. -/
theorem LeavesWarp.finish (h : LeavesWarp s t x.wid w) {v : Verdict} (hv : v.goesOn) : LeavesWarp s (finish x (v, t)) x.wid w := by
  have hcounted (pc : VAddr) (ends : Bool) :
      LeavesWarp s (Machine.useCredit (Machine.countIssue (Machine.modWarp t x.wid fun w => advanceBraid w x.b.id pc) x ends) x)
        x.wid w :=
    ((h.modWarp (f := fun w => advanceBraid w x.b.id pc) fun _ => rfl).countIssue x ends).useCredit
  have hstamped {u : State} (hu : LeavesWarp s u x.wid w) :
      LeavesWarp s { Machine.modWarp u x.wid (fun w => stampReady w x.b.id u.clock) with focus := none } x.wid w := by
    obtain ⟨⟨hrest, hcores, -⟩, hwarps, hwarp⟩ := hu.modWarp (f := fun w => stampReady w x.b.id u.clock) fun _ => rfl
    exact ⟨keepsMachine_of_parts hrest hcores, hwarps, hwarp⟩
  cases v with
  | advance => exact hstamped (hcounted _ false)
  | jump a => exact hstamped (hcounted a true)
  | placed e => exact hstamped (h.countIssue x e).useCredit
  | stall => exact hv.elim
  | trap _ => exact hv.elim

/-- The same of the state that the instruction leaves. -/
theorem LeavesWarp.of_exec {i : Instr} {u : State} {v : Verdict} (hexec : exec i s = .next t) (hdoes : Does i s x v u)
    (hv : v.goesOn) (h : LeavesWarp s u x.wid w) : LeavesWarp s t x.wid w := by
  obtain rfl := Host.Outcome.next.inj (hexec.symm.trans hdoes)
  exact h.finish hv

/-- The issuer is the warp of its number. -/
theorem tget_of_issuerOf {i : Instr} (h : issuerOf s i = some x) : tget s.warps x.wid = some x.w := by
  unfold issuerOf at h
  simp only [Option.bind_eq_some_iff, Option.map_eq_some_iff] at h
  obtain ⟨f, _, w, hw, b, _, rfl⟩ := h
  exact hw

end Leaves

end Sys2Proof.Machine
end

section
/-! SUPPORT. What a lane result leaves of its warp (R100): the registers of its active lanes that it names, or its predicate in them,
and FSTAT change. -/

namespace Sys2Proof.Machine

open Sys2Proof

variable {w w' v : Warp} {act : Mask} {d : LaneDst} {l k r q : Nat}

/-- A write to one register of a lane leaves the others alone. -/
theorem vread_vwrite_other (h : tcanon 0 w.vregs = true) (hl : l < 64) (hk : k < 64) {r' : Nat} (hne : k ≠ l ∨ r' ≠ r) (a : Word) :
    vread (vwrite w r l a) r' k = vread w r' k :=
  tgetD_tputD_other h (by omega) a

/-- A result of several registers leaves the others alone, and the registers canonical. -/
theorem vread_vwriteN_other (h : tcanon 0 w.vregs = true) (hl : l < 64) (n a : Nat) :
    tcanon 0 (vwriteN w r l n a).vregs = true ∧ ∀ r' k, k < 64 → (k ≠ l ∨ r' < r ∨ r + n ≤ r') →
      vread (vwriteN w r l n a) r' k = vread w r' k := by
  induction n generalizing w r a with
  | zero => exact ⟨h, fun _ _ _ _ => rfl⟩
  | succ n ih =>
    obtain ⟨hcanon, hread⟩ := ih (w := vwrite w r l (BitVec.ofNat 32 a)) (r := r + 1) (tcanon_tputD h _ _) (a / 2 ^ 32)
    refine ⟨hcanon, fun r' k hk hne => ?_⟩
    rw [vwriteN, hread r' k hk (by omega), vread_vwrite_other h hl hk (by omega)]

theorem getD_lmod_other {α : Type} (l : List α) {j k : Nat} (h : j ≠ k) (f : α → α) (d : α) :
    (lmod l k f).getD j d = l.getD j d := by
  induction l generalizing j k with
  | nil => rfl
  | cons a l ih =>
    cases k with
    | zero => obtain ⟨j, rfl⟩ := Nat.exists_eq_succ_of_ne_zero h; rfl
    | succ k =>
      cases j with
      | zero => rfl
      | succ j => exact ih (by omega)

/-- A write to a predicate in some lanes leaves the others alone. -/
theorem inMask_pwrite_other {lanes : Mask} {p : Nat} (hk : k < 64) (h : inMask lanes k = false ∨ q ≠ p) (a : Mask) :
    inMask ((pwrite w p lanes a).preds.getD q 0) k = inMask (w.preds.getD q 0) k := by
  by_cases hq : q = p
  · subst hq
    have hout : lanes.getLsbD k = false := h.resolve_right (absurd rfl)
    by_cases hlen : q < w.preds.length
    · rw [pwrite, getD_lmod_same hlen]
      simp only [inMask, BitVec.getLsbD_or, BitVec.getLsbD_and, BitVec.getLsbD_not, hout, hk, decide_true, Bool.not_false,
        Bool.and_true, Bool.and_false, Bool.or_false]
    · rw [List.getD_eq_default _ _ (by simpa [pwrite, lmod_length] using hlen), List.getD_eq_default _ _ (by simpa using hlen)]
  · exact congrArg (inMask · k) (getD_lmod_other w.preds hq _ 0)

/-- A warp but for its vector registers, its predicates and FSTAT. -/
def besideLanes (w : Warp) : Warp := { quietWarp w with vregs := [], marks := [], preds := [], fstat := 0 }

/-- From `w` to `w'` only the destination `d` in lanes of `act` is written, and flags are ORed into FSTAT. -/
structure LaneKeeps (act : Mask) (d : LaneDst) (w w' : Warp) : Prop where
  rest : besideLanes w' = besideLanes w
  flags : ∃ e, w'.fstat = w.fstat ||| e
  canon : tcanon 0 w'.vregs = true
  vregs : ∀ r l, l < 64 → (inMask act l = false ∨ ∀ vd n, d = .regs vd n → r < vd ∨ vd + n ≤ r) → vread w' r l = vread w r l
  preds : ∀ q l, l < 64 → (inMask act l = false ∨ d ≠ .pred q) → inMask (w'.preds.getD q 0) l = inMask (w.preds.getD q 0) l

theorem LaneKeeps.refl (h : tcanon 0 w.vregs = true) : LaneKeeps act d w w :=
  ⟨rfl, ⟨0, BitVec.or_zero.symm⟩, h, fun _ _ _ _ => rfl, fun _ _ _ _ => rfl⟩

theorem LaneKeeps.trans (h : LaneKeeps act d w w') (h' : LaneKeeps act d w' v) : LaneKeeps act d w v := by
  obtain ⟨e, he⟩ := h.flags
  obtain ⟨e', he'⟩ := h'.flags
  exact ⟨h'.rest.trans h.rest, ⟨e ||| e', by rw [he', he, BitVec.or_assoc]⟩, h'.canon,
    fun r l hl hout => (h'.vregs r l hl hout).trans (h.vregs r l hl hout),
    fun q l hl hout => (h'.preds q l hl hout).trans (h.preds q l hl hout)⟩

/-- What an issue always moves is none of this. -/
theorem LaneKeeps.of_quiet (h : LaneKeeps act d w w') (hq : quietWarp v = quietWarp w') : LaneKeeps act d w v := by
  obtain ⟨hrest, ⟨e, he⟩, hcanon, hvregs, hpreds⟩ := h
  have hv : v.vregs = w'.vregs := quietWarp_congr (·.vregs) hq
  have hp : v.preds = w'.preds := quietWarp_congr (·.preds) hq
  refine ⟨(quietWarp_congr besideLanes hq).trans hrest, ⟨e, (quietWarp_congr (·.fstat) hq).trans he⟩, hv ▸ hcanon, fun r l hl hout => ?_,
    fun q l hl hout => hp ▸ hpreds q l hl hout⟩
  rw [vread, hv]
  exact hvregs r l hl hout

theorem besideLanes_vwriteN (w : Warp) (r l n a : Nat) :
    besideLanes (vwriteN w r l n a) = besideLanes w ∧ (vwriteN w r l n a).fstat = w.fstat ∧ (vwriteN w r l n a).preds = w.preds := by
  induction n generalizing w r a with
  | zero => exact ⟨rfl, rfl, rfl⟩
  | succ n ih => exact ih (vwrite w r l (BitVec.ofNat 32 a)) (r + 1) (a / 2 ^ 32)

/-- One active lane's result. -/
theorem laneKeeps_writeLane (h : tcanon 0 w.vregs = true) (hl : inMask act l = true) (a : Nat) : LaneKeeps act d w (writeLane w d l a) := by
  have hl64 : l < 64 := BitVec.lt_of_getLsbD hl
  have hother {k : Nat} (hk : inMask act k = false) : k ≠ l := fun hkl => by simp [hkl, hl] at hk
  cases d with
  | pred p =>
    refine ⟨rfl, ⟨0, BitVec.or_zero.symm⟩, h, fun _ _ _ _ => rfl, fun q k hk hout => inMask_pwrite_other hk ?_ _⟩
    refine hout.imp (fun hact => ?_) (fun hne hqp => hne (congrArg LaneDst.pred hqp.symm))
    exact Bool.eq_false_iff.mpr fun hin => hother hact (inMask_laneBit.mp hin).1
  | regs vd n =>
    obtain ⟨hcanon, hread⟩ := vread_vwriteN_other (r := vd) h hl64 n a
    obtain ⟨hrest, hfstat, hpreds⟩ := besideLanes_vwriteN w vd l n a
    refine ⟨hrest, ⟨0, hfstat.trans BitVec.or_zero.symm⟩, hcanon, fun r k hk hout => ?_, fun q k _ _ => ?_⟩
    · exact hread r k hk (hout.imp hother fun hr => hr vd n rfl)
    · exact congrArg (fun ps => inMask (ps.getD q 0) k) hpreds

/-- The results of active lanes, one after another. -/
theorem laneKeeps_foldl_writeLane (h : tcanon 0 w.vregs = true) {rs : List (Nat × Nat × Word)} (hrs : ∀ r ∈ rs, inMask act r.1 = true) :
    LaneKeeps act d w (rs.foldl (fun w r => writeLane w d r.1 r.2.1) w) := by
  induction rs generalizing w with
  | nil => exact .refl h
  | cons r rs ih =>
    obtain ⟨hr, hrs⟩ := List.forall_mem_cons.mp hrs
    have hhead := laneKeeps_writeLane (d := d) h hr r.2.1
    exact hhead.trans (ih hhead.canon hrs)

/-- The frame of a lane effect (R100). -/
theorem laneKeeps_laneEffect (h : tcanon 0 w.vregs = true) (act : Mask) (d : LaneDst) (f : Nat → Nat × Word) :
    LaneKeeps act d w (laneEffect w act d f) := by
  have hwrites : LaneKeeps act d w (((lanesOf act).map fun l => (l, f l)).foldl (fun w r => writeLane w d r.1 r.2.1) w) :=
    laneKeeps_foldl_writeLane h fun r hr => by
      obtain ⟨l, hl, rfl⟩ := List.mem_map.mp hr
      exact mem_lanesOf.mp hl
  exact hwrites.trans ⟨rfl, ⟨_, rfl⟩, hwrites.canon, fun _ _ _ _ => rfl, fun _ _ _ _ => rfl⟩

end Sys2Proof.Machine
end

section
/-! PROOF. The frame of the lane operations. -/

namespace Sys2Proof.Machine

open Sys2Proof

/-- Settles O54: the end of the issue moves only the lanes' groups, and a lane effect writes only its destination and FSTAT. -/
theorem laneFrame : Obligations.LaneFrame := by
  unfold Obligations.LaneFrame
  rintro op i d act s t x hform hissues ⟨hvcanon, -⟩ hexec
  have heffect : ∃ g r, DoesToWarp i s x g ∧ g x.w = laneEffect x.w act d r := by
    obtain ⟨hlong, hshort⟩ := laneArithmeticCompletes
    obtain ⟨f, rfl, rfl, rfl⟩ | ⟨f, hi, rfl, rfl⟩ := hform
    · exact ⟨_, _, hlong op f s x hissues, rfl⟩
    · exact ⟨_, _, hshort op f i s x hi hissues, rfl⟩
  obtain ⟨g, r, hdoes, hg⟩ := heffect
  have hleaves := LeavesWarp.of_exec hexec hdoes trivial (leavesWarp_modWarp (tget_of_issuerOf hissues.1) g)
  obtain ⟨hmachine, hwarps, w, hw, hquiet⟩ := hleaves
  have hkeeps : LaneKeeps act d x.w (g x.w) := hg ▸ laneKeeps_laneEffect hvcanon act d r
  obtain ⟨hrest, ⟨e, he⟩, -, hvregs, hpreds⟩ := hkeeps.of_quiet hquiet
  have same {α : Type} (field : Warp → α) : field (besideLanes w) = field (besideLanes x.w) := congrArg field hrest
  exact ⟨hmachine, hwarps, w, e, hw, he, hvregs, hpreds, same (·.sregs), same (·.masks), same (·.nest), same (·.tiles), same (·.win),
    same fun w => (w.ld, w.st, w.cp, w.mx, w.cwCls, w.cwDie, w.cwDev, w.cwSys),
    same fun w => (w.fctl, w.clkhi, w.epc, w.ecause, w.emask, w.eaddr, w.etval, w.trapMode),
    same (·.storeQ), same (·.parked), same (·.held), same (·.owed)⟩

end Sys2Proof.Machine
end

section
/-! SUPPORT. What scalar writes and the transfers leave of their warp (R123, R127 to R129). -/

namespace Sys2Proof.Machine

open Sys2Proof

variable {w w' v : Warp} {dst dst' : Nat → Prop}

/-- A warp but for its scalar registers and what is owed to them. -/
def besideScalars (w : Warp) : Warp := { quietWarp w with sregs := [], smarks := [], owed := [] }

/-- From `w` to `w'` only the scalars of `dst` are written, and what was owed to them is void (R26). -/
structure ScalarKeeps (dst : Nat → Prop) (w w' : Warp) : Prop where
  rest : besideScalars w' = besideScalars w
  canon : tcanon 0 w'.sregs = true
  sregs : ∀ n, ¬ dst n → sread w' n = sread w n
  owed : ∀ e, e ∈ w'.owed ↔ e ∈ w.owed ∧ ¬ dst e.2

/-- No scalar is written. -/
theorem scalarKeeps_none (h : tcanon 0 w.sregs = true) (hrest : quietWarp w' = quietWarp w) : ScalarKeeps (fun _ => False) w w' := by
  have hs : w'.sregs = w.sregs := quietWarp_congr (·.sregs) hrest
  have ho : w'.owed = w.owed := quietWarp_congr (·.owed) hrest
  exact ⟨quietWarp_congr besideScalars hrest, hs ▸ h, fun n _ => by rw [sread, hs, sread], fun e => by simp [ho]⟩

theorem scalarKeeps_swrite (h : tcanon 0 w.sregs = true) (n : Nat) (a : Word) : ScalarKeeps (· = n) w (swrite w n a) :=
  ⟨rfl, tcanon_tputD h n a, fun _ hm => tgetD_tputD_other h hm a, fun e => by simp [swrite]⟩

theorem ScalarKeeps.trans (h : ScalarKeeps dst w w') (h' : ScalarKeeps dst' w' v) : ScalarKeeps (fun n => dst n ∨ dst' n) w v := by
  refine ⟨h'.rest.trans h.rest, h'.canon, fun n hn => ?_, fun e => ?_⟩
  · obtain ⟨hn, hn'⟩ := not_or.mp hn
    exact (h'.sregs n hn').trans (h.sregs n hn)
  · rw [h'.owed, h.owed, not_or, and_assoc]

/-- CALL's write of the return address. -/
theorem scalarKeeps_swriteN_two (h : tcanon 0 w.sregs = true) (n a : Nat) : ScalarKeeps (fun k => k = n ∨ k = n + 1) w (swriteN w n 2 a) :=
  have hlow := scalarKeeps_swrite h n (BitVec.ofNat 32 a)
  hlow.trans (scalarKeeps_swrite hlow.canon (n + 1) _)

/-- What an issue always moves is none of this. -/
theorem ScalarKeeps.of_quiet (h : ScalarKeeps dst w w') (hq : quietWarp v = quietWarp w') : ScalarKeeps dst w v := by
  have hs : v.sregs = w'.sregs := quietWarp_congr (·.sregs) hq
  have ho : v.owed = w'.owed := quietWarp_congr (·.owed) hq
  exact ⟨(quietWarp_congr besideScalars hq).trans h.rest, hs ▸ h.canon, fun n hn => by rw [sread, hs]; exact h.sregs n hn,
    fun e => by rw [ho]; exact h.owed e⟩

theorem quietWarp_addBraid (w : Warp) (m : Mask) (pc : VAddr) (grant ready : Nat) :
    quietWarp (addBraid w m pc grant ready) = quietWarp w := by
  unfold addBraid addAsleep
  split <;> rfl

/-- BRP's split moves groups alone (R236). -/
theorem quietWarp_splitBraid (w : Warp) (b : SubBraid) (target : Mask) (next tgt : VAddr) (clock : Nat) :
    quietWarp (splitBraid w b target next tgt clock) = quietWarp w :=
  quietWarp_addBraid (dropEmpty (modBraid w b.id _)) _ tgt b.lastGrant clock

end Sys2Proof.Machine
end

section
/-! SUPPORT. The effect of each scalar operation and of each transfer on the machine. -/

namespace Sys2Proof.Machine

open Sys2Proof

variable {i : Instr} {s t : State} {x : Issue}

/-- An executed instruction leaves the machine but for its warp, and of that all but the scalars `dst` and what an issue always
moves. -/
def ScalarFrame (dst : Nat → Prop) (s t : State) (x : Issue) : Prop :=
  ∃ w, LeavesWarp s t x.wid w ∧ ScalarKeeps dst x.w w

section Executed

variable (hissues : Issues i s x) (hcanon : tcanon 0 x.w.sregs = true) (hexec : exec i s = .next t)

include hissues hexec

/-- An instruction that changes its warp alone. -/
theorem scalarFrame_of_doesToWarp {dst : Nat → Prop} {v : Verdict} {g : Warp → Warp} (hdoes : Does i s x v (modWarp s x.wid g))
    (hv : v.goesOn) (hg : ScalarKeeps dst x.w (g x.w)) : ScalarFrame dst s t x :=
  ⟨_, .of_exec hexec hdoes hv (leavesWarp_modWarp (tget_of_issuerOf hissues.1) g), hg⟩

include hcanon

/-- An instruction that only moves its lanes. -/
theorem scalarFrame_of_moves {v : Verdict} (hdoes : Does i s x v s) (hv : v.goesOn) : ScalarFrame (fun _ => False) s t x :=
  ⟨_, .of_exec hexec hdoes hv (.refl (tget_of_issuerOf hissues.1)), scalarKeeps_none hcanon rfl⟩

end Executed

/-- The transfers run their own meanings. -/
theorem exec_bra (f : UJ) (s : State) : exec (.bra f) s = execBra f s := rfl
theorem exec_brc (f : UI) (s : State) : exec (.brc f) s = execBrc f s := rfl
theorem exec_brp (f : LB) (s : State) : exec (.brp f) s = execBrp f s := rfl
theorem exec_call (f : UJ) (s : State) : exec (.call f) s = execCall f s := rfl

/-- BRC jumps or goes on (R127). -/
theorem does_brc {f : UI} (h : Issues (.brc f) s x) : ∃ v : Verdict, v.goesOn ∧ Does (.brc f) s x v s := by
  by_cases hcond : brcCond f.sub.toNat (sread x.w f.sa.toNat) = true
  · exact ⟨.jump _, trivial, does_of_issueOp h (exec_brc f s) (if_pos hcond)⟩
  · exact ⟨.advance, trivial, does_of_issueOp h (exec_brc f s) (if_neg hcond)⟩

/-- BRP jumps, or splits its sub-braid (R129, R236). -/
theorem does_brp {f : LB} (h : Issues (.brp f) s x) :
    ∃ v : Verdict, v.goesOn ∧ (Does (.brp f) s x v s ∨
      ∃ next act tgt clock, Does (.brp f) s x v
        (modWarp s x.wid fun w => splitBraid (advanceBraid w x.b.id next) x.b act next tgt clock)) := by
  by_cases hall : guardLanes x.w x.b.lanes f.gn f.gp.toNat = x.b.lanes
  · exact ⟨.jump _, trivial, .inl (does_of_issueOp h (exec_brp f s) (if_pos hall))⟩
  · by_cases hnone : guardLanes x.w x.b.lanes f.gn f.gp.toNat = 0
    · exact ⟨.jump _, trivial, .inl (does_of_issueOp h (exec_brp f s) ((if_neg hall).trans (if_pos hnone)))⟩
    · exact ⟨.placed true, trivial, .inr ⟨_, _, _, _, does_of_issueOp h (exec_brp f s) ((if_neg hall).trans (if_neg hnone))⟩⟩

/-- The low bits of an address in a scalar pair are those of its low word. -/
theorem spair_mod_four (w : Warp) (k : Nat) : spair w k % 4 = (sread w k).toNat % 4 := by
  simp only [spair, sreadN]
  omega

/-- RET and JMPI jump to an aligned address (R128). -/
theorem does_jumpOp {sa : Nat} (h : Issues i s x) (hi : exec i s = jumpOp i sa s) (hal : (sread x.w sa).toNat % 4 = 0) :
    ∃ a, Does i s x (.jump a) s := by
  obtain ⟨hissuer, hprologue, hpois⟩ := h
  rw [← spair_mod_four] at hal
  exact ⟨_, hi.trans ((issue_of hissuer hprologue _).trans (by rw [if_pos hal, hpois, jumpPair]; dsimp only; rw [if_pos hal]))⟩

end Sys2Proof.Machine
end

section
/-! PROOF. The frame of the scalar operations and the transfers. -/

namespace Sys2Proof.Machine

open Sys2Proof

/-- Settles O55: each form writes no more than its destination scalars, and the end of the issue moves only the lanes' groups. -/
theorem scalarAndControlFrame : Obligations.ScalarAndControlFrame := by
  unfold Obligations.ScalarAndControlFrame
  rintro i dst s t x hform h ⟨-, hcanon, -⟩ hexec
  have hframe : ScalarFrame dst s t x := by
    obtain ⟨hua, hub, hui⟩ := scalarArithmeticCompletes
    obtain ⟨op, f, rfl, rfl⟩ | ⟨op, f, rfl, rfl⟩ | ⟨op, f, rfl, rfl⟩ | ⟨f, rfl, rfl⟩ | ⟨⟨f, rfl⟩, rfl⟩ | ⟨⟨f, rfl⟩, rfl⟩ |
      ⟨⟨f, rfl⟩, rfl⟩ | ⟨⟨e, rfl⟩, rfl⟩ | ⟨⟨f, hi, hal⟩, rfl⟩ := hform
    · exact scalarFrame_of_doesToWarp h hexec (hua op f s x h) trivial (scalarKeeps_swrite hcanon _ _)
    · exact scalarFrame_of_doesToWarp h hexec (hub op f s x h) trivial (scalarKeeps_swrite hcanon _ _)
    · exact scalarFrame_of_doesToWarp h hexec (hui op f s x h) trivial (scalarKeeps_swrite hcanon _ _)
    · exact scalarFrame_of_doesToWarp h hexec (does_of_issueOp h (exec_call f s) rfl) trivial (scalarKeeps_swriteN_two hcanon 382 _)
    · exact scalarFrame_of_moves h hcanon hexec (does_of_issueOp h (exec_bra f s) rfl) trivial
    · obtain ⟨v, hv, hdoes⟩ := does_brc h
      exact scalarFrame_of_moves h hcanon hexec hdoes hv
    · obtain ⟨v, hv, hdoes | ⟨_, _, _, _, hdoes⟩⟩ := does_brp h
      · exact scalarFrame_of_moves h hcanon hexec hdoes hv
      · exact scalarFrame_of_doesToWarp h hexec hdoes hv (scalarKeeps_none hcanon (quietWarp_splitBraid ..))
    · exact scalarFrame_of_doesToWarp h hexec (doesToWarp_of_issueWarp h rfl) trivial (scalarKeeps_none hcanon rfl)
    · obtain ⟨a, hdoes⟩ := does_jumpOp h (by obtain rfl | rfl := hi <;> rfl) hal
      exact scalarFrame_of_moves h hcanon hexec hdoes trivial
  obtain ⟨w', ⟨hmachine, hwarps, w, hw, hquiet⟩, hkeeps⟩ := hframe
  obtain ⟨hrest, -, hread, howed⟩ := hkeeps.of_quiet hquiet
  have same {α : Type} (field : Warp → α) : field (besideScalars w) = field (besideScalars x.w) := congrArg field hrest
  exact ⟨hmachine, hwarps, w, hw, hread, same (·.vregs), same (·.preds), same (·.masks), same (·.nest), same (·.tiles), same (·.win),
    same (·.fstat), same fun w => (w.ld, w.st, w.cp, w.mx, w.cwCls, w.cwDie, w.cwDev, w.cwSys),
    same fun w => (w.fctl, w.clkhi, w.epc, w.ecause, w.emask, w.eaddr, w.etval, w.trapMode),
    same (·.storeQ), same (·.parked), howed⟩

end Sys2Proof.Machine
end

section
/-! SUPPORT. The address behind an instruction by its length (R73), values over two registers (R26, R128, R136), and the conditions of
BRC (R127). -/

namespace Sys2Proof.Machine

open Sys2Proof

variable {i : Instr}

theorem nextPc_short (h : (encode i).length = 1) (pc : VAddr) : nextPc pc i = pc + 4 := by
  rw [nextPc, instrBytes, isLong, h]
  rfl

theorem nextPc_long (h : (encode i).length = 2) (pc : VAddr) : nextPc pc i = pc + 8 := by
  rw [nextPc, instrBytes, isLong, h]
  rfl

theorem relTarget_short (h : (encode i).length = 1) (pc : VAddr) (off : Int) :
    relTarget pc i off = pc + 4 + BitVec.ofInt 57 (4 * off) := by rw [relTarget, nextPc_short h]

theorem relTarget_long (h : (encode i).length = 2) (pc : VAddr) (off : Int) :
    relTarget pc i off = pc + 8 + BitVec.ofInt 57 (4 * off) := by rw [relTarget, nextPc_long h]

/-- The low word of a value. -/
theorem ofNat_toNat_low {n : Nat} (a : BitVec n) : BitVec.ofNat 32 a.toNat = a.extractLsb' 0 32 := by
  apply BitVec.eq_of_toNat_eq
  simp

/-- Its high word. -/
theorem ofNat_toNat_high {n : Nat} (a : BitVec n) : BitVec.ofNat 32 (a.toNat / 2 ^ 32) = a.extractLsb' 32 32 := by
  apply BitVec.eq_of_toNat_eq
  simp [Nat.shiftRight_eq_div_pow]

/-- The high word of an address holds its upper 25 bits. -/
theorem extractLsb'_high_addr (a : VAddr) : a.extractLsb' 32 32 = BitVec.setWidth 32 (a.extractLsb' 32 25) := by
  apply BitVec.eq_of_toNat_eq
  simp only [BitVec.extractLsb'_toNat, BitVec.toNat_setWidth, Nat.shiftRight_eq_div_pow]
  omega

/-- A value of up to two words goes to two scalars, low word first. -/
theorem swriteN_two {n : Nat} (w : Warp) (k : Nat) (a : BitVec n) :
    swriteN w k 2 a.toNat = swrite (swrite w k (a.extractLsb' 0 32)) (k + 1) (a.extractLsb' 32 32) := by
  rw [← ofNat_toNat_low, ← ofNat_toNat_high]
  rfl

/-- Two scalars as one value of 64 bits. -/
theorem ofNat_sreadN_two (w : Warp) (k : Nat) : BitVec.ofNat 64 (sreadN w k 2) = sread w (k + 1) ++ sread w k := by
  apply BitVec.eq_of_toNat_eq
  have hlow := (sread w k).isLt
  have hhigh := (sread w (k + 1)).isLt
  rw [BitVec.toNat_append, Nat.shiftLeft_eq, Nat.mul_comm, ← Nat.two_pow_add_eq_or_of_lt hlow, BitVec.toNat_ofNat]
  simp only [sreadN]
  omega

/-- The address in a scalar pair: bits [31:25] of its high word count for nothing (R128). -/
theorem spair_eq (w : Warp) (k : Nat) :
    spair w k = (sread w k).toNat + 2 ^ 32 * ((sread w (k + 1)).toNat % 2 ^ 25) := by
  have hlow := (sread w k).isLt
  simp only [spair, sreadN]
  omega

end Sys2Proof.Machine
end

section
/-! PROOF. The branches complete. -/

namespace Sys2Proof.Machine

open Sys2Proof

/-- Settles O17: each branch's verdict is its row of R127 or R129. -/
theorem branchesComplete : Obligations.BranchesComplete := by
  unfold Obligations.BranchesComplete
  refine ⟨?bra, ?brc, ?brp⟩
  case bra =>
    intro f s x h
    rw [← relTarget_short (i := .bra f) rfl]
    exact does_of_issueOp h (exec_bra f s) rfl
  case brc =>
    intro f s x h v taken
    have hcond : brcCond f.sub.toNat (sread x.w f.sa.toNat) = true ↔ taken := by
      have hzero : sread x.w f.sa.toNat = 0 ↔ v = 0 := by rw [← BitVec.toInt_inj]; rfl
      show _ ↔ match f.sub.toNat with | 0 => v = 0 | 1 => v ≠ 0 | 2 => v < 0 | 3 => 0 ≤ v | 4 => 0 < v | _ => v ≤ 0
      match f.sub.toNat with
      | 0 => simpa [brcCond] using hzero
      | 1 => simpa [brcCond] using not_congr hzero
      | 2 | 3 | 4 | _ + 5 => exact decide_eq_true_iff
    rw [← relTarget_long (i := .brc f) rfl]
    exact ⟨fun ht => does_of_issueOp h (exec_brc f s) (if_pos (hcond.mpr ht)),
      fun ht => does_of_issueOp h (exec_brc f s) (if_neg (mt hcond.mp ht))⟩
  case brp =>
    intro f s x h act next target
    have hnext : nextPc x.b.pc (.brp f) = next := nextPc_long rfl _
    have htarget : relTarget x.b.pc (.brp f) (brpOffset f) = target := relTarget_long rfl _ _
    rw [← hnext, ← htarget]
    exact ⟨fun hall => does_of_issueOp h (exec_brp f s) (if_pos hall),
      fun hall hnone => does_of_issueOp h (exec_brp f s) ((if_neg hall).trans (if_pos hnone)),
      fun hall hnone => does_of_issueOp h (exec_brp f s) ((if_neg hall).trans (if_neg hnone))⟩

end Sys2Proof.Machine
end

section
/-! PROOF. The calls and the indirect jumps complete. -/

namespace Sys2Proof.Machine

open Sys2Proof

variable {i : Instr} {s : State} {x : Issue} {f : UA}

/-- RET and JMPI are the same transfer (R128). -/
theorem exec_jump (hi : i = .ret f ∨ i = .jmpi f) (s : State) : exec i s = jumpOp i f.sa.toNat s := by
  obtain rfl | rfl := hi <;> rfl

/-- No pair begins at the last scalar (R128). -/
theorem not_wf_jump_last (hi : i = .ret f ∨ i = .jmpi f) (hsa : f.sa = 383) : i.wf = false := by
  have hpair : retOk f = false := by simp [retOk, sOk, hsa]
  obtain rfl | rfl := hi <;> exact hpair

/-- Settles O18: CALL's write is that of its return address; the other two jump where their pair is aligned, and have no pair at 383. -/
theorem callsComplete : Obligations.CallsComplete := by
  unfold Obligations.CallsComplete
  refine ⟨?call, ?jump, ?last⟩
  case call =>
    intro f s x h
    rw [← relTarget_short (i := .call f) rfl, ← extractLsb'_high_addr]
    refine does_of_issueOp h (exec_call f s) (congrArg (Prod.mk _) (congrArg (modWarp s x.wid) (funext fun w => ?_)))
    rw [swriteN_two, nextPc_short rfl]
  case jump =>
    intro f s x i hi ⟨hissuer, hprologue, hpois⟩ target
    have hpair : spair x.w f.sa.toNat = target := spair_eq ..
    have hexec := (exec_jump hi s).trans (issue_of hissuer hprologue _)
    rw [hpois, hpair] at hexec
    refine ⟨fun hal => ?_, fun hal => ?_⟩
    · rw [Does, hexec, if_pos hal, jumpPair, hpair]
      exact congrArg (fun r => Host.Outcome.next (finish x r)) (if_pos hal)
    · rw [Does, hexec, if_neg hal, jumpPair, hpair]
      exact congrArg (fun r => Host.Outcome.next (finish x r)) (if_neg hal)
  case last =>
    intro f s x i hi hsa hissuer
    have hinstr := issuerOf_instr hissuer
    have hbad := prologue_badFields (s := s) (x := x) (.inl (by rw [hinstr]; exact not_wf_jump_last hi hsa))
    rw [hinstr] at hbad
    exact does_of_prologue (by obtain rfl | rfl := hi <;> exact List.cons_ne_nil _ _) hissuer hbad

end Sys2Proof.Machine
end

section
/-! PROOF. Reconvergence, masks and pauses complete. -/

namespace Sys2Proof.Machine

open Sys2Proof

theorem exec_join (f : UA) (s : State) : exec (.join f) s = execJoin f s := rfl
theorem exec_leave (f : UA) (s : State) : exec (.leave f) s = execLeave f s := rfl
theorem exec_wait (f : UA) (s : State) : exec (.wait f) s = execWait f s := rfl
theorem exec_mops (f : UA) (s : State) : exec (.mops f) s = execMops f s := rfl
theorem exec_exit (f : UA) (s : State) : exec (.exit f) s = execExit f s := rfl
theorem exec_detach (f : UA) (s : State) : exec (.detach f) s = execDetach f s := rfl
theorem exec_yield (f : UA) (s : State) : exec (.yield f) s = execYield f s := rfl
theorem exec_sleepc (f : UB) (s : State) : exec (.sleepc f) s = execSleepc f s := rfl

/-- Settles O19: JOIN and LEAVE look at the counters first, and a full or an empty one is their trap. -/
theorem joinLeaveComplete : Obligations.JoinLeaveComplete := by
  unfold Obligations.JoinLeaveComplete
  refine ⟨?join, ?leave⟩
  case join =>
    intro f s x h full
    exact ⟨fun hroom => does_of_issueOp h (exec_join f s) (if_neg (by simpa using hroom)),
      fun hfull => does_of_issueOp h (exec_join f s) (if_pos (by simpa using hfull))⟩
  case leave =>
    intro f s x h m empty
    exact ⟨fun hnested => does_of_issueOp h (exec_leave f s) (if_neg (by simpa using hnested)),
      fun hempty => does_of_issueOp h (exec_leave f s) (if_pos (by simpa using hempty))⟩

/-- Settles O20: a WAIT without members goes on; MOPS has its row of R136; the rest are their meanings with their lengths. -/
theorem masksAndPausesComplete : Obligations.MasksAndPausesComplete := by
  unfold Obligations.MasksAndPausesComplete
  refine ⟨?wait, ?mops, fun f s x h => does_of_issueOp h (exec_exit f s) rfl,
    fun f s x h => does_of_issueOp h (exec_detach f s) rfl, ?yield, ?sleepc⟩
  case wait =>
    intro f s x h m
    exact ⟨fun hnone => does_of_issueOp h (exec_wait f s) (if_pos hnone),
      fun hsome => does_of_issueOp h (exec_wait f s) (if_neg hsome)⟩
  case mops =>
    intro f s x h
    refine does_of_issueOp h (exec_mops f s)
      (congrArg (fun g => (Verdict.advance, settleWarp (modWarp s x.wid g) x.wid)) (funext fun w => ?_))
    unfold mopsWarp
    match f.sub.toNat with
    | 0 | 1 | 2 | 3 | 4 | 5 | 6 => rfl
    | 7 => exact swriteN_two w f.sd.toNat (mread w f.sa.toNat)
    | 8 => exact congrArg (mwrite w f.sd.toNat) (ofNat_sreadN_two w f.sa.toNat)
    | _ + 9 => rfl
  case yield =>
    intro f s x h
    rw [← nextPc_short (i := .yield f) rfl]
    exact does_of_issueOp h (exec_yield f s) rfl
  case sleepc =>
    intro f s x h
    rw [← nextPc_long (i := .sleepc f) rfl]
    exact does_of_issueOp h (exec_sleepc f s) rfl

end Sys2Proof.Machine
end

section
/-! PROOF. The accesses to special registers and WAITC complete. -/

namespace Sys2Proof.Machine

open Sys2Proof

variable {s : State} {x : Issue}

theorem exec_srd (f : UB) (s : State) : exec (.srd f) s = execSrd f s := rfl
theorem exec_swr (f : UB) (s : State) : exec (.swr f) s = execSwr f s := rfl
theorem exec_waitc (f : UB) (s : State) : exec (.waitc f) s = execWaitc f s := rfl

/-- WAITC issues where its counter has fallen (R137). -/
theorem waitCounter_le_of_issues {f : UB} (h : Issues (.waitc f) s x) : waitCounter x.w f.sub.toNat ≤ f.imm.toNat := by
  obtain ⟨hissuer, hprologue, -⟩ := h
  obtain ⟨-, -, -, -, -, -, -, -, hstalls⟩ := prologue_eq_none_iff.mp hprologue
  have hown : ownWait s x = false := by
    simp only [stalls, Bool.or_eq_false_iff] at hstalls
    exact hstalls.2
  rw [ownWait, issuerOf_instr hissuer] at hown
  simpa using hown

/-- Settles O21: SRD and SWR are their rows; WAITC goes on, or delivers the warp's pending MCHK (R399). -/
theorem specialRegistersComplete : Obligations.SpecialRegistersComplete := by
  unfold Obligations.SpecialRegistersComplete
  refine ⟨fun f s x h => does_of_issueOp h (exec_srd f s) rfl, ?swr, ?waitc⟩
  case swr =>
    intro f s x h
    exact ⟨fun hmstat => does_of_issueOp h (exec_swr f s) (if_pos hmstat),
      fun hother => does_of_issueOp h (exec_swr f s) (if_neg hother)⟩
  case waitc =>
    intro f s x h
    refine ⟨waitCounter_le_of_issues h, fun hnone => ?_, fun n hmx htrap hmchk => ?_⟩
    · have hnothing : (if f.sub.toNat = 3 ∧ !x.w.trapMode then x.w.mchk else none) = none := by
        obtain hsub | htrap | hmchk := hnone <;> simp [*]
      exact does_of_issueOp h (exec_waitc f s) (by rw [hnothing])
    · have hpending : (if f.sub.toNat = 3 ∧ !x.w.trapMode then x.w.mchk else none) = some n := by simp [hmx, htrap, hmchk]
      exact does_of_issueOp h (exec_waitc f s) (by rw [hpending])

end Sys2Proof.Machine
end

section
/-! PROOF. The elastic warps' instructions complete. -/

namespace Sys2Proof.Machine

open Sys2Proof

variable {i : Instr} {s t : State} {x : Issue} {q : ResReq}

theorem exec_attach (f : UI) (s : State) : exec (.attach f) s = execAttach f s := rfl
theorem exec_reggrow (f : UA) (s : State) : exec (.reggrow f) s = execReggrow f s := rfl
theorem exec_regshrink (f : UA) (s : State) : exec (.regshrink f) s = execRegshrink f s := rfl

/-- What an instruction that asks the resource queue does: it goes on with what it is granted, or waits (R249). -/
def askOr (x : Issue) (q : ResReq) (s : State) : Verdict × State :=
  match requestNow s x x.w.core q with
  | some s => (.advance, s)
  | none => enqueueRequest s x x.w.core q

theorem askOr_granted (h : requestNow s x x.w.core q = some t) : askOr x q s = (.advance, t) := by rw [askOr, h]

theorem askOr_waits (h : requestNow s x x.w.core q = none) : askOr x q s = enqueueRequest s x x.w.core q := by rw [askOr, h]

/-- Settles O22: a request ends at once where nothing is asked, is granted now, or enters the queue. -/
theorem elasticWarpsComplete : Obligations.ElasticWarpsComplete := by
  unfold Obligations.ElasticWarpsComplete
  refine ⟨?attach, ?grow, ?shrink⟩
  case attach =>
    intro f s x h label args c q
    have hlabel : relTarget x.b.pc (.attach f) (toSigned 16 (f.imm.toNat % 65536)) = label := relTarget_long rfl _ _
    have hasks (hwait : f.sub ≠ 0) : exec (.attach f) s = .next (finish x (askOr x q s)) := by
      rw [exec_attach, execAttach, issueOp_of h]
      dsimp only
      rw [if_neg hwait, hlabel]
      rfl
    refine ⟨fun hnow => ?_, fun t hwait hgrant => ?_, fun hwait hnone => ?_⟩
    · rw [← hlabel]
      exact does_of_issueOp h (exec_attach f s) (if_pos hnow)
    · rw [Does, hasks hwait, askOr_granted hgrant]
    · rw [hasks hwait, askOr_waits hnone]
  case grow =>
    intro f s x h q
    have hasks (hmore : x.w.win < 8 * f.sa.toNat) : exec (.reggrow f) s = .next (finish x (askOr x q s)) := by
      rw [exec_reggrow, execReggrow, issueOp_of h, if_neg (Nat.not_le.mpr hmore)]
      rfl
    refine ⟨fun hlarge => does_of_issueOp h (exec_reggrow f s) (if_pos hlarge), fun t hmore hgrant => ?_, fun hmore hnone => ?_⟩
    · rw [Does, hasks hmore, askOr_granted hgrant]
    · rw [hasks hmore, askOr_waits hnone]
  case shrink =>
    intro f s x h
    exact ⟨fun hsmall => does_of_issueOp h (exec_regshrink f s) (if_pos hsmall),
      fun hless => does_of_issueOp h (exec_regshrink f s) (if_neg (Nat.not_le.mpr hless))⟩

end Sys2Proof.Machine
end

section
/-! PROOF. TRAP, BRK and ERET complete. -/

namespace Sys2Proof.Machine

open Sys2Proof

theorem exec_trap (f : UB) (s : State) : exec (.trap f) s = execTrap f s := rfl
theorem exec_brk (f : UA) (s : State) : exec (.brk f) s = execBrk f s := rfl
theorem exec_eret (f : UA) (s : State) : exec (.eret f) s = execEret f s := rfl

/-- Settles O23: ERET ends by what its fetch at EPC answers (R400). -/
theorem trapInstructionsComplete : Obligations.TrapInstructionsComplete := by
  unfold Obligations.TrapInstructionsComplete
  refine ⟨fun f s x h => does_of_issueOp h (exec_trap f s) rfl, fun f s x h => does_of_issueOp h (exec_brk f s) rfl, ?eret⟩
  intro f s x h epc leave
  refine ⟨fun long t hfetch => ?_, fun c et t hfetch => ?_⟩
  · exact does_of_issueOp h (exec_eret f s) (by rw [hfetch]; rfl)
  · exact does_of_issueOp h (exec_eret f s) (by rw [hfetch]; rfl)

end Sys2Proof.Machine
end

section
/-! SUPPORT. What LAUNCH does with a record that it has read (R149). -/

namespace Sys2Proof.Machine

open Sys2Proof

variable {i : Instr} {s s1 : State} {x : Issue}

/-- An instruction that `issueOp` runs ends as its meaning does. -/
theorem exec_of_issueOp {r : Verdict × State} {body : Issue → State → Verdict × State} (h : Issues i s x)
    (hi : exec i s = issueOp i s body) (hbody : body x s = r) : exec i s = .next (finish x r) := by
  rw [hi, issueOp_of h, hbody]

theorem exec_deq (f : UB) (s : State) : exec (.deq f) s = execDeq f s := rfl
theorem exec_enq (f : UB) (s : State) : exec (.enq f) s = execEnq f s := rfl

/-- The result of a LAUNCH. -/
def launchGives (f : UB) (x : Issue) (s : State) (v : Word) : Verdict × State :=
  (.advance, modWarp s x.wid (fun w => swrite w f.sd.toNat v))

/-- LAUNCH with the record that it has read, behind its release: `prio` is the priority of its own grid. -/
def launchRecord (f : UB) (x : Issue) (s : State) (prio : Nat) (r : List Byte) : Verdict × State :=
  let die := dieOfCore x.w.core
  let full := decide (64 ≤ (dieOf s die).launches.length)
  if recordRefused s die r false then launchGives f x s 1
  else if f.sub == 1 then
    if full then parkAll s x (.launch f.sd.toNat (spair x.w f.sa.toNat))
    else launchGives f x (enterLaunch s die x.ctx prio r none false).2 0
  else if full then launchGives f x s (if recCoop r && !tryFits s die x.ctx prio r then 2 else 3)
  else
    let t := enterLaunch s die x.ctx prio r none (recCoop r)
    if !recCoop r then launchGives f x t.2 0
    else
      let whole := tryWhole t.2 die t.1
      launchGives f x whole.2 (if whole.1 then 0 else 2)

theorem exec_launch {f : UB} {bytes : Option (List Byte)} (h : Issues (.launch f) s x) (hal : spair x.w f.sa.toNat % 64 = 0)
    (hread : readRecord s x.w.core x.ctx 0 (spair x.w f.sa.toNat) = (.ok bytes, s1)) :
    exec (.launch f) s = .next (finish x (launchRecord f x (dropDescs s1 x.wid)
      ((((blockOf (dropDescs s1 x.wid) x.w).bind (gridOfBlock (dropDescs s1 x.wid))).map (fun g => g.2.prio)).getD 0)
      (bytes.getD []))) := by
  obtain ⟨hissuer, hprologue, hpois⟩ := h
  rw [show exec (.launch f) s = execLaunch f s from rfl, execLaunch, issue_of hissuer hprologue]
  dsimp only
  rw [if_neg (not_not_intro hal), hread]
  dsimp only
  rw [poisOf_none_of hpois s1]
  rfl

section Record

variable {f : UB} {prio : Nat} {r : List Byte}

theorem launchRecord_refused (h : recordRefused s (dieOfCore x.w.core) r false = true) :
    launchRecord f x s prio r = launchGives f x s 1 := if_pos h

variable (hok : recordRefused s (dieOfCore x.w.core) r false = false)

include hok

theorem launchRecord_parks (hfull : 64 ≤ (dieOf s (dieOfCore x.w.core)).launches.length) (hwait : f.sub = 1) :
    launchRecord f x s prio r = parkAll s x (.launch f.sd.toNat (spair x.w f.sa.toNat)) := by
  simp only [launchRecord, hok, hfull, beq_iff_eq.mpr hwait, decide_true, Bool.false_eq_true, if_false, if_true]

theorem launchRecord_full (hfull : 64 ≤ (dieOf s (dieOfCore x.w.core)).launches.length) (htry : f.sub ≠ 1) :
    launchRecord f x s prio r = launchGives f x s
      (if recCoop r = true ∧ tryFits s (dieOfCore x.w.core) x.ctx prio r = false then 2 else 3) := by
  simp only [launchRecord, hok, hfull, beq_eq_false_iff_ne.mpr htry, decide_true, Bool.false_eq_true, if_false, if_true,
    Bool.and_eq_true, Bool.not_eq_true']

variable (hroom : (dieOf s (dieOfCore x.w.core)).launches.length < 64)

include hroom

theorem launchRecord_enters (h : f.sub = 1 ∨ recCoop r = false) :
    launchRecord f x s prio r = launchGives f x (enterLaunch s (dieOfCore x.w.core) x.ctx prio r none false).2 0 := by
  by_cases hwait : f.sub = 1
  · simp only [launchRecord, hok, Nat.not_le.mpr hroom, beq_iff_eq.mpr hwait, decide_false, Bool.false_eq_true, if_false, if_true]
  · simp only [launchRecord, hok, Nat.not_le.mpr hroom, beq_eq_false_iff_ne.mpr hwait, h.resolve_left hwait, decide_false,
      Bool.false_eq_true, Bool.not_false, if_false, if_true]

theorem launchRecord_whole (htry : f.sub ≠ 1) (hcoop : recCoop r = true) :
    launchRecord f x s prio r =
      let t := enterLaunch s (dieOfCore x.w.core) x.ctx prio r none true
      let whole := tryWhole t.2 (dieOfCore x.w.core) t.1
      launchGives f x whole.2 (if whole.1 then 0 else 2) := by
  simp only [launchRecord, hok, Nat.not_le.mpr hroom, beq_eq_false_iff_ne.mpr htry, hcoop, decide_false, Bool.false_eq_true,
    Bool.not_true, if_false]

end Record

end Sys2Proof.Machine
end

section
/-! PROOF. The instructions of the hardware queues complete. -/

namespace Sys2Proof.Machine

open Sys2Proof

/-- Settles O36: DEQ and ENQ by what their queue holds, LAUNCH by its record and the launch list. -/
theorem queuesComplete : Obligations.QueuesComplete := by
  unfold Obligations.QueuesComplete
  refine ⟨?deq, ?enq, ?launch⟩
  case deq =>
    intro f s x h v hok
    have hnoFault : ¬ queueFault x s v true false = true := Bool.eq_false_iff.mp hok
    refine ⟨fun hsome => ?_, fun hnone htry => ?_, fun hnone hwait => ?_⟩
    · exact does_of_issueOp h (exec_deq f s) ((if_neg hnoFault).trans (if_pos hsome))
    · have hempty := Nat.not_lt.mpr (Nat.le_of_eq hnone)
      exact does_of_issueOp h (exec_deq f s) ((if_neg hnoFault).trans ((if_neg hempty).trans (if_neg (by simpa using htry))))
    · have hempty := Nat.not_lt.mpr (Nat.le_of_eq hnone)
      exact exec_of_issueOp h (exec_deq f s) ((if_neg hnoFault).trans ((if_neg hempty).trans (if_pos (by simpa using hwait))))
  case enq =>
    intro f s x h v ws s1 hok
    have hnoFault : ¬ queueFault x s v false ((ws.headD 0).toNat % 256 == 0) = true := Bool.eq_false_iff.mp hok
    refine ⟨fun hroom => ?_, fun hfull htry => ?_, fun hfull hwait => ?_⟩
    · exact does_of_issueOp h (exec_enq f s) ((if_neg hnoFault).trans (if_pos hroom))
    · have hnoRoom := Nat.not_lt.mpr hfull
      exact does_of_issueOp h (exec_enq f s) ((if_neg hnoFault).trans ((if_neg hnoRoom).trans (if_neg (by simpa using htry))))
    · have hnoRoom := Nat.not_lt.mpr hfull
      exact exec_of_issueOp h (exec_enq f s) ((if_neg hnoFault).trans ((if_neg hnoRoom).trans (if_pos (by simpa using hwait))))
  case launch =>
    intro f s s1 x bytes h va die rec_ s2 prio hal hread
    have hexec : exec (.launch f) s = .next (finish x (launchRecord f x s2 prio rec_)) := exec_launch h hal hread
    refine ⟨fun hbad => ?_, fun hok hroom hplain => ?_, fun hok hfull hwait => ?_, fun hok hroom htry hcoop => ?_,
      fun hok hfull htry => ?_⟩
    · rw [Does, hexec, launchRecord_refused hbad]
      rfl
    · rw [Does, hexec, launchRecord_enters hok hroom hplain]
      rfl
    · rw [hexec, launchRecord_parks hok hfull hwait]
    · rw [Does, hexec, launchRecord_whole hok hroom htry hcoop]
      rfl
    · rw [Does, hexec, launchRecord_full hok hfull htry]
      rfl

end Sys2Proof.Machine
end

section
/-! SUPPORT. When the events of issue, of the store order and of the scratch ports happen (R138, R156, R239, R264, R284, R288). -/

namespace Sys2Proof.Machine

open Sys2Proof

variable {s : State} {id : Nat} {w : Warp}

/-- The grant of a free quadrant to the best of the sub-braids of a kind. -/
theorem grantBest_eq {core quad wid : Nat} {b : SubBraid} {kind : State → SubBraid → Bool} (hfree : (runOf s core quad).isSome = false)
    (hbest : bestOf (mergeQuad s core quad) ((readyBraids (mergeQuad s core quad) core quad).filter
      (fun e => kind (mergeQuad s core quad) e.2.2)) = some (wid, w, b)) :
    grantBest s core quad kind = grantRun (mergeQuad s core quad) core quad wid w b := by
  simp [grantBest, hfree, hbest]

theorem runGrant_happens {core quad wid : Nat} {b : SubBraid} (hfree : (runOf s core quad).isSome = false)
    (hbest : bestOf (mergeQuad s core quad) (readyBraids (mergeQuad s core quad) core quad) = some (wid, w, b)) :
    Happens (.runGrant core quad) s (grantRun (mergeQuad s core quad) core quad wid w b) :=
  congrArg Host.Outcome.next (grantBest_eq (kind := fun _ _ => true) hfree (by rwa [List.filter_true]))

theorem readyWaitGuard_happens {core quad wid : Nat} {b : SubBraid} (hfree : (runOf s core quad).isSome = false)
    (hbest : bestOf (mergeQuad s core quad) ((readyBraids (mergeQuad s core quad) core quad).filter
      (fun e => guarded (mergeQuad s core quad) e.2.2)) = some (wid, w, b)) :
    Happens (.readyWaitGuard core quad) s (grantRun (mergeQuad s core quad) core quad wid w b) :=
  congrArg Host.Outcome.next (grantBest_eq hfree hbest)

theorem sleepEnd_happens {warp sub : Nat} {b : SubBraid} (hw : tget s.warps warp = some w) (hb : braidOf w sub = some b)
    (hsleeps : b.wake ≠ 0) (hover : b.wake ≤ s.clock) :
    Happens (.sleepEnd warp sub) s
      (modWarp s warp (fun w => modBraid w sub (fun b => { b with wake := 0, readySince := max b.readySince b.wake }))) := by
  change execSleepEnd warp sub s = _
  rw [execSleepEnd, hw, Option.bind_some, hb]
  exact if_neg (not_or.mpr ⟨hsleeps, Nat.not_lt.mpr hover⟩)

theorem loadReturn_happens {l : PLoad} (hl : tget s.net.loads id = some l) (hall : allPerformed l = true)
    (hfirst : ∀ w, tget s.warps l.warp = some w → respBehind s (dieOfCore w.core) (w.core % 96) l.resps = false) :
    Happens (.loadReturn id) s (returnLoad s l) := by
  change execLoadReturn id s = _
  have hport : ((loadPort s l).any fun c => respBehind s (dieOfCore c) (c % 96) l.resps) = false := by
    cases hw : tget s.warps l.warp with
    | none => simp [loadPort, hw]
    | some w => simp [loadPort, hw, hfirst w hw]
  simp [execLoadReturn, hl, hall, hport]

section StoreOrder

variable {warp : Nat} {rest : List StoreEnt} (hw : tget s.warps warp = some w)

include hw

theorem storeOrderSend_global {grp : Nat} {kind : WKind} {ps : List Piece} (hhead : w.storeQ = .global grp kind ps :: rest)
    (hloads : loadBefore s warp grp = false) (hroom : windowRoom s (bayOfCore w.core) ps.length = true) :
    Happens (.coreStoreOrderSend w.core warp) s (popStore (enterGroup (enterWindow s w.core warp grp kind ps) grp) warp) := by
  change execCoreStoreOrderSend w.core warp s = _
  simp [execCoreStoreOrderSend, hw, hhead, hloads, hroom]

theorem storeOrderSend_port {m : Nat} {msg : PortMsg} (hhead : w.storeQ = .port m :: rest) (hloads : loadBefore s warp m = false)
    (hm : tget s.net.ports m = some msg) :
    Happens (.coreStoreOrderSend w.core warp) s (popStore (modNet (nextId s).2 (fun n => { n with
      ports := tput (terase n.ports m) s.fresh { msg with id := s.fresh, queued := false, sent := s.fresh } })) warp) := by
  change execCoreStoreOrderSend w.core warp s = _
  simp [execCoreStoreOrderSend, hw, hhead, hloads, hm, nextId]

end StoreOrder

theorem homeAck_packet {e : WinEnt} (hflush : tget s.net.flushes id = none) (he : findEnt s id = some e)
    (hperformed : e.performed = true) (hfirst : ackBehind s e = false) :
    Happens (.homeAck id) s (ackEnt (dropLeaseGrain (dropLeaseGrain (dropEnt s id) (dieOfCore e.core) (32 * e.grain)) (dieOfCore e.core)
      (routed (dropLeaseGrain (dropEnt s id) (dieOfCore e.core) (32 * e.grain)) (32 * e.grain))) e) := by
  change execHomeAck id s = _
  simp [execHomeAck, hflush, he, hperformed, hfirst]

theorem homeAck_flush {f : FlushCmd} (hf : tget s.net.flushes id = some f) (hdone : f.ranges = []) :
    Happens (.homeAck id) s (ackGroup (modNet s (fun n => { n with flushes := terase n.flushes id })) id) := by
  change execHomeAck id s = _
  simp [execHomeAck, hf, hdone]

/-- Nothing of the port goes before the message. -/
theorem behindPorts_eq_false {m : PortMsg} (h : ∀ e ∈ s.net.ports, portBefore s m e.2 = false) : behindPorts s m = false :=
  List.any_eq_false.mpr fun e he => by simp [h e he]

section Port

variable {m : PortMsg} (hm : tget s.net.ports id = some m)

include hm

/-- A load's message leaves its core (R264, R285). -/
theorem portAccess_leaves {l : Nat} {p : PLoad} (hqueued : m.queued = true) (hop : m.op = .load l) (hp : tget s.net.loads l = some p)
    (hw : tget s.warps p.warp = some w) (hloads : loadBefore s p.warp l = false) :
    Happens (.scratchPortAccess id) s (sendLoad s m p w) := by
  change execScratchPortAccess id s = _
  simp [execScratchPortAccess, hm, hqueued, hop, hp, hw, hloads]

variable (hsent : m.queued = false) (hready : portReady s m = true) (hfirst : ∀ e ∈ s.net.ports, portBefore s m e.2 = false)

include hsent hready hfirst

theorem portAccess_store {grp bid : Nat} {ps : List (Nat × List Byte)} {b : Block} (hop : m.op = .store grp ps)
    (hrank : rankBlock s m.place.cluster m.place.rank = some (bid, b)) :
    Happens (.scratchPortAccess id) s (ackGroup (noteSources (modNet (if b.ended then s
      else modBlock s bid (fun b => ps.foldl (fun b p => putScratch b p.1 p.2) b)) (fun n => { n with ports := terase n.ports id })))
      grp) := by
  change execScratchPortAccess id s = _
  simp [execScratchPortAccess, hm, hsent, hready, behindPorts_eq_false hfirst, hop, hrank]

theorem portAccess_load {l : Nat} {p : PLoad} (hop : m.op = .load l ∨ m.op = .atomic l) (hp : tget s.net.loads l = some p) :
    Happens (.scratchPortAccess id) s (noteSources (modNet (modLoad (performRank s m.place.cluster m.place.rank p).1 l
      (fun _ => (performRank s m.place.cluster m.place.rank p).2)) (fun n => { n with ports := terase n.ports id }))) := by
  change execScratchPortAccess id s = _
  obtain hop | hop := hop <;> simp [execScratchPortAccess, hm, hsent, hready, behindPorts_eq_false hfirst, hop, hp]

theorem portAccess_ring (hstore : ∀ grp ps, m.op ≠ .store grp ps) (hload : ∀ l, m.op ≠ .load l ∧ m.op ≠ .atomic l) :
    Happens (.scratchPortAccess id) s (portRing s m) := by
  change execScratchPortAccess id s = _
  cases hop : m.op with
  | load l => exact absurd hop (hload l).1
  | atomic l => exact absurd hop (hload l).2
  | store grp ps => exact absurd hop (hstore grp ps)
  | ringInit | ringArrive | ringRel | ringWait =>
    simp [execScratchPortAccess, hm, hsent, hready, behindPorts_eq_false hfirst, hop]

end Port

end Sys2Proof.Machine
end

section
/-! PROOF. The events of issue, of the store order and of the scratch ports happen. -/

namespace Sys2Proof.Machine

open Sys2Proof

/-- Settles O39: each event happens where its conditions stand. -/
theorem issueEventsComplete : Obligations.IssueEventsComplete := by
  unfold Obligations.IssueEventsComplete
  refine ⟨?grant, ?sleep, ?load, ?global, ?port, ?ack, ?flush, ?leaves, ?access⟩
  case grant => exact fun _ _ _ _ _ _ hfree => ⟨runGrant_happens hfree, readyWaitGuard_happens hfree⟩
  case sleep => exact fun _ _ _ _ _ => sleepEnd_happens
  case load => exact fun _ _ _ => loadReturn_happens
  case global => exact fun _ _ _ _ _ _ _ hw => storeOrderSend_global hw
  case port => exact fun _ _ _ _ _ _ hw => storeOrderSend_port hw
  case ack => exact fun _ _ _ => homeAck_packet
  case flush => exact fun _ _ _ => homeAck_flush
  case leaves => exact fun _ _ _ _ _ _ hm => portAccess_leaves hm
  case access =>
    intro id m s hm hsent hready hfirst
    exact ⟨fun _ _ _ _ => portAccess_store hm hsent hready hfirst, fun _ _ => portAccess_load hm hsent hready hfirst,
      portAccess_ring hm hsent hready hfirst⟩

end Sys2Proof.Machine
end

section
/-! SUPPORT. The steps of the plane array: what starts an entry, what its completion leaves, the windows and tests of its core (R200 to
R216, R434, R435). -/

namespace Sys2Proof.Machine

open Sys2Proof

variable {s : State} {core : Nat} {e : PlaneEnt}

/-- Changes of a core that agree on it are the same. -/
theorem modCore_congr {f g : Core → Core} (h : core < s.cores.length → f (coreOf s core) = g (coreOf s core)) :
    modCore s core f = modCore s core g := by
  refine congrArg (fun cs => { s with cores := cs }) ?_
  unfold coreOf at h
  generalize s.cores = l at h ⊢
  induction l generalizing core with
  | nil => rfl
  | cons c l ih =>
    cases core with
    | zero => exact congrArg (· :: l) (h (Nat.zero_lt_succ _))
    | succ k => exact congrArg (c :: ·) (ih fun hk => h (Nat.succ_lt_succ hk))

/-- Entry `i` of a plane array starts, with what it has read (R216). -/
def startEntry (s : State) (core i : Nat) (work : PlaneWork) : State :=
  modCore s core (fun c => { c with queue := lmod c.queue i (fun q => { q with started := true, work := work }) })

section Start

variable {i : Nat} {k : MmaKey} {sigs : List Sig} {desc : List Byte} {old : List (Byte × Bool)} {st : Option (List (Byte × Bool))}
  (he : ((coreOf s core).queue.zipIdx).find? (fun e => !e.1.started) = some (e, i))

include he

/-- What reads nothing starts at once. -/
theorem planeStart_command (hwork : ∀ k sigs desc old st, e.work ≠ .mma k sigs desc old st) :
    Happens (.planeStepsStart core) s (startEntry s core i e.work) := by
  change execPlaneStepsStart core s = _
  rw [execPlaneStepsStart, he]
  dsimp only
  cases hw : e.work with
  | mma k sigs desc old st => exact absurd hw (hwork k sigs desc old st)
  | accz | accrel | blockEnd => rfl

theorem planeStart_scratch {a : Nat} {bs : List (Byte × Bool)} (hwork : e.work = .mma k sigs desc old st) (hb : k.b = .scratch a)
    (hread : bRead s e.block k = some bs) :
    Happens (.planeStepsStart core) s (startEntry s core i (.mma k sigs desc (if old.isEmpty then bs else old) (some bs))) := by
  change execPlaneStepsStart core s = _
  rw [execPlaneStepsStart, he]
  dsimp only
  rw [hwork]
  dsimp only
  rw [hb]
  dsimp only
  rw [hread]
  rfl

end Start

/-- The oldest entry leaves its queue, and what it has read of A stands in its latch (R200). -/
def completing (s : State) (core : Nat) (e : PlaneEnt) (rest : List PlaneEnt) : State :=
  settleRows (modCore s core (fun c => { c with queue := rest, idleSince := if rest.isEmpty then s.clock else c.idleSince })) core e

theorem settleRows_command (h : e.work.isMma = false) : settleRows s core e = s := by simp [settleRows, h]

/-- What a completing entry has read changes its core alone. -/
@[simp] theorem settleRows_blocks : (settleRows s core e).blocks = s.blocks := by
  unfold settleRows
  split <;> rfl

/-- A change of a core leaves every other field of a core alone. -/
theorem coreOf_modCore_of_eq {α : Type} {g : Core → α} {f : Core → Core} (h : ∀ c, g (f c) = g c) (j k : Nat) :
    g (coreOf (modCore s j f) k) = g (coreOf s k) := by
  unfold coreOf
  rw [← List.getD_map (f := g), ← List.getD_map (f := g), modCore_cores, map_lmod_of_eq h]

@[simp] theorem accs_settleRows : (coreOf (settleRows s core e) core).accs = (coreOf s core).accs := by
  unfold settleRows
  split
  · rfl
  · exact coreOf_modCore_of_eq (g := Core.accs) (fun _ => by rfl) core core

/-- The accumulators stand until the entry's effect. -/
theorem accs_completing (rest : List PlaneEnt) : (coreOf (completing s core e rest) core).accs = (coreOf s core).accs :=
  accs_settleRows.trans (coreOf_modCore_of_eq (g := Core.accs) (fun _ => by rfl) core core)

/-- ACCZ and ACCREL clear their slot (R207). -/
theorem workEffect_accz {wid n : Nat} (h : e.work = .accz wid n) (slot : Nat) (t : Tbl Word) :
    workEffect s e slot t = (t.filter (fun x => x.1 / 16384 != slot), 0) := by simp [workEffect, h]

section Complete

variable {bad : Option Mismatch} {rest : List PlaneEnt} {b : Block} {wid n : Nat}
  (hqueue : (coreOf s core).queue = e :: rest) (hstarted : e.started = true) (hbad : badAllowed s e bad = true)

include hqueue hstarted hbad

theorem completion_accz {slot : Nat} (hwork : e.work = .accz wid n) (hslot : e.slot = some slot) (hblock : tget s.blocks e.block = some b)
    (hlive : b.ended = false) (hclean : namePoisoned b n = false) : Happens (.matrixCompletion core bad) s
      (completeWarps (modCore (completing s core e rest) core
        (fun c => { c with accs := c.accs.filter (fun x => x.1 / 16384 != slot) })) [wid] 0) := by
  change execMatrixCompletion core bad s = _
  simp [execMatrixCompletion, completing, hqueue, hstarted, hbad, hwork, hslot, hblock, hlive, hclean, workEffect_accz hwork]

theorem completion_accz_void (hwork : e.work = .accz wid n) (hvoid : e.slot = none ∨ tget s.blocks e.block = none ∨
      ∃ b, tget s.blocks e.block = some b ∧ (b.ended = true ∨ namePoisoned b n = true)) :
    Happens (.matrixCompletion core bad) s (completeWarps (completing s core e rest) [wid] 0) := by
  change execMatrixCompletion core bad s = _
  obtain hslot | hblock | ⟨b, hblock, hended | hpois⟩ := hvoid
  · simp [execMatrixCompletion, completing, hqueue, hstarted, hbad, hwork, hslot]
  · simp [execMatrixCompletion, completing, hqueue, hstarted, hbad, hwork, hblock]
  · simp [execMatrixCompletion, completing, hqueue, hstarted, hbad, hwork, hblock, hended]
  · cases hslot : e.slot <;> cases hended : b.ended <;>
      simp [execMatrixCompletion, completing, hqueue, hstarted, hbad, hwork, hblock, hended, hpois, hslot]

theorem completion_accrel (hwork : e.work = .accrel wid n) (hblock : tget s.blocks e.block = some b) :
    Happens (.matrixCompletion core bad) s (completeWarps (if b.ended then completing s core e rest
      else passDue (serveCore (unmapName (completing s core e rest) e.block n) core)) [wid] 0) := by
  change execMatrixCompletion core bad s = _
  cases hended : b.ended <;> simp [execMatrixCompletion, completing, hqueue, hstarted, hbad, hwork, hblock, hended]

theorem completion_blockEnd (hwork : e.work = .blockEnd) : Happens (.matrixCompletion core bad) s
    (passDue (serveCore (freeBlockSlots (completing s core e rest) e.block core) core)) := by
  change execMatrixCompletion core bad s = _
  simp [execMatrixCompletion, completing, hqueue, hstarted, hbad, hwork]

section Mma

variable {k : MmaKey} {sigs : List Sig} {desc : List Byte} {old : List (Byte × Bool)} {st : Option (List (Byte × Bool))}
  (hwork : e.work = .mma k sigs desc old st) (hblock : tget s.blocks e.block = some b)

include hwork hblock

theorem completion_mma_ended (hended : b.ended = true) : Happens (.matrixCompletion core bad) s
    (completeWarps (completing s core e rest) (sigs.map (·.warp)) 0) := by
  change execMatrixCompletion core bad s = _
  simp [execMatrixCompletion, completing, hqueue, hstarted, hbad, hwork, hblock, hended]

variable (hlive : b.ended = false)

include hlive

theorem completion_mma_poisoned (hpois : namePoisoned b k.name = true) : Happens (.matrixCompletion core bad) s
    (completeWarps (completing s core e rest) (sigs.map (·.warp))
      (workEffect (completing s core e rest) e (e.slot.getD 0) (coreOf s core).accs).2) := by
  rw [← accs_completing (e := e) rest]
  change execMatrixCompletion core bad s = _
  simp [execMatrixCompletion, completing, hqueue, hstarted, hbad, hwork, hblock, hlive, hpois]

variable (hclean : namePoisoned b k.name = false)

include hclean

theorem completion_mma (hnone : bad = none) : Happens (.matrixCompletion core bad) s
    (let s1 := completing s core e rest
     let r := workEffect s1 e (e.slot.getD 0) (coreOf s core).accs
     let s2 := modCore s1 core (fun c => { c with accs := r.1 })
     completeWarps (if planePois s1 e then poisonName s2 e.block k.name (e.slot.getD 0) else s2) (sigs.map (·.warp)) r.2) := by
  rw [← accs_completing (e := e) rest]
  change execMatrixCompletion core bad s = _
  subst hnone
  simp [execMatrixCompletion, completing, hqueue, hstarted, hbad, hwork, hblock, hlive, hclean]

theorem completion_mma_mismatch {m : Mismatch} (hsome : bad = some m) : Happens (.matrixCompletion core bad) s
    (let s1 := completing s core e rest
     let r := workEffect s1 e (e.slot.getD 0) (coreOf s core).accs
     completeWarps (noteMismatch (modCore s1 core (fun c => { c with accs := r.1 })) core e.block k sigs (e.slot.getD 0) m)
       (sigs.map (·.warp)) r.2) := by
  rw [← accs_completing (e := e) rest]
  change execMatrixCompletion core bad s = _
  subst hsome
  simp [execMatrixCompletion, completing, hqueue, hstarted, hbad, hwork, hblock, hlive, hclean]

end Mma

end Complete

theorem mismatchWindow_happens (hover : (coreOf s core).windowStart + 2 ^ 32 ≤ s.clock) : Happens (.mismatchWindow core) s
    (modCore s core (fun c => { c with
      mismatches := 0, replayMisses := 0, windowStart := c.windowStart + 2 ^ 32 * ((s.clock - c.windowStart) / 2 ^ 32) })) :=
  congrArg Host.Outcome.next (modCore_congr fun _ => if_neg (Nat.not_lt.mpr hover))

theorem goldenTest_happens {test : Nat} (hidle : (coreOf s core).goldenRun = none) (hok : (coreOf s core).fenced = false)
    (htest : test < 80)
    (hdue : ((coreOf s core).queue = [] ∧ (coreOf s core).idleSince + 1024 ≤ s.clock ∧ (coreOf s core).goldenLast + 2 ^ 31 ≤ s.clock) ∨
      max (coreOf s core).goldenLast (coreOf s core).idleSince + 2 ^ 33 ≤ s.clock) :
    Happens (.goldenTest core test) s (modCore s core (fun c => { c with goldenRun := some test })) := by
  refine if_neg ?_
  obtain ⟨hempty, hwaited, hlast⟩ | hoverdue := hdue
  · simp only [hidle, hok, Nat.not_le.mpr htest, hempty, hwaited, hlast, List.isEmpty_nil, decide_true, decide_false,
      Option.isSome_none, Bool.and_self, Bool.true_or, Bool.not_true, Bool.or_self, Bool.false_eq_true, not_false_iff]
  · simp only [hidle, hok, Nat.not_le.mpr htest, hoverdue, decide_true, decide_false, Option.isSome_none, Bool.or_true, Bool.not_true,
      Bool.or_self, Bool.false_eq_true, not_false_iff]

end Sys2Proof.Machine
end

section
/-! PROOF. The plane array's events happen. -/

namespace Sys2Proof.Machine

open Sys2Proof

/-- Settles O40: an entry starts with what it reads, and completes by its work; the rest are the core's windows and tests. -/
theorem matrixEventsComplete : Obligations.MatrixEventsComplete := by
  unfold Obligations.MatrixEventsComplete
  refine ⟨?start, ?complete, ?paired, fun _ _ => mismatchWindow_happens, fun _ _ _ => goldenTest_happens, ?result⟩
  case start =>
    intro core s e i he starts
    refine ⟨planeStart_command he, fun k sigs desc old st a bs => planeStart_scratch he, ?tile, ?address⟩
    case tile =>
      intro k sigs desc old st a co hwork hb
      change execPlaneStepsStart core s = _
      rw [execPlaneStepsStart, he]
      dsimp only
      rw [hwork]
      dsimp only
      rewrite [hb]
      rfl
    case address =>
      intro c ctx mid va pa t ht
      rw [engRead, ht]
  case complete =>
    intro core bad s e rest hqueue hstarted hbad s0 s1
    refine ⟨settleRows_command, ?accz, ?void, ?accrel, completion_blockEnd hqueue hstarted hbad, ?mma, ?ended⟩
    case accz => exact fun wid n slot b => completion_accz hqueue hstarted hbad
    case void => exact fun wid n => completion_accz_void hqueue hstarted hbad
    case accrel => exact fun wid n b => completion_accrel hqueue hstarted hbad
    case mma =>
      intro k sigs desc old st b hwork hblock hlive slot r s2
      exact ⟨completion_mma hqueue hstarted hbad hwork hblock hlive,
        fun m hclean hsome _ => completion_mma_mismatch hqueue hstarted hbad hwork hblock hlive hclean hsome,
        completion_mma_poisoned hqueue hstarted hbad hwork hblock hlive⟩
    case ended => exact fun k sigs desc old st b => completion_mma_ended hqueue hstarted hbad
  case paired =>
    intro block s b wid n rel rest hblock haccs hroom
    change execPairedAccCommandArrival block s = _
    rw [execPairedAccCommandArrival, hblock]
    dsimp only
    rw [haccs]
    exact if_neg (Nat.not_le.mpr hroom)
  case result =>
    intro core t pass s hrun s1
    change execGoldenTestResult core pass s = _
    rw [execGoldenTestResult, hrun]
    cases pass <;> rfl

end Sys2Proof.Machine
end

section
/-! SUPPORT. When the events of the resource queue, of ended warps and of the barriers happen (R141, R178, R180, R246, R249, R251). -/

namespace Sys2Proof.Machine

open Sys2Proof

variable {s : State} {core warp bar block : Nat} {w : Warp}

theorem resourceAgeLimit_happens {e : ResEnt} (h : agedHead s core = some e) :
    Happens (.resourceQueueAgeLimit core) s (serveAll core ((coreOf s core).resQ.length + 1) s) := by
  change execResourceQueueAgeLimit core s = _
  rw [execResourceQueueAgeLimit, h]
  rfl

theorem resourceRefusal_happens {e : ResEnt} (hlast : (coreOf s core).resQ.getLast? = some e) (hmust : mustRefuse s core = true) :
    Happens (.resourceRefusal core) s (refuse s core e) := by
  change execResourceRefusal core s = _
  rw [execResourceRefusal, hlast]
  exact if_pos hmust

section Return

variable (hw : tget s.warps warp = some w) (hended : w.ended = true) (hld : w.ld = 0) (hmx : w.mx = 0)
  (hsig : hasSignature s warp w = false)

include hw

/-- An ended warp is no more once its slot has returned and its stores, arrivals and events are done. -/
theorem dropDone_returned (hreturned : w.returned = true) (hst : w.st = 0) (hstores : w.storeQ = [])
    (harrives : ∀ a ∈ w.arrives, a.2.pending = false)
    (hevents : ∀ b, blockOf s w = some b → ∀ e ∈ b.oddEvents, oddEventOf warp e = false) :
    dropDone s warp = { s with warps := terase s.warps warp } := by
  have hpending : (w.arrives.any fun a => a.2.pending) = false := List.any_eq_false.mpr fun a ha => by simp [harrives a ha]
  have hodd : ((blockOf s w).any fun b => b.oddEvents.any (oddEventOf warp)) = false := by
    cases hb : blockOf s w with
    | none => rfl
    | some b => exact List.any_eq_false.mpr fun e he => by simp [hevents b hb e he]
  simp [dropDone, hw, hreturned, hst, hstores, hpending, hodd]

include hended hld hmx hsig

theorem warpReturn_first (hreturned : w.returned = false) : Happens (.warpResourceReturn warp) s
    (dropDone (passDue (servePair (modWarp s warp (fun w => { w with returned := true })) w.core)) warp) := by
  change execWarpResourceReturn warp s = _
  simp [execWarpResourceReturn, hw, hended, hld, hmx, hsig, hreturned]

theorem warpReturn_again (hreturned : w.returned = true) : Happens (.warpResourceReturn warp) s (dropDone s warp) := by
  change execWarpResourceReturn warp s = _
  simp [execWarpResourceReturn, hw, hended, hld, hmx, hsig, hreturned]

end Return

theorem warpArrival_happens (hw : tget s.warps warp = some w) (hbar : bar < 25) (hpending : (arriveOf w (barOf bar)).pending = true)
    (hreleased : releaseDone s warp w (barScope (barOf bar)) = true) :
    Happens (.warpArrival warp bar) s (receiveArrival (modWarp (noteRelease (dropDescs s warp) warp) warp
      (fun w => setArrive w (barOf bar) { arriveOf w (barOf bar) with pending := false })) warp w (barOf bar)) := by
  change execWarpArrival warp bar s = _
  rw [execWarpArrival, hw]
  exact if_pos ⟨hbar, hpending, hreleased⟩

section BlockArrival

variable {b : Block} {c : Cluster} (hb : tget s.blocks block = some b) (hlive : b.ended = false)
  (harrived : blockArrived s block b bar = true) (hc : tget s.clusters b.cluster = some c)

include hb hlive harrived hc

theorem blockArrival_cluster {n : Nat} {r : CBar} (hbar : barOf bar = .cb n) (hr : c.cbs[n]? = some r)
    (hnew : r.came.contains b.rank = false) : Happens (.blockArrival block bar) s (clusterArrive s b.cluster n b.rank) := by
  change execBlockArrival block bar s = _
  simp only [execBlockArrival, hb, hlive, harrived, hc, hbar, hr, hnew, Option.map_some, Option.getD_some, Bool.not_true, Bool.or_self,
    Bool.false_eq_true, if_false]

theorem blockArrival_grid {g : Grid} (hbar : barOf bar = .grid) (hg : tget s.grids c.grid = some g)
    (hnew : g.came.contains (c.index, b.rank) = false) :
    Happens (.blockArrival block bar) s (gridArrive s c.grid c.index b.rank) := by
  change execBlockArrival block bar s = _
  simp only [execBlockArrival, hb, hlive, harrived, hc, hbar, hg, hnew, Option.map_some, Option.getD_some, Bool.not_true, Bool.or_self,
    Bool.false_eq_true, if_false]

end BlockArrival

end Sys2Proof.Machine
end

section
/-! PROOF. The events of the resource queue, of ended warps and of the barriers happen. -/

namespace Sys2Proof.Machine

open Sys2Proof

/-- Settles O41: each event happens where its conditions stand. -/
theorem resourceEventsComplete : Obligations.ResourceEventsComplete := by
  unfold Obligations.ResourceEventsComplete
  refine ⟨fun _ _ => rfl, fun _ _ _ => resourceAgeLimit_happens, fun _ _ _ => resourceRefusal_happens, ?ended,
    fun _ _ _ _ => warpArrival_happens, ?paired, ?block⟩
  case ended =>
    intro warp s w hw hended hld hmx hsig
    refine ⟨warpReturn_first hw hended hld hmx hsig, warpReturn_again hw hended hld hmx hsig, ?_⟩
    intro hreturned hst hstores harrives hevents
    rw [← dropDone_returned hw hreturned hst hstores harrives hevents]
    exact warpReturn_again hw hended hld hmx hsig hreturned
  case paired =>
    intro block s b e hb he t
    have hevent : (tget s.blocks block).bind (fun b => b.oddEvents.head?) = some e := by rw [hb, Option.bind_some, he]
    refine ⟨fun wid n hkind => ?_, fun wid n hkind => ?_, fun ids n hkind => ?_⟩ <;>
    · change execPairedBarrierEvent block s = _
      rw [execPairedBarrierEvent, hevent, hkind]
  case block =>
    intro block bar s b c hb hlive harrived hc
    exact ⟨fun n r => blockArrival_cluster hb hlive harrived hc, fun g => blockArrival_grid hb hlive harrived hc⟩

end Sys2Proof.Machine
end

section
/-! SUPPORT. Masks and nesting counters (R131, R132): what a write to one leaves of the others, and the lanes whose counter stands at a
value. -/

namespace Sys2Proof.Machine

open Sys2Proof

variable {w : Warp} {m v : Mask} {l k n : Nat}

theorem lset_eq_lmod {α : Type} (xs : List α) (k : Nat) (a : α) : lset xs k a = lmod xs k (fun _ => a) := by
  induction xs generalizing k with
  | nil => rfl
  | cons y ys ih =>
    cases k with
    | zero => rfl
    | succ k => exact congrArg (y :: ·) (ih k)

/-- A mask without other lanes is written as it is. -/
theorem and_eq_self_of_and_not_eq_zero (h : v &&& ~~~m = 0) : v &&& m = v := by
  apply BitVec.eq_of_getLsbD_eq
  intro i hi
  have hbit := congrArg (·.getLsbD i) h
  simp only [BitVec.getLsbD_and, BitVec.getLsbD_not, hi, decide_true, Bool.true_and] at hbit ⊢
  cases hv : v.getLsbD i <;> cases hm : m.getLsbD i <;> simp [hv, hm] at hbit ⊢

theorem mread_mwrite_same (hk : k < w.masks.length) (hlive : v &&& ~~~liveMask w = 0) : mread (mwrite w k v) k = v := by
  rw [mwrite, and_eq_self_of_and_not_eq_zero hlive, lset_eq_lmod]
  exact getD_lmod_same hk _ 0

theorem mread_mwrite_other {j : Nat} (h : j ≠ k) : mread (mwrite w k v) j = mread w j := by
  rw [mwrite, lset_eq_lmod]
  exact getD_lmod_other w.masks h _ 0

theorem nestOf_setNest_same (h : tcanon 0 w.nest = true) (l n : Nat) : nestOf (setNest w l n) l = n := tgetD_tputD_same h l n

theorem nestOf_setNest_other (h : tcanon 0 w.nest = true) (hk : k ≠ l) (n : Nat) : nestOf (setNest w l n) k = nestOf w k :=
  tgetD_tputD_other h hk n

/-- One more in the counter of each of several lanes. -/
theorem nestOf_foldl_setNest {ls : List Nat} (hcanon : tcanon 0 w.nest = true) (hnodup : ls.Nodup) (k : Nat) :
    nestOf (ls.foldl (fun acc l => setNest acc l (nestOf acc l + 1)) w) k = if k ∈ ls then nestOf w k + 1 else nestOf w k := by
  induction ls generalizing w with
  | nil => simp
  | cons l ls ih =>
    obtain ⟨hl, hls⟩ := List.nodup_cons.mp hnodup
    have hcanon' : tcanon 0 (setNest w l (nestOf w l + 1)).nest = true := tcanon_tputD hcanon l (nestOf w l + 1)
    rw [List.foldl_cons, ih hcanon' hls]
    by_cases hkl : k = l
    · subst hkl
      rw [if_neg hl, if_pos List.mem_cons_self, nestOf_setNest_same hcanon]
    · simp only [nestOf_setNest_other hcanon hkl, List.mem_cons, hkl, false_or]

theorem nestOf_nestUp (h : tcanon 0 w.nest = true) (m : Mask) (l : Nat) :
    nestOf (nestUp w m) l = if inMask m l then nestOf w l + 1 else nestOf w l := by
  have hnodup : (lanesOf m).Nodup := List.nodup_range.filter _
  rw [nestUp, nestOf_foldl_setNest h hnodup]
  simp only [mem_lanesOf]

/-- The counters' rise leaves the masks. -/
theorem masks_nestUp (w : Warp) (m : Mask) : (nestUp w m).masks = w.masks := by
  unfold nestUp
  generalize lanesOf m = ls
  induction ls generalizing w with
  | nil => rfl
  | cons l ls ih => exact ih _

/-- The warp of a JOIN to mask `k` by the lanes `m` (R132). -/
def joined (w : Warp) (k : Nat) (m : Mask) : Warp := nestUp (mwrite w k (mread w k ||| m)) m

theorem nestOf_joined (h : tcanon 0 w.nest = true) (k : Nat) (m : Mask) (l : Nat) :
    nestOf (joined w k m) l = if inMask m l then nestOf w l + 1 else nestOf w l :=
  nestOf_nestUp (w := mwrite w k (mread w k ||| m)) h m l

theorem mread_joined_same (hk : k < w.masks.length) (hlive : (m ||| mread w k) &&& ~~~liveMask w = 0) :
    mread (joined w k m) k = mread w k ||| m := by
  rw [mread, joined, masks_nestUp]
  exact mread_mwrite_same hk (BitVec.or_comm m _ ▸ hlive)

theorem mread_joined_other {j : Nat} (h : j ≠ k) : mread (joined w k m) j = mread w j := by
  rw [mread, joined, masks_nestUp]
  exact mread_mwrite_other h

theorem inMask_nestAt : inMask (nestAt w m n) l = (inMask m l && nestOf w l == n) := by
  rw [Bool.eq_iff_iff, nestAt, inMask_maskOf, List.mem_filter, mem_lanesOf, Bool.and_eq_true, and_iff_left_iff_imp]
  exact fun h => BitVec.lt_of_getLsbD h.1

theorem nestAt_eq_zero_iff : nestAt w m n = 0 ↔ ∀ l, inMask m l = true → nestOf w l ≠ n := by
  constructor
  · intro h l hl hn
    have hin : inMask (nestAt w m n) l = true := by simp [inMask_nestAt, hl, hn]
    simp [h, inMask] at hin
  · intro h
    apply BitVec.eq_of_getLsbD_eq
    intro l _
    rw [show (nestAt w m n).getLsbD l = inMask (nestAt w m n) l from rfl, inMask_nestAt]
    cases hl : inMask m l with
    | false => simp
    | true => simp [h l hl]

end Sys2Proof.Machine
end

section
/-! SUPPORT. What a trap leaves of its warp (R398): the trap registers, where it was not in trap mode, and nothing else but where its
lanes stand. -/

namespace Sys2Proof.Machine

open Sys2Proof

variable {s : State} {x : Issue} {wid k : Nat} {w v q : Warp} {pc : VAddr} {grant : Nat} {t : Trap}

/-- A warp but for where its lanes stand, its step credit, its exemptions and its mode. -/
def placeless (w : Warp) : Warp := { quietWarp w with parked := [], held := [], trapMode := false }

theorem placeless_of_quiet (h : quietWarp v = quietWarp w) : placeless v = placeless w := quietWarp_congr placeless h

/-- Warp `wid` of a state is `q` but for where its lanes stand. -/
def HasPlaceless (s : State) (wid : Nat) (q : Warp) : Prop := ∃ w, tget s.warps wid = some w ∧ placeless w = placeless q

/-- A change of some warp that moves lanes alone. -/
theorem HasPlaceless.modWarp (h : HasPlaceless s wid q) {f : Warp → Warp} (hf : ∀ w, placeless (f w) = placeless w) :
    HasPlaceless (modWarp s k f) wid q := by
  obtain ⟨w, hw, hq⟩ := h
  by_cases hk : wid = k
  · subst hk
    exact ⟨f w, tget_tmod_same hw f, (hf w).trans hq⟩
  · exact ⟨w, (tget_tmod_other hk f).trans hw, hq⟩

/-- The fence of a context drops what its warps wait with (R390). -/
theorem HasPlaceless.startFence (h : HasPlaceless s wid q) (c : Nat) (f : Word → Word) : HasPlaceless (startFence s c f) wid q := by
  have hdrop (ws : List Nat) : HasPlaceless (ws.foldl dropParked s) wid q := by
    induction ws generalizing s with
    | nil => exact h
    | cons k ws ih => exact ih (h.modWarp fun _ => rfl)
  unfold Machine.startFence
  dsimp only
  split
  · exact h
  · exact hdrop (warpIdsOfCtx s c)

theorem placeless_takeOut (w : Warp) (m : Mask) : placeless (takeOut w m) = placeless w := rfl

theorem placeless_holdAll (w : Warp) : placeless (holdAll w) = placeless w := rfl

theorem placeless_inTrap (w : Warp) : placeless { w with trapMode := true } = placeless w := rfl

theorem placeless_enterHandler (w : Warp) (t : Trap) (handler : VAddr) (grant clock : Nat) :
    placeless (enterHandler w t handler grant clock) = placeless w := by
  unfold enterHandler
  dsimp only
  rw [placeless_of_quiet (quietWarp_addBraid ..), placeless_inTrap, placeless_holdAll, placeless_takeOut]

/-- The trap registers are those of the first trap (R398, R399). -/
theorem hasPlaceless_takeTrap (hw : tget s.warps wid = some w) :
    HasPlaceless (takeTrap s wid pc grant t) wid (if w.trapMode then w else writeTrapRegs w pc t) := by
  unfold takeTrap
  rw [hw]
  dsimp only
  split
  · exact HasPlaceless.startFence ⟨w, hw, rfl⟩ _ _
  · have hwritten : HasPlaceless (modWarp s wid (fun w => writeTrapRegs w pc t)) wid (writeTrapRegs w pc t) :=
      ⟨_, tget_tmod_same hw _, rfl⟩
    split
    · exact hwritten.modWarp fun w => placeless_enterHandler w t _ grant _
    · exact hwritten.startFence _ _

/-- The warp of an instruction that raises a cause. -/
theorem hasPlaceless_finish_trap (hw : tget s.warps x.wid = some x.w) :
    HasPlaceless (finish x (.trap t, s)) x.wid (if x.w.trapMode then x.w else writeTrapRegs x.w x.b.pc t) := by
  have hused : ∃ w, tget (useExemption s x).warps x.wid = some w ∧ quietWarp w = quietWarp x.w := by
    unfold useExemption
    split
    · exact ⟨x.w, hw, rfl⟩
    · exact ⟨_, tget_tmod_same hw _, rfl⟩
  obtain ⟨w, hw', hquiet⟩ := hused
  have hmode : w.trapMode = x.w.trapMode := quietWarp_congr (·.trapMode) hquiet
  have hregs : placeless (writeTrapRegs w x.b.pc t) = placeless (writeTrapRegs x.w x.b.pc t) :=
    quietWarp_congr (fun w => placeless (writeTrapRegs w x.b.pc t)) hquiet
  obtain ⟨w', htaken, hplaceless⟩ := (hasPlaceless_takeTrap (pc := x.b.pc) (grant := x.b.lastGrant) (t := t) hw').modWarp (k := x.wid)
    (f := fun w => stampReady w x.b.id (endRun (takeTrap (useExemption s x) x.wid x.b.pc x.b.lastGrant t) x.w).clock) fun _ => rfl
  refine ⟨w', htaken, hplaceless.trans ?_⟩
  rw [hmode]
  split
  · exact placeless_of_quiet hquiet
  · exact hregs

end Sys2Proof.Machine
end

section
/-! PROOF. JOIN opens a region. -/

namespace Sys2Proof.Machine

open Sys2Proof

/-- Settles O60: JOIN writes its mask and raises the counters of its lanes, or its trap leaves both. -/
theorem joinOpensRegion : Obligations.JoinOpensRegion := by
  unfold Obligations.JoinOpensRegion
  intro f s t x h ⟨_, _, hcanon, _⟩ hlength hlive hexec
  obtain ⟨hissuer, hprologue, -⟩ := id h
  have hw := tget_of_issuerOf hissuer
  obtain ⟨hroom, hfull⟩ := joinLeaveComplete.1 f s x h
  refine ⟨fun hbelow => ?_, fun ⟨l, hl, hin, hat⟩ => ?_⟩
  · have hsd : f.sd.toNat < 12 := by
      have hwf : (Instr.join f).wf = true := issuerOf_instr hissuer ▸ (prologue_eq_none_iff.mp hprologue).1
      change maskOpOk 1 f = true at hwf
      simp only [maskOpOk, Bool.and_eq_true, decide_eq_true_eq] at hwf
      omega
    have hnone : nestAt x.w x.b.lanes 255 = 0 := nestAt_eq_zero_iff.mpr fun l hl => hbelow l (BitVec.lt_of_getLsbD hl) hl
    obtain ⟨-, -, w, hw', hquiet⟩ := LeavesWarp.of_exec (w := joined x.w f.sd.toNat x.b.lanes) hexec (hroom hnone) trivial
      (leavesWarp_modWarp hw _)
    have hmask (k : Nat) : mread w k = mread (joined x.w f.sd.toNat x.b.lanes) k := quietWarp_congr (fun w => mread w k) hquiet
    have hnest (l : Nat) : nestOf w l = nestOf (joined x.w f.sd.toNat x.b.lanes) l := quietWarp_congr (fun w => nestOf w l) hquiet
    exact ⟨w, hw', (hmask _).trans (mread_joined_same (hlength ▸ hsd) hlive), fun k hk => (hmask k).trans (mread_joined_other hk),
      fun l _ => (hnest l).trans (nestOf_joined hcanon _ _ l)⟩
  · have hsome : nestAt x.w x.b.lanes 255 ≠ 0 := fun hzero => nestAt_eq_zero_iff.mp hzero l hin hat
    obtain rfl := Host.Outcome.next.inj (hexec.symm.trans (hfull hsome))
    obtain ⟨w, hw', hplaceless⟩ := hasPlaceless_finish_trap (t := trapOf cNEST (nestAt x.w x.b.lanes 255) f.sd.toNat) hw
    refine ⟨w, hw', ?masks, ?nest, fun htrap => ?regs⟩
    case masks => exact (congrArg Warp.masks hplaceless).trans (by split <;> rfl)
    case nest => exact (congrArg Warp.nest hplaceless).trans (by split <;> rfl)
    case regs =>
      rw [htrap, if_neg Bool.false_ne_true] at hplaceless
      have hcause : w.ecause = BitVec.ofNat 32 cNEST := congrArg Warp.ecause hplaceless
      have hlanes : w.emask = nestAt x.w x.b.lanes 255 := congrArg Warp.emask hplaceless
      exact ⟨⟨by rw [hcause]; rfl, congrArg Warp.etval hplaceless, congrArg Warp.epc hplaceless⟩,
        fun l _ => hlanes ▸ inMask_nestAt⟩

end Sys2Proof.Machine
end

section
/-! SUPPORT. A store to the warp's own scratch whose lines are present (R156, R158). -/

namespace Sys2Proof.Machine

open Sys2Proof

variable {s : State} {x : Issue} {n bid : Nat} {b : Block} {cells : List (Nat × Nat × Nat)} {data : Nat → List Byte}

/-- A block whose scratch holds the data of each lane at its place, written in the order of the cells. -/
def putCells (cells : List (Nat × Nat × Nat)) (data : Nat → List Byte) (b : Block) : Block :=
  cells.foldl (fun b c => putScratch b (codeOff c.2.1) (data c.1)) b

theorem length_toBytes (n v : Nat) : (toBytes n v).length = n := by
  induction n generalizing v with
  | zero => rfl
  | succ n ih => exact congrArg (· + 1) (ih _)

/-- What an instruction does, from the state that its meaning leaves. -/
theorem does_of_exec {i : Instr} {r : Verdict × State} {v : Verdict} {t : State} (hexec : exec i s = .next (finish x r))
    (h : r = (v, t)) : Does i s x v t := by rw [Does, hexec, h]

/-- The one rank of an access to the warp's own present lines, and that nothing of it waits (R254, R264, R265). -/
theorem ownPresent_ranks (hne : cells ≠ []) (h : OwnPresent s x n cells bid b) :
    ranksOf (cells.map (fun c => c.2.1)) = [rankOf s x.w] := by
  obtain ⟨-, -, -, hpresent, -⟩ := h
  exact ranksOf_same (by simpa using hne) (by simpa using fun _ _ _ hc => (hpresent _ hc).1)

/-- A store to the warp's own present lines is performed at once (R156). -/
theorem scratchStore_ownPresent (hne : cells ≠ []) (hlen : ∀ l, (data l).length = n) (h : OwnPresent s x n cells bid b) :
    scratchStore x s (cells.map (fun c => (c.2.1, data c.1))) = (.advance, modBlock s bid (putCells cells data)) := by
  have hready := rankReady_ownPresent h
  have hranks := ownPresent_ranks hne h
  obtain ⟨hlocal, hplaced, hlive, hpresent, hheld⟩ := h
  have hspans : (cells.map (fun c => (c.2.1, data c.1))).map (fun c => (c.1, c.2.length)) = cells.map (fun c => (c.2.1, n)) := by
    simp [hlen]
  have hcodes : (cells.map (fun c => (c.2.1, data c.1))).map Prod.fst = cells.map (fun c => c.2.1) := List.map_map
  have hown : [rankOf s x.w].filter (isLocal s x.w) = [rankOf s x.w] := by simp [hlocal]
  have hpeers : [rankOf s x.w].filter (fun r => !isLocal s x.w r) = [] := by simp [hlocal]
  have hmine : (cells.map (fun c => (c.2.1, data c.1))).filter (fun c => codeRank c.1 = rankOf s x.w) =
      cells.map (fun c => (c.2.1, data c.1)) := by
    rw [List.filter_eq_self, List.forall_mem_map]
    exact fun c hc => decide_eq_true (hpresent c hc).1
  have hblock := rankBlock_of_placedBlock hplaced
  simp only [scratchStore, hspans, hcodes, hranks, hown, hpeers, hmine, List.all_cons, List.all_nil, hready, hheld, List.foldl_cons,
    List.foldl_nil, hblock, hlive]
  simp only [List.foldl_map]
  rfl

/-- STS is a scratch access that ends in a store. -/
theorem exec_sts {f : LM} (h : Reaches (.sts f) s x) :
    exec (.sts f) s = .next (finish x (scratchAccess x s false (szBytes (f.sub.toNat % 8))
      (scratchLanes x f (bit f.sub.toNat 3)) false true fun cells => scratchStore x s (cells.map fun c => (c.2.1,
        toBytes (szBytes (f.sub.toNat % 8)) (vreadN x.w f.vd.toNat c.1 ((szBytes (f.sub.toNat % 8) + 3) / 4)))))) := by
  rw [show exec (.sts f) s = execSts f s from rfl, execSts, issue_of h.1 h.2]

/-- SSTS is one too, of every issuing lane. -/
theorem exec_ssts {f : UB} (h : Reaches (.ssts f) s x) :
    exec (.ssts f) s = .next (finish x (scratchAccess x s true (szBytes f.sub.toNat)
      [(lowestLane x.b.lanes, scratchUniAddr x.w f)] false true fun cells => scratchStore x s (cells.map fun c => (c.2.1,
        toBytes (szBytes f.sub.toNat) (sreadN x.w f.sb.toNat ((szBytes f.sub.toNat + 3) / 4)))))) := by
  rw [show exec (.ssts f) s = execSsts f s from rfl, execSsts, issue_of h.1 h.2]

end Sys2Proof.Machine
end

section
/-! PROOF. Scratch stores complete, and where they trap. -/

namespace Sys2Proof.Machine

open Sys2Proof

theorem scratchTraps_sts (f : LM) : ScratchTraps (.sts f) := by
  refine scratchTraps_of_access (fun _ => rfl) fun s x a hx ha => ?_
  obtain rfl := Option.some_inj.mp ha
  exact ⟨_, exec_sts hx⟩

theorem scratchTraps_ssts (f : UB) : ScratchTraps (.ssts f) := by
  refine scratchTraps_of_access (fun _ => rfl) fun s x a hx ha => ?_
  obtain rfl := Option.some_inj.mp ha
  exact ⟨_, exec_ssts hx⟩

/-- Settles O26: the stores are scratch accesses, which trap by their checks; past these each writes its lanes' bytes at the warp's own
present lines. -/
theorem scratchStoresComplete : Obligations.ScratchStoresComplete := by
  unfold Obligations.ScratchStoresComplete
  refine ⟨scratchTraps_sts, scratchTraps_ssts, ?sts, ?ssts⟩
  case sts =>
    intro f s x bid b ⟨hissuer, hp, hpois⟩ n addrs cells data hclear
    have hexec := exec_sts ⟨hissuer, hp⟩
    rw [scratchAccess_clear hclear hpois] at hexec
    refine ⟨fun hnone => by rw [Does, hexec, if_pos hnone], fun hne => by rw [hexec, if_neg hne], fun hne hown => ?_⟩
    rw [if_neg hne] at hexec
    exact does_of_exec hexec (scratchStore_ownPresent (data := data) hne (fun _ => length_toBytes ..) hown)
  case ssts =>
    intro f s x bid b ⟨hissuer, hp, hpois⟩ n addrs cells bytes hclear
    have hne : cells ≠ [] := scratchCells_ne_nil hclear.1 (List.cons_ne_nil _ _)
    have hexec := exec_ssts ⟨hissuer, hp⟩
    rw [scratchAccess_clear hclear hpois, if_neg hne] at hexec
    exact ⟨hexec, fun hown => does_of_exec hexec
      (scratchStore_ownPresent (data := fun _ => bytes) hne (fun _ => length_toBytes ..) hown)⟩

end Sys2Proof.Machine
end

section
/-! SUPPORT. What a store to scratch leaves of its block (R156, R261): every byte outside the stored ones. -/

namespace Sys2Proof.Machine

open Sys2Proof

variable {i : Instr} {a : Access} {s : State} {x : Issue} {n bid o : Nat} {b : Block} {cells : List (Nat × Nat × Nat)}
  {data : Nat → List Byte}

/-- The stored bytes are all that a store changes of scratch. -/
theorem byteAt_putCells_outside (hlen : ∀ l, (data l).length = n) (hwf : memWf b.scratch)
    (ho : ∀ c ∈ cells, o < codeOff c.2.1 ∨ codeOff c.2.1 + n ≤ o) :
    byteAt (putCells cells data b).scratch o = byteAt b.scratch o := by
  induction cells generalizing b with
  | nil => rfl
  | cons c cs ih =>
    obtain ⟨hc, hcs⟩ := List.forall_mem_cons.mp ho
    have hput : byteAt (putScratch b (codeOff c.2.1) (data c.1)).scratch o = byteAt b.scratch o :=
      byteAt_setBytes_outside hwf _ _ (by rwa [hlen])
    have hwf' : memWf (putScratch b (codeOff c.2.1) (data c.1)).scratch := memWf_setBytes hwf _ _
    exact (ih hwf' hcs).trans hput

/-- A store to the warp's own present lines, STS or SSTS: some data of its size at each of its places. -/
theorem does_scratchStore (hi : (∃ f, i = .sts f) ∨ ∃ f, i = .ssts f) (hx : Issues i s x) (ha : scratchForm x i = some a)
    (hclear : ScratchClear x s a.size a.addrs false true) (hown : OwnPresent s x a.size (scratchCells x s a.size a.addrs) bid b) :
    ∃ data : Nat → List Byte, (∀ l, (data l).length = a.size) ∧
      Does i s x .advance (if scratchCells x s a.size a.addrs = [] then s
        else modBlock s bid (putCells (scratchCells x s a.size a.addrs) data)) := by
  obtain ⟨-, -, hsts, hssts⟩ := scratchStoresComplete
  obtain ⟨f, rfl⟩ | ⟨f, rfl⟩ := hi <;> obtain rfl := Option.some_inj.mp ha
  · refine ⟨fun l => toBytes (szBytes (f.sub.toNat % 8)) (vreadN x.w f.vd.toNat l ((szBytes (f.sub.toNat % 8) + 3) / 4)),
      fun _ => length_toBytes .., ?_⟩
    obtain ⟨hnone, -, hsome⟩ := hsts f s x bid b hx hclear
    split
    next h => exact hnone h
    next h => exact hsome h hown
  · refine ⟨fun _ => toBytes (szBytes f.sub.toNat) (sreadN x.w f.sb.toNat ((szBytes f.sub.toNat + 3) / 4)),
      fun _ => length_toBytes .., ?_⟩
    rw [if_neg (scratchCells_ne_nil hclear.1 (List.cons_ne_nil _ _))]
    exact (hssts f s x bid b hx hclear).2 hown

/-- The block of a rank is one of the machine's. -/
theorem tget_of_rankBlock {cluster rank : Nat} (h : rankBlock s cluster rank = some (bid, b)) : tget s.blocks bid = some b := by
  simp only [rankBlock, Option.bind_eq_some_iff, Option.map_eq_some_iff, Prod.mk.injEq] at h
  obtain ⟨_, _, _, _, _, hb, rfl, rfl⟩ := h
  exact hb

/-- What the end of an instruction leaves of the state of its own effect. -/
theorem leavesWarp_of_does {t u : State} {v : Verdict} {w : Warp} (hexec : exec i s = .next t) (hdoes : Does i s x v u) (hv : v.goesOn)
    (hw : tget u.warps x.wid = some w) : LeavesWarp u t x.wid w := by
  obtain rfl := Host.Outcome.next.inj (hexec.symm.trans hdoes)
  exact (LeavesWarp.refl hw).finish hv

end Sys2Proof.Machine
end

section
/-! PROOF. The frame of the scratch stores. -/

namespace Sys2Proof.Machine

open Sys2Proof

/-- Settles O27: the store's own effect is on the bytes of one block, and the end of the issue moves only the lanes' groups. -/
theorem scratchStoreFrame : Obligations.ScratchStoreFrame := by
  unfold Obligations.ScratchStoreFrame
  intro i a s t x bid b hi hx ha cells hclear hown hwf hexec
  have hb : tget s.blocks bid = some b := by
    obtain ⟨-, hplaced, -⟩ := hown
    exact tget_of_rankBlock (rankBlock_of_placedBlock hplaced)
  obtain ⟨data, hlen, hdoes⟩ := does_scratchStore hi hx ha hclear hown
  have hw := tget_of_issuerOf hx.1
  generalize hu : (if scratchCells x s a.size a.addrs = [] then s else modBlock s bid (putCells (scratchCells x s a.size a.addrs) data)) = u
    at hdoes
  have hstored : { u with blocks := s.blocks } = s ∧ tget u.blocks bid = some (putCells cells data b) ∧
      ∀ k, k ≠ bid → tget u.blocks k = tget s.blocks k := by
    split at hu
    next hnil =>
      subst hu
      exact ⟨rfl, by rw [show cells = [] from hnil]; exact hb, fun _ _ => rfl⟩
    next =>
      subst hu
      exact ⟨rfl, tget_tmod_same hb _, fun k hk => tget_tmod_other hk _⟩
  obtain ⟨hrest, hblock, hblocks⟩ := hstored
  have same {α : Type} (field : State → α) : field { u with blocks := s.blocks } = field s := congrArg field hrest
  have hw' : tget u.warps x.wid = some x.w := (congrArg (fun ws => tget ws x.wid) (same State.warps)).trans hw
  obtain ⟨⟨hmachine, -, -⟩, hwarps, w, hwarp, hquiet⟩ := leavesWarp_of_does hexec hdoes trivial hw'
  have kept {α : Type} (field : State → α) : field { t with warps := u.warps, cores := u.cores, focus := u.focus } = field u :=
    congrArg field hmachine
  have kept_block : t.blocks = u.blocks := kept State.blocks
  refine ⟨⟨_, kept_block ▸ hblock, fun o => byteAt_putCells_outside hlen hwf⟩, fun k hk => kept_block ▸ hblocks k hk,
    (kept State.mem).trans (same State.mem), (kept State.slices).trans (same State.slices), (kept State.net).trans (same State.net),
    fun k hk => (hwarps k hk).trans (congrArg (fun ws => tget ws k) (same State.warps)), w, hwarp, ?_⟩
  have own {α : Type} (field : Warp → α) : field (quietWarp w) = field (quietWarp x.w) := quietWarp_congr field hquiet
  exact ⟨own (·.vregs), own (·.sregs), own (·.preds), own (·.masks), own (·.nest), own (·.fstat), own (·.fctl), own (·.epc),
    own (·.ecause)⟩

end Sys2Proof.Machine
end

section
/-! SUPPORT. An atomic on the warp's own scratch whose lines are present (R166), and what a release drops (R221). -/

namespace Sys2Proof.Machine

open Sys2Proof

variable {s : State} {x : Issue} {n bid rank : Nat} {b : Block} {cells : List (Nat × Nat × Nat)} {op : AtomOp} {parts : List LanePart}

theorem exists_bays_foldl_modBay {f : Bay → Bay} (hf : ∀ y, (f y).splice = y.splice) (ks : List Nat) (s : State) :
    ∃ bays, ks.foldl (fun s k => modBay s k f) s = { s with bays := bays } ∧ bays.map (·.splice) = s.bays.map (·.splice) := by
  induction ks generalizing s with
  | nil => exact ⟨_, rfl, rfl⟩
  | cons k ks ih =>
    obtain ⟨bays, hbays, hsplice⟩ := ih (modBay s k f)
    exact ⟨bays, hbays, hsplice.trans (map_lmod_of_eq hf ..)⟩

/-- A release changes the descriptors of the bays, and nothing else of them that a home depends on, or of the machine. -/
theorem exists_bays_dropDescs (s : State) (wid : Nat) :
    ∃ bays, dropDescs s wid = { s with bays := bays } ∧ bays.map (·.splice) = s.bays.map (·.splice) := by
  unfold dropDescs
  split
  · exact ⟨_, rfl, rfl⟩
  · exact exists_bays_foldl_modBay (f := fun y => { y with descs := [] }) (fun _ => rfl) ..

theorem exists_bays_dropDescsOf (s : State) (wid : Nat) (op : AtomOp) :
    ∃ bays, dropDescsOf s wid op = { s with bays := bays } ∧ bays.map (·.splice) = s.bays.map (·.splice) := by
  unfold dropDescsOf
  split
  · exact exists_bays_dropDescs s wid
  · exact ⟨_, rfl, rfl⟩

theorem atomPart_lane (op : AtomOp) (b : Block) (p : LanePart) : (atomPart op b p).2.lane = p.lane := by
  simp only [atomPart]
  split
  · rfl
  · split <;> rfl

theorem atomParts_lanes (op : AtomOp) (ps : List LanePart) (b : Block) :
    (atomParts op ps b).2.map (·.lane) = ps.map (·.lane) := by
  induction ps generalizing b with
  | nil => rfl
  | cons p ps ih => simp [atomParts, atomPart_lane, ih]

/-- Parts replaced by those of the same lanes, each lane's by its own. -/
theorem map_find?_lane {ps qs : List LanePart} (hlanes : qs.map (·.lane) = ps.map (·.lane)) (hnodup : (ps.map (·.lane)).Nodup) :
    ps.map (fun p => (qs.find? (fun q => q.lane == p.lane)).getD p) = qs := by
  induction ps generalizing qs with
  | nil => exact (List.map_eq_nil_iff.mp hlanes).symm
  | cons p ps ih =>
    obtain ⟨q, qs, rfl, hq, hqs⟩ := List.map_eq_cons_iff.mp hlanes
    obtain ⟨hp, hnodup⟩ := List.nodup_cons.mp hnodup
    have hothers (p' : LanePart) (hp' : p' ∈ ps) : (q.lane == p'.lane) = false :=
      beq_false_of_ne fun h => hp (List.mem_map.mpr ⟨p', hp', h.symm.trans hq⟩)
    rw [List.map_cons, List.find?_cons_of_pos (by simp [hq]), Option.getD_some]
    exact congrArg (q :: ·) ((List.map_congr_left fun p' hp' => by simp [hothers p' hp']).trans (ih hqs hnodup))

/-- An atomic's parts in a rank are performed at its block, in the order of the lanes (R166). -/
theorem performRank_atomic {cluster : Nat} {l : PLoad} (hblock : rankBlock s cluster rank = some (bid, b)) (hatom : l.atom = some op)
    (hlanes : (l.parts.map (·.lane)).Nodup) (hrank : ∀ p ∈ l.parts, codeRank p.addr = rank) :
    performRank s cluster rank l =
      (modBlock s bid (fun _ => (atomParts op l.parts b).1), { l with parts := (atomParts op l.parts b).2 }) := by
  have hmine : l.parts.filter (fun p => codeRank p.addr = rank) = l.parts :=
    List.filter_eq_self.mpr fun p hp => decide_eq_true (hrank p hp)
  simp only [performRank, hblock, hatom, hmine, map_find?_lane (atomParts_lanes op l.parts b) hlanes]

/-- The lanes that a scratch access reaches are different ones. -/
theorem scratchCells_lanes_nodup {addrs : List (Nat × Nat)} (h : (addrs.map Prod.fst).Nodup) :
    ((scratchCells x s n addrs).map Prod.fst).Nodup := by
  refine h.sublist ?_
  induction addrs with
  | nil => exact List.Sublist.refl _
  | cons e es ih =>
    have ih := ih (List.nodup_cons.mp h).2
    cases hplace : scratchPlace x.record (rankOf s x.w) e.2 n with
    | none => simpa [scratchCells, hplace] using ih.cons e.1
    | some p => simpa [scratchCells, hplace] using ih.cons_cons e.1

theorem scratchLanes_nodup (x : Issue) (f : LM) (vo : Bool) : ((scratchLanes x f vo).map Prod.fst).Nodup := by
  simpa [scratchLanes, lanesOf, Function.comp_def] using List.nodup_range.filter _

/-- The state in which an atomic of scratch is performed: it counts in LD, and a later access waits where it may acquire (R167). -/
def atomicIssued (s : State) (x : Issue) (op : AtomOp) : State :=
  let s1 := modWarp { dropDescsOf s x.wid op with fresh := s.fresh + 1 } x.wid (fun w => { w with ld := w.ld + 1 })
  if mayAcquire op then modWarp s1 x.wid (fun w => { w with acqLoad := some s.fresh }) else s1

theorem rankBlock_atomicIssued (cluster : Nat) : rankBlock (atomicIssued s x op) cluster rank = rankBlock s cluster rank := by
  obtain ⟨bays, hdrop, -⟩ := exists_bays_dropDescsOf s x.wid op
  unfold atomicIssued
  rw [hdrop]
  split <;> rfl

/-- An atomic on the warp's own scratch whose lines are present returns at once (R166). -/
theorem scratchLoad_atomic_ownPresent {dst : LoadDst} {part : Nat × Nat × Nat → LanePart} (hld : x.w.ld < 63) (hne : cells ≠ [])
    (hlane : ∀ c, (part c).lane = c.1) (haddr : ∀ c, (part c).addr = c.2.1) (hlanes : (cells.map Prod.fst).Nodup)
    (h : OwnPresent s x n cells bid b) :
    scratchLoad x s (scratchPLoad x dst n false (some op) (cells.map part)) =
      (.advance, returnLoad (modBlock (atomicIssued s x op) bid (fun _ => (atomParts op (cells.map part) b).1))
        { scratchPLoad x dst n false (some op) (cells.map part) with
          id := s.fresh
          counts := true
          parts := (atomParts op (cells.map part) b).2 }) := by
  have hready := rankReady_ownPresent h
  have hranks := ownPresent_ranks hne h
  obtain ⟨hlocal, hplaced, hlive, hpresent, hheld⟩ := h
  have hspans : (cells.map part).map (fun p => (p.addr, n)) = cells.map (fun c => (c.2.1, n)) := by simp [haddr]
  have hcodes : (cells.map (fun c => (c.2.1, n))).map Prod.fst = cells.map (fun c => c.2.1) := List.map_map
  have hown : [rankOf s x.w].filter (isLocal s x.w) = [rankOf s x.w] := by simp [hlocal]
  have hpeers : [rankOf s x.w].filter (fun r => !isLocal s x.w r) = [] := by simp [hlocal]
  have hblock : rankBlock (atomicIssued s x op) (clusterIdOf s x.w) (rankOf s x.w) = some (bid, b) :=
    (rankBlock_atomicIssued _).trans (rankBlock_of_placedBlock hplaced)
  have hperform (l : PLoad) (hatom : l.atom = some op) (hparts : l.parts = cells.map part) :=
    performRank_atomic hblock hatom (by simpa [hparts, hlane, Function.comp_def] using hlanes)
      (by rw [hparts, List.forall_mem_map]; exact fun c hc => haddr c ▸ (hpresent c hc).1)
  have hroom : decide (63 ≤ x.w.ld) = false := decide_eq_false (by omega)
  obtain ⟨bays, hdrop, -⟩ := exists_bays_dropDescsOf s x.wid op
  simp only [atomicIssued, hdrop] at hperform ⊢
  simp only [scratchLoad, scratchPLoad, hspans, hcodes, hranks, hown, hpeers, List.all_cons, List.all_nil, hready, hheld,
    List.foldl_cons, List.foldl_nil, hroom, Option.map_some, Option.getD_some, hdrop, nextId, Option.any_some, Option.isSome_some]
  simp [hperform]

/-- The operation of ATOMS, with the order word of its scalar register (R164, R165). -/
def atomsOp (f : LM) (w : Warp) : AtomOp := atomOpOf f.sub.toNat (sread w (f.sbase.toNat + 1)).toNat

/-- The part of ATOMS in the lane of a cell, with its operands (R166). -/
def atomsPart (f : LM) (w : Warp) (c : Nat × Nat × Nat) : LanePart :=
  let d := atomOperands w f.vd.toNat c.1 f.sub.toNat
  ⟨c.1, c.2.1, c.2.2, none, false, d.1, d.2⟩

/-- ATOMS is a scratch access that ends in an atomic. -/
theorem exec_atoms {f : LM} (h : Reaches (.atoms f) s x) :
    exec (.atoms f) s = .next (finish x (scratchAccess x s false (atomBytes (atomsOp f x.w).ty) (scratchLanes x f true) true true
      fun cells => scratchLoad x s (scratchPLoad x (.vec f.vd.toNat) (atomBytes (atomsOp f x.w).ty) false (some (atomsOp f x.w))
        (cells.map (atomsPart f x.w))))) := by
  rw [show exec (.atoms f) s = execAtoms f s from rfl, execAtoms, issue_of h.1 h.2]
  rfl

/-- An instruction that counts in LD issues with room there (R75). -/
theorem ld_lt_of_prologue (hp : prologue s x = none) (ht : (traitsOf x.instr).ld = true) : x.w.ld < 63 := by
  obtain ⟨-, -, -, -, -, -, -, -, hstalls⟩ := prologue_eq_none_iff.mp hp
  simp only [stalls, ht, Bool.or_eq_false_iff, Bool.true_and, decide_eq_false_iff_not] at hstalls
  omega

end Sys2Proof.Machine
end

section
/-! PROOF. Scratch atomics complete, and where they trap. -/

namespace Sys2Proof.Machine

open Sys2Proof

theorem scratchTraps_atoms (f : LM) : ScratchTraps (.atoms f) := by
  refine scratchTraps_of_access (fun _ => rfl) fun s x a hx ha => ?_
  obtain rfl := Option.some_inj.mp ha
  exact ⟨_, exec_atoms hx⟩

/-- Settles O28: ATOMS is a scratch access; past its checks the lanes' operations are performed at the warp's own present lines, each
on what the lanes below it left. -/
theorem scratchAtomicsComplete : Obligations.ScratchAtomicsComplete := by
  unfold Obligations.ScratchAtomicsComplete
  refine ⟨scratchTraps_atoms, ?atoms, ?lane⟩
  case atoms =>
    intro f s x bid b ⟨hissuer, hp, hpois⟩ op n addrs cells parts hclear
    have hexec := (exec_atoms ⟨hissuer, hp⟩).trans (congrArg (fun r => Host.Outcome.next (finish x r)) (scratchAccess_clear hclear hpois))
    change exec (.atoms f) s = .next (finish x (if cells = [] then (.advance, s) else
      scratchLoad x s (scratchPLoad x (.vec f.vd.toNat) n false (some op) parts))) at hexec
    have hld : x.w.ld < 63 := ld_lt_of_prologue hp (by rw [issuerOf_instr hissuer]; rfl)
    refine ⟨fun hnone => by rw [Does, hexec, if_pos hnone], fun hne => by rw [hexec, if_neg hne], fun hne hown => ?_⟩
    rw [if_neg hne] at hexec
    exact does_of_exec hexec (scratchLoad_atomic_ownPresent hld hne (fun _ => rfl) (fun _ => rfl)
      (scratchCells_lanes_nodup (scratchLanes_nodup ..)) hown)
  case lane =>
    intro op b p hlive hclean old
    simp [atomPart, hlive, hclean, old]

end Sys2Proof.Machine
end

section
/-! SUPPORT. What the registers hold after a load has returned (R156). -/

namespace Sys2Proof.Machine

open Sys2Proof

variable {s : State} {w v : Warp} {wid l r vd : Nat}

theorem placeless_placeAsleep (w : Warp) (m : Mask) (pc : VAddr) (grant ready wake : Nat) :
    placeless (placeAsleep w m pc grant ready wake) = placeless w := by
  simp only [placeAsleep, addAsleep]
  split <;> rfl

theorem placeless_resumeParked (w : Warp) (p : Parked) (m : Mask) (ready : Nat) :
    placeless (resumeParked w p m ready) = placeless w := by
  unfold resumeParked
  split
  · rfl
  · split
    · rfl
    · exact placeless_placeAsleep ..

/-- Lanes that resume after their wait change nothing of their warp but where they stand (R237). -/
theorem placeless_releaseLanes (w : Warp) (c : Parked → Bool) (m : Mask) (ready : Nat) :
    placeless (releaseLanes w c m ready) = placeless w := by
  have hgo (ps : List Parked) (w : Warp) : placeless (releaseGo c m ready ps w) = placeless w := by
    induction ps generalizing w with
    | nil => rfl
    | cons p ps ih =>
      unfold releaseGo
      split
      · rw [ih, placeless_resumeParked]
        split <;> rfl
      · exact ih _
  exact hgo w.parked _

theorem placeless_vregs (h : placeless v = placeless w) : v.vregs = w.vregs := (congrArg Warp.vregs h :)

/-- A satisfied release changes no register. -/
theorem vregs_noteRelease (h : tget s.warps wid = some w) :
    ∃ v, tget (noteRelease s wid).warps wid = some v ∧ v.vregs = w.vregs := by
  unfold noteRelease
  rw [h]
  dsimp only
  split
  · exact ⟨w, h, rfl⟩
  · split
    · obtain ⟨bays, hdrop, -⟩ := exists_bays_dropDescs (modWarp s wid (fun w => { w with release := none })) wid
      rw [hdrop]
      exact ⟨_, tget_tmod_same h _, rfl⟩
    · exact ⟨w, h, rfl⟩

theorem vregs_acquire (w : Warp) (clock scope : Nat) (seam : Bool) : (acquire w clock scope seam).vregs = w.vregs := by
  unfold acquire
  split <;> rfl

/-- A warp whose load has returned: its results, LD, its acquire, and that no later access waits for it (R156, R167). -/
def loadReturned (s : State) (l : PLoad) (w : Warp) : Warp :=
  let w := l.parts.foldl (fun w p => returnLane w l s.clock (lowPois l) p) w
  let w := if l.counts then { w with ld := w.ld - 1 } else w
  let w := if loadAcquires l then acquire w s.clock ((l.atom.map (·.scope)).getD 0) (recSeam (recordOf s w)) else w
  if w.acqLoad = some l.id then { w with acqLoad := none } else w

theorem vregs_loadReturned (s : State) (l : PLoad) (w : Warp) :
    (loadReturned s l w).vregs = (l.parts.foldl (fun w p => returnLane w l s.clock (lowPois l) p) w).vregs := by
  unfold loadReturned
  generalize l.parts.foldl (fun w p => returnLane w l s.clock (lowPois l) p) w = q
  simp only [apply_ite Warp.vregs, vregs_acquire, ite_self]

/-- The registers of a warp whose load returns are those that its parts leave, in their order (R156). -/
theorem vregs_returnLoad {l : PLoad} (h : tget s.warps l.warp = some w) :
    ∃ v, tget (returnLoad s l).warps l.warp = some v ∧
      v.vregs = (l.parts.foldl (fun w p => returnLane w l s.clock (lowPois l) p) w).vregs := by
  have hreturned : tget (modWarp s l.warp (loadReturned s l)).warps l.warp = some (loadReturned s l w) := tget_tmod_same h _
  obtain ⟨v, hv, hvregs⟩ := vregs_noteRelease (s := unpark (modNet (modWarp s l.warp (loadReturned s l))
    fun n => { n with loads := terase n.loads l.id }) l.warp fun p => p.cond == .port l.id) (tget_tmod_same hreturned _)
  exact ⟨v, hv, hvregs.trans ((placeless_vregs (placeless_releaseLanes ..)).trans (vregs_loadReturned s l w))⟩

theorem vread_vwrite_same (h : tcanon 0 w.vregs = true) (a : Word) : vread (vwrite w r l a) r l = a :=
  tgetD_tputD_same h ..

/-- A result of several registers reads back as it was written, as far as they hold it. -/
theorem vreadN_vwriteN (h : tcanon 0 w.vregs = true) (hl : l < 64) (n a : Nat) :
    vreadN (vwriteN w r l n a) r l n = a % 2 ^ (32 * n) := by
  induction n generalizing w r a with
  | zero => simp [vreadN, Nat.mod_one]
  | succ n ih =>
    have hcanon : tcanon 0 (vwrite w r l (BitVec.ofNat 32 a)).vregs = true := tcanon_tputD h _ _
    have hlow := (vread_vwriteN_other (r := r + 1) hcanon hl n (a / 2 ^ 32)).2 r l hl (by omega)
    rw [vreadN, vwriteN, ih hcanon, hlow, vread_vwrite_same h, BitVec.toNat_ofNat, Nat.mul_succ, Nat.add_comm (32 * n), pow_add,
      Nat.mod_mul]

theorem vreadN_congr {n : Nat} (h : ∀ k, k < n → vread v (r + k) l = vread w (r + k) l) : vreadN v r l n = vreadN w r l n := by
  induction n generalizing r with
  | zero => rfl
  | succ n ih =>
    rw [vreadN, vreadN, ih fun k hk => ?_, show vread v r l = vread w r l from h 0 (by omega)]
    have := h (k + 1) (by omega)
    rwa [show r + (k + 1) = r + 1 + k by omega] at this

/-- A part that is not poisoned writes its value in its lane's registers (R156); a poisoned one writes none (R157). -/
theorem returnLane_vec {l : PLoad} {age low : Nat} {p : LanePart} (hdst : l.dst = .vec vd) (hfit : vd + loadRegs l ≤ l.top) :
    (returnLane w l age low p).vregs = if p.pois then w.vregs
      else (vwriteN w vd p.lane (loadRegs l) (loadValue l.signed (p.value.getD []))).vregs := by
  simp only [returnLane, hdst, show min (loadRegs l) (l.top - vd) = loadRegs l by omega]
  split <;> rfl

theorem vread_of_vregs (h : v.vregs = w.vregs) (r l : Nat) : vread v r l = vread w r l := congrArg (tgetD · (r * 64 + l) 0) h

/-- One part leaves the registers canonical and those of the other lanes alone. -/
theorem vread_returnLane_other {pl : PLoad} {age low : Nat} {p : LanePart} (hdst : pl.dst = .vec vd) (hfit : vd + loadRegs pl ≤ pl.top)
    (hcanon : tcanon 0 w.vregs = true) (hlane : p.lane < 64) : tcanon 0 (returnLane w pl age low p).vregs = true ∧
      ∀ r k, k < 64 → k ≠ p.lane → vread (returnLane w pl age low p) r k = vread w r k := by
  have hwrite := vread_vwriteN_other (r := vd) hcanon hlane (loadRegs pl) (loadValue pl.signed (p.value.getD []))
  have hregs := returnLane_vec (w := w) (age := age) (low := low) (p := p) hdst hfit
  split at hregs
  · exact ⟨hregs ▸ hcanon, fun r k _ _ => vread_of_vregs hregs r k⟩
  · exact ⟨hregs ▸ hwrite.1, fun r k hk hne => (vread_of_vregs hregs r k).trans (hwrite.2 r k hk (.inl hne))⟩

/-- The parts of a load, in different lanes: each lane that is not poisoned takes its value, and the others stand. -/
theorem vread_foldl_returnLane {pl : PLoad} {age low : Nat} {ps : List LanePart} (hdst : pl.dst = .vec vd)
    (hfit : vd + loadRegs pl ≤ pl.top) (hcanon : tcanon 0 w.vregs = true) (hlanes : ∀ p ∈ ps, p.lane < 64)
    (hnodup : (ps.map (·.lane)).Nodup) :
    (∀ p ∈ ps, p.pois = false → vreadN (ps.foldl (fun w p => returnLane w pl age low p) w) vd p.lane (loadRegs pl) =
      loadValue pl.signed (p.value.getD []) % 2 ^ (32 * loadRegs pl)) ∧
    (∀ r k, k < 64 → (∀ p ∈ ps, p.lane ≠ k) → vread (ps.foldl (fun w p => returnLane w pl age low p) w) r k = vread w r k) := by
  induction ps generalizing w with
  | nil => exact ⟨fun _ h => absurd h List.not_mem_nil, fun _ _ _ _ => rfl⟩
  | cons p ps ih =>
    obtain ⟨hp, hps⟩ := List.forall_mem_cons.mp hlanes
    obtain ⟨hnew, hnodup⟩ := List.nodup_cons.mp hnodup
    obtain ⟨hcanon', hother⟩ := vread_returnLane_other (age := age) (low := low) hdst hfit hcanon hp
    obtain ⟨hvalues, hrest⟩ := ih hcanon' hps hnodup
    refine ⟨List.forall_mem_cons.mpr ⟨fun hpois => ?_, hvalues⟩, fun r k hk hne => ?_⟩
    · have hkept (q : LanePart) (hq : q ∈ ps) : q.lane ≠ p.lane := fun h => hnew (List.mem_map.mpr ⟨q, hq, h⟩)
      have hregs := returnLane_vec (w := w) (age := age) (low := low) (p := p) hdst hfit
      rw [if_neg (by simp [hpois])] at hregs
      rw [List.foldl_cons, vreadN_congr fun k _ => (hrest (vd + k) p.lane hp hkept).trans (vread_of_vregs hregs ..),
        vreadN_vwriteN hcanon hp]
    · obtain ⟨hne, hnes⟩ := List.forall_mem_cons.mp hne
      exact (hrest r k hk hnes).trans (hother r k hk hne.symm)

theorem ofBytes_lt (bs : List Byte) : ofBytes bs < 256 ^ bs.length := by
  induction bs with
  | nil => exact Nat.one_pos
  | cons b bs ih =>
    have hb : b.toNat < 256 := b.isLt
    rw [ofBytes, List.length_cons, pow_succ]
    omega

theorem length_bytesAt (t : List Host.Cell) (a n : Nat) : (bytesAt t a n).length = n := by
  induction n generalizing a with
  | zero => rfl
  | succ n ih => exact congrArg (· + 1) (ih _)

theorem lane_lt_of_mem_scratchLanes {x : Issue} {f : LM} {vo : Bool} {e : Nat × Nat} (h : e ∈ scratchLanes x f vo) : e.1 < 64 := by
  obtain ⟨l, hl, rfl⟩ := List.mem_map.mp h
  exact List.mem_range.mp (List.mem_of_mem_filter hl)

/-- What a lane of a scratch access reaches has the lane and the address of one of the access's addresses. -/
theorem mem_of_mem_scratchCells {x : Issue} {n : Nat} {addrs : List (Nat × Nat)} {c : Nat × Nat × Nat}
    (h : c ∈ scratchCells x s n addrs) : (c.1, c.2.2) ∈ addrs := by
  obtain ⟨e, he, hplace⟩ := List.mem_filterMap.mp h
  obtain ⟨_, _, rfl⟩ := Option.map_eq_some_iff.mp hplace
  exact he

/-- The value of a load fits the registers of its size (R152, R156). -/
theorem loadValue_lt (signed : Bool) {bs : List Byte} {n : Nat} (hlen : bs.length = n) :
    loadValue signed bs < 2 ^ (32 * max 1 ((n + 3) / 4)) := by
  simp only [loadValue]
  split
  · have hword : wrap 32 (toSigned (8 * bs.length) (ofBytes bs)) < 2 ^ 32 := by
      have := Int.emod_lt_of_pos (toSigned (8 * bs.length) (ofBytes bs)) (b := 2 ^ 32) (by decide)
      unfold wrap
      omega
    exact hword.trans_le (Nat.pow_le_pow_right (by decide) (by omega))
  · calc ofBytes bs < 256 ^ n := hlen ▸ ofBytes_lt bs
      _ = 2 ^ (8 * n) := by rw [show 256 = 2 ^ 8 from rfl, ← pow_mul]
      _ ≤ _ := Nat.pow_le_pow_right (by decide) (by omega)

/-- The registers that LDS writes are those of its size (R152, R158). -/
theorem szRegs_eq {sz : Nat} (h : sz < 7) : szRegs sz = max 1 ((szBytes sz + 3) / 4) := by
  interval_cases sz <;> rfl

/-- An instruction issues with its vector registers inside the window (R24). -/
theorem vdst_le_win {x : Issue} (hp : prologue s x = none) {d : Nat × Nat} (hd : d ∈ (usesOf x.w x.instr).vdst) :
    d.1 + d.2 ≤ x.w.win := by
  obtain ⟨-, -, -, -, -, -, -, hwin, -⟩ := prologue_eq_none_iff.mp hp
  exact hwin d (List.mem_append_left _ hd)

end Sys2Proof.Machine
end

section
/-! PROOF. What LDS leaves in the registers. -/

namespace Sys2Proof.Machine

open Sys2Proof

/-- Settles O25: the load of the own present lines returns at once with a part in each active lane, and the end of the issue writes no
register. -/
theorem scratchLoadValues : Obligations.ScratchLoadValues := by
  unfold Obligations.ScratchLoadValues
  intro f s t x bid b hx n k addrs cells hclear hne hown hcanon hexec
  obtain ⟨hissuer, hp, -⟩ := id hx
  have hinstr := issuerOf_instr hissuer
  obtain ⟨-, -, hlds, -⟩ := scratchLoadsComplete
  have hdoes := (hlds f s x bid b hx hclear).2.2 hne hown
  generalize hl : ({ scratchPLoad x _ _ _ _ _ with id := _, counts := _, parts := _ } : PLoad) = l at hdoes
  have hwarp : l.warp = x.wid := hl ▸ rfl
  have hdst : l.dst = .vec f.vd.toNat := hl ▸ rfl
  have hregs : loadRegs l = k := hl ▸ rfl
  have hfit : f.vd.toNat + loadRegs l ≤ l.top := by
    have hwin := vdst_le_win hp (d := (f.vd.toNat, szRegs (f.sub.toNat % 8))) (by rw [hinstr]; exact List.mem_singleton_self _)
    have hsz : f.sub.toNat % 8 < 7 := by
      have hwf : lmOk false false false f = true := by
        have hwf := (prologue_eq_none_iff.mp hp).1
        rwa [hinstr] at hwf
      simp only [lmOk, Bool.and_eq_true, bne_iff_ne] at hwf
      omega
    rw [szRegs_eq hsz] at hwin
    have htop : l.top = x.w.win := hl ▸ rfl
    omega
  have hlanes : (l.parts.map (·.lane)) = cells.map Prod.fst := by
    subst hl
    exact List.map_map
  have hread := vread_foldl_returnLane (ps := l.parts) (w := x.w) (age := s.clock) (low := lowPois l) hdst hfit hcanon.1 ?_
    (hlanes ▸ scratchCells_lanes_nodup (scratchLanes_nodup ..))
  · obtain ⟨hvalues, hothers⟩ := hread
    obtain ⟨v, hv, hvregs⟩ := vregs_returnLoad (s := { s with fresh := s.fresh + 1 }) (l := l) (hwarp ▸ tget_of_issuerOf hissuer)
    obtain ⟨-, -, w, hw, hquiet⟩ := leavesWarp_of_does hexec hdoes trivial (hwarp ▸ hv)
    have hwregs : w.vregs = _ := (quietWarp_congr (·.vregs) hquiet : w.vregs = v.vregs).trans hvregs
    refine ⟨w, hw, fun c hc hpois => ?_, fun lane r hlt hne => ?_⟩
    · have hpart := hvalues ⟨c.1, c.2.1, c.2.2, some (bytesAt b.scratch (codeOff c.2.1) n), linesPoisoned b (codeOff c.2.1) n, [], []⟩
        (by subst hl; exact List.mem_map_of_mem hc) hpois
      rw [hregs] at hpart
      have hsigned : l.signed = szSigned (f.sub.toNat % 8) := hl ▸ rfl
      rw [vreadN_congr fun j _ => vread_of_vregs hwregs .., hpart, hsigned]
      exact Nat.mod_eq_of_lt (loadValue_lt _ (length_bytesAt ..))
    · have hlane : ∀ p ∈ l.parts, p.lane ≠ lane := by
        rw [← List.forall_mem_map (P := (· ≠ lane)), hlanes, List.forall_mem_map]
        exact hne
      exact (vread_of_vregs hwregs ..).trans (hothers r lane hlt hlane)
  · rw [← List.forall_mem_map (P := (· < 64)), hlanes, List.forall_mem_map]
    intro c hc
    exact lane_lt_of_mem_scratchLanes (mem_of_mem_scratchCells hc)

end Sys2Proof.Machine
end

section
/-! SUPPORT. A global access behind its checks (R43, R153, R154, R170), by case. -/

namespace Sys2Proof.Machine

open Sys2Proof

variable {i : Instr} {s : State} {x : Issue} {uni rd wr : Bool} {size code : Nat} {addrs : List (Nat × Nat)}
  {go : State → List (Nat × Nat × Nat) → Verdict × State}

/-- The lanes that a fault of an access names, whether they are tried again or not: every issuing one for a uniform access (R158). -/
theorem named_fault (a : Access) (x : Issue) (ls : List Nat) (code eaddr etval : Nat) (again : Bool) :
    (if a.uni then uniformLanes x ⟨code, maskOf ls, eaddr, etval, again, false⟩
      else ⟨code, maskOf ls, eaddr, etval, again, false⟩) =
      (⟨code, a.named x ls, eaddr, etval, again, false⟩ : Trap) := by
  unfold Access.named uniformLanes
  split <;> rfl

/-- A global access of a lane whose address is not aligned. -/
theorem globalAccess_misaligned {e : Nat × Nat} {es : List (Nat × Nat)} (h : addrs.filter (fun e => e.2 % size != 0) = e :: es) :
    globalAccess x s uni size addrs rd wr go =
      (.trap (if uni then uniformLanes x ⟨cALIGN, maskOf ((addrs.filter (fun e => e.2 % size != 0)).map Prod.fst), e.2, size, false, false⟩
        else ⟨cALIGN, maskOf ((addrs.filter (fun e => e.2 % size != 0)).map Prod.fst), e.2, size, false, false⟩), s) := by
  simp only [globalAccess, h]

theorem misaligned_eq_nil (h : ∀ e ∈ addrs, e.2 % size = 0) : addrs.filter (fun e => e.2 % size != 0) = [] :=
  List.filter_eq_nil_iff.mpr fun e he => by simp [h e he]

/-- A global access of aligned addresses: PAGE and PERM, TOKEN of a write, POIS, and what it does past them (R43). -/
theorem globalAccess_aligned (h : addrs.filter (fun e => e.2 % size != 0) = []) :
    globalAccess x s uni size addrs rd wr go =
      match pageFault s x addrs rd wr with
      | some t => (.trap (if uni then uniformLanes x t else t), cached x s addrs)
      | none => match (if wr then tokenFault s x size (globalCells x s addrs rd wr) else none) with
        | some t => (.trap (if uni then uniformLanes x t else t), cached x s addrs)
        | none => match poisOf x (cached x s addrs) with
          | some r => r
          | none => if (globalCells x s addrs rd wr).isEmpty then (.advance, cached x s addrs)
              else go (cached x s addrs) (globalCells x s addrs rd wr) := by
  unfold globalAccess
  rw [h]
  rfl

/-- A global access that a failing translation stands before. -/
theorem globalAccess_pageFault {t : Trap} (haligned : addrs.filter (fun e => e.2 % size != 0) = [])
    (h : pageFault s x addrs rd wr = some t) :
    globalAccess x s uni size addrs rd wr go = (.trap (if uni then uniformLanes x t else t), cached x s addrs) := by
  simp only [globalAccess_aligned haligned, h]

/-- A global write that a missing token stands before. -/
theorem globalAccess_tokenFault {t : Trap} (haligned : addrs.filter (fun e => e.2 % size != 0) = [])
    (hpage : pageFault s x addrs rd wr = none) (hwr : wr = true)
    (h : tokenFault s x size (globalCells x s addrs rd wr) = some t) :
    globalAccess x s uni size addrs rd wr go = (.trap (if uni then uniformLanes x t else t), cached x s addrs) := by
  subst hwr
  simp only [globalAccess_aligned haligned, hpage, if_true, h]

/-- A global access that a marked source stands before, which has passed its other checks. -/
theorem globalAccess_pois {r : Verdict × State} (h : GlobalClear x s size addrs rd wr) (hpois : poisOf x (cached x s addrs) = some r) :
    globalAccess x s uni size addrs rd wr go = r := by
  obtain ⟨haligned, hpage, htoken⟩ := h
  have hclear := ite_eq_right_iff.mpr htoken
  simp only [globalAccess_aligned (misaligned_eq_nil haligned), hpage, hclear, hpois]

/-- A global access that passes its checks; without an active lane it goes on. -/
theorem globalAccess_clear (h : GlobalClear x s size addrs rd wr) (hpois : poisOf x s = none) :
    globalAccess x s uni size addrs rd wr go =
      if globalCells x s addrs rd wr = [] then (.advance, cached x s addrs)
      else go (cached x s addrs) (globalCells x s addrs rd wr) := by
  obtain ⟨haligned, hpage, htoken⟩ := h
  have hclear := ite_eq_right_iff.mpr htoken
  simp only [globalAccess_aligned (misaligned_eq_nil haligned), hpage, hclear, poisOf_none_of hpois (cached x s addrs), List.isEmpty_iff]

/-- The lanes of an access whose translation fails: lane, address, cause and ETVAL. -/
def walkErrors (x : Issue) (s : State) (a : Access) : List (Nat × Nat × Nat × Nat) :=
  a.addrs.filterMap fun e => match xlate s x.w.core x.ctx e.2 a.rd a.wr false with
    | .error c => some (e.1, e.2, c)
    | .ok _ => none

theorem filter_walkErrors (a : Access) (code : Nat) :
    (walkErrors x s a).filter (fun e => e.2.2.1 == code) = (walkFaults x s a code).map (fun e => (e.1, e.2.1, code, e.2.2)) := by
  unfold walkErrors walkFaults
  induction a.addrs with
  | nil => rfl
  | cons e es ih =>
    rw [List.filterMap_cons, List.filterMap_cons]
    cases xlate s x.w.core x.ctx e.2 a.rd a.wr false with
    | ok r => exact ih
    | error c =>
      by_cases hc : c.1 = code
      · subst hc
        simpa using ih
      · simpa [hc] using ih

/-- The trap of an access some of whose translations fail: PAGE before PERM (R43). -/
def walkTrap (page perm : List (Nat × Nat × Nat × Nat)) : Option Trap :=
  match page, perm with
  | e :: es, _ => some ⟨cPAGE, maskOf ((e :: es).map Prod.fst), e.2.1, e.2.2.2, true, false⟩
  | [], e :: es => some ⟨cPERM, maskOf ((e :: es).map Prod.fst), e.2.1, e.2.2.2, false, false⟩
  | [], [] => none

theorem pageFault_eq_walkTrap (a : Access) : pageFault s x a.addrs a.rd a.wr =
    walkTrap ((walkFaults x s a cPAGE).map (fun e => (e.1, e.2.1, cPAGE, e.2.2)))
      ((walkFaults x s a cPERM).map (fun e => (e.1, e.2.1, cPERM, e.2.2))) := by
  rw [← filter_walkErrors, ← filter_walkErrors]
  rfl

/-- PAGE names the lanes without a leaf, and has them tried again (R154). -/
theorem pageFault_of_page {a : Access} {e : Nat × Nat × Nat} {es : List (Nat × Nat × Nat)} (h : walkFaults x s a cPAGE = e :: es) :
    pageFault s x a.addrs a.rd a.wr = some ⟨cPAGE, maskOf ((walkFaults x s a cPAGE).map Prod.fst), e.2.1, e.2.2, true, false⟩ := by
  simp [pageFault_eq_walkTrap, h, walkTrap, Function.comp_def]

/-- PERM names the lanes whose leaf does not permit the access (R154). -/
theorem pageFault_of_perm {a : Access} {e : Nat × Nat × Nat} {es : List (Nat × Nat × Nat)} (hpage : walkFaults x s a cPAGE = [])
    (h : walkFaults x s a cPERM = e :: es) :
    pageFault s x a.addrs a.rd a.wr = some ⟨cPERM, maskOf ((walkFaults x s a cPERM).map Prod.fst), e.2.1, e.2.2, false, false⟩ := by
  simp [pageFault_eq_walkTrap, hpage, h, walkTrap, Function.comp_def]

theorem pageFault_eq_none {a : Access} (hpage : walkFaults x s a cPAGE = []) (hperm : walkFaults x s a cPERM = []) :
    pageFault s x a.addrs a.rd a.wr = none := by
  rw [pageFault_eq_walkTrap, hpage, hperm]
  rfl

/-- The lanes of a write whose cluster lacks a token, with the record of each (R170). -/
def bareCells (x : Issue) (s : State) (size : Nat) (cells : List (Nat × Nat × Nat)) : List ((Nat × Nat × Nat) × Nat) :=
  cells.filterMap fun c => (tokenMissing s (clusterIdOf s x.w) c.2.1 size).map fun k => (c, k)

theorem tokenFault_eq_some {cells : List (Nat × Nat × Nat)} {e : (Nat × Nat × Nat) × Nat} {es : List ((Nat × Nat × Nat) × Nat)}
    (h : bareCells x s size cells = e :: es) :
    tokenFault s x size cells =
      some ⟨cTOKEN, maskOf ((bareCells x s size cells).map (fun e => e.1.1)), e.1.2.2, e.2 % 2 ^ 32, false, false⟩ := by
  unfold bareCells at h ⊢
  simp only [tokenFault, h]

/-- An instruction that is a global access, and whose sources are looked at, traps where the rules say. -/
theorem globalTraps_of_access (htests : ∀ w, (usesOf w i).tests = true)
    (hexec : ∀ s x a, Reaches i s x → globalForm x i = some a →
      ∃ go, exec i s = .next (finish x (globalAccess x s a.uni a.size a.addrs a.rd a.wr go))) : GlobalTraps i := by
  intro s x a hx ha s1 mis page perm bare
  obtain ⟨go, hgo⟩ := hexec s x a hx ha
  have traps {u : State} {ls : List Nat} {code eaddr etval : Nat} {again : Bool}
      (h : globalAccess x s a.uni a.size a.addrs a.rd a.wr go =
        (.trap (if a.uni then uniformLanes x ⟨code, maskOf ls, eaddr, etval, again, false⟩
          else ⟨code, maskOf ls, eaddr, etval, again, false⟩), u)) :
      Does i s x (.trap ⟨code, a.named x ls, eaddr, etval, again, false⟩) u := by
    rw [Does, hgo, h, named_fault]
  refine ⟨fun e es hmis => ?align, fun e es hmis hpage => ?page, fun e es hmis hpage hperm => ?perm,
    fun e es hmis hpage hperm hwr hbare => ?token, fun hclear t ht => ?pois⟩
  case align => exact traps (globalAccess_misaligned hmis)
  case page => exact traps (globalAccess_pageFault hmis (pageFault_of_page hpage))
  case perm => exact traps (globalAccess_pageFault hmis (pageFault_of_perm hpage hperm))
  case token => exact traps (globalAccess_tokenFault hmis (pageFault_eq_none hpage hperm) hwr (tokenFault_eq_some hbare))
  case pois =>
    have hpois := poisOf_of_poisTrap (s := s1) (by rw [issuerOf_instr hx.1]) (htests x.w) ht
    rw [Does, hgo, globalAccess_pois hclear hpois]

/-- A translation fails as its walk does: the steering of a request fails none. -/
theorem xlatePa_of_xlate_error {core ctx va : Nat} {ex : Bool} {c : Nat × Nat} (h : xlate s core ctx va rd wr ex = .error c) :
    xlatePa s core ctx va rd wr ex = .error c := by
  unfold xlate at h
  cases hpa : xlatePa s core ctx va rd wr ex with
  | ok r => rw [hpa] at h; cases h
  | error d => rw [hpa] at h; cases h; rfl

/-- A translation fails for want of a leaf, or of a permission of the leaf (R154). -/
theorem xlate_error {core ctx va : Nat} {ex : Bool} {c : Nat × Nat} (h : xlate s core ctx va rd wr ex = .error c) :
    c.1 = cPAGE ∨ c.1 = cPERM := by
  have herr := xlatePa_of_xlate_error h
  unfold xlatePa at herr
  split at herr
  · cases herr; exact .inl rfl
  · split at herr
    · cases herr; exact .inr rfl
    · split at herr
      · cases herr; exact .inr rfl
      · split at herr
        · cases herr; exact .inr rfl
        · cases herr

theorem mem_walkFaults {a : Access} {e : Nat × Nat} {c : Nat × Nat} (he : e ∈ a.addrs)
    (h : xlate s x.w.core x.ctx e.2 a.rd a.wr false = .error c) : (e.1, e.2, c.2) ∈ walkFaults x s a c.1 :=
  List.mem_filterMap.mpr ⟨e, he, by simp [h]⟩

theorem walkTrap_eq_none {page perm : List (Nat × Nat × Nat × Nat)} (h : walkTrap page perm = none) : page = [] ∧ perm = [] := by
  unfold walkTrap at h
  split at h
  · cases h
  · cases h
  · exact ⟨rfl, rfl⟩

/-- Past PAGE and PERM every address has its translation (R154). -/
theorem xlate_ok_of_pageFault (h : pageFault s x addrs rd wr = none) {e : Nat × Nat} (he : e ∈ addrs) :
    ∃ r, xlate s x.w.core x.ctx e.2 rd wr false = .ok r := by
  obtain ⟨hpage, hperm⟩ := walkTrap_eq_none ((pageFault_eq_walkTrap ⟨1, addrs, rd, wr, false⟩).symm.trans h)
  cases hx : xlate s x.w.core x.ctx e.2 rd wr false with
  | ok r => exact ⟨r, rfl⟩
  | error c =>
    have hmem := mem_walkFaults (a := ⟨1, addrs, rd, wr, false⟩) he hx
    obtain hc | hc := xlate_error hx
    · rw [hc, List.map_eq_nil_iff.mp hpage] at hmem
      cases hmem
    · rw [hc, List.map_eq_nil_iff.mp hperm] at hmem
      cases hmem

/-- Where an access translates, it reaches the place of some lane. -/
theorem globalCells_ne_nil (h : pageFault s x addrs rd wr = none) (hne : addrs ≠ []) : globalCells x s addrs rd wr ≠ [] := by
  obtain ⟨e, es, rfl⟩ := List.exists_cons_of_ne_nil hne
  obtain ⟨r, hr⟩ := xlate_ok_of_pageFault h List.mem_cons_self
  simp [globalCells, hr]

/-- What an instruction that is a global access does past its checks. -/
theorem does_of_globalAccess (hexec : exec i s = .next (finish x (globalAccess x s uni size addrs rd wr go)))
    (hclear : GlobalClear x s size addrs rd wr) (hpois : poisOf x s = none) :
    (globalCells x s addrs rd wr = [] → Does i s x .advance (cached x s addrs)) ∧
      (globalCells x s addrs rd wr ≠ [] → ∀ v t, go (cached x s addrs) (globalCells x s addrs rd wr) = (v, t) → Does i s x v t) := by
  rw [globalAccess_clear hclear hpois] at hexec
  exact ⟨fun h => by rw [Does, hexec, if_pos h], fun h v t hgo => by rw [Does, hexec, if_neg h, hgo]⟩

end Sys2Proof.Machine
end

section
/-! SUPPORT. The global loads, stores and atomics as global accesses (R156 to R169), and what each starts. -/

namespace Sys2Proof.Machine

open Sys2Proof

variable {s : State} {x : Issue}

theorem exec_ldg {f : LM} (h : Reaches (.ldg f) s x) :
    exec (.ldg f) s = .next (finish x (globalAccess x s false (szBytes (f.sub.toNat % 8)) (globalLanes x f (bit f.sub.toNat 3)) true false
      fun s cells => (.advance, startLoad x s (.vec f.vd.toNat) (szBytes (f.sub.toNat % 8)) (szSigned (f.sub.toNat % 8))
        (spanOf (f.sub.toNat / 16)) (unreadParts cells)))) := by
  rw [show exec (.ldg f) s = execLdg f s from rfl, execLdg, issue_of h.1 h.2]
  rfl

theorem exec_sldg {f : UB} (h : Reaches (.sldg f) s x) :
    exec (.sldg f) s = .next (finish x (globalAccess x s true (szBytes f.sub.toNat) [(lowestLane x.b.lanes, globalUniAddr x.w f)] true false
      fun s cells => (.advance, startLoad x s (.scal f.sd.toNat) (szBytes f.sub.toNat) (szSigned f.sub.toNat) 0 (unreadParts cells)))) := by
  rw [show exec (.sldg f) s = execSldg f s from rfl, execSldg, issue_of h.1 h.2]
  rfl

/-- The pieces of a store, the data of each lane at its address. -/
def storePieces (data : Nat → List Byte) (cells : List (Nat × Nat × Nat)) : List Piece := cells.map fun c => ⟨c.2.1, data c.1⟩

/-- The data of a lane store (R156) and of a uniform one (R158). -/
def laneData (f : LM) (w : Warp) (l : Nat) : List Byte :=
  toBytes (szBytes (f.sub.toNat % 8)) (vreadN w f.vd.toNat l ((szBytes (f.sub.toNat % 8) + 3) / 4))

def uniData (f : UB) (w : Warp) : List Byte := toBytes (szBytes f.sub.toNat) (sreadN w f.sb.toNat ((szBytes f.sub.toNat + 3) / 4))

theorem exec_stg {f : LM} (h : Reaches (.stg f) s x) :
    exec (.stg f) s = .next (finish x (globalAccess x s false (szBytes (f.sub.toNat % 8)) (globalLanes x f (bit f.sub.toNat 3)) false true
      fun s cells => startStore x s .store (storePieces (laneData f x.w) cells))) := by
  rw [show exec (.stg f) s = execStg f s from rfl, execStg, issue_of h.1 h.2]
  rfl

theorem exec_sstg {f : UB} (h : Reaches (.sstg f) s x) :
    exec (.sstg f) s = .next (finish x (globalAccess x s true (szBytes f.sub.toNat) [(lowestLane x.b.lanes, globalUniAddr x.w f)] false true
      fun s cells => startStore x s .store (storePieces (fun _ => uniData f x.w) cells))) := by
  rw [show exec (.sstg f) s = execSstg f s from rfl, execSstg, issue_of h.1 h.2]
  rfl

/-- A store of no window is issued: its group, its packets on their way, ST (R159). -/
def startNt (x : Issue) (s : State) (ps : List Piece) : State :=
  let s1 := modNet { s with fresh := s.fresh + 1 } fun t => { t with
    groups := tput t.groups s.fresh ⟨s.fresh, x.wid, ⟨false, false, false, false⟩, 0, (packetsOf ps).length, true, true⟩ }
  modWarp ((packetsOf ps).foldl (addNt x s.fresh) s1) x.wid fun w => { w with st := w.st + 1 }

theorem exec_stnt {f : LM} (h : Reaches (.stnt f) s x) :
    exec (.stnt f) s = .next (finish x (globalAccess x s false (szBytes (f.sub.toNat % 8)) (globalLanes x f (bit f.sub.toNat 3)) false true
      fun s cells => (.advance, startNt x s (storePieces (laneData f x.w) cells)))) := by
  rw [show exec (.stnt f) s = execStnt f s from rfl, execStnt, issue_of h.1 h.2]
  rfl

/-- The operation of ATOMG and REDG, with the order word of its scalar registers (R164, R165). -/
def atomgOp (f : LM) (w : Warp) : AtomOp := atomOpOf f.sub.toNat (sread w (f.sbase.toNat + 2)).toNat

theorem exec_atomg {f : LM} (h : Reaches (.atomg f) s x) :
    exec (.atomg f) s = .next (finish x (globalAccess x s false (atomBytes (atomgOp f x.w).ty) (globalLanes x f true) true true
      fun s cells => (.advance, startAtomic x s (.vec f.vd.toNat) (atomgOp f x.w) (cells.map (atomsPart f x.w))))) := by
  rw [show exec (.atomg f) s = execAtomg f s from rfl, execAtomg, issue_of h.1 h.2]
  rfl

/-- The operation of SATOMG, and its part in the lane of a cell (R169). -/
def satomgOp (f : UB) : AtomOp := atomOpOf (8 * f.sub.toNat + bits f.imm.toNat 8 3) (f.imm.toNat % 256)

def satomgPart (f : UB) (w : Warp) (c : Nat × Nat × Nat) : LanePart :=
  let n := atomRegs (bits f.imm.toNat 8 3)
  ⟨c.1, c.2.1, c.2.2, none, false, toBytes (4 * n) (sreadN w f.sb.toNat n),
    if f.sub.toNat = 7 then toBytes (4 * n) (sreadN w f.sc.toNat n) else []⟩

theorem exec_satomg {f : UB} (h : Reaches (.satomg f) s x) :
    exec (.satomg f) s = .next (finish x (globalAccess x s true (atomBytes (bits f.imm.toNat 8 3))
      [(lowestLane x.b.lanes, spair x.w f.sa.toNat)] true true
      fun s cells => (.advance, startAtomic x s (.scal f.sd.toNat) (satomgOp f) (cells.map (satomgPart f x.w))))) := by
  rw [show exec (.satomg f) s = execSatomg f s from rfl, execSatomg, issue_of h.1 h.2]
  rfl

/-- REDG is a store whose release drops the descriptor cache entries of its cluster (R165, R168, R221). -/
def startRedg (x : Issue) (s : State) (op : AtomOp) (ps : List Piece) : Verdict × State :=
  let r := startStore x s (.redg op) ps
  if r.1 = .advance then (r.1, dropDescsOf r.2 x.wid op) else r

theorem exec_redg {f : LM} (h : Reaches (.redg f) s x) :
    exec (.redg f) s = .next (finish x (globalAccess x s false (atomBytes (atomgOp f x.w).ty) (globalLanes x f true) true true
      fun s cells => startRedg x s (atomgOp f x.w) (storePieces (fun l => (atomOperands x.w f.vd.toNat l f.sub.toNat).1) cells))) := by
  rw [show exec (.redg f) s = execRedg f s from rfl, execRedg, issue_of h.1 h.2]
  rfl

theorem exists_free_entPort (s : State) (core : Nat) (engine : Bool) (g : Nat) :
    ∃ free, (entPort s core engine g).2 = { s with free := free } := by
  unfold entPort
  dsimp only
  split
  · split <;> exact ⟨_, rfl⟩
  · exact ⟨_, rfl⟩

/-- Requests at L2 slices change nothing but themselves and the free numbers. -/
theorem exists_foldl_addReq (core : Nat) (load : Option Nat) (span : Nat) (addrs regions : List Nat) (s : State) :
    ∃ fresh free reqs, regions.foldl (addReq core load span addrs) s =
      { s with fresh := fresh, free := free, net := { s.net with reqs := reqs } } := by
  induction regions generalizing s with
  | nil => exact ⟨_, _, _, rfl⟩
  | cons r rs ih =>
    obtain ⟨free, hport⟩ := exists_free_entPort { s with fresh := s.fresh + 1 } core false (16 * r)
    obtain ⟨fresh, free', reqs, hrest⟩ := ih (addReq core load span addrs s r)
    refine ⟨fresh, free', reqs, ?_⟩
    rw [List.foldl_cons, hrest]
    simp only [addReq, nextId, hport, modNet]

theorem exists_foldl_addNt (grp : Nat) (ps : List (Nat × List Piece)) (s : State) :
    ∃ fresh free nts, ps.foldl (addNt x grp) s = { s with fresh := fresh, free := free, net := { s.net with nts := nts } } := by
  induction ps generalizing s with
  | nil => exact ⟨_, _, _, rfl⟩
  | cons p ps ih =>
    obtain ⟨free, hport⟩ := exists_free_entPort { s with fresh := s.fresh + 1 } x.w.core false p.1
    obtain ⟨fresh, free', nts, hrest⟩ := ih (addNt x grp s p)
    refine ⟨fresh, free', nts, ?_⟩
    rw [List.foldl_cons, hrest]
    simp only [addNt, nextId, hport, modNet]

/-- The entry of a global load that starts. -/
def startedLoad (x : Issue) (s : State) (dst : LoadDst) (size : Nat) (signed : Bool) (span : Nat) (ps : List LanePart) : PLoad :=
  ⟨s.fresh, x.wid, dst, size, signed, none, false, true, span, x.w.acqClock, x.w.win, ps, []⟩

/-- A load that starts: its entry, LD, and beyond them only its requests (R156). -/
theorem exists_startLoad (x : Issue) (s : State) (dst : LoadDst) (size : Nat) (signed : Bool) (span : Nat) (ps : List LanePart) :
    ∃ fresh free reqs, startLoad x s dst size signed span ps =
      modWarp { s with
        fresh := fresh
        free := free
        net := { s.net with reqs := reqs, loads := tput s.net.loads s.fresh (startedLoad x s dst size signed span ps) } }
      x.wid (fun w => { w with ld := w.ld + 1 }) := by
  unfold startLoad
  obtain ⟨fresh, free, reqs, hreqs⟩ := exists_foldl_addReq x.w.core (some s.fresh) span (ps.map (·.addr)) (regionsOf (ps.map (·.addr)))
    (modNet (modWarp { s with fresh := s.fresh + 1 } x.wid (fun w => { w with ld := w.ld + 1 })) fun n =>
      { n with loads := tput n.loads s.fresh (startedLoad x s dst size signed span ps) })
  exact ⟨fresh, free, reqs, hreqs⟩

/-- A store that starts where its counters have room: its group, ST and CW, and its entry in the store queue (R284, R288). -/
theorem startStore_room {k : WKind} {ps : List Piece} (h : cwFull x.w (cwOfPieces s (dieOfCore x.w.core) ps) = false) :
    startStore x s k ps = (.advance, modWarp (modNet { s with fresh := s.fresh + 1 } fun n => { n with
        groups := tput n.groups s.fresh ⟨s.fresh, x.wid, cwOfPieces s (dieOfCore x.w.core) ps, ps.length, (packetsOf ps).length, true, false⟩ })
      x.wid fun w => { cwRise w (cwOfPieces s (dieOfCore x.w.core) ps) with st := w.st + 1, storeQ := w.storeQ ++ [.global s.fresh k ps] }) := by
  simp only [startStore, h, Bool.false_eq_true, if_false, nextId]

end Sys2Proof.Machine
end

section
/-! PROOF. Global loads, stores and atomics complete, and where they trap. -/

namespace Sys2Proof.Machine

open Sys2Proof

theorem globalTraps_ldg (f : LM) : GlobalTraps (.ldg f) :=
  globalTraps_of_access (fun _ => rfl) fun _ _ a hx ha => (Option.some_inj.mp ha : _ = a) ▸ ⟨_, exec_ldg hx⟩

theorem globalTraps_sldg (f : UB) : GlobalTraps (.sldg f) :=
  globalTraps_of_access (fun _ => rfl) fun _ _ a hx ha => (Option.some_inj.mp ha : _ = a) ▸ ⟨_, exec_sldg hx⟩

theorem globalTraps_stg (f : LM) : GlobalTraps (.stg f) :=
  globalTraps_of_access (fun _ => rfl) fun _ _ a hx ha => (Option.some_inj.mp ha : _ = a) ▸ ⟨_, exec_stg hx⟩

theorem globalTraps_sstg (f : UB) : GlobalTraps (.sstg f) :=
  globalTraps_of_access (fun _ => rfl) fun _ _ a hx ha => (Option.some_inj.mp ha : _ = a) ▸ ⟨_, exec_sstg hx⟩

theorem globalTraps_stnt (f : LM) : GlobalTraps (.stnt f) :=
  globalTraps_of_access (fun _ => rfl) fun _ _ a hx ha => (Option.some_inj.mp ha : _ = a) ▸ ⟨_, exec_stnt hx⟩

theorem globalTraps_atomg (f : LM) : GlobalTraps (.atomg f) :=
  globalTraps_of_access (fun _ => rfl) fun _ _ a hx ha => (Option.some_inj.mp ha : _ = a) ▸ ⟨_, exec_atomg hx⟩

theorem globalTraps_satomg (f : UB) : GlobalTraps (.satomg f) :=
  globalTraps_of_access (fun _ => rfl) fun _ _ a hx ha => (Option.some_inj.mp ha : _ = a) ▸ ⟨_, exec_satomg hx⟩

theorem globalTraps_redg (f : LM) : GlobalTraps (.redg f) :=
  globalTraps_of_access (fun _ => rfl) fun _ _ a hx ha => (Option.some_inj.mp ha : _ = a) ▸ ⟨_, exec_redg hx⟩

/-- Settles O29: the loads are global accesses, which trap by their checks; past these each starts with a part in each active lane. -/
theorem globalLoadsComplete : Obligations.GlobalLoadsComplete := by
  unfold Obligations.GlobalLoadsComplete
  refine ⟨globalTraps_ldg, globalTraps_sldg, ?ldg, ?sldg, ?start⟩
  case ldg =>
    intro f s x ⟨hissuer, hp, hpois⟩ sz addrs cells hclear
    obtain ⟨hnone, hsome⟩ := does_of_globalAccess (exec_ldg ⟨hissuer, hp⟩) hclear hpois
    exact ⟨hnone, fun hne => hsome hne _ _ rfl⟩
  case sldg =>
    intro f s x ⟨hissuer, hp, hpois⟩ addrs cells hclear
    obtain ⟨-, hsome⟩ := does_of_globalAccess (exec_sldg ⟨hissuer, hp⟩) hclear hpois
    exact hsome (globalCells_ne_nil hclear.2.1 (List.cons_ne_nil _ _)) _ _ rfl
  case start =>
    intro x s dst n sp sg ps w hw t
    obtain ⟨fresh, free, reqs, hstart⟩ := exists_startLoad x s dst n sg sp ps
    rw [show t = _ from hstart]
    refine ⟨?_, ?_, rfl, rfl⟩
    · simp [tget_tmod_same hw]
    · simp [startedLoad]

/-- Settles O30: the stores are global accesses; past their checks a store enters its queue, and one of no window goes on its way. -/
theorem globalStoresComplete : Obligations.GlobalStoresComplete := by
  unfold Obligations.GlobalStoresComplete
  refine ⟨globalTraps_stg, globalTraps_sstg, globalTraps_stnt, ?stg, ?sstg, ?start, ?stnt⟩
  case stg =>
    intro f s x ⟨hissuer, hp, hpois⟩ n addrs cells ps s1 hclear
    obtain ⟨hnone, hsome⟩ := does_of_globalAccess (exec_stg ⟨hissuer, hp⟩) hclear hpois
    refine ⟨hnone, fun hne hroom => ?_⟩
    have hstart : startStore x s1 .store ps = _ := startStore_room hroom
    have hgo : (startStore x s1 .store ps).1 = .advance := by rw [hstart]
    exact ⟨hgo, hsome hne _ _ (Prod.ext hgo rfl)⟩
  case sstg =>
    intro f s x ⟨hissuer, hp, hpois⟩ n addrs ps s1 hclear hroom
    obtain ⟨-, hsome⟩ := does_of_globalAccess (exec_sstg ⟨hissuer, hp⟩) hclear hpois
    have hgo : (startStore x s1 .store ps).1 = .advance := by rw [show startStore x s1 .store ps = _ from startStore_room hroom]
    exact hsome (globalCells_ne_nil hclear.2.1 (List.cons_ne_nil _ _)) _ _ (Prod.ext hgo rfl)
  case start =>
    intro x s k ps w hw hroom t
    rw [show t = _ from congrArg Prod.snd (startStore_room hroom)]
    exact ⟨by simp [tget_tmod_same hw, cwRise], rfl, rfl⟩
  case stnt =>
    intro f s x ⟨hissuer, hp, hpois⟩ n addrs cells ps s1 hclear
    obtain ⟨hnone, hsome⟩ := does_of_globalAccess (exec_stnt ⟨hissuer, hp⟩) hclear hpois
    exact ⟨hnone, fun hne => hsome hne _ _ rfl⟩

/-- Settles O31: the atomics are global accesses; past their checks each starts, REDG as a store. -/
theorem globalAtomicsComplete : Obligations.GlobalAtomicsComplete := by
  unfold Obligations.GlobalAtomicsComplete
  refine ⟨globalTraps_atomg, globalTraps_satomg, globalTraps_redg, ?atomg, ?satomg, ?redg⟩
  case atomg =>
    intro f s x ⟨hissuer, hp, hpois⟩ op addrs cells hclear
    obtain ⟨hnone, hsome⟩ := does_of_globalAccess (exec_atomg ⟨hissuer, hp⟩) hclear hpois
    exact ⟨hnone, fun hne => hsome hne _ _ rfl⟩
  case satomg =>
    intro f s x ⟨hissuer, hp, hpois⟩ ty op addrs hclear
    obtain ⟨-, hsome⟩ := does_of_globalAccess (exec_satomg ⟨hissuer, hp⟩) hclear hpois
    exact hsome (globalCells_ne_nil hclear.2.1 (List.cons_ne_nil _ _)) _ _ rfl
  case redg =>
    intro f s x ⟨hissuer, hp, hpois⟩ op addrs cells ps s1 hclear
    obtain ⟨hnone, hsome⟩ := does_of_globalAccess (exec_redg ⟨hissuer, hp⟩) hclear hpois
    refine ⟨hnone, fun hne hroom => ?_⟩
    have hgo : (startStore x s1 (.redg op) ps).1 = .advance := by
      rw [show startStore x s1 (.redg op) ps = _ from startStore_room hroom]
    exact hsome hne _ _ ((if_pos hgo).trans (Prod.ext hgo rfl))

end Sys2Proof.Machine
end

section
/-! SUPPORT. Addresses whose leaf is cached (R395): their translation reads no table and changes nothing. -/

namespace Sys2Proof.Machine

open Sys2Proof

variable {s : State} {x : Issue} {core ctx va : Nat} {e : TlbEnt}

theorem lmod_eq_self {α : Type} {f : α → α} {l : List α} {k : Nat} (h : ∀ a, l[k]? = some a → f a = a) : lmod l k f = l := by
  induction l generalizing k with
  | nil => rfl
  | cons a l ih =>
    cases k with
    | zero => exact congrArg (· :: l) (h a rfl)
    | succ k => exact congrArg (a :: ·) (ih h)

/-- A leaf that a core and its bay hold is not put there again. -/
theorem cacheLeaf_held (hcore : e ∈ (coreOf s core).tlb) (hbay : e ∈ (bayOf s (bayOfCore core)).tlb) : cacheLeaf s core e = s := by
  have hcores : lmod s.cores core (fun c => { c with tlb := if c.tlb.contains e then c.tlb else (e :: c.tlb).take 64 }) = s.cores := by
    refine lmod_eq_self fun c hc => ?_
    rw [coreOf, List.getD_eq_getElem?_getD, hc, Option.getD_some] at hcore
    rw [if_pos (List.contains_iff_mem.mpr hcore)]
  have hbays : lmod s.bays (bayOfCore core) (fun b => { b with tlb := if b.tlb.contains e then b.tlb else (e :: b.tlb).take 2048 })
      = s.bays := by
    refine lmod_eq_self fun b hb => ?_
    rw [bayOf, List.getD_eq_getElem?_getD, hb, Option.getD_some] at hbay
    rw [if_pos (List.contains_iff_mem.mpr hbay)]
  simp only [cacheLeaf, modCore, modBay, hcores, hbays]

theorem cacheVa_held (hcore : tlbFind (coreOf s core).tlb ctx va = some e) (hbay : e ∈ (bayOf s (bayOfCore core)).tlb) :
    cacheVa s core ctx va = s := by
  have hheld : e ∈ (coreOf s core).tlb := List.mem_of_find?_eq_some hcore
  simp only [cacheVa, leafCached, translate, hcore, Option.isSome_some, Bool.true_or, if_true, cacheLeaf_held hheld hbay]

theorem foldl_cacheVa_cached {α : Type} {va : α → Nat} {as : List α} (h : Cached x s (as.map va)) :
    as.foldl (fun s a => cacheVa s x.w.core x.ctx (va a)) s = s := by
  induction as with
  | nil => rfl
  | cons a as ih =>
    obtain ⟨⟨e, hcore, hbay⟩, has⟩ := List.forall_mem_cons.mp h
    rw [List.foldl_cons, cacheVa_held hcore hbay]
    exact ih has

end Sys2Proof.Machine
end
section
/-! SUPPORT. FLUSH and its pages (R175). -/

namespace Sys2Proof.Machine

open Sys2Proof

variable {s : State} {x : Issue} {walk : Nat × Nat → Except (Nat × Nat) (Nat × TlbEnt)} {pages : List (Nat × Nat)}

/-- The pages of a range whose walk fails, each with its lowest address in the range and what it fails with. -/
def pageErrors (walk : Nat × Nat → Except (Nat × Nat) (Nat × TlbEnt)) (pages : List (Nat × Nat)) : List (Nat × Nat × Nat) :=
  pages.filterMap fun p => match walk p with
    | .error e => some (p.1, e)
    | .ok _ => none

/-- The grains of the pages of a range whose walk does not fail: the first, and how many. -/
def pageGrains (walk : Nat × Nat → Except (Nat × Nat) (Nat × TlbEnt)) (pages : List (Nat × Nat)) : List (Nat × Nat) :=
  pages.filterMap fun p => match walk p with
    | .error _ => none
    | .ok (pa, _) => some (pa / 32, p.2 / 32)

theorem pageErrors_eq_nil (h : ∀ p ∈ pages, (walk p).toOption.isSome = true) : pageErrors walk pages = [] := by
  refine List.filterMap_eq_nil_iff.mpr fun p hp => ?_
  have hok := h p hp
  cases hw : walk p with
  | ok r => rfl
  | error e => simp [hw, Except.toOption] at hok

/-- The first page that fails, where all before it are found. -/
theorem head?_pageErrors {before after : List (Nat × Nat)} {p e : Nat × Nat} (hpages : pages = before ++ p :: after)
    (hok : ∀ q ∈ before, (walk q).toOption.isSome = true) (herr : walk p = .error e) :
    (pageErrors walk pages).head? = some (p.1, e) := by
  have hnil := pageErrors_eq_nil hok
  unfold pageErrors at hnil ⊢
  rw [hpages, List.filterMap_append, hnil, List.filterMap_cons]
  simp [herr]

theorem pageGrains_eq : pageGrains walk pages =
    pages.filterMap (fun p => (walk p).toOption.map (fun r => (r.1 / 32, p.2 / 32))) := by
  refine List.filterMap_congr fun p _ => ?_
  cases walk p <;> rfl

/-- FLUSH starts: one piece of work for the homes of its range, which ST counts (R175). -/
def startFlush (f : UB) (x : Issue) (s : State) (rs : List (Nat × Nat)) : State :=
  modWarp (modNet { s with fresh := s.fresh + 1 } fun t => { t with
    flushes := tput t.flushes s.fresh ⟨s.fresh, x.wid, f.sub.toNat, rs⟩
    groups := tput t.groups s.fresh ⟨s.fresh, x.wid, ⟨false, false, false, false⟩, 0, 1, true, false⟩ })
    x.wid fun w => { w with st := w.st + 1 }

/-- The walk of a page of FLUSH: it needs write permission to invalidate, else read (R175). -/
def flushWalk (f : UB) (x : Issue) (s : State) (p : Nat × Nat) : Except (Nat × Nat) (Nat × TlbEnt) :=
  xlatePa s x.w.core x.ctx p.1 (f.sub.toNat != 2) (f.sub.toNat == 2) false

/-- The pages of the range of FLUSH, widened to grains (R175). -/
def flushPages (f : UB) (w : Warp) : List (Nat × Nat) :=
  let base := spair w f.sa.toNat
  let lo := base / 32 * 32
  pagesOf 65538 lo ((base + (sread w f.sb.toNat).toNat + 31) / 32 * 32 - lo)

/-- FLUSH whose sources are not marked: no bytes, a page that fails, or the work (R175). -/
theorem exec_flush {f : UB} (h : Issues (.flush f) s x) : exec (.flush f) s = .next (finish x
    (if (sread x.w f.sb.toNat).toNat = 0 then (.advance, s)
    else
      let s1 := (flushPages f x.w).foldl (fun s p => cacheVa s x.w.core x.ctx p.1) s
      match (pageErrors (flushWalk f x s) (flushPages f x.w)).head? with
      | some (a, e) => (.trap ⟨e.1, x.b.lanes, a, e.2, decide (e.1 = cPAGE), false⟩, s1)
      | none => (.advance, startFlush f x s1 (pageGrains (flushWalk f x s) (flushPages f x.w))))) := by
  obtain ⟨hissuer, hp, hpois⟩ := h
  rw [show exec (.flush f) s = execFlush f s from rfl, execFlush, issue_of hissuer hp]
  simp only [hpois, poisOf_none_of hpois]
  rfl

end Sys2Proof.Machine
end

section
/-! PROOF. Prefetches, FENCE, DRAINNT and FLUSH complete. -/

namespace Sys2Proof.Machine

open Sys2Proof

/-- A prefetch of addresses whose leaves are cached adds requests alone (R176). -/
theorem exists_prefetch_cached {s : State} {x : Issue} {vas : List (Mask × Nat)} (span : Nat) (h : Cached x s (vas.map Prod.snd)) :
    ∃ fresh free reqs, prefetch x s span vas = { s with fresh := fresh, free := free, net := { s.net with reqs := reqs } } := by
  have hgood : Cached x s ((vas.filter fun e => (poisTrap x.w e.1 (usesOf x.w x.instr).vsrc (usesOf x.w x.instr).ssrc).isNone).map Prod.snd) :=
    fun a ha => by
      obtain ⟨e, he, rfl⟩ := List.mem_map.mp ha
      exact h e.2 (List.mem_map_of_mem (List.mem_of_mem_filter he))
  simp only [prefetch, foldl_cacheVa_cached hgood]
  exact exists_foldl_addReq ..

/-- What FENCE does at a scope other than .wrp (R171 to R174). -/
def fenceBody (ord scope : Nat) (x : Issue) (s : State) : State :=
  let s1 := if ord = 4 then dropDescs s x.wid else s
  let s2 := modWarp s1 x.wid fun w =>
    let w := if ord = 2 ∨ ord = 3 then { w with release := some scope } else w
    if ord = 2 then w else acquire w s1.clock scope x.seam
  if ord = 2 ∨ ord = 3 then noteRelease s2 x.wid else s2

theorem does_fence {f : UB} {s : State} {x : Issue} (h : Issues (.fence f) s x) : Does (.fence f) s x .advance
    (if f.imm.toNat / 8 = 0 then s else fenceBody (f.imm.toNat % 8) (f.imm.toNat / 8) x s) := by
  refine does_of_issueOp h (show exec (.fence f) s = execFence f s from rfl) ?_
  dsimp only
  split <;> rfl

/-- Settles O32: a prefetch of cached leaves adds requests alone; FENCE by its order; FLUSH by the first page of its range that fails. -/
theorem hintsAndFencesComplete : Obligations.HintsAndFencesComplete := by
  unfold Obligations.HintsAndFencesComplete
  refine ⟨?prefg, ?pref, ?hint, ?fence, ?drainnt, ?flush⟩
  case prefg => exact fun f s x h => does_of_issueOp h (show exec (.prefg f) s = execPrefg f s from rfl) rfl
  case pref => exact fun f s x h => does_of_issueOp h (show exec (.pref f) s = execPref f s from rfl) rfl
  case hint =>
    intro x s n vas h
    obtain ⟨fresh, free, reqs, hpref⟩ := exists_prefetch_cached n h
    rw [hpref]
    exact ⟨rfl, rfl, rfl, rfl, rfl⟩
  case fence =>
    intro f s x h ord scope
    have hdoes := does_fence h
    refine ⟨fun h0 => by rwa [if_pos h0] at hdoes, ?acq, ?rel, ?acqrel, ?sc⟩
    all_goals
      intro h0 hord
      rw [if_neg h0, show f.imm.toNat % 8 = _ from hord] at hdoes
    case acq => exact hdoes
    case rel => exact hdoes
    case acqrel => exact hdoes
    case sc =>
      obtain ⟨bays, hdrop, -⟩ := exists_bays_dropDescs s x.wid
      have hclock : (dropDescs s x.wid).clock = s.clock := by rw [hdrop]
      rw [← hclock]
      exact hdoes
  case drainnt => exact fun f s x h => does_of_issueOp h (show exec (.drainnt f) s = execDrainnt f s from rfl) rfl
  case flush =>
    intro f s x h base n lo pages walkOf
    have hexec := exec_flush h
    refine ⟨fun h0 => ?_, fun h0 hok => ?_, fun before p after c et h0 hpages hok herr => ?_⟩
    · rw [Does, hexec, if_pos h0]
    · rw [if_neg h0] at hexec
      have hnil : pageErrors (flushWalk f x s) (flushPages f x.w) = [] := pageErrors_eq_nil hok
      rw [hnil, pageGrains_eq] at hexec
      exact hexec
    · rw [if_neg h0] at hexec
      have hfirst : (pageErrors (flushWalk f x s) (flushPages f x.w)).head? = some (p.1, c, et) :=
        head?_pageErrors hpages hok herr
      rw [hfirst] at hexec
      exact hexec

end Sys2Proof.Machine
end

section
/-! PROOF. Barrier instructions complete or park. -/

namespace Sys2Proof.Machine

open Sys2Proof

variable {s t : State} {x : Issue} {b : Bar} {k : Nat} {w : Warp}

theorem barArrive_counted (h : arriveLanes s x.wid b x.b.lanes k = some t) : barArrive x s b k = (.advance, t) := by
  rw [barArrive, h]

theorem barArrive_parked (h : arriveLanes s x.wid b x.b.lanes k = none) : barArrive x s b k = parkAll s x (.arrive b k false) := by
  rw [barArrive, h]

theorem barWait_passed (hw : tget s.warps x.wid = some w) (h : waitPhase s w b = none) :
    barWait x s b = (.advance, modWarp s x.wid (fun w => acquire w s.clock (barScope b) (recSeam (recordOf s w)))) := by
  rw [barWait, hw, Option.bind_some, h]

theorem barWait_parked {ph : Bool} (hw : tget s.warps x.wid = some w) (h : waitPhase s w b = some ph) :
    barWait x s b = parkAll s x (.phase b ph) := by
  rw [barWait, hw, Option.bind_some, h]

/-- BARS: an arrive, then a wait (R179). -/
def barSync (f : UB) (x : Issue) (s : State) : Verdict × State :=
  match arriveLanes s x.wid (.bb f.sd.toNat) x.b.lanes f.sa.toNat with
  | some s => barWait x s (.bb f.sd.toNat)
  | none => parkAll s x (.arrive (.bb f.sd.toNat) f.sa.toNat true)

theorem exec_bars (f : UB) (s : State) : exec (.bars f) s = issueOp (.bars f) s (barSync f) := rfl

theorem barSync_counted {f : UB} (h : arriveLanes s x.wid (.bb f.sd.toNat) x.b.lanes f.sa.toNat = some t) :
    barSync f x s = barWait x t (.bb f.sd.toNat) := by
  rw [barSync, h]

theorem barSync_parked {f : UB} (h : arriveLanes s x.wid (.bb f.sd.toNat) x.b.lanes f.sa.toNat = none) :
    barSync f x s = parkAll s x (.arrive (.bb f.sd.toNat) f.sa.toNat true) := by
  rw [barSync, h]

/-- Settles O33: each form by whether its lanes are counted now, and whether the phase of the warp's arrival has passed. -/
theorem barriersComplete : Obligations.BarriersComplete := by
  unfold Obligations.BarriersComplete
  refine ⟨?arrive, ?wait, ?bars, ?gridbar⟩
  case arrive =>
    intro i f b s x hi h
    have hop : exec i s = issueOp i s (fun x s => barArrive x s b f.sa.toNat) := by
      obtain ⟨rfl, rfl⟩ | ⟨rfl, rfl⟩ := hi
      · exact (show exec (.bara f) s = execBara f s from rfl)
      · exact (show exec (.cbara f) s = execCbara f s from rfl)
    exact ⟨fun t ht => does_of_issueOp h hop (barArrive_counted ht),
      fun hnone => does_of_issueOp h hop (barArrive_parked hnone)⟩
  case wait =>
    intro i f b s x w hi h hw
    have hop : exec i s = issueOp i s (fun x s => barWait x s b) := by
      obtain ⟨rfl, rfl⟩ | ⟨rfl, rfl⟩ := hi
      · exact (show exec (.barw f) s = execBarw f s from rfl)
      · exact (show exec (.cbarw f) s = execCbarw f s from rfl)
    exact ⟨fun hnone => does_of_issueOp h hop (barWait_passed hw hnone),
      fun ph hph => does_of_issueOp h hop (barWait_parked hw hph)⟩
  case bars =>
    intro f s x h b
    refine ⟨fun t w ht hw => ?_, fun hnone => does_of_issueOp h (exec_bars f s) (barSync_parked hnone)⟩
    exact ⟨fun hnone => does_of_issueOp h (exec_bars f s) ((barSync_counted ht).trans (barWait_passed hw hnone)),
      fun ph hph => does_of_issueOp h (exec_bars f s) ((barSync_counted ht).trans (barWait_parked hw hph))⟩
  case gridbar =>
    intro f s x h
    have hop := show exec (.gridbar f) s = execGridbar f s from rfl
    exact ⟨fun t ht => does_of_issueOp h hop (by simp only [ht]; rfl), fun hnone => does_of_issueOp h hop (by simp only [hnone]; rfl)⟩

end Sys2Proof.Machine
end

section
/-! PROOF. Knot instructions send their requests. -/

namespace Sys2Proof.Machine

open Sys2Proof

variable {s : State} {x : Issue} {sa krec : Nat} {t : Trap} {go : State → Nat → Verdict × State}

theorem knotRecord_misaligned (h : spair x.w sa % 64 ≠ 0) :
    knotRecord x s sa = .error ⟨cALIGN, x.b.lanes, spair x.w sa, 64, false, false⟩ := if_pos h

theorem knotRecord_error {c : Nat × Nat} (haligned : spair x.w sa % 64 = 0)
    (h : xlate s x.w.core x.ctx (spair x.w sa) true true false = .error c) :
    knotRecord x s sa = .error ⟨c.1, x.b.lanes, spair x.w sa, c.2, decide (c.1 = cPAGE), false⟩ := by
  simp only [knotRecord, haligned, ne_eq, not_true_eq_false, if_false, xlatePa_of_xlate_error h]

theorem knotIssue_error (h : knotRecord x s sa = .error t) :
    knotIssue x s sa go = (.trap t, if t.code = cALIGN then s else cacheVa s x.w.core x.ctx (spair x.w sa)) := by
  simp only [knotIssue, h]

theorem knotIssue_ok (h : knotRecord x s sa = .ok krec) (hpois : poisOf x s = none) :
    knotIssue x s sa go = go (cacheVa s x.w.core x.ctx (spair x.w sa)) krec := by
  simp only [knotIssue, h, poisOf_none_of hpois]

/-- KGIVE behind its checks (R185). -/
def knotGive (f : UB) (x : Issue) (s : State) (krec : Nat) : Verdict × State :=
  let t := Taker.cluster (clusterIdOf s x.w)
  if holdsToken s t krec then
    knotSend x (modWarp (startGive s t krec) x.wid fun w => { w with release := some (max 4 (w.release.getD 0)) }) krec f.sd.toNat .give true
  else knotSend x s krec f.sd.toNat .give false

/-- KINIT.free, KTAKE and KGIVE are the checks of their record and what each does past them. -/
theorem exec_kinitFree {f : UB} (h : Reaches (.kinitFree f) s x) : exec (.kinitFree f) s =
    .next (finish x (knotIssue x s f.sa.toNat fun s k => knotSend x s k f.sd.toNat .free false)) := by
  rw [show exec (.kinitFree f) s = execKinitFree f s from rfl, execKinitFree, issue_of h.1 h.2]

theorem exec_ktake {f : UB} (h : Reaches (.ktake f) s x) : exec (.ktake f) s =
    .next (finish x (knotIssue x s f.sa.toNat fun s k => knotSend x s k f.sd.toNat (.take (f.sub == 1)) false)) := by
  rw [show exec (.ktake f) s = execKtake f s from rfl, execKtake, issue_of h.1 h.2]

theorem exec_kgive {f : UB} (h : Reaches (.kgive f) s x) :
    exec (.kgive f) s = .next (finish x (knotIssue x s f.sa.toNat (knotGive f x))) := by
  rw [show exec (.kgive f) s = execKgive f s from rfl, execKgive, issue_of h.1 h.2]
  rfl

/-- KINIT.reg of a record that the warp has no write on its way to, and whose pages it may write (R183). -/
theorem exec_kinitReg_ok {f : UB} (h : Issues (.kinitReg f) s x) (hrecord : knotRecord x s f.sa.toNat = .ok krec)
    (hlive : ownWriteLive s x.wid x.w krec 64 = false) (hpages : knotPageFault x s (knotBytes s x.ctx krec) = none) :
    exec (.kinitReg f) s = .next (finish x (knotIssue x s f.sa.toNat fun s1 k =>
      knotSend x (knotWalks x s1 (knotBytes s x.ctx krec)) k f.sd.toNat
        (.reg (knotPhys x s1 k (knotBytes s x.ctx krec)) (if knotBad (knotBytes s x.ctx krec) then some 3 else none)) false)) := by
  obtain ⟨hissuer, hp, -⟩ := h
  rw [show exec (.kinitReg f) s = execKinitReg f s from rfl, execKinitReg, issue_of hissuer hp]
  simp only [hrecord, hlive, hpages, Bool.false_eq_true, if_false]

theorem exec_kinitReg_error {f : UB} (h : Reaches (.kinitReg f) s x) (hrecord : knotRecord x s f.sa.toNat = .error t) :
    exec (.kinitReg f) s = .next (finish x (.trap t, if t.code = cALIGN then s else cacheVa s x.w.core x.ctx (spair x.w f.sa.toNat))) := by
  rw [show exec (.kinitReg f) s = execKinitReg f s from rfl, execKinitReg, issue_of h.1 h.2]
  simp only [hrecord]

/-- A knot instruction whose record is not aligned, or may not be read and written, raises its cause (R182). -/
theorem does_knot_error {i : Instr} {f : UB} (hi : i = .kinitFree f ∨ i = .ktake f ∨ i = .kinitReg f ∨ i = .kgive f) (h : Reaches i s x)
    (hrecord : knotRecord x s f.sa.toNat = .error t) :
    Does i s x (.trap t) (if t.code = cALIGN then s else cacheVa s x.w.core x.ctx (spair x.w f.sa.toNat)) := by
  obtain rfl | rfl | rfl | rfl := hi
  · exact does_of_exec (exec_kinitFree h) (knotIssue_error hrecord)
  · exact does_of_exec (exec_ktake h) (knotIssue_error hrecord)
  · exact exec_kinitReg_error h hrecord
  · exact does_of_exec (exec_kgive h) (knotIssue_error hrecord)

/-- Settles O34: each is the check of its record and, past it, the request that it sends. -/
theorem knotsComplete : Obligations.KnotsComplete := by
  unfold Obligations.KnotsComplete
  refine ⟨?send, ?reg, ?give, ?faults⟩
  case send =>
    intro i f op s x krec hi ⟨hissuer, hp, hpois⟩ hrecord
    obtain ⟨rfl, rfl⟩ | ⟨rfl, rfl⟩ := hi
    · rw [exec_kinitFree ⟨hissuer, hp⟩, knotIssue_ok hrecord hpois]
    · rw [exec_ktake ⟨hissuer, hp⟩, knotIssue_ok hrecord hpois]
  case reg =>
    intro f s x krec h hrecord bs hlive hpages s1
    rw [exec_kinitReg_ok h hrecord hlive hpages, knotIssue_ok hrecord h.2.2]
  case give =>
    intro f s x krec ⟨hissuer, hp, hpois⟩ hrecord s1 t
    rw [exec_kgive ⟨hissuer, hp⟩, knotIssue_ok hrecord hpois]
    exact ⟨fun h => by rw [knotGive, if_pos h], fun h => by rw [knotGive, if_neg (by simpa using h)]⟩
  case faults =>
    intro i f s x hi ⟨hissuer, hp, _⟩ va
    refine ⟨fun h => ?_, fun c et haligned h => ?_⟩
    · exact does_knot_error hi ⟨hissuer, hp⟩ (knotRecord_misaligned h)
    · have hcode : c ≠ cALIGN := by obtain hc | hc := xlate_error h <;> (rw [show c = _ from hc]; decide)
      have hdoes := does_knot_error hi ⟨hissuer, hp⟩ (knotRecord_error haligned h)
      rwa [if_neg hcode] at hdoes

end Sys2Proof.Machine
end

section
/-! SUPPORT. Ring instructions at their port (R186 to R189, R264). -/

namespace Sys2Proof.Machine

open Sys2Proof

variable {i : Instr} {f : UB} {s s1 t : State} {x : Issue} {size sa wid bid : Nat} {op : PortOp} {at' : SPlace} {b : Block} {lanes : Mask}
  {m : Option Mask} {sd : Nat}

/-- A ring instruction as the operation at its header's port that it stands for: its bytes, the operation, and the state in which it
is issued, after the release of RREL and RARR (R187 to R189, R221). -/
def RingForm (i : Instr) (f : UB) (size : Nat) (op : PortOp) (s s1 : State) (x : Issue) : Prop :=
  (i = .rinit f ∧ size = 16 + 8 * (f.imm.toNat + 1) ∧ op = .ringInit (f.imm.toNat + 1) (sread x.w f.sb.toNat).toNat ∧ s1 = s) ∨
  (i = .rwaitFull f ∧ size = 16 ∧ op = .ringWait false f.sd.toNat ∧ s1 = s) ∨
  (i = .rwaitFree f ∧ size = 16 ∧ op = .ringWait true f.sd.toNat ∧ s1 = s) ∨
  (i = .rrel f ∧ size = 16 ∧ op = .ringRel ∧ s1 = dropDescs s x.wid) ∨
  (i = .rarr f ∧ size = 16 ∧ op = .ringArrive (sread x.w f.sb.toNat).toNat (sread x.w f.sc.toNat).toNat 0 none ∧ s1 = dropDescs s x.wid)

theorem exec_ring (hi : RingForm i f size op s s1 x) (h : Reaches i s x) :
    exec i s = .next (finish x (ringIssue x s1 (sread x.w f.sa.toNat).toNat size op)) := by
  obtain ⟨hissuer, hp⟩ := h
  obtain ⟨rfl, rfl, rfl, rfl⟩ | ⟨rfl, rfl, rfl, rfl⟩ | ⟨rfl, rfl, rfl, rfl⟩ | ⟨rfl, rfl, rfl, rfl⟩ | ⟨rfl, rfl, rfl, rfl⟩ := hi
  · rw [show exec (.rinit f) s1 = execRinit f s1 from rfl, execRinit, issue_of hissuer hp]
  · rw [show exec (.rwaitFull f) s1 = execRwaitFull f s1 from rfl, execRwaitFull, issue_of hissuer hp]
  · rw [show exec (.rwaitFree f) s1 = execRwaitFree f s1 from rfl, execRwaitFree, issue_of hissuer hp]
  · rw [show exec (.rrel f) s = execRrel f s from rfl, execRrel, issue_of hissuer hp]
  · rw [show exec (.rarr f) s = execRarr f s from rfl, execRarr, issue_of hissuer hp]

/-- What a ring operation leaves at the own core's port: it ends, it traps, or a wait parks (R186). -/
theorem ringIssue_done (h : AtOwnPort x s size sa at') (hpois : poisOf x s = none)
    (hperform : ringPerform s x.wid x.b.lanes none at' op = .done t) :
    ringIssue x s (sread x.w sa).toNat size op = (.advance, t) := by
  obtain ⟨hplace, hlocal, hfree⟩ := h
  simp only [ringIssue, hplace, hpois, hlocal, hfree, Bool.not_false, Bool.and_self, if_true, hperform]

theorem ringIssue_trap {r : Trap} (h : AtOwnPort x s size sa at') (hpois : poisOf x s = none)
    (hperform : ringPerform s x.wid x.b.lanes none at' op = .trap r t) :
    ringIssue x s (sread x.w sa).toNat size op = (.trap r, t) := by
  obtain ⟨hplace, hlocal, hfree⟩ := h
  simp only [ringIssue, hplace, hpois, hlocal, hfree, Bool.not_false, Bool.and_self, if_true, hperform]

theorem ringIssue_waits {free : Bool} (h : AtOwnPort x s size sa at') (hpois : poisOf x s = none)
    (hperform : ringPerform s x.wid x.b.lanes none at' (.ringWait free sd) = .waits) :
    ringIssue x s (sread x.w sa).toNat size (.ringWait free sd) =
      parkAll { s with fresh := s.fresh + 1 } x (.ring at' free sd s.fresh) := by
  obtain ⟨hplace, hlocal, hfree⟩ := h
  simp only [ringIssue, hplace, hpois, hlocal, hfree, Bool.not_false, Bool.and_self, if_true, hperform, nextId]

/-- A ring instruction of another core's header, or behind an access held at the port, is a message to the port (R264, R285). -/
theorem ringIssue_sent (hplace : ringPlace x s (sread x.w sa).toNat size = .ok at') (hpois : poisOf x s = none)
    (h : ¬ AtOwnPort x s size sa at') :
    ringIssue x s (sread x.w sa).toNat size op = parkAll (modNet { s with fresh := s.fresh + 1 } (fun n => { n with
      ports := tput n.ports s.fresh ⟨s.fresh, x.w.core, some x.wid, at', op, false, s.fresh⟩ })) x (.port s.fresh) := by
  have hcond : (isLocal s x.w at'.rank && !heldBehind s x.w x.wid at'.cluster at'.rank [(at'.off, size)]) = false := by
    rw [Bool.eq_false_iff, Ne, Bool.and_eq_true, Bool.not_eq_true']
    exact fun ⟨hlocal, hfree⟩ => h ⟨hplace, hlocal, hfree⟩
  simp only [ringIssue, hplace, hpois, hcond, Bool.false_eq_true, if_false, nextId]

/-- A header that its ring's own operations left keeps its fields (R186). -/
theorem scramble_clean {off : Nat} (hb : tget s.blocks bid = some b) (hring : tget b.rings off = some true) (alloc : Nat) :
    scramble s bid off alloc = s := by
  simp [scramble, hb, hring]

section Clean

variable (hblock : rankBlock s at'.cluster at'.rank = some (bid, b)) (hlive : b.ended = false)
include hblock hlive

theorem ringPerform_init (n e : Nat) :
    ringPerform s wid lanes m at' (.ringInit n e) = .done (wakeRing (modBlock s bid (ringInit at' n e)) at') := by
  simp only [ringPerform, hblock, hlive, Bool.false_eq_true, if_false, if_true]

variable (hring : tget b.rings at'.off = some true)
include hring

theorem ringPerform_wait_bad {free : Bool} (hbad : ringBad b at'.off = true) :
    ringPerform s wid lanes m at' (.ringWait free sd) =
      .trap (ringTrap s at'.cluster lanes) (modBlock s bid (fun b => putOrf b at'.off false)) := by
  have hb := tget_of_rankBlock hblock
  simp only [ringPerform, hblock, hlive, Bool.false_eq_true, if_false, if_true, scramble_clean hb hring, hb, Option.getD_some, hbad]

theorem ringPerform_free {r : Nat × Block} (hgood : ringBad b at'.off = false) (hfree : ringFree at'.off b = some r) :
    ringPerform s wid lanes m at' (.ringWait true sd) = .done (ringDone (modBlock s bid (fun _ => r.2)) wid m sd r.1 false) := by
  have hb := tget_of_rankBlock hblock
  simp only [ringPerform, hblock, hlive, Bool.false_eq_true, if_false, if_true, scramble_clean hb hring, hb, Option.getD_some, hgood, hfree]

theorem ringPerform_free_waits (hgood : ringBad b at'.off = false) (hfree : ringFree at'.off b = none) :
    ringPerform s wid lanes m at' (.ringWait true sd) = .waits := by
  have hb := tget_of_rankBlock hblock
  simp only [ringPerform, hblock, hlive, Bool.false_eq_true, if_false, if_true, scramble_clean hb hring, hb, Option.getD_some, hgood, hfree]

/-- RWAIT.full by what it finds (R188). -/
theorem ringPerform_full_slot {i : Nat} {c : Bool} (hgood : ringBad b at'.off = false) (hfull : ringFull at' b = .slot i c) :
    ringPerform s wid lanes m at' (.ringWait false sd) = .done (ringDone s wid m sd i c) := by
  have hb := tget_of_rankBlock hblock
  simp only [ringPerform, hblock, hlive, Bool.false_eq_true, if_false, scramble_clean hb hring, hb, Option.getD_some, hgood, hfull]

theorem ringPerform_full_failed {e : CopyFault} (hgood : ringBad b at'.off = false) (hfull : ringFull at' b = .failed e) :
    ringPerform s wid lanes m at' (.ringWait false sd) = .trap (copyTrap e lanes) (modBlock s bid (deliver at' e)) := by
  have hb := tget_of_rankBlock hblock
  simp only [ringPerform, hblock, hlive, Bool.false_eq_true, if_false, scramble_clean hb hring, hb, Option.getD_some, hgood, hfull]

theorem ringPerform_full_waits (hgood : ringBad b at'.off = false) (hfull : ringFull at' b = .wait) :
    ringPerform s wid lanes m at' (.ringWait false sd) = .waits := by
  have hb := tget_of_rankBlock hblock
  simp only [ringPerform, hblock, hlive, Bool.false_eq_true, if_false, scramble_clean hb hring, hb, Option.getD_some, hgood, hfull]

theorem ringPerform_rel {b' : Block} (hrel : ringRel at'.off b = some b') :
    ringPerform s wid lanes m at' .ringRel = .done (wakeRing (modBlock s bid (fun _ => b')) at') := by
  have hb := tget_of_rankBlock hblock
  simp only [ringPerform, hblock, hlive, Bool.false_eq_true, if_false, scramble_clean hb hring, hb, Option.getD_some, hrel]

theorem ringPerform_arrive {slot bytes clamp : Nat} {c : Option Nat} (hvalid : ringValid b at'.off = true) (hslot : slot < ringSlots b at'.off) :
    ringPerform s wid lanes m at' (.ringArrive slot bytes clamp c) = .done (wakeRing (modBlock s bid fun b =>
      putSlot b at'.off slot (slotArrive (ringSlot b at'.off slot) bytes clamp)) at') := by
  have hb := tget_of_rankBlock hblock
  have hin : decide (ringSlots b at'.off ≤ slot) = false := decide_eq_false (by omega)
  simp only [ringPerform, ringArrive, hblock, hlive, Bool.false_eq_true, if_false, scramble_clean hb hring, hb, Option.getD_some, hvalid, hin,
    Bool.and_false, Bool.not_true, Bool.or_self]

end Clean

end Sys2Proof.Machine
end

section
/-! PROOF. Ring instructions complete at their port or go to it. -/

namespace Sys2Proof.Machine

open Sys2Proof

/-- What a ring instruction does that issues at the own core's port. -/
theorem does_ring_done {i : Instr} {f : UB} {size : Nat} {op : PortOp} {s s1 t : State} {x : Issue} {at' : SPlace}
    (hi : RingForm i f size op s s1 x) (h : Issues i s x) (hown : AtOwnPort x s1 size f.sa.toNat at')
    (hperform : ringPerform s1 x.wid x.b.lanes none at' op = .done t) : Does i s x .advance t := by
  obtain ⟨hissuer, hp, hpois⟩ := h
  exact does_of_exec (exec_ring hi ⟨hissuer, hp⟩) (ringIssue_done hown (poisOf_none_of hpois s1) hperform)

theorem does_ring_trap {i : Instr} {f : UB} {size : Nat} {op : PortOp} {s s1 t : State} {x : Issue} {at' : SPlace} {r : Trap}
    (hi : RingForm i f size op s s1 x) (h : Issues i s x) (hown : AtOwnPort x s1 size f.sa.toNat at')
    (hperform : ringPerform s1 x.wid x.b.lanes none at' op = .trap r t) : Does i s x (.trap r) t := by
  obtain ⟨hissuer, hp, hpois⟩ := h
  exact does_of_exec (exec_ring hi ⟨hissuer, hp⟩) (ringIssue_trap hown (poisOf_none_of hpois s1) hperform)

theorem exec_ring_waits {i : Instr} {f : UB} {size sd : Nat} {free : Bool} {s s1 : State} {x : Issue} {at' : SPlace}
    (hi : RingForm i f size (.ringWait free sd) s s1 x) (h : Issues i s x) (hown : AtOwnPort x s1 size f.sa.toNat at')
    (hperform : ringPerform s1 x.wid x.b.lanes none at' (.ringWait free sd) = .waits) :
    exec i s = .next (finish x (parkAll { s1 with fresh := s1.fresh + 1 } x (.ring at' free sd s1.fresh))) := by
  obtain ⟨hissuer, hp, hpois⟩ := h
  rw [exec_ring hi ⟨hissuer, hp⟩, ringIssue_waits hown (poisOf_none_of hpois s1) hperform]

theorem ringForm_rinit (f : UB) (s : State) (x : Issue) : RingForm (.rinit f) f (16 + 8 * (f.imm.toNat + 1))
    (.ringInit (f.imm.toNat + 1) (sread x.w f.sb.toNat).toNat) s s x := .inl ⟨rfl, rfl, rfl, rfl⟩

theorem ringForm_rwaitFull (f : UB) (s : State) (x : Issue) : RingForm (.rwaitFull f) f 16 (.ringWait false f.sd.toNat) s s x :=
  .inr (.inl ⟨rfl, rfl, rfl, rfl⟩)

theorem ringForm_rwaitFree (f : UB) (s : State) (x : Issue) : RingForm (.rwaitFree f) f 16 (.ringWait true f.sd.toNat) s s x :=
  .inr (.inr (.inl ⟨rfl, rfl, rfl, rfl⟩))

theorem ringForm_rrel (f : UB) (s : State) (x : Issue) : RingForm (.rrel f) f 16 .ringRel s (dropDescs s x.wid) x :=
  .inr (.inr (.inr (.inl ⟨rfl, rfl, rfl, rfl⟩)))

theorem ringForm_rarr (f : UB) (s : State) (x : Issue) : RingForm (.rarr f) f 16
    (.ringArrive (sread x.w f.sb.toNat).toNat (sread x.w f.sc.toNat).toNat 0 none) s (dropDescs s x.wid) x :=
  .inr (.inr (.inr (.inr ⟨rfl, rfl, rfl, rfl⟩)))

/-- What RWAIT.full finds at RP: nothing, a full slot, or one whose copy has failed (R188, R229). -/
theorem ringFull_waits {at' : SPlace} {b : Block} (h : (ringSlot b at'.off (ringRp b at'.off)).f = false) :
    ringFull at' b = .wait := by
  simp [ringFull, h]

theorem ringFull_slot {at' : SPlace} {b : Block} (hf : (ringSlot b at'.off (ringRp b at'.off)).f = true)
    (hft : (ringSlot b at'.off (ringRp b at'.off)).ft = false) :
    ringFull at' b = .slot (ringRp b at'.off) ((ringSlot b at'.off (ringRp b at'.off)).ncl != 0) := by
  simp [ringFull, hf, hft]

theorem ringFull_failed {at' : SPlace} {b : Block} {e : CopyFault} (hf : (ringSlot b at'.off (ringRp b at'.off)).f = true)
    (hft : (ringSlot b at'.off (ringRp b at'.off)).ft = true)
    (he : b.faults.find? (fun e => e.ring == at' && e.slot == ringRp b at'.off && !e.delivered) = some e) :
    ringFull at' b = .failed e := by
  simp [ringFull, hf, hft, he]

/-- Settles O35: each is the operation of its form at the header's port, performed there by what it finds, or sent to it. -/
theorem ringsComplete : Obligations.RingsComplete := by
  unfold Obligations.RingsComplete
  refine ⟨?init, ?free, ?full, ?rel, ?arr, ?bad, ?port⟩
  case init =>
    intro f s x at' bid b h n hown hblock hlive
    exact does_ring_done (ringForm_rinit f s x) h hown (ringPerform_init hblock hlive _ _)
  case free =>
    intro f s x at' bid b h hown hblock hlive hring hgood
    exact ⟨fun r hr => does_ring_done (ringForm_rwaitFree f s x) h hown (ringPerform_free hblock hlive hring hgood hr),
      fun hnone => exec_ring_waits (ringForm_rwaitFree f s x) h hown (ringPerform_free_waits hblock hlive hring hgood hnone)⟩
  case full =>
    intro f s x at' bid b h hown hblock hlive hring hgood r
    exact ⟨fun hf hft => does_ring_done (ringForm_rwaitFull f s x) h hown
        (ringPerform_full_slot hblock hlive hring hgood (ringFull_slot hf hft)),
      fun e hf hft he => does_ring_trap (ringForm_rwaitFull f s x) h hown
        (ringPerform_full_failed hblock hlive hring hgood (ringFull_failed hf hft he)),
      fun hf => exec_ring_waits (ringForm_rwaitFull f s x) h hown
        (ringPerform_full_waits hblock hlive hring hgood (ringFull_waits hf))⟩
  case rel =>
    intro f s x at' bid b h s1 hown hblock hlive hring b' hrel
    exact does_ring_done (ringForm_rrel f s x) h hown (ringPerform_rel hblock hlive hring hrel)
  case arr =>
    intro f s x at' bid b h s1 slot hown hblock hlive hring hvalid hslot
    exact does_ring_done (ringForm_rarr f s x) h hown (ringPerform_arrive hblock hlive hring hvalid hslot)
  case bad =>
    intro i f free s x at' bid b hi h hown hblock hlive hring hbad
    obtain ⟨rfl, rfl⟩ | ⟨rfl, rfl⟩ := hi
    · exact does_ring_trap (ringForm_rwaitFull f s x) h hown (ringPerform_wait_bad hblock hlive hring hbad)
    · exact does_ring_trap (ringForm_rwaitFree f s x) h hown (ringPerform_wait_bad hblock hlive hring hbad)
  case port =>
    intro i f size op s s1 x at' hi h hplace
    refine ⟨fun t hown => does_ring_done hi h hown, fun hnot => ?_⟩
    rw [exec_ring hi ⟨h.1, h.2.1⟩, ringIssue_sent hplace (poisOf_none_of h.2.2 s1) hnot]

end Sys2Proof.Machine
end

section
/-! SUPPORT. Copies as a warp issues them (R221 to R226), by the checks they pass. -/

namespace Sys2Proof.Machine

open Sys2Proof

variable {i : Instr} {f : UB} {kind : CopyKind} {mask : Nat} {index : Option (Nat × Nat)} {s s1 : State} {x : Issue} {a : CopyArgs}
  {dp ip : SPlace} {rings dsts : List SPlace} {bs : List Byte} {total : Nat} {c : CopyCmd} {w : Warp}

/-- An instruction that is a copy with a descriptor: its kind, the ranks that it reaches, its index tensor (R224 to R226). -/
def CopyForm (i : Instr) (f : UB) (kind : CopyKind) (mask : Nat) (index : Option (Nat × Nat)) (x : Issue) : Prop :=
  (i = .cpyG2s f ∧ kind = .g2s ∧ mask = f.imm.toNat % 4096 ∧ index = none) ∨
  (i = .cpyS2g f ∧ kind = .s2g ∧ mask = 0 ∧ index = none) ∨
  (i = .cpgth f ∧ kind = .gth (f.imm.toNat % 8) ∧ mask = 0 ∧
    index = some ((sread x.w (f.sb.toNat + 1)).toNat, (sread x.w (f.sb.toNat + 2)).toNat)) ∨
  (i = .cpsct f ∧ kind = .sct (f.imm.toNat % 8) ∧ mask = 0 ∧
    index = some ((sread x.w (f.sb.toNat + 1)).toNat, (sread x.w (f.sb.toNat + 2)).toNat)) ∨
  (i = .cpxf f ∧ kind = xfKind (f.sub.toNat % 4) (f.imm.toNat % 16) ∧ mask = 0 ∧ index = none)

theorem exec_copy (hi : CopyForm i f kind mask index x) (h : Reaches i s x) :
    exec i s = .next (finish x (copyDesc x s kind f mask index)) := by
  obtain ⟨hissuer, hp⟩ := h
  obtain ⟨rfl, rfl, rfl, rfl⟩ | ⟨rfl, rfl, rfl, rfl⟩ | ⟨rfl, rfl, rfl, rfl⟩ | ⟨rfl, rfl, rfl, rfl⟩ | ⟨rfl, rfl, rfl, rfl⟩ := hi
  · rw [show exec (.cpyG2s f) s = execCpyG2s f s from rfl, execCpyG2s, issue_of hissuer hp]
  · rw [show exec (.cpyS2g f) s = execCpyS2g f s from rfl, execCpyS2g, issue_of hissuer hp]
  · rw [show exec (.cpgth f) s = execCpgth f s from rfl, execCpgth, issue_of hissuer hp]
  · rw [show exec (.cpsct f) s = execCpsct f s from rfl, execCpsct, issue_of hissuer hp]
  · rw [show exec (.cpxf f) s = execCpxf f s from rfl, execCpxf, issue_of hissuer hp]

theorem writesGlobal_xfKind (form k : Nat) : writesGlobal (xfKind form k) = false := by
  unfold xfKind
  split
  · split <;> rfl
  · rfl
  · rfl
  · rfl

/-- The copies that write global memory are CPY.s2g and CPSCT. -/
theorem writesGlobal_of_copyForm (hi : CopyForm i f kind mask index x) :
    writesGlobal kind = decide (i = .cpyS2g f ∨ i = .cpsct f) := by
  obtain ⟨rfl, rfl, -, -⟩ | ⟨rfl, rfl, -, -⟩ | ⟨rfl, rfl, -, -⟩ | ⟨rfl, rfl, -, -⟩ | ⟨rfl, rfl, -, -⟩ := hi
  · simp [writesGlobal]
  · simp [writesGlobal]
  · simp [writesGlobal]
  · simp [writesGlobal]
  · simp [writesGlobal_xfKind]

theorem copyAlign_eq_none_iff {l : List (Nat × Nat)} : copyAlign x l = none ↔ ∀ e ∈ l, e.1 % e.2 = 0 := by
  simp [copyAlign]

/-- The operands that ALIGN looks at are fewer where the descriptor read at issue is not valid (R223). -/
theorem copyAlignFault_eq_none {valid : Bool} (h : copyAlignFault x a false = none) (hbuf : valid = true → a.buf % 16 = 0) :
    copyAlignFault x a valid = none := by
  cases valid with
  | false => exact h
  | true =>
    simp only [copyAlignFault, copyAlign_eq_none_iff] at h ⊢
    simpa [hbuf rfl] using h

/-- The ranges of a copy whose sizes come from scalars, where each lies in the allocation (R223). -/
theorem copyFixed_ok (hdesc : copyPlace x s a.desc 64 = .ok dp) (hrings : copyPlaces x s mask a.hdr 16 = .ok rings)
    (hindex : ∀ e, a.index = some e → copyPlace x s e.1 (4 * e.2) = .ok ip) (hnone : a.index = none → ip = ⟨clusterIdOf s x.w, 0, 0⟩) :
    copyFixed x s a mask = .ok (dp, rings, ip) := by
  unfold copyFixed
  rw [hdesc, hrings]
  cases ha : a.index with
  | none => rw [hnone ha]
  | some e => simp only [hindex e ha]

theorem copyPlace_of_copyFixed (h : copyFixed x s a mask = .ok (dp, rings, ip)) : copyPlace x s a.desc 64 = .ok dp := by
  unfold copyFixed at h
  dsimp only at h
  split at h
  · cases h
  · cases h
  · cases h
  next hdp _ _ => cases h; exact hdp

theorem descValid_eq (hdesc : copyPlace x s a.desc 64 = .ok dp) (hread : readDesc x s a.desc dp false = .got bs s1) :
    descValid x s a = (descCheck bs == 0) := by
  simp only [descValid, hdesc, hread]

/-- A copy whose checks pass starts as the command that its descriptor gives. -/
theorem copyDesc_starts (halign : copyAlignFault x (copyArgs x.w f index) (descValid x s (copyArgs x.w f index)) = none)
    (hfixed : copyFixed x s (copyArgs x.w f index) mask = .ok (dp, rings, ip))
    (hread : readDesc x s (copyArgs x.w f index).desc dp false = .got bs s1)
    (hcopy : descCopy x s1 kind f mask (copyArgs x.w f index) rings ip bs = .ok c) (hpois : poisOf x s = none) :
    copyDesc x s kind f mask index = startCopy x s1 c := by
  simp only [copyDesc, halign, hfixed, hread, hcopy, poisOf_none_of hpois s1]

/-- A descriptor that fails a check of R222 gives a command that fails its slot. -/
theorem descCopy_invalid (h : descCheck bs ≠ 0) : descCopy x s kind f mask a rings ip bs = .ok
    { newCopy x s kind (bit f.imm.toNat 12) (receiversOf rings rings (sread x.w f.sd.toNat).toNat) with
      desc := bs, coords := coordsAt x.w f.sa.toNat, idx := ip, count := (a.index.map Prod.snd).getD 0
      failed := some (cILL, 0, (word0 x.instr).toNat) } := if_pos h

/-- A valid one whose form admits it, and its coordinates, gives the command with its buffer. -/
theorem descCopy_valid (h : descCheck bs = 0) (hform : formBytes kind (parseDesc bs) ((a.index.map Prod.snd).getD 0) = some total)
    (hcoords : coordsBad kind (parseDesc bs) (coordsAt x.w f.sa.toNat) = false) (hbuf : copyPlaces x s mask a.buf total = .ok dsts) :
    descCopy x s kind f mask a rings ip bs = .ok
      { newCopy x s kind (bit f.imm.toNat 12)
          (receiversOf rings (if writesGlobal kind then rings else dsts) (sread x.w f.sd.toNat).toNat) with
        desc := bs, coords := coordsAt x.w f.sa.toNat, idx := ip, count := (a.index.map Prod.snd).getD 0, total := total
        src := dsts.headD ip } := by
  have hrange : formRange kind (parseDesc bs) ((a.index.map Prod.snd).getD 0) = total := by
    unfold formRange
    rw [hform, Option.getD_some]
  simp only [descCopy, h, ne_eq, not_true_eq_false, if_false, hrange, hbuf, hform, hcoords, Bool.false_eq_true]
  rfl

/-- The state in which the engine has a copy's counters: ST and CW of a global write, CP (R224). -/
def copyCounted (x : Issue) (s : State) (wr : Bool) : State :=
  let s1 := { s with fresh := s.fresh + 2 }
  let s2 := if !wr then s1 else modWarp (modNet s1 fun n => { n with
    groups := tput n.groups (s.fresh + 1) ⟨s.fresh + 1, x.wid, ⟨true, true, true, true⟩, 0, 1, true, false⟩ }) x.wid
    fun w => { cwRise w ⟨true, true, true, true⟩ with st := w.st + 1 }
  modWarp s2 x.wid fun w => { w with cp := w.cp + 1 }

theorem exists_blocks_clearAt (s : State) (r : Receiver) (keys : List Nat) : ∃ bs, (clearAt s r keys).1 = { s with blocks := bs } := by
  unfold clearAt
  split
  · exact ⟨_, rfl⟩
  · dsimp only
    split <;> exact ⟨_, rfl⟩

theorem exists_blocks_foldl_clearAt (rs : List Receiver) (t : State × List Nat) :
    ∃ bs, (rs.foldl (fun (t : State × List Nat) r => clearAt t.1 r t.2) t).1 = { t.1 with blocks := bs } := by
  induction rs generalizing t with
  | nil => exact ⟨_, rfl⟩
  | cons r rs ih =>
    obtain ⟨bs, hclear⟩ := exists_blocks_clearAt t.1 r t.2
    obtain ⟨bs', hrest⟩ := ih (clearAt t.1 r t.2)
    exact ⟨bs', by rw [List.foldl_cons, hrest, hclear]⟩

/-- A copy that is no global write, or whose counters have room, starts (R224). -/
theorem startCopy_advance (h : writesGlobal c.kind = true → cwFull x.w ⟨true, true, true, true⟩ = false) :
    (startCopy x s c).1 = .advance := by
  have hroom : (writesGlobal c.kind && cwFull x.w ⟨true, true, true, true⟩) = false := by
    cases hwr : writesGlobal c.kind with
    | false => rfl
    | true => rw [h hwr]; rfl
  simp only [startCopy, hroom, Bool.false_eq_true, if_false]

/-- The lines of the own core's receivers are cleared as a copy starts: the state, and the lines that still wait (R265). -/
def copyCleared (x : Issue) (s : State) (c : CopyCmd) : State × List Nat :=
  let s1 := copyCounted x s (writesGlobal c.kind)
  (recvsOn s1 (((blockOf s1 x.w).map (·.core)).getD x.w.core) c.recvs).foldl (fun (t : State × List Nat) r => clearAt t.1 r t.2)
    (s1, if writesGlobal c.kind then [] else lineKeys c.recvs 0 c.total)

/-- A copy that starts: its counters, lines of its receivers, and its command in the engine, as it was but for its number, the old
bytes of its sources, its group and its lines (R223, R265, R271, R273). -/
theorem startCopy_snd (h : (startCopy x s c).1 = .advance) :
    (startCopy x s c).2 = modNet (copyCleared x s c).1 fun n => { n with
      copies := tput n.copies s.fresh { c with
        id := s.fresh
        srcOld := sourceNow (copyCounted x s (writesGlobal c.kind)) { c with id := s.fresh }
        grp := if writesGlobal c.kind then some (s.fresh + 1) else none
        uncleared := (copyCleared x s c).2 } } := by
  have hroom : ¬(writesGlobal c.kind && cwFull x.w ⟨true, true, true, true⟩) = true := by
    intro hfull
    simp only [startCopy] at h
    rw [if_pos hfull] at h
    cases h
  simp only [startCopy]
  rw [if_neg hroom]
  rfl

/-- Clearing lines changes nothing but the block that holds them. -/
theorem exists_blocks_copyCleared (x : Issue) (s : State) (c : CopyCmd) :
    ∃ bs, (copyCleared x s c).1 = { copyCounted x s (writesGlobal c.kind) with blocks := bs } := exists_blocks_foldl_clearAt ..

/-- The CP of a warp whose copy has its counters (R223, R224). -/
theorem cp_copyCounted (wr : Bool) (hw : tget s.warps x.wid = some w) :
    (tget (copyCounted x s wr).warps x.wid).map (·.cp) = some (w.cp + 1) := by
  cases wr with
  | false => exact congrArg (Option.map (·.cp)) (tget_tmod_same hw _)
  | true => exact congrArg (Option.map (·.cp)) (tget_tmod_same (tget_tmod_same hw _) _)

end Sys2Proof.Machine
end

section
/-! PROOF. Copies start, and channel operations complete. -/

namespace Sys2Proof.Machine

open Sys2Proof

variable {i : Instr} {f : UB} {s s1 : State} {x : Issue} {c : CopyCmd}

/-- What an instruction does whose meaning is to start a copy. -/
theorem does_startCopy (hexec : exec i s = .next (finish x (startCopy x s1 c)))
    (h : writesGlobal c.kind = true → cwFull x.w ⟨true, true, true, true⟩ = false) :
    (startCopy x s1 c).1 = .advance ∧ Does i s x .advance (startCopy x s1 c).2 :=
  ⟨startCopy_advance h, does_of_exec hexec (Prod.ext (startCopy_advance h) rfl)⟩

/-- CPY.s2s whose operands are aligned and lie in the allocation (R224). -/
theorem exec_cpyS2s {src ring dst : SPlace} (h : Issues (.cpyS2s f) s x)
    (halign : copyAlign x [((sread x.w f.sa.toNat).toNat, 16), ((sread x.w f.sb.toNat).toNat, 16), ((sread x.w f.sc.toNat).toNat, 16)] = none)
    (hsrc : copyPlace x s (sread x.w f.sa.toNat).toNat (sread x.w (f.sa.toNat + 1)).toNat = .ok src)
    (hring : copyPlace x s (sread x.w f.sc.toNat).toNat 16 = .ok ring)
    (hdst : copyPlace x s (sread x.w f.sb.toNat).toNat (sread x.w (f.sa.toNat + 1)).toNat = .ok dst) :
    exec (.cpyS2s f) s = .next (finish x (startCopy x s
      { newCopy x s .s2s (bit f.imm.toNat 12) [⟨ring, (sread x.w f.sd.toNat).toNat, dst⟩] with
        src := src, total := (sread x.w (f.sa.toNat + 1)).toNat })) := by
  obtain ⟨hissuer, hp, hpois⟩ := h
  rw [show exec (.cpyS2s f) s = execCpyS2s f s from rfl, execCpyS2s, issue_of hissuer hp]
  simp only [halign, hsrc, hring, hdst, hpois]

/-- TDCHK that reads its descriptor (R222). -/
theorem exec_tdchk {p : SPlace} {bs : List Byte} (h : Issues (.tdchk f) s x)
    (halign : copyAlign x [((sread x.w f.sa.toNat).toNat, 64)] = none) (hplace : copyPlace x s (sread x.w f.sa.toNat).toNat 64 = .ok p)
    (hheld : descHeld s x p = false) (hread : readDesc x s (sread x.w f.sa.toNat).toNat p true = .got bs s1) :
    exec (.tdchk f) s =
      .next (finish x (.advance, modWarp s1 x.wid (fun w => swrite w f.sd.toNat (BitVec.ofNat 32 (descCheck bs))))) := by
  obtain ⟨hissuer, hp, hpois⟩ := h
  rw [show exec (.tdchk f) s = execTdchk f s from rfl, execTdchk, issue_of hissuer hp]
  simp only [halign, hplace, hpois, hheld, Bool.false_eq_true, if_false, hread]

/-- The bytes of a COLL's source and destination (R230). -/
def collBytes (f : UB) (w : Warp) (grp : CollGroup) : Nat × Nat :=
  let e := collElems (f.sub.toNat % 4) grp.members.length (sread w (f.sb.toNat + 2)).toNat
  (e.1 * collSize (bits f.imm.toNat 2 4), e.2 * collSize (bits f.imm.toNat 2 4))

/-- The command of COLL (R230, R421). -/
def newColl (f : UB) (x : Issue) (s : State) (n : Nat × Nat) (sp dp ring : SPlace) (failed : Option (Nat × Nat × Nat)) : CopyCmd :=
  { newCopy x s (.coll (f.sub.toNat % 4) (f.imm.toNat % 4) (bits f.imm.toNat 2 4) (sread x.w f.sa.toNat).toNat
      (sread x.w (f.sa.toNat + 1)).toNat) false [⟨ring, (sread x.w f.sd.toNat).toNat, dp⟩] with
    src := sp, count := n.1, total := n.2, failed := failed }

/-- Whether a COLL of a group is of this step (R421). -/
def isStep (stp : Nat) (k : CopyCmd) : Bool := match k.kind with | .coll _ _ _ _ t => t == stp | _ => false

theorem any_isStep_false {stp : Nat} {ks : List CopyCmd} (h : ∀ k ∈ ks, ∀ a b c d, k.kind ≠ .coll a b c d stp) :
    ¬ ks.any (isStep stp) = true := by
  rw [List.any_eq_true]
  rintro ⟨k, hk, hstep⟩
  unfold isStep at hstep
  split at hstep
  next hkind => exact h k hk _ _ _ _ (eq_of_beq hstep ▸ hkind)
  next => cases hstep

/-- COLL of a registered group, its operands aligned, its source and destination in the own rank, of a step that is not under way
(R230, R421). -/
theorem exec_coll {grp : CollGroup} {sp dp ring : SPlace} (h : Issues (.coll f) s x)
    (halign : copyAlign x [((sread x.w f.sb.toNat).toNat, 128), ((sread x.w (f.sb.toNat + 1)).toNat, 128),
      ((sread x.w f.sc.toNat).toNat, 16)] = none)
    (hg : (sread x.w f.sa.toNat).toNat < 256) (hgrp : findGroup (settleGroups s) x.ctx (sread x.w f.sa.toNat).toNat = some grp)
    (hsp : copyPlace x (settleGroups s) (sread x.w f.sb.toNat).toNat (collBytes f x.w grp).1 = .ok sp)
    (hsprank : sp.rank = rankOf (settleGroups s) x.w)
    (hdp : copyPlace x (settleGroups s) (sread x.w (f.sb.toNat + 1)).toNat (collBytes f x.w grp).2 = .ok dp)
    (hdprank : dp.rank = rankOf (settleGroups s) x.w)
    (hring : copyPlace x (settleGroups s) (sread x.w f.sc.toNat).toNat 16 = .ok ring)
    (hfew : (collsOf (settleGroups s) x.ctx (sread x.w f.sa.toNat).toNat).length < 8)
    (hnew : ∀ k ∈ collsOf (settleGroups s) x.ctx (sread x.w f.sa.toNat).toNat, ∀ a b c d,
      k.kind ≠ .coll a b c d (sread x.w (f.sa.toNat + 1)).toNat) :
    exec (.coll f) s = .next (finish x (startCopy x (settleGroups s)
      (newColl f x (settleGroups s) (collBytes f x.w grp) sp dp ring none))) := by
  obtain ⟨hissuer, hp, hpois⟩ := h
  unfold collBytes at hsp hdp
  rw [show exec (.coll f) s = execColl f s from rfl, execColl, issue_of hissuer hp]
  simp only [halign, hg, if_true, hgrp, poisOf_none_of hpois, hsp, hsprank, hdp, hdprank, hring]
  rw [if_neg (Nat.not_le.mpr hfew)]
  exact congrArg (fun o => Host.Outcome.next (finish x (startCopy x (settleGroups s)
    (newColl f x (settleGroups s) (collBytes f x.w grp) sp dp ring o)))) (if_neg (any_isStep_false hnew))

/-- CHRECV.take of a channel that the block receives, with a slot to take, and without one (R191, R279). -/
theorem exec_chrecvTake_slot {b : Block} {j : Nat} (h : Issues (.chrecvTake f) s x) (hgood : chrecvBad x s (f.imm.toNat % 16) = false)
    (hb : blockOf s x.w = some b) (hj : takeable b (f.imm.toNat % 16) = some j) :
    Does (.chrecvTake f) s x .advance (modWarp (modBlock s x.w.block (fun b => setChSlot b (f.imm.toNat % 16) j .taken)) x.wid
      (fun w => acquire (swrite w f.sd.toNat (BitVec.ofNat 32 (chSlotOff x.record (f.imm.toNat % 16) j))) s.clock 2 x.seam)) := by
  refine does_of_issueOp h (show exec (.chrecvTake f) s = execChrecvTake f s from rfl) ?_
  simp only [hgood, Bool.false_eq_true, if_false, hb, Option.bind_some, hj]
  rfl

theorem exec_chrecvTake_none {b : Block} (h : Issues (.chrecvTake f) s x) (hgood : chrecvBad x s (f.imm.toNat % 16) = false)
    (hb : blockOf s x.w = some b) (hj : takeable b (f.imm.toNat % 16) = none) :
    exec (.chrecvTake f) s = .next (finish x (parkAll s x (.chTake (f.imm.toNat % 16) f.sd.toNat))) := by
  refine exec_of_issueOp h (show exec (.chrecvTake f) s = execChrecvTake f s from rfl) ?_
  simp only [hgood, Bool.false_eq_true, if_false, hb, Option.bind_some, hj]

theorem exec_chrecvDone {b : Block} {e : Nat × Nat × ChState} (h : Issues (.chrecvDone f) s x)
    (hgood : chrecvBad x s (f.imm.toNat % 16) = false) (hb : blockOf s x.w = some b)
    (he : b.chSlots.find? (fun e => e.1 == f.imm.toNat % 16 && e.2.2 == .taken) = some e) :
    Does (.chrecvDone f) s x .advance
      (modBlock (dropDescs s x.wid) x.w.block (fun b => { b with chSlots := b.chSlots.erase e })) := by
  refine does_of_issueOp h (show exec (.chrecvDone f) s = execChrecvDone f s from rfl) ?_
  simp only [hgood, Bool.false_eq_true, if_false, hb, Option.bind_some, he]

/-- The command of CHSEND: the claim of a slot of its channel at the receiver `idx`, not counted before it is granted (R191). -/
def channelCopy (f : UB) (x : Issue) (s : State) (id : Nat) (src : SPlace) (idx : Nat) : CopyCmd :=
  { newCopy x s (.chan (f.imm.toNat % 16) 0) false [] with
    id := id, src := src, total := chMline (recChannel x.record (f.imm.toNat % 16)) * 128, count := idx, counts := false }

/-- CHSEND on a valid channel of the block's rank, of the channel's size, whose receiver has not ended (R190, R191). -/
theorem exec_chsend {src : SPlace} {idx : Nat} (h : Reaches (.chsend f) s x)
    (hload : waitsForLoad s x.wid (chsendUses x.record f) = false) (hpois : poisUses x s (chsendUses x.record f) = none)
    (halign : copyAlign x [((sread x.w f.sa.toNat).toNat, 128)] = none)
    (hvalid : chV (recChannel x.record (f.imm.toNat % 16)) = true) (hrank : rankOf s x.w = chSrank (recChannel x.record (f.imm.toNat % 16)))
    (hsize : (sread x.w f.sb.toNat).toNat = chMline (recChannel x.record (f.imm.toNat % 16)) * 128)
    (hsrc : copyPlace x s (sread x.w f.sa.toNat).toNat (chMline (recChannel x.record (f.imm.toNat % 16)) * 128) = .ok src)
    (hidx : chCluster BitVec.toNat (recChannel x.record (f.imm.toNat % 16)) (clusterIdx s x.w) (recGrid x.record)
      (sread x.w (chArg (recChannel x.record (f.imm.toNat % 16)))) = some idx)
    (hlive : ∀ b, blockAt s (((clusterOf s x.w).map (fun c => c.2.grid)).getD 0) idx (chDrank (recChannel x.record (f.imm.toNat % 16))) = some b →
      b.2.ended = false) :
    let s1 := dropDescs s x.wid
    let s2 := { s1 with fresh := s1.fresh + 1 }
    let c := channelCopy f x s2 s1.fresh src idx
    exec (.chsend f) s = .next (finish x
      (parkAll (modNet s2 (fun t => { t with copies := tput t.copies s1.fresh c })) x (.chSend s1.fresh))) := by
  have hlive' : (blockAt s (((clusterOf s x.w).map (fun c => c.2.grid)).getD 0) idx (chDrank (recChannel x.record (f.imm.toNat % 16)))).any
      (fun b => b.2.ended) = false := by
    cases hb : blockAt s (((clusterOf s x.w).map (fun c => c.2.grid)).getD 0) idx (chDrank (recChannel x.record (f.imm.toNat % 16))) with
    | none => rfl
    | some b => exact hlive b hb
  rw [show exec (.chsend f) s = execChsend f s from rfl, execChsend, issue_of h.1 h.2]
  simp only [hload, Bool.false_eq_true, if_false, halign, hvalid, if_true, hsrc, hpois, hrank, hsize, hidx, hlive', Bool.not_true,
    bne_self_eq_false, Bool.or_self, nextId]
  rfl

/-- Settles O37: a copy by what its descriptor says, the others by the operands that they check; what each then starts, takes or frees. -/
theorem copiesAndChannelsComplete : Obligations.CopiesAndChannelsComplete := by
  unfold Obligations.CopiesAndChannelsComplete
  refine ⟨?valid, ?invalid, ?s2s, ?counts, ?tdchk, ?coll, ?send, ?take, ?done⟩
  case valid =>
    intro i f kind mask index s s1 x dp ip rings dsts bs total hi ⟨hissuer, hp, hpois⟩ da buf hdr count co wr hda hbuf hhdr hindex
      hdesc hrings hip hnone hread hcheck hform hcoords hdsts hroom slot c
    have hwr : writesGlobal kind = wr := writesGlobal_of_copyForm hi
    have halign : copyAlignFault x (copyArgs x.w f index) (descValid x s (copyArgs x.w f index)) = none := by
      refine copyAlignFault_eq_none ?_ fun _ => hbuf
      rw [copyAlignFault, copyAlign_eq_none_iff]
      cases hix : index with
      | none => simpa [copyArgs, hix] using ⟨hda, hhdr⟩
      | some e => simpa [copyArgs, hix] using ⟨hda, hhdr, hindex e hix⟩
    have hcopy := descCopy_valid (f := f) (rings := rings) (ip := ip) (a := copyArgs x.w f index) hcheck hform hcoords hdsts
    rw [hwr] at hcopy
    exact does_startCopy ((exec_copy hi ⟨hissuer, hp⟩).trans (congrArg (fun r => Host.Outcome.next (finish x r))
      (copyDesc_starts halign (copyFixed_ok hdesc hrings hip hnone) hread hcopy hpois))) fun h => hroom (hwr ▸ h)
  case invalid =>
    intro i f kind mask index s s1 x dp ip rings bs hi ⟨hissuer, hp, hpois⟩ a halign hfixed hread hcheck hroom
    have hvalid : descValid x s a = false := by
      rw [descValid_eq (copyPlace_of_copyFixed hfixed) hread]
      simpa using hcheck
    have hcopy := descCopy_invalid (x := x) (s := s1) (kind := kind) (f := f) (mask := mask) (a := a) (rings := rings) (ip := ip) hcheck
    rw [issuerOf_instr hissuer] at hcopy
    exact (does_startCopy ((exec_copy hi ⟨hissuer, hp⟩).trans (congrArg (fun r => Host.Outcome.next (finish x r))
      (copyDesc_starts (hvalid ▸ halign) hfixed hread hcopy hpois))) hroom).2
  case s2s =>
    intro f s x src ring dst h a n buf hdr ha hbuf hhdr hsrc hring hdst
    have halign : copyAlign x [(a, 16), (buf, 16), (hdr, 16)] = none := copyAlign_eq_none_iff.mpr (by simp [ha, hbuf, hhdr])
    exact (does_startCopy (exec_cpyS2s h halign hsrc hring hdst) fun hwr => by cases hwr).2
  case counts =>
    intro x s c w hw h
    obtain ⟨bs, hcleared⟩ := exists_blocks_copyCleared x s c
    rw [startCopy_snd h]
    refine ⟨?_, by simp⟩
    rw [modNet_warps, hcleared]
    exact cp_copyCounted _ hw
  case tdchk =>
    intro f s s1 x p bs h a ha hplace hheld hread
    exact exec_tdchk h (copyAlign_eq_none_iff.mpr (by simpa using ha)) hplace hheld hread
  case coll =>
    intro f s x grp sp dp ring h ty g stp src dst hdr s1 e hsrc hdst hhdr hg hgrp hsp hsprank hdp hdprank hring hfew hnew
    have halign : copyAlign x [(src, 128), (dst, 128), (hdr, 16)] = none := copyAlign_eq_none_iff.mpr (by simp [hsrc, hdst, hhdr])
    exact (does_startCopy (exec_coll h halign hg hgrp hsp hsprank hdp hdprank hring hfew hnew)
      fun hwr => by cases hwr).2
  case send =>
    intro f s x src idx ⟨hissuer, hp, _⟩ n e a size hload hpois ha hvalid hrank hsize hsrc hidx hlive
    exact exec_chsend ⟨hissuer, hp⟩ hload hpois (copyAlign_eq_none_iff.mpr (by simpa using ha)) hvalid hrank hsize hsrc hidx hlive
  case take =>
    intro f s x h n hgood
    exact ⟨fun b j hb hj => exec_chrecvTake_slot h hgood hb hj, fun b hb hj => exec_chrecvTake_none h hgood hb hj⟩
  case done =>
    intro f s x b e h n hgood hb he
    exact exec_chrecvDone h hgood hb he

end Sys2Proof.Machine
end

section
/-! SUPPORT. What a walk, a read or a write at the homes leaves of the grids and of the warps: the grids, and each warp but for where
its lanes stand, which the fence that a record may begin drops (R385, R390). -/

namespace Sys2Proof.Machine

open Sys2Proof

/-- The grids, and every warp but for where its lanes stand. -/
def holdings (s : State) : Tbl Grid × List (Nat × Warp) := (s.grids, s.warps.map fun e => (e.1, placeless e.2))

theorem grids_of_holdings {s t : State} (h : holdings t = holdings s) : t.grids = s.grids := congrArg Prod.fst h

/-- Steps over a list keep what each of them keeps. -/
theorem foldl_holdings {α : Type} {f : State → α → State} (h : ∀ s a, holdings (f s a) = holdings s) (l : List α) (s : State) :
    holdings (l.foldl f s) = holdings s := by
  induction l generalizing s with
  | nil => rfl
  | cons a l ih => exact (ih _).trans (h s a)

theorem getD_holdings {o : Option State} {s : State} (h : ∀ t, o = some t → holdings t = holdings s) :
    holdings (o.getD s) = holdings s := by
  cases o with
  | none => rfl
  | some t => exact h t rfl

/-- A change of a warp that moves its lanes alone. -/
theorem modWarp_holdings (s : State) (k : Nat) {f : Warp → Warp} (hf : ∀ w, placeless (f w) = placeless w) :
    holdings (modWarp s k f) = holdings s := by
  refine congrArg (Prod.mk s.grids) ?_
  unfold modWarp tmod
  dsimp only
  split
  next => rfl
  next w hw => exact map_tput_of_tget hw (congrArg (Prod.mk k) (hf w))

@[simp] theorem modSlice_holdings (s k f) : holdings (modSlice s k f) = holdings s := rfl

@[simp] theorem dropParked_holdings (s k) : holdings (dropParked s k) = holdings s := modWarp_holdings s k fun _ => rfl

@[simp] theorem startFence_holdings (s c f) : holdings (startFence s c f) = holdings s := by
  unfold startFence
  dsimp only
  split
  · rfl
  · exact foldl_holdings dropParked_holdings _ s

@[simp] theorem report_holdings (s die e) : holdings (report s die e) = holdings s := by
  unfold report
  dsimp only
  split
  · rfl
  · split
    · split
      · exact startFence_holdings ..
      · rfl
    · rfl

@[simp] theorem denyAccess_holdings (s die mid ctx a acc) : holdings (denyAccess s die mid ctx a acc) = holdings s := by
  unfold denyAccess
  cases ctx with
  | none => exact report_holdings ..
  | some c => exact (startFence_holdings ..).trans (report_holdings ..)

@[simp] theorem unbackedAccess_holdings (s die mid ctx a wr) : holdings (unbackedAccess s die mid ctx a wr) = holdings s := by
  grind [unbackedAccess, report_holdings]

@[simp] theorem sendMsg_holdings (s m) : holdings (sendMsg s m) = holdings s := rfl

@[simp] theorem sendBy_holdings (s link pkg head body) : holdings (sendBy s link pkg head body) = holdings s := by
  grind [sendBy, sendMsg_holdings, foldl_holdings]

@[simp] theorem sendLink_holdings (s pkg a head body) : holdings (sendLink s pkg a head body) = holdings s := by
  grind [sendLink, sendBy_holdings]

@[simp] theorem peerRead_holdings (s k mid a n) : holdings (peerRead s k mid a n) = holdings s := by
  grind [peerRead, sendLink_holdings, report_holdings]

@[simp] theorem markPois_holdings (s g p) : holdings (markPois s g p) = holdings s := rfl

@[simp] theorem markWritten_holdings (s g p) : holdings (markWritten s g p) = holdings s := by
  grind [markWritten, markPois_holdings]

@[simp] theorem memPut_holdings (s a bs) : holdings (memPut s a bs) = holdings s := by
  unfold memPut
  split <;> rfl

@[simp] theorem writeBack_holdings (s b m) : holdings (writeBack s b m) = holdings s := by
  grind [writeBack, memPut_holdings, markWritten_holdings, foldl_holdings]

@[simp] theorem trainPredictor_holdings (s slice b) : holdings (trainPredictor s slice b) = holdings s := by
  grind [trainPredictor, modSlice_holdings]

@[simp] theorem dropBlk_holdings (s slice b) : holdings (dropBlk s slice b) = holdings s := rfl

@[simp] theorem putBlk_holdings (s slice b c) : holdings (putBlk s slice b c) = holdings s := rfl

@[simp] theorem purgeExpired_holdings (s slice) : holdings (purgeExpired s slice) = holdings s := rfl

@[simp] theorem evict_holdings (s slice b) : holdings (evict s slice b) = holdings s := by
  grind [evict, trainPredictor_holdings, dropBlk_holdings, writeBack_holdings]

theorem ensureRoom_holdings (slice set n keep a b) :
    ∀ t, ensureRoom slice set n keep a b = some t → holdings t = holdings b := by
  fun_induction ensureRoom <;> grind [evict_holdings, foldl_holdings]

@[simp] theorem compact_holdings (s slice set) : holdings (compact s slice set) = holdings s := rfl

@[simp] theorem mergeRegion_holdings (slice region lease a b) : holdings (mergeRegion slice region lease a b) = holdings b := by
  fun_induction mergeRegion <;> grind [dropBlk_holdings, putBlk_holdings]

theorem installBlk_holdings (s slice b) : ∀ t, installBlk s slice b = some t → holdings t = holdings s := by
  grind [installBlk, modSlice_holdings, mergeRegion_holdings, purgeExpired_holdings, ensureRoom_holdings, compact_holdings,
    Option.bind_eq_some_iff, Option.map_eq_some_iff]

@[simp] theorem touchBlk_holdings (s slice lease a) : holdings (touchBlk s slice lease a) = holdings s := by
  grind [touchBlk, putBlk_holdings]

@[simp] theorem portAt_holdings (s die own slice) : holdings (portAt s die own slice).2 = holdings s := by
  unfold portAt
  split <;> rfl

@[simp] theorem blkWrite_holdings (s slice a ps full) : holdings (blkWrite s slice a ps full) = holdings s := by
  grind [blkWrite, putBlk_holdings, foldl_holdings]

@[simp] theorem putGrain_holdings (s a bs) : holdings (putGrain s a bs) = holdings s := by
  grind [putGrain, blkWrite_holdings, memPut_holdings, markWritten_holdings]

@[simp] theorem setSplc_holdings (s k g v) : holdings (setSplc s k g v) = holdings s := by grind [setSplc, putBlk_holdings]

@[simp] theorem applyPartial_holdings (s e) : holdings (applyPartial s e) = holdings s := by
  grind [applyPartial, report_holdings, putGrain_holdings, getD_holdings]

theorem installAll_holdings (slice a b) : ∀ t, installAll slice a b = some t → holdings t = holdings b := by
  induction a generalizing b with
  | nil => grind [installAll]
  | cons c cs ih => grind [installAll, installBlk_holdings, Option.bind_eq_some_iff]

theorem fillGrains_holdings (s k f) : ∀ t, fillGrains s k f = some t → holdings t = holdings s := by
  grind [fillGrains, installAll_holdings]

@[simp] theorem dropFill_holdings (s k id) : holdings (dropFill s k id) = holdings s := rfl

@[simp] theorem bringGrains_holdings (s k region port m) : holdings (bringGrains s k region port m) = holdings s := by
  grind [bringGrains, fillGrains_holdings, dropFill_holdings, foldl_holdings, getD_holdings]

@[simp] theorem mapEnts_holdings (s f) : holdings (mapEnts s f) = holdings s := rfl

@[simp] theorem performEnt_holdings (s id) : holdings (performEnt s id) = holdings s := rfl

@[simp] theorem performAtBay_holdings (s id) : holdings (performAtBay s id) = holdings s := rfl

@[simp] theorem performEnts_holdings (s ids) : holdings (performEnts s ids) = holdings s := by
  grind [performEnts, performAtBay_holdings, foldl_holdings]

@[simp] theorem settleGrain_holdings (s g) : holdings (settleGrain s g) = holdings s := by
  unfold settleGrain
  split
  · rfl
  · split
    · rfl
    · rw [performEnts_holdings, setSplc_holdings]
      exact (foldl_holdings applyPartial_holdings _ _).trans (bringGrains_holdings ..)

@[simp] theorem readGrains_holdings (s k region port m) : holdings (readGrains s k region port m) = holdings s := by
  grind [readGrains, touchBlk_holdings, settleGrain_holdings, bringGrains_holdings, foldl_holdings]

@[simp] theorem engTouch_holdings (s die own pas) : holdings (engTouch s die own pas) = holdings s := by
  grind [engTouch, readGrains_holdings, portAt_holdings, foldl_holdings]

@[simp] theorem modDebug_holdings (s c f) : holdings (modDebug s c f) = holdings s := rfl

@[simp] theorem debugRead_holdings (s c off) : holdings (debugRead s c off).2 = holdings s := by
  unfold debugRead
  dsimp only
  split <;> rfl

@[simp] theorem evRead_holdings (s reg) : holdings (evRead s reg).2 = holdings s := by
  unfold evRead
  dsimp only
  split <;> rfl

@[simp] theorem regRead_holdings (s m off) : holdings (regRead s m off).2 = holdings s := by
  grind [regRead, evRead_holdings, debugRead_holdings]

@[simp] theorem malformedBy_holdings (s mid ctx off size reason) :
    holdings (malformedBy s mid ctx off size reason) = holdings s := by
  grind [malformedBy, report_holdings]

@[simp] theorem malformed_holdings (s m off size reason) : holdings (malformed s m off size reason) = holdings s := by
  grind [malformed, malformedBy_holdings]

@[simp] theorem mmioRead_holdings (s m off size) : holdings (mmioRead s m off size).2 = holdings s := by
  grind [mmioRead, regRead_holdings, malformed_holdings]

@[simp] theorem pteRead_holdings (s k core ctx a) : holdings (pteRead s k core ctx a) = holdings s := by
  unfold pteRead
  dsimp only
  split
  · exact denyAccess_holdings ..
  · split
    · exact engTouch_holdings ..
    · exact engTouch_holdings ..
    · exact mmioRead_holdings ..
    · exact peerRead_holdings ..
    · exact unbackedAccess_holdings ..

@[simp] theorem cacheLeaf_holdings (s core e) : holdings (cacheLeaf s core e) = holdings s := rfl

@[simp] theorem walkReads_holdings (s0 core ctx va a b c) : holdings (walkReads s0 core ctx va a b c) = holdings c := by
  fun_induction walkReads <;> grind [pteRead_holdings]

@[simp] theorem cacheVa_holdings (s core ctx va) : holdings (cacheVa s core ctx va) = holdings s := by
  grind [cacheVa, cacheLeaf_holdings, walkReads_holdings]

@[simp] theorem poisonHome_holdings (s g) : holdings (poisonHome s g) = holdings s := by
  grind [poisonHome, putBlk_holdings, markPois_holdings]

@[simp] theorem cutLease_holdings (s slice a) : holdings (cutLease s slice a) = holdings s := by grind [cutLease, modSlice_holdings]

@[simp] theorem staleFills_holdings (s slice a) : holdings (staleFills s slice a) = holdings s := rfl

@[simp] theorem dropLeaseGrain_holdings (s die a) : holdings (dropLeaseGrain s die a) = holdings s := by
  grind [dropLeaseGrain, cutLease_holdings, staleFills_holdings]

@[simp] theorem retireGrain_holdings (s g) : holdings (retireGrain s g) = holdings s := by
  grind [retireGrain, mapEnts_holdings, dropLeaseGrain_holdings, foldl_holdings]

@[simp] theorem reelNote_holdings (s a wr) : holdings (reelNote s a wr) = holdings s := by
  grind [reelNote, denyAccess_holdings, unbackedAccess_holdings, getD_holdings]

@[simp] theorem reelGrain_holdings (s src dst) : holdings (reelGrain s src dst).1 = holdings s := by
  grind [reelGrain, settleGrain_holdings, poisonHome_holdings, putGrain_holdings]

theorem withSec_holdings (s : State) (x : Sec) : holdings { s with sec := x } = holdings s := rfl

theorem foldl_fst_holdings {α β : Type} {f : State × β → α → State × β} (h : ∀ r a, holdings (f r a).1 = holdings r.1) (l : List α)
    (r : State × β) : holdings (l.foldl f r).1 = holdings r.1 := by
  induction l generalizing r with
  | nil => rfl
  | cons a l ih => exact (ih _).trans (h r a)

@[simp] theorem reelCopy_holdings (s src dst) : holdings (reelCopy s src dst) = holdings s := by
  have hpages (m : Bool) (l : List Nat) (s : State) : holdings (l.foldl (fun s a => reelNote s a m) s) = holdings s :=
    foldl_holdings (fun s a => reelNote_holdings s a m) l s
  unfold reelCopy
  refine (withSec_holdings _ _).trans ?_
  refine Eq.trans (foldl_fst_holdings (by intro r i; exact reelGrain_holdings ..) _ _) ?_
  rw [hpages true, hpages false]

@[simp] theorem reelHook_holdings (s a) : holdings (reelHook s a) = holdings s := by grind [reelHook, reelCopy_holdings]

@[simp] theorem openGrain_holdings (s a) : holdings (openGrain s a) = holdings s := by
  grind [openGrain, settleGrain_holdings, reelHook_holdings]

@[simp] theorem homeStoreBy_holdings (s die own a bs) : holdings (homeStoreBy s die own a bs) = holdings s := by
  grind [homeStoreBy, blkWrite_holdings, installBlk_holdings, portAt_holdings, retireGrain_holdings, bringGrains_holdings,
    openGrain_holdings, putGrain_holdings, dropLeaseGrain_holdings, getD_holdings]

@[simp] theorem writeBytesBy_holdings (s die own a bs) : holdings (writeBytesBy s die own a bs) = holdings s := by
  grind [writeBytesBy, homeStoreBy_holdings, foldl_holdings]

@[simp] theorem sendStore_holdings (s die who grp a bs) : holdings (sendStore s die who grp a bs) = holdings s := rfl

@[simp] theorem modQueue_holdings (s q f) : holdings (modQueue s q f) = holdings s := rfl

@[simp] theorem engineWrite_holdings (s q ctx a bs) : holdings (engineWrite s q ctx a bs).2 = holdings s := by
  have hid (s : State) : holdings (nextId s).2 = holdings s := rfl
  grind [engineWrite, denyAccess_holdings, unbackedAccess_holdings, sendStore_holdings, writeBytesBy_holdings]

@[simp] theorem completePacket_holdings (s q idx) : holdings (completePacket s q idx) = holdings s := rfl

@[simp] theorem badPacket_holdings (s q idx) : holdings (badPacket s q idx) = holdings s := by
  grind [badPacket, report_holdings, modQueue_holdings]

@[simp] theorem modPacket_holdings (s q idx f) : holdings (modPacket s q idx f) = holdings s := rfl

@[simp] theorem restartWatchdog_holdings (s c) : holdings (restartWatchdog s c) = holdings s := rfl

@[simp] theorem writeStatus_holdings (s q idx ctx va status) : holdings (writeStatus s q idx ctx va status) = holdings s := by
  grind [writeStatus, modPacket_holdings, cacheVa_holdings, engineWrite_holdings, badPacket_holdings]

/-- The end of a KLAUNCH brings no grid back (R364). -/
@[simp] theorem endKlaunch_holdings (s q p st) : holdings (endKlaunch s q p st) = holdings s := by
  grind [endKlaunch, completePacket_holdings, restartWatchdog_holdings, writeStatus_holdings]

end Sys2Proof.Machine
end

section
/-! SUPPORT. The knot and queue events, by what they find (R183 to R185, R331, R360 to R364). -/

namespace Sys2Proof.Machine

open Sys2Proof

variable {s t : State} {r : KnotReq} {id q idx v : Nat} {p : Packet}

/-- A knot request on its way (R331): a KGIVE whose release has taken effect is sent, another acts at its record's home. -/
theorem execKnotRequest_sent (hr : tget s.net.knots id = some r) (hreply : r.reply = none) (hqueued : r.queued = false)
    (hresend : r.resendAt = none) (hsent : r.sent = none) (hdrained : giveDrained s r = true) :
    execKnotRequest id s = .next (modNet { s with fresh := s.fresh + 1 } (fun n => { n with
      knots := tput n.knots id { r with sent := some s.fresh, drained := true } })) := by
  simp only [execKnotRequest, hr, hreply, hqueued, hresend, hsent, hdrained, Option.isSome_none, Option.isNone_none, Bool.or_self,
    Bool.false_eq_true, if_false, if_true, nextId]

theorem execKnotRequest_arrives (hr : tget s.net.knots id = some r) (hreply : r.reply = none) (hqueued : r.queued = false)
    (hresend : r.resendAt = none) (hsent : r.sent ≠ none) (hbehind : knotBehind s r = false) :
    execKnotRequest id s = .next (arriveKnot s r) := by
  have hsent' : r.sent.isNone = false := by
    cases h : r.sent with
    | none => exact absurd h hsent
    | some _ => rfl
  simp only [execKnotRequest, hr, hreply, hqueued, hresend, hsent', hbehind, Option.isSome_none, Bool.or_self, Bool.false_eq_true, if_false]

theorem execKnotRequest_answered (hr : tget s.net.knots id = some r) {at' : Nat} (hreply : r.reply = some (v, at'))
    (hbehind : replyBehind s r at' = false) : execKnotRequest id s = .next (knotAnswered s r v) := by
  simp only [execKnotRequest, hr, hreply, hbehind, Bool.false_eq_true, if_false]

/-- A backed record that the tables let the request read and write (R182, R385). -/
theorem arriveKnot_permitted {m : Nat × Nat} {k : Nat} (hm : knotMaster s r = some m)
    (hlow : permits s m.1 (routed s r.krec) true true = true) (hhigh : permits s m.1 (routed s (r.krec + 32)) true true = true)
    (hhome : homeOf s (routed s r.krec) = some k) :
    arriveKnot s r = applyKnot ([routed s r.krec, routed s (r.krec + 32)].foldl (fun t a =>
      engTouchN t (knotDie s r) (knotPort t r) a 32) s) r := by
  have hfind : [routed s r.krec, routed s (r.krec + 32)].find? (fun a => !permits s m.1 a true true) = none := by simp [hlow, hhigh]
  unfold arriveKnot
  simp only [hm, hfind, List.headD_cons]
  unfold homeOf at hhome
  cases hplace : placeOf s (routed s r.krec) <;> simp [hplace] at hhome ⊢

/-- The reply to a request of a warp or of a SIGNAL (R182, R331). -/
theorem replyKnot_answers (h : r.warp.isSome = true ∨ ∃ q n, r.taker = .signal q n) (v : Nat) :
    replyKnot t r v = modNet { t with fresh := t.fresh + 1 } (fun n => { n with
      knots := tput n.knots r.id { r with queued := false, resendAt := none, reply := some (v, t.fresh) } }) := by
  unfold replyKnot
  split
  next hwarp htaker => simp [hwarp, htaker] at h
  next => rfl

/-- A KTAKE that has found no room, after its 256 clocks (R331). -/
theorem execKtakeResend_due {at' : Nat} (hr : tget s.net.knots id = some r) (hat : r.resendAt = some at') (hdue : at' ≤ s.clock) :
    execKtakeResend id s = .next (modNet { s with fresh := s.fresh + 1 } (fun n => { n with
      knots := tput n.knots id { r with resendAt := none, sent := some s.fresh } })) := by
  simp only [execKtakeResend, hr, hat, hdue, if_true, nextId]

/-- A whole packet that a host function may write to the window of an enabled queue with room (R361). -/
theorem windowWrite_enqueues {fn : Nat} {ws : List Word} (hperm : permits s (hostMaster fn) (mmioBase + (0x30000 + 0x40 * q)) false true = true)
    (hq : queueAllowed s (hostMaster fn) q = true) (hthere : queueThere s q = true) (hready : s.sec.ready = true)
    (hfatal : s.sec.fatal = none) (hlen : ws.length = 16) (htype : (ws.headD 0).toNat % 256 ≠ 0) (hen : (queueOf s q).en = true)
    (hroom : queueCount (queueOf s q) < queueCap (queueOf s q)) :
    windowWrite s fn q 64 ws = serveQueue (enqueue s q (wordsPacket ws)) q := by
  have hmid : midOf s ⟨8, fn⟩ = hostMaster fn := rfl
  simp only [windowWrite, hmid, hperm, hq, hthere, hready, hfatal, hlen, htype, hen, Nat.not_le.mpr hroom, Bool.not_true, Bool.or_self,
    Option.isSome_none, Bool.false_eq_true, if_false, ne_eq, not_true_eq_false, or_self]

/-- The offset of QCTL of a queue (R360, R381). -/
theorem regWrite_qctl {m : Master} (hq : q < 512) (hthere : queueThere s q = true) (v : Word) :
    regWrite s m (0x20000 + 0x40 * q + 0x08) v = writeQctl s q v.toNat := by
  have hblock : (0x20000 + 0x40 * q + 0x08) / 65536 = 2 := by omega
  have hoff : (0x20000 + 0x40 * q + 0x08) % 65536 = 0x40 * q + 0x08 := by omega
  have hin : 0x40 * q + 0x08 < 0x8000 := by omega
  have hqueue : (0x40 * q + 0x08) / 64 = q := by omega
  have hreg : (0x40 * q + 0x08) % 64 = 0x08 := by omega
  simp only [regWrite, hblock, hoff, hin, if_true, hqueue, hreg, queueWrite, hthere, Bool.not_true, Bool.false_eq_true, if_false]

/-- A KLAUNCH whose packet and record pass their checks (R363). -/
theorem execKlaunch_enters {s1 : State} {rec_ : List Byte} (hhead : headType s q = some 1)
    (hok : packetOk (startPacket s q).1.bytes = true) (hopen : ctxClosed (startPacket s q).2 (queueOf s q).ctx = false)
    (hread : readRecord (startPacket s q).2 (engineCore q) (queueOf s q).ctx 3 (recField (startPacket s q).1.bytes 8 8 % 2 ^ 57) =
      (.ok (some rec_), s1)) (hrec : recordRefused s1 (q / 256) rec_ true = false) :
    let p := (startPacket s q).1
    let t := enterLaunch s1 (q / 256) (queueOf s q).ctx (queueOf s q).prio rec_ (some (q, p.idx)) (bit (recField p.bytes 0 4) 9)
    execKlaunch q s = .next (modPacket t.2 q p.idx (fun k => { k with grid := some t.1 })) := by
  simp only [execKlaunch, hhead, ne_eq, not_true_eq_false, if_false, hok, Bool.not_true, Bool.false_eq_true, hopen, hread, hrec]

theorem execWaiton_starts (hhead : headType s q = some 2) (hok : packetOk (startPacket s q).1.bytes = true) :
    execWaiton q s = .next (startPacket s q).2 := by
  simp only [execWaiton, hhead, ne_eq, not_true_eq_false, if_false, hok, if_true]

theorem execSignal_starts (hhead : headType s q = some 3) :
    execSignal q s = .next (startSignal (startPacket s q).2 q (startPacket s q).1) := by
  simp only [execSignal, hhead, ne_eq, not_true_eq_false, if_false]

theorem execWork_unknown {ty : Nat} (hhead : headType s q = some ty) (h1 : ty ≠ 1) (h2 : ty ≠ 2) (h3 : ty ≠ 3) :
    execWork q s = .next (badPacket (completePacket (startPacket s q).2 q (startPacket s q).1.idx) q (startPacket s q).1.idx) := by
  simp only [execWork, hhead, h1, h2, h3, or_self, if_false]

theorem execWaitonSatisfied_reached (hp : (queueOf s q).started.find? (fun p => p.idx == idx) = some p) (hty : recField p.bytes 0 1 = 2)
    (hcount : ((queueOf s (bits (recField p.bytes 0 4) 16 16)).ccnt + 2 ^ 32 - recField p.bytes 8 4) % 2 ^ 32 < 2 ^ 31) :
    execWaitonSatisfied q idx s = .next (completePacket s q idx) := by
  simp only [execWaitonSatisfied, hp]
  rw [if_pos ⟨hty, hcount⟩]

/-- KLAUNCH_COMPLETE of a packet that has a status already, or whose status word is under way (R364). -/
theorem execKlaunchComplete_status (hp : (queueOf s q).started.find? (fun p => p.idx == idx) = some p) (hty : recField p.bytes 0 1 = 1)
    (h : p.stage ≠ 0 ∨ p.grp.isSome = true) : execKlaunchComplete q idx s = .next (endKlaunch s q p p.stage) := by
  simp only [execKlaunchComplete, hp, hty, ne_eq, not_true_eq_false, if_false]
  rw [if_pos h]

/-- The state without a grid, its clusters and their blocks. -/
def withoutGrid (s : State) (gid : Nat) : State :=
  let dead := (s.clusters.filter (fun e => e.2.grid == gid)).map Prod.fst
  { s with
    grids := terase s.grids gid
    clusters := s.clusters.filter (fun e => e.2.grid != gid)
    blocks := s.blocks.filter (fun e => !dead.contains e.2.cluster) }

/-- KLAUNCH_COMPLETE of a grid that has ended and is quiet takes the grid away (R363, R364). -/
theorem execKlaunchComplete_ended {gid : Nat} {g : Grid} (hp : (queueOf s q).started.find? (fun p => p.idx == idx) = some p)
    (hty : recField p.bytes 0 1 = 1) (hstage : p.stage = 0) (hgrp : p.grp = none) (hgrid : p.grid = some gid)
    (hg : tget s.grids gid = some g) (hended : g.ended = recGrid g.record * recCsize g.record) (hquiet : gridQuiet s gid = true) :
    execKlaunchComplete q idx s = .next (endKlaunch (withoutGrid s gid) q p 0) := by
  simp only [execKlaunchComplete, hp, hty, ne_eq, not_true_eq_false, if_false, hstage, hgrp, Option.isSome_none, Bool.false_eq_true,
    or_self, hgrid, Option.bind_some, hg, Option.map_some, hended, hquiet, and_self, if_true, withoutGrid]

/-- The end of a KLAUNCH that has no status word to write (R364). -/
theorem endKlaunch_unwritten (hp : (queueOf s q).started.find? (fun x => x.idx == p.idx) = some p) (hgrp : p.grp = none)
    (hva : recField p.bytes 0x10 8 = 0) (status : Nat) :
    endKlaunch s q p status = restartWatchdog (completePacket s q p.idx) p.ctx := by
  have hwrite : writeStatus s q p.idx p.ctx (recField p.bytes 0x10 8) status = s := by rw [hva]; exact if_pos rfl
  have haway : statusAway s p = false := by simp only [statusAway, hgrp, Option.map_none, Option.getD_none]
  simp only [endKlaunch, hgrp, Option.isSome_none, Bool.false_eq_true, if_false, hwrite, hp, haway]

/-- An acknowledged SIGNAL that took no token, and one that took it, which gives it (R331, R363). -/
theorem execSignalComplete_unguarded (hp : packetOf s q idx = some p) (hty : recField p.bytes 0 1 = 3) (hstage : p.stage = 3)
    (hknot : p.knot = none) : execSignalComplete q idx s = .next (completePacket s q idx) := by
  simp [execSignalComplete, hp, hty, hstage, hknot]

theorem execSignalComplete_gives {krec h : Nat} {k : Knot} (hp : packetOf s q idx = some p) (hty : recField p.bytes 0 1 = 3)
    (hstage : p.stage = 3) (hknot : p.knot = some krec) (hk : knotOf s krec = some (h, k)) (hholder : k.holder = some (.signal q idx)) :
    execSignalComplete q idx s = .next (completePacket (signalGive s q h k.krec p.ctx) q idx) := by
  simp [execSignalComplete, hp, hty, hstage, hknot, hk, hholder]

theorem signalGive_permitted {h krec ctx : Nat} (hperm : permits s (masterOf s ctx 3) krec true true = true) :
    signalGive s q h krec ctx = giveToken s h krec := if_pos hperm

theorem execEnqueueWindowWrite_served {fn : Nat} {ws : List Word} (hfn : fnPresent s fn = true) (hq : q < 512) :
    execEnqueueWindowWrite fn q 64 ws s = .next (windowWrite s fn q 64 ws) := by
  simp [execEnqueueWindowWrite, hfn, hq]

/-- A permitted write of QCTL (R360, R382). -/
theorem execQctlWrite_writes {m : Master} {v : Word} (hq : q < 512) (hm : MayWrite s m (0x20000 + 0x40 * q + 0x08))
    (hthere : queueThere s q = true) : execQctlWrite m q v s = .next (writeQctl s q v.toNat) := by
  have hwrite := masterWrite_register (by omega) hm (by omega) (by omega) v.toNat
  have hv : BitVec.ofNat 32 v.toNat = v := (BitVec.ofNat_toNat 32 v).trans (BitVec.setWidth_eq v)
  rw [hv, regWrite_qctl hq hthere] at hwrite
  rw [execQctlWrite, if_neg (Nat.not_le.mpr hq), hwrite]

end Sys2Proof.Machine
end
section
/-! PROOF. Knot, translation and queue events happen (O44). -/

namespace Sys2Proof.Machine

open Sys2Proof

/-- A request does at its record's home what its operation says. -/
theorem applyKnot_of_op (t : State) (r : KnotReq) :
    (∀ rs bad, r.op = .reg rs bad → applyKnot t r = replyKnot (regKnot t r.krec rs bad).2 r (regKnot t r.krec rs bad).1) ∧
      (r.op = .free → applyKnot t r = replyKnot (freeKnot t r.krec).2 r (freeKnot t r.krec).1) ∧
      (∀ w, r.op = .take w → applyKnot t r = takeKnot t r w) ∧ (r.op = .give → applyKnot t r = giveKnot t r) := by
  refine ⟨fun rs bad h => ?_, fun h => ?_, fun w h => ?_, fun h => ?_⟩
  all_goals simp only [applyKnot, h]

/-- Settles O44: each event by what it finds in the knots, the queues and the packets. -/
theorem queueEventsComplete : Obligations.QueueEventsComplete := by
  unfold Obligations.QueueEventsComplete
  refine ⟨?request, ?answered, ?resend, ?walk, ?window, ?qctl, ?klaunch, ?waiton, ?signal, ?work, ?satisfied, ?complete, ?status,
    ?unguarded, ?gives⟩
  case request =>
    intro id s r hr hreply hqueued hresend
    exact ⟨execKnotRequest_sent hr hreply hqueued hresend, execKnotRequest_arrives hr hreply hqueued hresend, fun m k hm hlow hhigh hhome => arriveKnot_permitted hm hlow hhigh hhome, fun t => applyKnot_of_op t r,
      fun t v h => replyKnot_answers h v⟩
  case answered => exact fun id v t s r hr hreply hbehind => execKnotRequest_answered hr hreply hbehind
  case resend => exact fun id t s r hr hat hdue => execKtakeResend_due hr hat hdue
  case walk => exact fun _ _ _ _ => rfl
  case window =>
    intro fn q ws s hfn hq hperm hallowed hthere hready hfatal hlen htype hen hroom
    exact (execEnqueueWindowWrite_served hfn hq).trans
      (congrArg _ (windowWrite_enqueues hperm hallowed hthere hready hfatal hlen htype hen hroom))
  case qctl => exact fun m q v s hq hm hthere => execQctlWrite_writes hq hm hthere
  case klaunch =>
    rintro q s s1 p rec_ hhead st hok hopen hread hrec rfl t
    exact execKlaunch_enters hhead hok hopen hread hrec
  case waiton => exact fun q s hhead hok => execWaiton_starts hhead hok
  case signal => exact fun q s hhead => execSignal_starts hhead
  case work => exact fun q t s hhead h1 h2 h3 => execWork_unknown hhead h1 h2 h3
  case satisfied => exact fun q idx s p hp hty hcount => execWaitonSatisfied_reached hp hty hcount
  case complete =>
    intro q idx s p hp hty
    refine ⟨execKlaunchComplete_status hp hty, fun gid g hstage hgrp hgrid hg hended hquiet hsorted => ?_⟩
    refine ⟨_, execKlaunchComplete_ended hp hty hstage hgrp hgrid hg hended hquiet, ?_⟩
    rw [grids_of_holdings (endKlaunch_holdings (withoutGrid s gid) q p 0)]
    exact tget_terase_same hsorted gid
  case status => exact fun q s p hp hgrp hva st => endKlaunch_unwritten hp hgrp hva st
  case unguarded => exact fun q idx s p hp hty hstage hknot => execSignalComplete_unguarded hp hty hstage hknot
  case gives =>
    exact fun q idx krec h s p k hp hty hstage hknot hk hholder =>
      ⟨execSignalComplete_gives hp hty hstage hknot hk hholder, signalGive_permitted⟩

end Sys2Proof.Machine
end

section
/-! SUPPORT. What the issue of a global access keeps: the registers of its warp, the bytes at every home and every other warp (R155, R156,
R284). -/

namespace Sys2Proof.Machine

open Sys2Proof

variable {s t u : State} {x : Issue} {wid : Nat} {w : Warp}

/-- The registers of a warp and what its handler, its flags and its nests hold. -/
def issueRegs (w : Warp) :=
  (w.vregs, w.sregs, w.preds, w.masks, w.owed, w.nest, w.fstat, w.fctl, w.epc, w.ecause, w.emask)

/-- Warp `wid` of a state, if it is there, stands in another with the same registers. -/
def KeepsRegs (s t : State) (wid : Nat) : Prop :=
  ∀ w, tget s.warps wid = some w → ∃ v, tget t.warps wid = some v ∧ issueRegs v = issueRegs w

/-- A state that keeps the bytes at every home, in memory and in scratch, every warp but `wid`, and the registers of this one. -/
structure IssueFrame (s t : State) (wid : Nat) : Prop where
  home : ∀ a, homeByte t a = homeByte s a
  mem : t.mem = s.mem
  blocks : t.blocks = s.blocks
  warps : KeepsWarps s t wid
  regs : KeepsRegs s t wid

theorem KeepsRegs.trans (hst : KeepsRegs s t wid) (htu : KeepsRegs t u wid) : KeepsRegs s u wid := by
  intro w hw
  obtain ⟨v, hv, hregs⟩ := hst w hw
  obtain ⟨v', hv', hregs'⟩ := htu v hv
  exact ⟨v', hv', hregs'.trans hregs⟩

theorem IssueFrame.trans (hst : IssueFrame s t wid) (htu : IssueFrame t u wid) : IssueFrame s u wid where
  home a := (htu.home a).trans (hst.home a)
  mem := htu.mem.trans hst.mem
  blocks := htu.blocks.trans hst.blocks
  warps k hk := (htu.warps k hk).trans (hst.warps k hk)
  regs := hst.regs.trans htu.regs

theorem KeepsRegs.refl (s : State) (wid : Nat) : KeepsRegs s s wid := fun w hw => ⟨w, hw, rfl⟩

theorem IssueFrame.refl (s : State) (wid : Nat) : IssueFrame s s wid :=
  ⟨fun _ => rfl, rfl, rfl, fun _ _ => rfl, KeepsRegs.refl s wid⟩

/-- A change of the warp that leaves its registers. -/
theorem issueFrame_modWarp (s : State) (wid : Nat) {f : Warp → Warp} (hf : ∀ w, issueRegs (f w) = issueRegs w) :
    IssueFrame s (modWarp s wid f) wid :=
  ⟨fun _ => rfl, rfl, rfl, keepsWarps_modWarp s wid f, fun w hw => ⟨f w, tget_tmod_same hw f, hf w⟩⟩

theorem IssueFrame.modWarp (h : IssueFrame s t wid) {f : Warp → Warp} (hf : ∀ w, issueRegs (f w) = issueRegs w) :
    IssueFrame s (modWarp t wid f) wid :=
  h.trans (issueFrame_modWarp t wid hf)

/-- What goes to the network and the caches of descriptors is at no home: the home of a byte sees the splice partials of both alone
(R335). -/
theorem homeByte_withNet (s : State) (fresh free : Nat) (bays : List Bay) (net : Net)
    (hbays : bays.map (·.splice) = s.bays.map (·.splice)) (hnet : net.partials = s.net.partials) (a : Nat) :
    homeByte { s with fresh := fresh, free := free, bays := bays, net := net } a = homeByte s a := by
  have hpartials (g : Nat) : partialsOf { s with fresh := fresh, free := free, bays := bays, net := net } g = partialsOf s g := by
    have hsplice := congrArg (List.flatMap fun l => l.filter fun e : SpliceEnt => e.grain == g && e.recorded) hbays
    rw [List.flatMap_map, List.flatMap_map] at hsplice
    simp only [partialsOf, hnet, hsplice]
  unfold homeByte
  rw [hpartials]
  rfl

theorem issueFrame_withNet (s : State) (wid fresh free : Nat) (bays : List Bay) (net : Net)
    (hbays : bays.map (·.splice) = s.bays.map (·.splice)) (hnet : net.partials = s.net.partials) :
    IssueFrame s { s with fresh := fresh, free := free, bays := bays, net := net } wid :=
  ⟨homeByte_withNet s fresh free bays net hbays hnet, rfl, rfl, fun _ _ => rfl, KeepsRegs.refl s wid⟩

theorem LeavesWarp.issueFrame (h : LeavesWarp s t wid w) (hw : tget s.warps wid = some w) : IssueFrame s t wid := by
  obtain ⟨⟨hrest, -, hhome⟩, hwarps, v, hv, hquiet⟩ := h
  refine ⟨hhome, (congrArg State.mem hrest :), (congrArg State.blocks hrest :), hwarps, fun w' hw' => ⟨v, hv, ?_⟩⟩
  obtain rfl := Option.some_inj.mp (hw.symm.trans hw')
  exact quietWarp_congr issueRegs hquiet

/-- An instruction that waits at issue moves no register either (R75). -/
theorem LeavesWarp.finish_stall (h : LeavesWarp s t x.wid w) : LeavesWarp s (Machine.finish x (.stall, t)) x.wid w := by
  have hended : LeavesWarp s (Machine.endRun (Machine.modCore t x.w.core (fun c => { c with runBrk := c.runBrk + 1 })) x.w) x.wid w :=
    (h.modCore (f := fun c => { c with runBrk := c.runBrk + 1 }) fun _ => rfl).endRun
  obtain ⟨⟨hrest, hcores, -⟩, hwarps, hwarp⟩ := hended.modWarp (f := fun w => stampReady w x.b.id t.clock) fun _ => rfl
  exact ⟨keepsMachine_of_parts hrest hcores, hwarps, hwarp⟩

/-- The end of an instruction that goes on or waits, of a warp that is there. -/
theorem issueFrame_finish {v : Verdict} (hv : v = .advance ∨ v = .stall) (h : tget t.warps x.wid = some w) :
    IssueFrame t (finish x (v, t)) x.wid := by
  obtain rfl | rfl := hv
  · exact ((LeavesWarp.refl h).finish (v := .advance) trivial).issueFrame h
  · exact (LeavesWarp.refl h).finish_stall.issueFrame h

/-- A walk moves lanes at most, where its reads fence a context (R390). -/
theorem keepsRegs_of_holdings (h : holdings t = holdings s) (wid : Nat) : KeepsRegs s t wid := by
  intro w hw
  have hwarps := congrArg (fun p => tget p.2 wid) h
  simp only [holdings, tget_map, hw, Option.map_some, Option.map_eq_some_iff] at hwarps
  obtain ⟨v, hv, hplace⟩ := hwarps
  exact ⟨v, hv, show issueRegs (placeless v) = issueRegs (placeless w) from congrArg issueRegs hplace⟩

theorem cached_holdings (x : Issue) (s : State) (addrs : List (Nat × Nat)) : holdings (cached x s addrs) = holdings s :=
  foldl_holdings (fun s _ => cacheVa_holdings s ..) addrs s

/-- What an access does past its checks: it goes on or waits, and keeps what the frame of an issue names. -/
def GoFrames (x : Issue) (go : State → List (Nat × Nat × Nat) → Verdict × State) : Prop :=
  ∀ s cells, ((go s cells).1 = .advance ∨ (go s cells).1 = .stall) ∧ IssueFrame s (go s cells).2 x.wid

theorem goFrames_load (x : Issue) (dst : LoadDst) (size : Nat) (signed : Bool) (span : Nat) :
    GoFrames x fun s cells => (.advance, startLoad x s dst size signed span (unreadParts cells)) := by
  intro s cells
  obtain ⟨fresh, free, reqs, hstart⟩ := exists_startLoad x s dst size signed span (unreadParts cells)
  refine ⟨.inl rfl, ?_⟩
  dsimp only
  rw [hstart]
  refine .modWarp ?_ fun _ => rfl
  exact issueFrame_withNet s x.wid fresh free s.bays _ rfl rfl

theorem frames_startStore (x : Issue) (s : State) (k : WKind) (ps : List Piece) :
    ((startStore x s k ps).1 = .advance ∨ (startStore x s k ps).1 = .stall) ∧ IssueFrame s (startStore x s k ps).2 x.wid := by
  cases hroom : cwFull x.w (cwOfPieces s (dieOfCore x.w.core) ps) with
  | true =>
    have hstall : startStore x s k ps = (.stall, s) := if_pos hroom
    rw [hstall]
    exact ⟨.inr rfl, IssueFrame.refl s x.wid⟩
  | false =>
    rw [startStore_room hroom]
    refine ⟨.inl rfl, .modWarp ?_ fun _ => rfl⟩
    exact issueFrame_withNet s x.wid (s.fresh + 1) s.free s.bays _ rfl rfl

theorem issueFrame_startNt (x : Issue) (s : State) (ps : List Piece) : IssueFrame s (startNt x s ps) x.wid := by
  unfold startNt
  obtain ⟨fresh, free, nts, hnts⟩ := exists_foldl_addNt (x := x) s.fresh (packetsOf ps) (modNet { s with fresh := s.fresh + 1 } fun t => { t with
    groups := tput t.groups s.fresh ⟨s.fresh, x.wid, ⟨false, false, false, false⟩, 0, (packetsOf ps).length, true, true⟩ })
  dsimp only
  rw [hnts]
  refine .modWarp ?_ fun _ => rfl
  exact issueFrame_withNet s x.wid fresh free s.bays _ rfl rfl

theorem issueFrame_dropDescsOf (s : State) (wid : Nat) (op : AtomOp) : IssueFrame s (dropDescsOf s wid op) wid := by
  obtain ⟨bays, hdrop, hsplice⟩ := exists_bays_dropDescsOf s wid op
  rw [hdrop]
  exact issueFrame_withNet s wid s.fresh s.free bays s.net hsplice rfl

theorem issueFrame_startAtomic (x : Issue) (s : State) (dst : LoadDst) (op : AtomOp) (parts : List LanePart) :
    IssueFrame s (startAtomic x s dst op parts) x.wid := by
  unfold startAtomic
  refine .trans ?_ (issueFrame_dropDescsOf _ x.wid op)
  refine .modWarp ?_ fun _ => rfl
  exact issueFrame_withNet s x.wid (s.fresh + 1) s.free s.bays _ rfl rfl

theorem frames_startRedg (x : Issue) (s : State) (op : AtomOp) (ps : List Piece) :
    ((startRedg x s op ps).1 = .advance ∨ (startRedg x s op ps).1 = .stall) ∧ IssueFrame s (startRedg x s op ps).2 x.wid := by
  obtain ⟨hverdict, hframe⟩ := frames_startStore x s (.redg op) ps
  unfold startRedg
  dsimp only
  split
  · exact ⟨hverdict, hframe.trans (issueFrame_dropDescsOf _ x.wid op)⟩
  · exact ⟨hverdict, hframe⟩

/-- Every global load, store and atomic is a global access that keeps past its checks what the frame names. -/
theorem exists_goFrames {i : Instr} {a : Access} (h : Reaches i s x) (ha : globalForm x i = some a) :
    ∃ go, exec i s = .next (finish x (globalAccess x s a.uni a.size a.addrs a.rd a.wr go)) ∧ GoFrames x go := by
  unfold globalForm at ha
  split at ha
  all_goals cases ha
  next => exact ⟨_, exec_ldg h, goFrames_load x _ _ _ _⟩
  next => exact ⟨_, exec_stg h, fun s _ => frames_startStore x s ..⟩
  next => exact ⟨_, exec_stnt h, fun s _ => ⟨.inl rfl, issueFrame_startNt x s _⟩⟩
  next => exact ⟨_, exec_atomg h, fun s _ => ⟨.inl rfl, issueFrame_startAtomic x s ..⟩⟩
  next => exact ⟨_, exec_redg h, fun s _ => frames_startRedg x s ..⟩
  next => exact ⟨_, exec_sldg h, goFrames_load x _ _ _ _⟩
  next => exact ⟨_, exec_sstg h, fun s _ => frames_startStore x s ..⟩
  next => exact ⟨_, exec_satomg h, fun s _ => ⟨.inl rfl, issueFrame_startAtomic x s ..⟩⟩

/-- Past its checks a global access keeps the frame of an issue, from the state with its translations cached. -/
theorem issueFrame_globalAccess {uni rd wr : Bool} {size : Nat} {addrs : List (Nat × Nat)}
    {go : State → List (Nat × Nat × Nat) → Verdict × State} (hgo : GoFrames x go) (hclear : GlobalClear x s size addrs rd wr)
    (hpois : poisOf x s = none) (hw : tget (cached x s addrs).warps x.wid = some w) :
    IssueFrame (cached x s addrs) (finish x (globalAccess x s uni size addrs rd wr go)) x.wid := by
  rw [globalAccess_clear hclear hpois]
  split
  · exact issueFrame_finish (.inl rfl) hw
  · obtain ⟨hverdict, hframe⟩ := hgo (cached x s addrs) (globalCells x s addrs rd wr)
    obtain ⟨v, hv, -⟩ := hframe.regs w hw
    exact hframe.trans (issueFrame_finish hverdict hv)

end Sys2Proof.Machine
end
section
/-! PROOF. Frame of the issue of global accesses (O56). -/

namespace Sys2Proof.Machine

open Sys2Proof

/-- Settles O56: past its checks an access only starts; before them its walk moves nothing where the leaves are cached. -/
theorem globalIssueFrame : Obligations.GlobalIssueFrame := by
  unfold Obligations.GlobalIssueFrame
  intro i a s t x ⟨hissuer, hp, hpois⟩ ha hclear hexec
  obtain ⟨go, hgo, hframes⟩ := exists_goFrames ⟨hissuer, hp⟩ ha
  obtain rfl := Host.Outcome.next.inj (hexec.symm.trans hgo)
  have hwalk := keepsRegs_of_holdings (cached_holdings x s a.addrs) x.wid
  have hw := tget_of_issuerOf hissuer
  obtain ⟨v, hv, -⟩ := hwalk x.w hw
  have hframe := issueFrame_globalAccess (uni := a.uni) hframes hclear hpois hv
  refine ⟨fun hcached => ?memory, ?registers⟩
  case memory =>
    have hnothing : cached x s a.addrs = s := foldl_cacheVa_cached (va := Prod.snd) hcached
    rw [hnothing] at hframe
    exact ⟨hframe.home, hframe.mem, hframe.blocks, hframe.warps⟩
  case registers =>
    obtain ⟨w, hget, hregs⟩ := hwalk.trans hframe.regs x.w hw
    simp only [issueRegs, Prod.mk.injEq] at hregs
    exact ⟨w, hget, hregs⟩

end Sys2Proof.Machine
end

section
/-! SUPPORT. The bytes at the homes behind a write into one block (R323, R335). -/

namespace Sys2Proof.Machine

open Sys2Proof

variable {s t : State} {k a : Nat} {b c : L2Blk}

/-- What a change of a slice keeps in it, every slice keeps. -/
theorem sliceOf_modSlice_keeps {α : Type} (field : Slice → α) {f : Slice → Slice} (hf : ∀ y, field (f y) = field y) (s : State)
    (k j : Nat) : field (sliceOf (modSlice s k f) j) = field (sliceOf s j) := by
  unfold sliceOf modSlice
  rw [← List.getD_map (f := field), ← List.getD_map (f := field), map_lmod_of_eq hf]

/-- A slice that is not fenced by its change keeps its homes (R316, R433). -/
theorem homeOf_modSlice {f : Slice → Slice} (hf : ∀ y, (f y).fenced = y.fenced) (s : State) (k a : Nat) :
    homeOf (modSlice s k f) a = homeOf s a := by
  have hplace : placeOf (modSlice s k f) a = placeOf s a := by
    unfold placeOf
    simp only [sliceOf_modSlice_keeps (·.fenced) hf]
    rfl
  rw [homeOf, homeOf, hplace]

/-- Where nothing of a grain is recorded as a partial, a reader finds what is stored. -/
theorem homeByte_of_no_partials (h : partialsOf s (a / 32) = []) : homeByte s a = storedByte s a := by
  simp only [homeByte, h]

/-- A grain whose stored bytes and partials are as they were reads as before. -/
theorem homeByte_congr (hpartials : partialsOf t (a / 32) = partialsOf s (a / 32))
    (hstored : ∀ x, x / 32 = a / 32 → storedByte t x = storedByte s x) : homeByte t a = homeByte s a := by
  have hgrain : (List.range 32).map (fun i => storedByte t (a / 32 * 32 + i)) =
      (List.range 32).map (fun i => storedByte s (a / 32 * 32 + i)) :=
    List.map_congr_left fun i hi => hstored _ (by have := List.mem_range.mp hi; omega)
  simp only [homeByte, hpartials, hgrain, hstored a rfl]

/-- A block covers the addresses of a grain alike. -/
theorem covers_of_grain {x : Nat} (h : x / 32 = a / 32) (clock : Nat) (lease : Bool) (b : L2Blk) :
    covers clock lease x b = covers clock lease a b := by
  have hregion : x / 512 = a / 512 := by omega
  have hplace : x % 512 / 32 = a % 512 / 32 := by omega
  simp only [covers, hregion, hplace]

theorem findBlk_of_grain {x : Nat} (h : x / 32 = a / 32) (s : State) (k : Nat) (lease : Bool) :
    findBlk s k lease x = findBlk s k lease a :=
  congrArg (List.find? · (sliceOf s k).blocks) (funext fun b => covers_of_grain h s.clock lease b)

theorem region_of_findBlk {lease : Bool} (h : findBlk s k lease a = some b) : b.region = a / 512 := by
  have hcovers := List.find?_some h
  simp only [covers, Bool.and_eq_true, beq_iff_eq] at hcovers
  exact hcovers.1.1.1.1

/-- A slice that holds a block is there. -/
theorem lt_of_findBlk {lease : Bool} (h : findBlk s k lease a = some b) : k < s.slices.length := by
  by_contra hk
  have hreset : sliceOf s k = resetSlice := List.getD_eq_default _ _ (Nat.le_of_not_lt hk)
  rw [findBlk, hreset] at h
  cases h

/-- A block with another's place in the set of the other covers what this does. -/
theorem findBlk_putBlk_same {lease : Bool} (hk : k < s.slices.length) (hcovers : ∀ a, covers s.clock lease a c = covers s.clock lease a b) :
    findBlk (putBlk s k b c) k lease a = (findBlk s k lease a).map fun x => if x == b then c else x := by
  have hslice : (sliceOf (putBlk s k b c) k).blocks = (sliceOf s k).blocks.map fun x => if x == b then c else x :=
    congrArg Slice.blocks (getD_lmod_same hk _ resetSlice)
  have hfun : (covers s.clock lease a ∘ fun x => if x == b then c else x) = covers s.clock lease a := by
    funext x
    by_cases hx : x = b
    · subst hx
      simp [hcovers]
    · simp [hx]
  show (sliceOf (putBlk s k b c) k).blocks.find? (covers s.clock lease a) = _
  rw [hslice, List.find?_map, hfun]
  rfl

theorem findBlk_putBlk_other {j : Nat} (hj : j ≠ k) (lease : Bool) : findBlk (putBlk s k b c) j lease a = findBlk s j lease a :=
  congrArg (fun y : Slice => y.blocks.find? (covers s.clock lease a)) (getD_lmod_other s.slices hj _ resetSlice)

theorem homeOf_putBlk (s : State) (k : Nat) (b c : L2Blk) (a : Nat) : homeOf (putBlk s k b c) a = homeOf s a :=
  homeOf_modSlice (fun _ => by rfl) s k a

/-- A byte of the block that is replaced. -/
theorem storedByte_putBlk_here (hcovers : ∀ a, covers s.clock false a c = covers s.clock false a b) (hhome : homeOf s a = some k)
    (hb : findBlk s k false a = some b) : storedByte (putBlk s k b c) a = byteAt c.data (a % 512) := by
  have hfind : findBlk (putBlk s k b c) k false a = some c := by
    simp [findBlk_putBlk_same (lt_of_findBlk hb) hcovers, hb]
  simp only [storedByte, homeOf_putBlk, hhome, hfind]

/-- A byte that the new block holds as the old one did, where this covers it. -/
theorem storedByte_putBlk_keeps (hk : k < s.slices.length) (hcovers : ∀ a, covers s.clock false a c = covers s.clock false a b)
    (h : findBlk s k false a = some b → byteAt c.data (a % 512) = byteAt b.data (a % 512)) :
    storedByte (putBlk s k b c) a = storedByte s a := by
  unfold storedByte
  rw [homeOf_putBlk]
  cases hhome : homeOf s a with
  | none => rfl
  | some j =>
    by_cases hj : j = k
    · subst hj
      simp only [findBlk_putBlk_same hk hcovers]
      cases hx : findBlk s j false a with
      | none => rfl
      | some x =>
        by_cases hxb : x = b
        · subst hxb
          simpa using h hx
        · simp [hxb]
    · simp only [findBlk_putBlk_other hj]
      rfl

/-- What leaves a slice's queue is at no home. -/
theorem storedByte_leaveAt (s : State) (k g id a : Nat) : storedByte (leaveAt s k g id) a = storedByte s a := by
  have hfind (j : Nat) : findBlk (leaveAt s k g id) j false a = findBlk s j false a :=
    congrArg (List.find? (covers s.clock false a)) (sliceOf_modSlice_keeps (·.blocks) (fun _ => by rfl) s k j)
  unfold storedByte
  rw [show homeOf (leaveAt s k g id) a = homeOf s a from homeOf_modSlice (fun _ => by rfl) s k a]
  simp only [hfind]
  rfl

/-- The bytes of a block with pieces written in their order (R323). -/
def putPieces (d : List Host.Cell) (ps : List Piece) : List Host.Cell := ps.foldl (fun d p => setBytes d (p.addr % 512) p.data) d

theorem memWf_putPieces {d : List Host.Cell} (h : memWf d) (ps : List Piece) : memWf (putPieces d ps) := by
  induction ps generalizing d with
  | nil => exact h
  | cons p ps ih => exact ih (memWf_setBytes h _ _)

theorem byteAt_putPieces_outside {d : List Host.Cell} (h : memWf d) {ps : List Piece} {j : Nat}
    (hj : ∀ p ∈ ps, j < p.addr % 512 ∨ p.addr % 512 + p.data.length ≤ j) : byteAt (putPieces d ps) j = byteAt d j := by
  induction ps generalizing d with
  | nil => rfl
  | cons p ps ih =>
    obtain ⟨hp, hps⟩ := List.forall_mem_cons.mp hj
    exact (ih (memWf_setBytes h _ _) hps).trans (byteAt_setBytes_outside h _ _ hp)

/-- Of several pieces that cover a byte the last one decides it (R323). -/
theorem byteAt_putPieces_last {d : List Host.Cell} (h : memWf d) {before after : List Piece} {p : Piece} {j : Nat} (hj : j < p.data.length)
    (hafter : ∀ q ∈ after, p.addr % 512 + j < q.addr % 512 ∨ q.addr % 512 + q.data.length ≤ p.addr % 512 + j) :
    byteAt (putPieces d (before ++ p :: after)) (p.addr % 512 + j) = p.data.getD j 0 := by
  have hbefore := memWf_putPieces h before
  have hsplit : putPieces d (before ++ p :: after) = putPieces (setBytes (putPieces d before) (p.addr % 512) p.data) after :=
    List.foldl_append
  rw [hsplit, byteAt_putPieces_outside (memWf_setBytes hbefore _ _) hafter, byteAt_setBytes_inside hbefore _ _ hj,
    List.getD_eq_getElem _ _ hj]

end Sys2Proof.Machine
end

section
/-! SUPPORT. A store packet performed at a home that holds its grain (R323, R324). -/

namespace Sys2Proof.Machine

open Sys2Proof

variable {s : State} {e : WinEnt} {k id : Nat} {b : L2Blk}

/-- The block of a store's grain behind it (R323). -/
def storedBlk (s : State) (e : WinEnt) (b : L2Blk) : L2Blk :=
  let m := runMask (32 * e.grain % 512 / 32) 1
  { b with
    data := putPieces b.data e.pieces
    dirty := b.dirty ||| m
    acc := b.acc ||| m
    pois := if coversGrain e.pieces e.grain then b.pois &&& ~~~m else b.pois
    used := s.clock }

theorem blkWrite_storedBlk (hb : findBlk s k false (32 * e.grain) = some b) :
    blkWrite s k (32 * e.grain) e.pieces (coversGrain e.pieces e.grain) = putBlk s k b (storedBlk s e b) := by
  simp only [blkWrite, hb]
  rfl

theorem applyEnt_store_present (hkind : e.kind = .store) (hpois : e.pois = false) (hb : findBlk s k false (32 * e.grain) = some b)
    (mid : Nat) : applyEnt s k mid e = (some (putBlk s k b (storedBlk s e b)), s) := by
  have hhere : grainPresent s k false (32 * e.grain) = true := by simp [grainPresent, hb]
  simp only [applyEnt, hkind, hhere, if_true, hpois, Bool.false_eq_true, if_false, blkWrite_storedBlk hb]

/-- Bytes that no registered knot record holds leave none undefined (R181). -/
theorem foldl_muddleRecords_none {ps : List Piece} (h : ∀ p ∈ ps, recordsHit s p.addr p.data.length = []) :
    ps.foldl (fun t p => muddleRecords t p.addr p.data.length) s = s := by
  induction ps with
  | nil => rfl
  | cons p ps ih =>
    obtain ⟨hp, hps⟩ := List.forall_mem_cons.mp h
    have hstep : muddleRecords s p.addr p.data.length = s := by rw [muddleRecords, hp]; rfl
    rw [List.foldl_cons, hstep, ih hps]

/-- The registered knot records are those of the slices, which a store leaves alone (R181). -/
theorem recordsHit_stored (s : State) (k g id : Nat) (b c : L2Blk) (a n : Nat) :
    recordsHit (leaveAt (putBlk s k b c) k g id) a n = recordsHit s a n := by
  have hknots : (leaveAt (putBlk s k b c) k g id).slices.map (·.knots) = s.slices.map (·.knots) :=
    (map_lmod_of_eq (fun _ => by rfl) _ k).trans (map_lmod_of_eq (fun _ => by rfl) s.slices k)
  have hrecords := congrArg (List.flatMap fun l => l.map fun y : Knot => y.krec) hknots
  rw [List.flatMap_map, List.flatMap_map] at hrecords
  unfold recordsHit
  rw [hrecords]

/-- A store whose turn has come at a home that holds its grain, no partial of it being anywhere (R323, R324, R335). -/
theorem homeWriteAt_store (hkind : e.kind = .store) (hpois : e.pois = false) (hreel : s.sec.reel = none)
    (hsplice : spliceOf s k e.grain = none) (hturn : atTurn s k e.grain e.id = true)
    (hrecords : ∀ p ∈ e.pieces, recordsHit s p.addr p.data.length = []) (hb : findBlk s k false (32 * e.grain) = some b) (mid : Nat) :
    homeWriteAt s k mid e = performEnt (leaveAt (putBlk s k b (storedBlk s e b)) k e.grain e.id) e.id := by
  have hhook : reelHook s (32 * e.grain) = s := by rw [reelHook, hreel]; rfl
  have hrespond (t : State) : respondEnt t k e = t := by rw [respondEnt, hkind]
  have hmuddle := foldl_muddleRecords_none (s := leaveAt (putBlk s k b (storedBlk s e b)) k e.grain e.id) (ps := e.pieces)
    fun p hp => (recordsHit_stored s k e.grain e.id b _ p.addr p.data.length).trans (hrecords p hp)
  unfold homeWriteAt
  simp only [hhook, hsplice, hturn, Option.isSome_none, Bool.true_or, Bool.not_true, Bool.false_eq_true, if_false,
    applyEnt_store_present hkind hpois hb, hrespond, hmuddle]

/-- A packet that its table lets write, at its backed home (R384). -/
theorem placeEnt_home (hrouted : routed s (32 * e.grain) = 32 * e.grain) (hhome : homeOf s (32 * e.grain) = some k)
    (hatomic : entAtomic e = false) (hperm : permits s (entMaster s e).1 (32 * e.grain) false true = true) :
    placeEnt s e = homeWriteAt s k (entMaster s e).1 e := by
  have hsteer : steerEnt s e = (e, s) := if_pos hrouted
  unfold homeOf at hhome
  simp only [placeEnt, hsteer, hatomic, hperm, Bool.not_true, Bool.false_eq_true, if_false]
  cases hplace : placeOf s (32 * e.grain) <;> simp_all

theorem execHomeWrite_ready (hflush : tget s.net.flushes id = none) (he : findEnt s id = some e) (hready : entReady s e = true) :
    execHomeWrite id s = .next (placeEnt s e) := by
  have hheld : e.held = false := by
    cases h : e.held with
    | false => rfl
    | true => simp [entReady, h] at hready
  simp only [execHomeWrite, hflush, he, hheld, Bool.false_eq_true, if_false, hready, if_true]

/-- That a packet has been performed is noted at no home. -/
theorem homeByte_performEnt (t : State) (id a : Nat) : homeByte (performEnt t id) a = homeByte t a := by
  have hsplice : (performEnt t id).bays.map (·.splice) = t.bays.map (·.splice) := List.map_map
  exact homeByte_withNet t (t.fresh + 1) t.free (performEnt t id).bays (performEnt t id).net hsplice rfl a

/-- A grain without partials reads behind a change of one block as the block stores it. -/
theorem homeByte_stored {a : Nat} (hpartials : partialsOf s (a / 32) = []) (c : L2Blk) (g id' : Nat) :
    homeByte (leaveAt (putBlk s k b c) k g id') a = storedByte (putBlk s k b c) a :=
  (homeByte_of_no_partials (s := leaveAt (putBlk s k b c) k g id') hpartials).trans (storedByte_leaveAt ..)

end Sys2Proof.Machine
end
section
/-! PROOF. A store at its home writes its bytes and no other (O57). -/

namespace Sys2Proof.Machine

open Sys2Proof

section Stored

variable {s : State} {e : WinEnt} {k : Nat} {b : L2Blk}

/-- The bytes of a store's pieces lie in its grain. -/
def InGrain (e : WinEnt) : Prop := ∀ p ∈ e.pieces, p.addr / 32 = e.grain ∧ p.addr % 32 + p.data.length ≤ 32

/-- A byte that no piece covers is stored as before. -/
theorem storedByte_stored_outside {a : Nat} (hb : findBlk s k false (32 * e.grain) = some b) (hdata : memWf b.data) (hin : InGrain e)
    (ha : ∀ p ∈ e.pieces, a < p.addr ∨ p.addr + p.data.length ≤ a) :
    storedByte (putBlk s k b (storedBlk s e b)) a = storedByte s a := by
  refine storedByte_putBlk_keeps (lt_of_findBlk hb) (fun _ => rfl) fun hfind => byteAt_putPieces_outside hdata fun p hp => ?_
  have hregion : a / 512 = 32 * e.grain / 512 := (region_of_findBlk hfind).symm.trans (region_of_findBlk hb)
  obtain ⟨hgrain, -⟩ := hin p hp
  have hout := ha p hp
  omega

/-- A byte of the store's grain at its home is what the last piece that covers it brings. -/
theorem storedByte_stored_last {before after : List Piece} {p : Piece} {j : Nat} (hb : findBlk s k false (32 * e.grain) = some b)
    (hdata : memWf b.data) (hin : InGrain e) (hsplit : e.pieces = before ++ p :: after) (hj : j < p.data.length)
    (hafter : ∀ q ∈ after, p.addr + j < q.addr ∨ q.addr + q.data.length ≤ p.addr + j) (hhome : homeOf s (p.addr + j) = some k) :
    storedByte (putBlk s k b (storedBlk s e b)) (p.addr + j) = p.data.getD j 0 := by
  obtain ⟨hgrain, hlen⟩ := hin p (by simp [hsplit])
  have hfind : findBlk s k false (p.addr + j) = some b := (findBlk_of_grain (by omega) s k false).trans hb
  have hplace : (p.addr + j) % 512 = p.addr % 512 + j := by omega
  rw [storedByte_putBlk_here (b := b) (c := storedBlk s e b) (fun _ => rfl) hhome hfind, hplace]
  show byteAt (putPieces b.data e.pieces) _ = _
  rw [hsplit]
  refine byteAt_putPieces_last hdata hj fun q hq => ?_
  obtain ⟨hgrain', -⟩ := hin q (by simp [hsplit, hq])
  have hout := hafter q hq
  omega

end Stored

/-- Settles O57: the packet is performed in the block that holds its grain, where the pieces are written in their order. -/
theorem homeStoreWrites : Obligations.HomeStoreWrites := by
  unfold Obligations.HomeStoreWrites
  intro id k s t e b hflush he hready hkind hpois hrouted hhome hperm hreel hsplice hturn hpieces hb hdata hpartials hexec
  have hin : InGrain e := fun p hp => ⟨(hpieces p hp).1, (hpieces p hp).2.1⟩
  have hatomic : entAtomic e = false := by simp only [entAtomic, hkind]
  have hrun := execHomeWrite_ready hflush he hready
  rw [placeEnt_home hrouted hhome hatomic hperm, homeWriteAt_store hkind hpois hreel hsplice hturn (fun p hp => (hpieces p hp).2.2) hb]
    at hrun
  obtain rfl := Host.Outcome.next.inj (hexec.symm.trans hrun)
  refine ⟨fun a ha => ?outside, fun before p after j hsplit hj hafter hhomej => ?inside⟩
  case outside =>
    rw [homeByte_performEnt]
    by_cases hgrain : a / 32 = e.grain
    · have hnone : partialsOf s (a / 32) = [] := hgrain ▸ hpartials
      rw [homeByte_stored hnone, storedByte_stored_outside hb hdata hin ha, homeByte_of_no_partials hnone]
    · refine homeByte_congr (by rfl) fun x hx => (storedByte_leaveAt ..).trans (storedByte_stored_outside hb hdata hin fun p hp => ?_)
      obtain ⟨hp, hlen⟩ := hin p hp
      omega
  case inside =>
    obtain ⟨hgrain, hlen⟩ := hin p (by simp [hsplit])
    have hnone : partialsOf s ((p.addr + j) / 32) = [] := (show (p.addr + j) / 32 = e.grain by omega) ▸ hpartials
    rw [homeByte_performEnt, homeByte_stored hnone, storedByte_stored_last hb hdata hin hsplit hj hafter hhomej]

end Sys2Proof.Machine
end

section
/-! SUPPORT. TRD and TWR by what they check: the index against the view, the loads under way, the marks of the elements (R29, R157,
R215). -/

namespace Sys2Proof.Machine

open Sys2Proof

variable {i : Instr} {f : LT} {s : State} {x : Issue} {m : Mark}

/-- An index of a row is at most 31, one of a column less than the warp's width (R29). -/
theorem tileBad_eq_true_iff {w : Warp} :
    tileBad w f = true ↔ (f.rc = false ∧ 32 ≤ tileIndex w f) ∨ (f.rc = true ∧ w.width ≤ tileIndex w f) := by
  cases hrc : f.rc <;> simp [tileBad, hrc]

/-- An instruction that `issue` runs ends with the verdict and the state of its meaning. -/
theorem does_of_issue {t : State} {v : Verdict} {body : Issue → State → Verdict × State} (h : Reaches i s x)
    (hi : exec i s = issue i s body) (hbody : body x s = (v, t)) : Does i s x v t :=
  does_of_exec (hi.trans (issue_of h.1 h.2 body)) hbody

/-- An index outside the view is REGW, with the index in ETVAL. -/
theorem tile_outside (hi : i = .trd f ∨ i = .twr f) (h : Reaches i s x) (hbad : tileBad x.w f = true) :
    Does i s x (.trap (trapOf cREGW x.b.lanes (tileIndex x.w f))) s := by
  obtain rfl | rfl := hi
  · exact does_of_issue h (show exec (.trd f) s = execTrd f s from rfl) (if_pos hbad)
  · exact does_of_issue h (show exec (.twr f) s = execTwr f s from rfl) (if_pos hbad)

section Inside

variable (hin : tileBad x.w f = false) (hloaded : tilePending s x f = false)

include hin hloaded

theorem trd_reads (h : Issues (.trd f) s x) (hclean : tileMarks x.w f (ltLanes x.w x.b.lanes f) = []) :
    DoesToWarp (.trd f) s x (fun w => laneEffect w (ltLanes x.w x.b.lanes f) (.regs f.vd.toNat 1) (fun l =>
      ((vread w (tileCell w f l).1 (tileCell w f l).2).toNat, 0))) := by
  obtain ⟨hissuer, hp, hpois⟩ := h
  refine does_of_issue ⟨hissuer, hp⟩ (show exec (.trd f) s = execTrd f s from rfl) ?_
  simp only [hin, hloaded, hpois, hclean, Bool.false_eq_true, if_false]
  rfl

theorem trd_marked (h : Issues (.trd f) s x)
    (hmark : oldestMark ((tileMarks x.w f (ltLanes x.w x.b.lanes f)).map Prod.snd) = some m) :
    Does (.trd f) s x (.trap ⟨cPOIS, maskOf ((tileMarks x.w f (ltLanes x.w x.b.lanes f)).map Prod.fst), m.addr, 0, false, false⟩)
      (modWarp s x.wid (fun w => { w with
        marks := ((tileMarks x.w f (ltLanes x.w x.b.lanes f)).map Prod.fst).foldl
          (fun t l => terase t ((tileCell x.w f l).1 * 64 + (tileCell x.w f l).2)) w.marks })) := by
  obtain ⟨hissuer, hp, hpois⟩ := h
  refine does_of_issue ⟨hissuer, hp⟩ (show exec (.trd f) s = execTrd f s from rfl) ?_
  simp only [hin, hloaded, hpois, hmark, Bool.false_eq_true, if_false]

theorem twr_writes (h : Issues (.twr f) s x) : DoesToWarp (.twr f) s x (fun w =>
    ((lanesOf (ltLanes x.w x.b.lanes f)).filter (fun l => !f.rc || decide (l < 32))).foldl (fun acc l =>
      vwrite acc (tileCell w f l).1 (tileCell w f l).2 (vread w f.va.toNat l)) w) := by
  obtain ⟨hissuer, hp, hpois⟩ := h
  refine does_of_issue ⟨hissuer, hp⟩ (show exec (.twr f) s = execTwr f s from rfl) ?_
  simp only [hin, hloaded, hpois, Bool.false_eq_true, if_false]

end Inside

end Sys2Proof.Machine
end

section
/-! PROOF. Tile instructions complete (O15). -/

namespace Sys2Proof.Machine

open Sys2Proof

/-- Settles O15: TDEF by its sub-operation and the window, TRD and TWR by the checks of their index and elements. -/
theorem tilesComplete : Obligations.TilesComplete := by
  unfold Obligations.TilesComplete
  refine ⟨?tdef, fun _ _ _ h hin hloaded => trd_reads hin hloaded h, fun _ _ _ h hin hloaded => twr_writes hin hloaded h, ?outside,
    fun _ _ _ _ h hin hloaded => trd_marked hin hloaded h⟩
  case tdef =>
    intro f s x h
    have htdef {v : Verdict} {t : State} := does_of_issueOp (v := v) (t := t) h (show exec (.tdef f) s = execTdef f s from rfl)
    exact ⟨fun hclear => htdef (if_pos hclear),
      fun hset hfits => htdef ((if_neg hset).trans (if_neg (Nat.not_le.mpr hfits))),
      fun hset hover => htdef ((if_neg hset).trans (if_pos hover))⟩
  case outside => exact fun i f s x hi h hindex => tile_outside hi h (tileBad_eq_true_iff.mpr hindex)

end Sys2Proof.Machine
end

section
/-! SUPPORT. An MMA behind its checks (R195 to R205): the signature that waits for others, and the last one, which issues. -/

namespace Sys2Proof.Machine

open Sys2Proof

variable {f : LB} {s t : State} {x : Issue} {b b1 : Block} {h : Hitch} {k : MmaKey} {desc : List Byte} {slot : Nat}

/-- The last signature of a round whose name has a slot issues the operation (R201, R202). -/
theorem issueMma_advance {sigs : List Sig} (hslot : nameState b k.name = .mapped slot) :
    (issueMma x s b k sigs desc).1 = .advance := by
  simp only [issueMma, hslot]

/-- A hitch that is set admits a signature of its round by a warp that has not signed yet (R196). -/
structure Admits (h : Hitch) (k : MmaKey) (wid : Nat) : Prop where
  set : h.s ≠ 0
  round : h.key = none ∨ h.key = some k
  unsigned : ∀ g ∈ h.sigs, g.warp ≠ wid

theorem Admits.no_other_key (hadmits : Admits h k x.wid) : h.key.any (fun r => r != k) = false := by
  obtain hkey | hkey := hadmits.round
  · simp [hkey]
  · simp [hkey]

theorem Admits.no_own_signature (hadmits : Admits h k x.wid) : h.sigs.any (fun g => g.warp == x.wid) = false := by
  simpa [List.any_eq_false] using hadmits.unsigned

/-- Whether the signature is its round's last (R196). -/
theorem Admits.last (hadmits : Admits h k x.wid) : (h.s != 0 && !h.key.any (fun r => r != k) && !h.sigs.any (fun g => g.warp == x.wid)
    && h.sigs.length + 1 == h.s) = decide (h.sigs.length + 1 = h.s) := by
  rw [hadmits.no_other_key, hadmits.no_own_signature, bne_iff_ne.mpr hadmits.set]
  rfl

theorem signMma_waits (hadmits : Admits h k x.wid) (hmore : h.sigs.length + 1 < h.s) :
    signMma x s f b k h desc = (.advance, modWarp (modHitch s x.w.block k.hitch
      (fun h => { h with key := some k, sigs := h.sigs ++ [signature x f] })) x.wid (fun w => { w with mx := w.mx + 1 })) := by
  simp only [signMma, hadmits.set, hadmits.no_other_key, hadmits.no_own_signature, Bool.or_self, Bool.false_eq_true, if_false, hmore, if_true]

theorem signMma_issues (hadmits : Admits h k x.wid) (hlast : h.sigs.length + 1 = h.s) (hroom : planeLoad (coreOf s b.core) < 8)
    (hrel : relQueued s x.w.block b k.name = false) (hmap : mapFor x s b k.name (some k.hitch) = some t)
    (hb1 : tget t.blocks x.w.block = some b1) :
    signMma x s f b k h desc = issueMma x t b1 k (h.sigs ++ [signature x f]) desc := by
  simp only [signMma, hadmits.set, hadmits.no_other_key, hadmits.no_own_signature, Bool.or_self, Bool.false_eq_true, if_false, hlast, lt_self_iff_false,
    hrel, Nat.not_le.mpr hroom, or_self, hmap, hb1, Option.getD_some]

section Checks

variable (hs : h.s ≠ 0) (hwin : f.va.toNat + fragRegs k.ty k.ka x.w.width h.s ≤ x.w.win) (halign : (bScratch k).1 % (bScratch k).2.1 = 0)
  (hplace : (scratchPlace x.record b.rank (bScratch k).1 (bScratch k).2.2).isSome = true)
  (hpois : poisTrap x.w (widthMask x.w.width) [(f.va.toNat, fragRegs k.ty k.ka x.w.width h.s)] (usesOf x.w x.instr).ssrc = none)
  (hname : namePoisoned b k.name = false)

include hs hwin halign hplace hpois hname

/-- The checks of an MMA that names no tile handle, or is not its round's last (R205). -/
theorem checkMma_scratch : checkMma x s f b k h none none = signMma x s f b k h [] := by
  have hsome : (scratchPlace x.record b.rank (bScratch k).1 (bScratch k).2.2).isNone = false := by simpa using hplace
  have hfault : tileFault s x [] = none := rfl
  have hwalk : walkPages s x.w.core x.ctx [] = s := rfl
  simp only [checkMma, hs, if_false, Nat.not_lt.mpr hwin, halign, ne_eq, not_true_eq_false, Option.map_none, Option.getD_none, hfault,
    hwalk, hsome, Bool.false_eq_true, hpois, hname]

/-- The same of the last one's tile handle, whose descriptor has been read (R199, R205). -/
theorem checkMma_tile {a : Nat} {co : List Int} {bs : List Byte} (hb : k.b = .tile a co)
    (hfault : tileFault s x (tileVas k bs co) = none) :
    checkMma x s f b k h (some bs) none = signMma x (walkPages s x.w.core x.ctx (tileVas k bs co)) f b k h bs := by
  have hsome : (scratchPlace x.record b.rank (bScratch k).1 (bScratch k).2.2).isNone = false := by simpa using hplace
  simp only [checkMma, hs, if_false, Nat.not_lt.mpr hwin, halign, ne_eq, not_true_eq_false, Option.map_some, Option.getD_some, hb, hfault,
    hsome, Bool.false_eq_true, hpois, hname]

end Checks

section Issued

variable (hi : Reaches (.mma f) s x) (hblock : blockOf s x.w = some b) (hk : mmaKey x.w f = k) (hh : b.hitches[k.hitch]? = some h)
  (hadmits : Admits h k x.wid)
  (hloaded : waitsForLoad s x.wid { noUses with vsrc := [(f.va.toNat, fragRegs k.ty k.ka x.w.width h.s)] } = false)

include hi hblock hk hh hadmits hloaded

/-- An MMA that reads no descriptor goes to its checks (R196, R199). -/
theorem exec_mma_scratch (hnone : h.sigs.length + 1 ≠ h.s ∨ ∃ a, k.b = .scratch a) :
    exec (.mma f) s = .next (finish x (checkMma x s f b k h none none)) := by
  subst hk
  rw [show exec (.mma f) s = execMma f s from rfl, execMma, issue_of hi.1 hi.2]
  simp only [hblock, Option.bind_some, hh, Option.map_some, hadmits.set, if_false, hloaded, Bool.false_eq_true, hadmits.last]
  obtain hmore | ⟨a, hb⟩ := hnone
  · rw [decide_eq_false hmore]
    cases (mmaKey x.w f).b <;> rfl
  · rw [hb]

/-- The last MMA of a round with a tile handle goes to its checks with the descriptor it reads (R199). -/
theorem exec_mma_tile {a : Nat} {co : List Int} {p : SPlace} {bs : List Byte} {s1 : State} (hb : k.b = .tile a co)
    (hlast : h.sigs.length + 1 = h.s) (halign : a % 64 = 0) (hp : bPlace s x.w.block a 64 = some p)
    (hread : readDesc x s a p false = .got bs s1) (hok : tileOk k bs co = true) :
    exec (.mma f) s = .next (finish x (checkMma x s1 f b k h (some bs) none)) := by
  subst hk
  rw [show exec (.mma f) s = execMma f s from rfl, execMma, issue_of hi.1 hi.2]
  simp only [hblock, Option.bind_some, hh, Option.map_some, hadmits.set, if_false, hloaded, Bool.false_eq_true, hadmits.last,
    decide_eq_true hlast, hb, halign, if_true, hp, hread, hok]

end Issued

end Sys2Proof.Machine
end

section
/-! SUPPORT. HSET, the commands of accumulators, and MCHKRD, by case (R195, R206 to R209, R213). -/

namespace Sys2Proof.Machine

open Sys2Proof

variable {s t : State} {x : Issue} {b b1 : Block} {h : Hitch} {n slot : Nat}

/-- The signers that HSET asks for (R195). -/
def hsetSigners (f : UB) : Nat := match f.sub.toNat with | 0 => 0 | c => 2 ^ (c - 1)

theorem hsetSigners_eq (f : UB) : hsetSigners f = if f.sub = 0 then 0 else 2 ^ (f.sub.toNat - 1) := by
  by_cases hsub : f.sub = 0
  · rw [if_pos hsub, hsetSigners, hsub]
    rfl
  · obtain ⟨c, hc⟩ := Nat.exists_eq_succ_of_ne_zero (fun hzero => hsub (BitVec.eq_of_toNat_eq hzero))
    rw [if_neg hsub, hsetSigners, hc]
    rfl

section Uniform

variable {f : UB} (hblock : blockOf s x.w = some b)

include hblock

/-- HSET of one of its block's hitches (R195, R196). -/
theorem exec_hset_hitch (hi : Issues (.hset f) s x) (hh : b.hitches[f.sd.toNat % 8]? = some h) : exec (.hset f) s = .next (finish x
    (if h.sigs.isEmpty then (.advance, modHitch s x.w.block (f.sd.toNat % 8) (fun h => { h with s := hsetSigners f }))
      else if h.s = hsetSigners f then (.advance, s) else hitchTrap x s (f.sd.toNat % 8))) := by
  refine exec_of_issueOp hi (show exec (.hset f) s = execHset f s from rfl) ?_
  simp only [hblock, Option.bind_some, hh]
  rfl

theorem accz_queued (hi : Issues (.accz f) s x) (hclean : namePoisoned b (f.sd.toNat % 16) = false)
    (hrel : relQueued s x.w.block b (f.sd.toNat % 16) = false) (hmap : mapFor x s b (f.sd.toNat % 16) none = some t) :
    exec (.accz f) s = .next (finish x (queueAcc x t b (f.sd.toNat % 16) false)) := by
  refine exec_of_issueOp hi (show exec (.accz f) s = execAccz f s from rfl) ?_
  simp only [hblock, hclean, hrel, Bool.false_eq_true, if_false, hmap]

theorem accrel_queued (hi : Issues (.accrel f) s x) :
    exec (.accrel f) s = .next (finish x (queueAcc x s b (f.sd.toNat % 16) true)) := by
  refine exec_of_issueOp hi (show exec (.accrel f) s = execAccrel f s from rfl) ?_
  simp only [hblock]

theorem mchkrd_empty (hi : Issues (.mchkrd f) s x) (hlog : b.mlog = []) :
    DoesToWarp (.mchkrd f) s x (fun w => ([0, 0, 0, 0].zipIdx).foldl (fun w e =>
      swrite w (f.sd.toNat + e.2) (BitVec.ofNat 32 e.1)) w) := by
  refine does_of_issueOp hi (show exec (.mchkrd f) s = execMchkrd f s from rfl) ?_
  simp only [hblock, Option.map_some, Option.getD_some, hlog]

theorem mchkrd_oldest {r : MismatchRec} {rest : List MismatchRec} (hi : Issues (.mchkrd f) s x) (hlog : b.mlog = r :: rest) :
    Does (.mchkrd f) s x .advance (modWarp (modBlock s x.w.block (fun b => { b with mlog := rest })) x.wid (fun w =>
      ([mchkWord0 r, r.info.row + 2 ^ 8 * r.info.col, if r.info.replay then r.info.expected.toNat else 0,
        r.info.observed.toNat].zipIdx).foldl (fun w e => swrite w (f.sd.toNat + e.2) (BitVec.ofNat 32 e.1)) w)) := by
  refine does_of_issueOp hi (show exec (.mchkrd f) s = execMchkrd f s from rfl) ?_
  simp only [hblock, Option.map_some, Option.getD_some, hlog]

end Uniform

/-- ACCZ and ACCREL go on, whichever core's queue they enter (R204, R207). -/
theorem queueAcc_advance (x : Issue) (s : State) (b : Block) (n : Nat) (rel : Bool) : (queueAcc x s b n rel).1 = .advance := by
  unfold queueAcc
  dsimp only
  split <;> rfl

/-- What an instruction does that enters the queue of the plane array. -/
theorem does_queueAcc {i : Instr} {rel : Bool} (hexec : exec i s = .next (finish x (queueAcc x t b n rel))) :
    Does i s x .advance (queueAcc x t b n rel).2 := does_of_exec hexec (Prod.ext (queueAcc_advance ..) rfl)

/-- Without an entry on a slot its contents are as they stand (R203). -/
theorem accShow_idle {core bid : Nat} {rs cs : List Nat} (hidle : ∀ e ∈ (coreOf s core).queue, e.slot ≠ some slot) :
    accShow s core bid slot rs cs = ([(coreOf s core).accs], s) := by
  have hqueued : accQueued (coreOf s core).queue bid slot = [] := by
    rw [accQueued, List.map_eq_nil_iff, List.filter_eq_nil_iff]
    intro e he
    have hmem : e.1 ∈ (coreOf s core).queue := by
      rw [← List.zipIdx_map_fst 0 (coreOf s core).queue]
      exact List.mem_map_of_mem (List.takeWhile_subset _ he)
    simp [hidle e.1 hmem]
  unfold accShow
  dsimp only
  rw [hqueued]

section Lanes

variable {f : LB} (hblock : blockOf s x.w = some b)

include hblock

theorem accrd_unmapped (hi : Issues (.accrd f) s x) (hname : nameState b (f.sub.toNat % 16) = .unmapped) :
    DoesToWarp (.accrd f) s x (fun w => (lanesOf (guardLanes x.w x.b.lanes f.gn f.gp.toNat)).foldl (fun w l =>
      (List.range 32).foldl (fun w i => vwrite w (f.vd.toNat + i) l 0) w) w) := by
  refine does_of_issueOp hi (show exec (.accrd f) s = execAccrd f s from rfl) ?_
  simp only [hblock, hname]

theorem accrd_mapped (hi : Issues (.accrd f) s x) (hname : nameState b (f.sub.toNat % 16) = .mapped slot) :
    let act := guardLanes x.w x.b.lanes f.gn f.gp.toNat
    let p := accShow s b.core x.w.block slot (accRows f) (accCols f act)
    Does (.accrd f) s x .advance { modWarp p.2 x.wid (fun w => (lanesOf act).foldl (fun w l => (List.range 32).foldl (fun w i =>
      vwrite w (f.vd.toNat + i) l (accRead p.1 slot (accElem f i l) (p.2.free + 64 * i + l))) w) w) with
      free := if p.1.length ≤ 1 then p.2.free else p.2.free + 2048 } := by
  refine does_of_issueOp hi (show exec (.accrd f) s = execAccrd f s from rfl) ?_
  simp only [hblock, hname]

theorem accwr_inactive (hi : Issues (.accwr f) s x) (hact : guardLanes x.w x.b.lanes f.gn f.gp.toNat = 0) :
    Does (.accwr f) s x .advance s := by
  refine does_of_issueOp hi (show exec (.accwr f) s = execAccwr f s from rfl) ?_
  simp only [hblock, hact, if_true]

theorem accwr_writes (hi : Issues (.accwr f) s x) (hact : guardLanes x.w x.b.lanes f.gn f.gp.toNat ≠ 0)
    (hclean : namePoisoned b (f.sub.toNat % 16) = false) (hrel : relQueued s x.w.block b (f.sub.toNat % 16) = false)
    (hmap : mapFor x s b (f.sub.toNat % 16) none = some t) (hb1 : tget t.blocks x.w.block = some b1)
    (hname : nameState b1 (f.sub.toNat % 16) = .mapped slot) :
    let cells := (lanesOf (guardLanes x.w x.b.lanes f.gn f.gp.toNat)).flatMap (fun l =>
      (List.range 32).map (fun i => (accElem f i l, vread x.w (f.vd.toNat + i) l)))
    Does (.accwr f) s x .advance (modCore t b.core (fun c => { c with
      accs := cells.foldl (fun t e => putAcc slot t e.1 e.2) c.accs
      queue := noteWrote slot c.accs (cells.map Prod.fst) c.queue })) := by
  refine does_of_issueOp hi (show exec (.accwr f) s = execAccwr f s from rfl) ?_
  simp only [hblock, hact, if_false, hclean, hrel, Bool.false_eq_true, hmap, hb1, Option.map_some, Option.getD_some, hname]

end Lanes

end Sys2Proof.Machine
end

section
/-! PROOF. Matrix instructions complete (O38). -/

namespace Sys2Proof.Machine

open Sys2Proof

/-- Settles O38: an MMA by its place in the round and the form of its B, the others by the names and logs of their block. -/
theorem matrixComplete : Obligations.MatrixComplete := by
  unfold Obligations.MatrixComplete
  refine ⟨?hset, ?mma, fun f s t x b hi hblock hclean hrel hmap => does_queueAcc (accz_queued hblock hi hclean hrel hmap),
    fun f s x b hi hblock => does_queueAcc (accrel_queued hblock hi), queueAcc_advance, ?accrd, ?accwr, ?mchkrd⟩
  case hset =>
    intro f s x b h hi hblock hh n
    rw [show n = hsetSigners f from (hsetSigners_eq f).symm]
    have hexec := exec_hset_hitch hblock hi hh
    exact ⟨fun hidle => does_of_exec hexec (if_pos (List.isEmpty_iff.mpr hidle)), fun hbusy hsame =>
      does_of_exec hexec ((if_neg (mt List.isEmpty_iff.mp hbusy)).trans (if_pos hsame))⟩
  case mma =>
    intro f s x b h ⟨hissuer, hp, _⟩ hblock k n r hh hs hkey hsigs hloaded hwin halign hplace hpois hname
    have hreach : Reaches (.mma f) s x := ⟨hissuer, hp⟩
    have hadmits : Admits h k x.wid := ⟨hs, hkey, hsigs⟩
    rw [← issuerOf_instr hissuer] at hpois
    refine ⟨fun hmore => ?waits, ?scratch, ?tile⟩
    case waits =>
      refine does_of_exec (exec_mma_scratch hreach hblock rfl hh hadmits hloaded (.inl hmore.ne)) ?_
      rw [checkMma_scratch hs hwin halign hplace hpois hname]
      exact signMma_waits hadmits hmore
    case scratch =>
      intro a t b1 slot hb hlast hroom hrel hmap hb1 hslot
      refine ⟨issueMma_advance hslot,
        does_of_exec (exec_mma_scratch hreach hblock rfl hh hadmits hloaded (.inr ⟨a, hb⟩)) ?_⟩
      rw [checkMma_scratch hs hwin halign hplace hpois hname, signMma_issues hadmits hlast hroom hrel hmap hb1]
      exact Prod.ext (issueMma_advance hslot) rfl
    case tile =>
      intro a co p bs s1 t b1 slot hb hlast hplaced hread hok hfault s2 hroom hrel hmap hb1 hslot
      have halign' : a % 64 = 0 := by
        have hr : bScratch k = (a, 64, 64) := by simp only [bScratch, hb]
        simpa only [r, hr] using halign
      refine does_of_exec (exec_mma_tile hreach hblock rfl hh hadmits hloaded hb hlast halign' hplaced hread hok) ?_
      rw [checkMma_tile hs hwin halign hplace hpois hname hb hfault, signMma_issues hadmits hlast hroom hrel hmap hb1]
      exact Prod.ext (issueMma_advance hslot) rfl
  case accrd =>
    intro f s x b hi hblock act
    exact ⟨fun slot => accrd_mapped hblock hi, fun slot rs cs hidle => ⟨accShow_idle hidle, fun e k => rfl⟩, accrd_unmapped hblock hi⟩
  case accwr =>
    intro f s x b hi hblock n act cells
    exact ⟨accwr_inactive hblock hi, fun t b1 slot => accwr_writes hblock hi⟩
  case mchkrd =>
    intro f s x b hi hblock put
    exact ⟨mchkrd_empty hblock hi, fun r rest => mchkrd_oldest hblock hi⟩

end Sys2Proof.Machine
end

section
/-! SUPPORT. When the events of the copy engines and of the channels happen (R223, R227, R229, R264, R265, R271 to R280, R315, R471). -/

namespace Sys2Proof.Machine

open Sys2Proof

variable {s : State} {id : Nat}

section Copy

variable {c : CopyCmd} (hc : tget s.net.copies id = some c)

include hc

/-- The engine reads the sources of an open command once none of their bytes is held back (R271, R273). -/
theorem copySourceRead_happens {bs : List (Byte × Bool)} (hunread : c.srcRead = none) (hgood : c.failed = none) (hrecvs : c.recvs ≠ [])
    (hopen : copyOpened s c = true) (hheld : sourceHeld s c = false) (hbytes : sourceBytes s (copySources c) = some bs) :
    let s1 := { s with free := s.free + bs.length / 16 + 4 }
    let s2 := if c.counts then modWarp s1 c.warp (fun w => { w with cp := w.cp - 1 }) else s1
    Happens (.copySourceRead id) s (settleCopy (modCopy s2 id (fun x =>
      { x with srcRead := some (pickRanges s.free (copySources c) c.srcOld bs), counts := false })) id) := by
  change execCopySourceRead id s = _
  simp [execCopySourceRead, hc, hunread, hgood, hrecvs, hopen, hheld, hbytes]

/-- A clear that can reach its port goes before the engine's pieces (R265). -/
theorem copyPiece_clears {t : State} (hclear : clearNext s c = some t) : Happens (.copyPiece id) s t := by
  change execCopyPiece id s = _
  simp only [execCopyPiece, hc, hclear]

theorem copyPiece_moves (hclear : clearNext s c = none) (hopen : copyOpen s c = true) :
    let s1 := modBay s c.bay (fun b => { b with lastCore := c.core % 12 })
    Happens (.copyPiece id) s (if writesGlobal c.kind then writePiece s1 c else readPiece s1 c) := by
  change execCopyPiece id s = _
  simp [execCopyPiece, hc, hclear, hopen]

/-- A copy fails once what it has sent is done and the tables of its receivers have room (R229). -/
theorem copyFailure_happens {e : Nat × Nat × Nat} (hfailed : c.failed = some e) (hnew : c.done = false)
    (hlines : ∀ e ∈ s.net.lines, e.2.copy ≠ id) (hrings : ∀ e ∈ s.net.rings, e.2.copy ≠ id)
    (hwrites : ∀ e ∈ s.net.cpw, e.grp ≠ id)
    (hroom : ∀ r ∈ liveReceivers s c, r.2.1.faults.length < 16 ∧ onTheWay s r.2.1 = false) :
    Happens (.copyFailure id) s (wakeLines (failSlots
      (modCopy (dropLines (uncountCopy s c) c) id (fun c => { c with done := true, counts := false, grp := none, uncleared := [] }))
      (liveReceivers s c) id e)) := by
  have hbusy : (s.net.lines.any (fun e => e.2.copy == id) || s.net.rings.any (fun e => e.2.copy == id)
      || s.net.cpw.any (fun e => e.grp == id)) = false := by
    rw [Bool.or_eq_false_iff, Bool.or_eq_false_iff]
    exact ⟨⟨List.any_eq_false.mpr fun e he => by simp [hlines e he], List.any_eq_false.mpr fun e he => by simp [hrings e he]⟩,
      List.any_eq_false.mpr fun e he => by simp [hwrites e he]⟩
  have hfull : ((liveReceivers s c).any fun r => decide (16 ≤ r.2.1.faults.length) || onTheWay s r.2.1) = false :=
    List.any_eq_false.mpr fun r hr => by simp [hroom r hr]
  change execCopyFailure id s = _
  simp only [execCopyFailure, hc, hfailed, hnew, hbusy, hfull, Bool.or_self, Bool.false_eq_true, if_false]

end Copy

/-- A copy that is gone settles nothing. -/
theorem settleCopy_gone (h : tget s.net.copies id = none) : settleCopy s id = s := by
  simp only [settleCopy, h]

/-- The state after the last piece of a line: instructions that wait for its lines go on (R264, R265). -/
def lineWritten (s : State) (m : LineMsg) (id : Nat) : State :=
  wakeLines (modNet (writeLine s m (16 - m.place.off % 16) m.last) (fun n => { n with lines := terase n.lines id }))

/-- The stream of copies to which a line belongs (R315). -/
def lineStream (s : State) (m : LineMsg) : Option (List Nat) :=
  (tget s.net.copies m.copy).bind (fun c => copyStream c m.place.rank)

section Line

variable {m : LineMsg} (hm : tget s.net.lines id = some m)

include hm

section Ready

variable (hready : lineReady s m = true)

include hready

/-- A piece of a line that is not its last. -/
theorem copyLineWrite_piece (hmore : 16 - m.place.off % 16 < m.data.length) :
    let n := 16 - m.place.off % 16
    Happens (.copyLineWrite id) s (modNet (writeLine s m n false) (fun t => { t with
      lines := tput t.lines id { m with place := { m.place with off := m.place.off + n }, data := m.data.drop n } })) := by
  change execCopyLineWrite id s = _
  simp [execCopyLineWrite, hm, hready, hmore]

section Last

variable (hlast : m.data.length ≤ 16 - m.place.off % 16)

include hlast

/-- The last piece of a line, whose copy may then fill its slot and leave the engine (R279). -/
theorem copyLineWrite_last {c : CopyCmd} (hc : tget (lineWritten s m id).net.copies m.copy = some c) :
    Happens (.copyLineWrite id) s (settleCopy (fillSlot (lineWritten s m id) c) m.copy) := by
  unfold lineWritten at hc ⊢
  change execCopyLineWrite id s = _
  simp only [execCopyLineWrite, hm, hready, Nat.not_lt.mpr hlast, Bool.not_true, Bool.false_eq_true, if_false, hc]

/-- The same where the copy is gone. -/
theorem copyLineWrite_gone (hnone : tget (lineWritten s m id).net.copies m.copy = none) :
    Happens (.copyLineWrite id) s (lineWritten s m id) := by
  unfold lineWritten at hnone ⊢
  change execCopyLineWrite id s = _
  simp only [execCopyLineWrite, hm, hready, Nat.not_lt.mpr hlast, Bool.not_true, Bool.false_eq_true, if_false, hnone,
    settleCopy_gone hnone]

end Last

end Ready

/-- A held line goes on behind the earlier ones of its stream (R315). -/
theorem streamRelease_happens (hheld : m.held = true) (hfirst : ∀ e ∈ s.net.lines, e.1 < id → e.2.held = true →
      e.2.place.rank = m.place.rank → lineStream s e.2 ≠ lineStream s m) :
    Happens (.streamRelease id) s (modNet (nextId s).2 (fun n => { n with
      lines := tput n.lines id { m with held := false, out := s.fresh } })) := by
  have hnone : (s.net.lines.any fun e => decide (e.1 < id) && e.2.held && lineStream s e.2 == lineStream s m
      && e.2.place.rank == m.place.rank) = false := by
    rw [List.any_eq_false]
    intro e he
    simp only [Bool.and_eq_true, decide_eq_true_eq, beq_iff_eq]
    rintro ⟨⟨⟨hlt, hheld'⟩, hstream⟩, hrank⟩
    exact hfirst e he hlt hheld' hrank hstream
  unfold lineStream at hnone
  change execStreamRelease id s = _
  simp only [execStreamRelease, hm, hheld, hnone, Bool.not_true, Bool.or_self, Bool.false_eq_true, if_false]
  rfl

end Line

/-- Bytes are counted at a placed rank, behind their lines and the earlier copies in order (R267, R471). -/
theorem ringArrival_happens {r : RingMsg} (hr : tget s.net.rings id = some r)
    (hord : ∀ c, tget s.net.copies r.copy = some c → ordBlocked s c = false) (hlines : ∀ k ∈ r.after, tget s.net.lines k = none)
    (hplaced : (placedBlock s r.ring.cluster r.ring.rank).isSome = true) :
    Happens (.ringArrival id) s
      (settleCopy (ringArrive (modNet s (fun n => { n with rings := terase n.rings id })) r.ring r.slot r.bytes r.clamp) r.copy) := by
  have hafter : (r.after.any fun k => (tget s.net.lines k).isSome) = false := List.any_eq_false.mpr fun k hk => by simp [hlines k hk]
  have hplaced' : (placedBlock s r.ring.cluster r.ring.rank).isNone = false := by simpa using hplaced
  change execRingArrival id s = _
  cases hc : tget s.net.copies r.copy with
  | none => simp only [execRingArrival, hr, hc, hafter, hplaced', Bool.or_self, Bool.false_eq_true, if_false]
  | some c => simp only [execRingArrival, hr, hc, hord c hc, hafter, hplaced', Bool.or_self, Bool.false_eq_true, if_false]

/-- A fault that RWAIT has been told is replayed: the command comes again with what remains for its slot (R229). -/
theorem copyReplay_happens {block entry : Nat} {b : Block} {f : CopyFault} {c : CopyCmd} (hb : tget s.blocks block = some b)
    (hf : b.faults[entry]? = some f) (hc : tget s.net.copies f.copy = some c) (hdelivered : f.delivered = true)
    (hawaited : slotAwaited s b f = true) :
    let recvs := c.recvs.filter (fun r => r.ring == f.ring && r.slot == f.slot)
    Happens (.copyReplay block entry) s (sweepCopies (modNet (modBlock (nextId s).2 block (fun b => { b with faults := b.faults.erase f }))
      (fun n => { n with copies := tput n.copies s.fresh { c with
        id := s.fresh, recvs := recvs, failed := if f.cause = cILL then c.failed else none, done := false, opened := false
        uncleared := if writesGlobal c.kind then [] else lineKeys recvs c.made c.total, buf := [], bufClamps := 0 } }))) := by
  change execCopyReplay block entry s = _
  simp [execCopyReplay, hb, hf, hc, hdelivered, hawaited, nextId]

section Claim

variable {n k j bid : Nat} {c : CopyCmd} {cl : Cluster} {g : Grid} {b : Block} {w : Warp}

/-- The state after a claim has taken slot `j` of its channel at block `bid` (R279). -/
def claimGranted (s : State) (id n j bid : Nat) (b : Block) (g : Grid) (c : CopyCmd) : State :=
  let e := recChannel g.record n
  let dst : SPlace := ⟨b.cluster, b.rank, chSlotOff g.record n j⟩
  let s1 := modBlock { s with free := s.free + 1 } bid (fun b => { b with
    chSlots := b.chSlots ++ [(n, j, .claimed id)]
    chNext := tput b.chNext n ((j + 1) % chSlotsN e)
    chWait := b.chWait.erase (n, id) })
  let t := clearAt s1 ⟨dst, 0, dst⟩ (lineKeys [⟨dst, 0, dst⟩] 0 c.total)
  let old := ((sourceBytes t.1 (copySources c)).getD []).map Prod.fst
  let s2 := modCopy t.1 id (fun c => { c with
    kind := .chan n j, recvs := [⟨dst, 0, dst⟩], srcOld := old, counts := true, uncleared := t.2 })
  unpark (modWarp s2 c.warp (fun w => { w with cp := w.cp + 1 })) c.warp (fun p => p.cond == .chSend id)

theorem clearAt_net (s : State) (r : Receiver) (keys : List Nat) : (clearAt s r keys).1.net = s.net := by
  obtain ⟨bs, hclear⟩ := exists_blocks_clearAt s r keys
  rw [hclear]

theorem clearAt_warps (s : State) (r : Receiver) (keys : List Nat) : (clearAt s r keys).1.warps = s.warps := by
  obtain ⟨bs, hclear⟩ := exists_blocks_clearAt s r keys
  rw [hclear]

/-- The sender's copy is one of the slot, and counts. -/
theorem copy_claimGranted (hc : tget s.net.copies id = some c) :
    (tget (claimGranted s id n j bid b g c).net.copies id).map (fun c => (c.kind, c.counts)) = some (.chan n j, true) := by
  change (tget (tmod (clearAt _ _ _).1.net.copies id _) id).map _ = _
  rw [clearAt_net]
  exact congrArg (Option.map fun c : CopyCmd => (c.kind, c.counts)) (tget_tmod_same hc _)

/-- The sender's warp has one more copy under way (R224, R279). -/
theorem cp_claimGranted (hw : tget s.warps c.warp = some w) :
    (tget (claimGranted s id n j bid b g c).warps c.warp).map (·.cp) = some (w.cp + 1) := by
  change (tget (tmod (tmod (clearAt _ _ _).1.warps c.warp _) c.warp _) c.warp).map _ = _
  rw [clearAt_warps]
  refine (congrArg (Option.map (·.cp)) (tget_tmod_same (tget_tmod_same hw _) _)).trans (congrArg some ?_)
  exact (congrArg Warp.cp (placeless_releaseLanes _ _ _ _) :)

section Claims

variable (hc : tget s.net.copies id = some c) (hkind : c.kind = .chan n k) (hcl : tget s.clusters c.cluster = some cl)
  (hg : tget s.grids cl.grid = some g) (hrecvs : c.recvs = []) (hw : tget s.warps c.warp = some w)
  (hb : blockAt s cl.grid c.count (chDrank (recChannel g.record n)) = some (bid, b)) (hstarted : b.started = true)

include hc hkind hcl hg hrecvs hw hb hstarted

/-- A claim of an ended receiver: its CHSEND is executed again, and traps (R280). -/
theorem channelClaim_ended (hended : b.ended = true) : Happens (.channelClaim id) s
    (reissue (modNet s (fun t => { t with copies := terase t.copies id })) c.warp (fun p => p.cond == .chSend id)) := by
  change execChannelClaim id s = _
  simp [execChannelClaim, hc, hkind, hcl, hg, hrecvs, hw, hb, hstarted, hended]

section Live

variable (hlive : b.ended = false)

include hlive

theorem channelClaim_queues (hnew : b.chWait.contains (n, id) = false) : Happens (.channelClaim id) s
    (modBlock s bid (fun b => { b with chWait := b.chWait ++ [(n, id)] })) := by
  change execChannelClaim id s = _
  simp only [execChannelClaim, hc, hkind, hcl, hg, hrecvs, hw, hb, hstarted, hlive, hnew, Option.bind_some, Option.map_some,
    List.isEmpty_nil, Option.isNone_some, Bool.not_true, Bool.not_false, Bool.or_self, Bool.false_eq_true, if_false, if_true]

/-- The oldest claim of a channel takes a free slot, where the counters have room (R279). -/
theorem channelClaim_takes (hfirst : b.chWait.find? (fun q => q.1 == n) = some (n, id)) (hcp : w.cp < 63)
    (hcore : coreCopies s c.core < 16) (hbay : bayCopies s c.bay < 128)
    (hslot : freeSlot s b n (chSlotsN (recChannel g.record n)) = some j) :
    Happens (.channelClaim id) s (claimGranted s id n j bid b g c) := by
  have hqueued : b.chWait.contains (n, id) = true := List.contains_iff_mem.mpr (List.mem_of_find?_eq_some hfirst)
  change execChannelClaim id s = _
  simp only [execChannelClaim, hc, hkind, hcl, hg, hrecvs, hw, hb, hstarted, hlive, hqueued, hfirst, Nat.not_le.mpr hcp,
    Nat.not_le.mpr hcore, Nat.not_le.mpr hbay, hslot, Option.bind_some, Option.map_some, Option.getD_some, List.isEmpty_nil,
    Option.isNone_some, Bool.not_true, Bool.not_false, Bool.or_self, Bool.and_self, beq_self_eq_true, decide_false,
    Bool.false_eq_true, if_false, if_true]
  rfl

end Live

end Claims

end Claim

end Sys2Proof.Machine
end

section
/-! PROOF. Copy, ring and channel events happen (O42). -/

namespace Sys2Proof.Machine

open Sys2Proof

/-- Settles O42: each event happens where its conditions stand. -/
theorem copyEventsComplete : Obligations.CopyEventsComplete := by
  unfold Obligations.CopyEventsComplete
  refine ⟨fun _ _ _ _ hc => copySourceRead_happens hc, fun _ _ _ hc => ⟨fun _ => copyPiece_clears hc, copyPiece_moves hc⟩, ?line,
    fun _ _ _ => ringArrival_happens, fun _ _ _ _ hc => copyFailure_happens hc, fun _ _ _ _ _ _ => copyReplay_happens, ?claim,
    fun _ _ _ => streamRelease_happens⟩
  case line =>
    exact fun id s m hm hready => ⟨copyLineWrite_piece hm hready, fun hlast =>
      ⟨fun c => copyLineWrite_last hm hready hlast, copyLineWrite_gone hm hready hlast⟩⟩
  case claim =>
    intro id n k gid bid s c cl g b w hc hkind hcl hgid hg hrecvs hw e hb hstarted
    subst hgid
    exact ⟨channelClaim_ended hc hkind hcl hg hrecvs hw hb hstarted, channelClaim_queues hc hkind hcl hg hrecvs hw hb hstarted,
      fun j hlive hfirst hcp hcore hbay hslot => ⟨claimGranted s id n j bid b g c,
        channelClaim_takes hc hkind hcl hg hrecvs hw hb hstarted hlive hfirst hcp hcore hbay hslot,
        copy_claimGranted hc, cp_claimGranted hw⟩⟩

end Sys2Proof.Machine
end

section
/-! SUPPORT. The events of the L2 slices, the bay windows and the splice buffers, by what they find (R285, R286, R299, R316,
R322 to R335). -/

namespace Sys2Proof.Machine

open Sys2Proof

variable {s t : State} {id k bay grain : Nat}

/-- A load's lanes of one region, once the warp's earlier loads are performed (R285). -/
theorem execL2Request_load {lid : Nat} {r : L2Req} {l : PLoad} {w : Warp} (hr : tget s.net.reqs id = some r) (hload : r.load = some lid)
    (hl : tget s.net.loads lid = some l) (hw : tget s.warps l.warp = some w) (hbefore : loadBefore s l.warp l.id = false) :
    let t := (openParts l r.region).foldl (fun s p => serveLane s r l w p) s
    let left := ((tget t.net.loads lid).map (fun l => openParts l r.region)).getD []
    let u := endVisit t r left
    execL2Request id s = .next (if left.isEmpty then dropReq u id else u) := by
  simp only [execL2Request, hr, hload, hl, hw, hbefore, Bool.false_eq_true, if_false]

theorem execL2Request_prefetch {r : L2Req} (hr : tget s.net.reqs id = some r) (hload : r.load = none) :
    execL2Request id s = .next (dropReq (prefetchAt s r) id) := by
  simp only [execL2Request, hr, hload]

section Fill

variable {f : Fill} {bad : BitVec 16}

/-- A lease fill that its home has served at `t`: its slice holds the home's bytes and poison for the way to the proxy (R324, R328). -/
def fillServed (t : State) (k id : Nat) (f : Fill) : State :=
  let data := gatherGrains f.region f.grains (homeByte t)
  let pois := (grainsOfMask f.grains).foldl (fun (acc : BitVec 16) g =>
    if homePois t (f.region * 512 + 32 * g) then acc ||| runMask g 1 else acc) 0
  modSlice (leaveLease t f) k (fun y => { y with fills := y.fills.map (fun x =>
    if x.id == id then { x with served := some t.clock, data := data, pois := pois } else x) })

/-- The fill at its slice carries the time at which its home served it. -/
theorem served_of_mem_fillServed (hk : (leaveLease t f).slices[k]?.isSome = true) {y : Fill}
    (hy : y ∈ (sliceOf (fillServed t k id f) k).fills.filter (fun y => y.id == id)) : y.served = some t.clock := by
  have hlt : k < (leaveLease t f).slices.length := by simpa using hk
  obtain ⟨hmem, hid⟩ := List.mem_filter.mp hy
  unfold sliceOf fillServed at hmem
  rw [modSlice_slices, getD_lmod_same hlt] at hmem
  obtain ⟨x, -, rfl⟩ := List.mem_map.mp hmem
  by_cases hx : (x.id == id) = true
  · rw [if_pos hx]
  · rw [if_neg hx] at hid
    exact absurd hid hx

variable (hf : findFill s id = some (k, f))

include hf

theorem execGapFillArrival_lost (hlost : homeOf s (f.region * 512 + 32 * ((grainsOfMask f.grains).headD 0)) = none) :
    execGapFillArrival id bad s = .next (dropFill s k id) := by
  simp only [execGapFillArrival, hf, hlost, Option.isNone_none, if_true]

variable (hhome : (homeOf s (f.region * 512 + 32 * ((grainsOfMask f.grains).headD 0))).isSome = true)

include hhome

theorem execGapFillArrival_home (hlease : f.lease = false) (ht : fillHome s k f bad = some t) :
    execGapFillArrival id bad s = .next t := by
  simp only [execGapFillArrival, hf, ← Option.not_isSome, hhome, Bool.not_true, Bool.not_false, Bool.false_eq_true, if_false, hlease, ht,
    Option.getD_some, if_true]

/-- A lease fill that its home has served arrives at its proxy (R299). -/
theorem execGapFillArrival_proxy {at' : Nat} (hlease : f.lease = true) (hserved : f.served = some at')
    (ht : fillLease s k f at' = some t) : execGapFillArrival id bad s = .next t := by
  simp only [execGapFillArrival, hf, ← Option.not_isSome, hhome, Bool.not_true, Bool.false_eq_true, if_false, hlease, hserved, ht,
    Option.getD_some]

/-- A lease fill is first served by its home (R328). -/
theorem execGapFillArrival_serves {u : State} (hlease : f.lease = true) (hserved : f.served = none)
    (ht : serveLease s f = (some t, u)) : execGapFillArrival id bad s = .next (fillServed t k id f) := by
  simp only [execGapFillArrival, hf, ← Option.not_isSome, hhome, Bool.not_true, Bool.false_eq_true, if_false, hlease, hserved, ht,
    fillServed]

end Fill

/-- A STNT that its core holds is sent, once the warp's earlier loads are performed (R159, R285). -/
theorem execHomeWrite_sends {e : WinEnt} (hflush : tget s.net.flushes id = none) (he : findEnt s id = some e) (hheld : e.held = true)
    (hbefore : loadBefore s e.warp e.grp = false) :
    execHomeWrite id s = .next (modNet { s with fresh := s.fresh + 1 } (fun n => { n with
      nts := n.nts.map (fun x => if x.id = e.id then { x with id := s.fresh, held := false } else x) })) := by
  simp only [execHomeWrite, hflush, he, hheld, if_true, sendNt, hbefore, Bool.false_eq_true, if_false, nextId, beq_iff_eq]

theorem execHomeWrite_flush {f : FlushCmd} (hf : tget s.net.flushes id = some f) : execHomeWrite id s = .next (flushStep s f) := by
  simp only [execHomeWrite, hf]

section Absorb

variable {op : AtomOp} {e : WinEnt}

/-- The entry that a REDG opens in its bay's splice buffer (R333). -/
def newSplice (s : State) (id : Nat) (op : AtomOp) (e : WinEnt) : SpliceEnt :=
  mergePart op e ⟨e.grain, op.aop, op.ty, List.replicate 32 0, 0, false, false, s.clock, [id], (entMaster s e).1⟩

/-- A splice entry on its way changes no master and no clock, so it leaves the entry that a REDG opens as it was. -/
theorem newSplice_sendPartial (old : SpliceEnt) : newSplice (sendPartial s bay old) id op e = newSplice s id op e := rfl

variable (he : findEnt s id = some e) (hbay : bayOfEnt s id = some bay) (hkind : e.kind = .redg op) (hperformed : e.performed = false)
  (habsorbable : absorbable s e = true) (habsorbed : absorbed s id = false) (hbehind : behindLive s bay e = false)

include he hbay hkind hperformed habsorbable habsorbed hbehind

/-- A REDG that its bay may absorb is combined into the entry of its grain (R333). -/
theorem execSpliceAbsorb_merges {x : SpliceEnt} (hx : spliceEntOf s bay e.grain = some x) :
    let x' := { mergePart op e x with mid := (entMaster s e).1 }
    execSpliceAbsorb id s = .next (if x.confirmed then performAtBay (modSplice s bay e.grain (fun _ => x')) id
      else modSplice s bay e.grain (fun _ => { x' with waiters := x'.waiters ++ [id] })) := by
  simp only [execSpliceAbsorb, he, hbay, hkind, hperformed, habsorbable, habsorbed, hbehind, hx, Bool.not_true, Bool.or_self,
    Bool.false_eq_true, if_false]
  cases x.confirmed <;> rfl

variable (hx : spliceEntOf s bay e.grain = none)

include hx

theorem execSpliceAbsorb_opens (hroom : (bayOf s bay).splice.length < 512) :
    execSpliceAbsorb id s = .next (modBay s bay (fun b => { b with splice := b.splice ++ [newSplice s id op e] })) := by
  simp only [execSpliceAbsorb, he, hbay, hkind, hperformed, habsorbable, habsorbed, hbehind, hx, Nat.not_le.mpr hroom, Bool.not_true,
    Bool.or_self, decide_false, Bool.false_eq_true, if_false]
  rfl

/-- A full splice buffer sends its oldest entry home (R333). -/
theorem execSpliceAbsorb_evicts {old : SpliceEnt} {rest : List SpliceEnt} (hfull : 512 ≤ (bayOf s bay).splice.length)
    (hold : sortBy (fun (a b : SpliceEnt) => decide (a.age ≤ b.age)) (bayOf s bay).splice = old :: rest) :
    execSpliceAbsorb id s =
      .next (modBay (sendPartial s bay old) bay (fun b => { b with splice := b.splice ++ [newSplice s id op e] })) := by
  rw [← newSplice_sendPartial (bay := bay) old]
  simp only [execSpliceAbsorb, he, hbay, hkind, hperformed, habsorbable, habsorbed, hbehind, hx, hfull, hold, List.head?_cons,
    Bool.not_true, Bool.or_self, decide_true, if_true, Bool.false_eq_true, if_false]
  rfl

end Absorb

section Record

variable {s0 : State} {x : SpliceEnt} (hreel : reelHook s0 (32 * grain) = s) (hx : spliceEntOf s bay grain = some x)
  (hhome : homeOf s (32 * grain) = some k) (hrecorded : x.recorded = false) (haway : partialAway s bay grain = false)
  (hheld : heldAt s k grain = false)

include hreel hx hhome hrecorded haway hheld

/-- A grain that the home has in its directory (R334): the bay's bit is set where the operation is the same. -/
theorem execSpliceRecordRequest_listed {d : SpliceDir} (hd : (sliceOf s k).splice.find? (fun d => d.grain == grain) = some d)
    (hcalled : d.called = false) : execSpliceRecordRequest bay grain s0 =
      .next (if d.aop = x.aop ∧ d.ty = x.ty then recordSplice s k bay x else sendPartial s bay x) := by
  simp only [execSpliceRecordRequest, hreel, hx, hhome, hrecorded, haway, hheld, hd, hcalled, Bool.or_self, Bool.false_eq_true, if_false]

/-- A grain new to the home's directory (R334): it is recorded where there is room. -/
theorem execSpliceRecordRequest_new (hnew : ∀ d ∈ (sliceOf s k).splice, d.grain ≠ grain) : execSpliceRecordRequest bay grain s0 =
      .next (if (sliceOf s k).splice.length < 512 then recordSplice s k bay x else sendPartial s bay x) := by
  have hnone : (sliceOf s k).splice.find? (fun d => d.grain == grain) = none :=
    List.find?_eq_none.mpr fun d hd => by simpa using hnew d hd
  simp only [execSpliceRecordRequest, hreel, hx, hhome, hrecorded, haway, hheld, hnone, Bool.or_self, Bool.false_eq_true, if_false]

end Record

theorem execSpliceConfirm_recorded {x : SpliceEnt} (hx : spliceEntOf s bay grain = some x) (hconfirmed : x.confirmed = false)
    (hrecorded : x.recorded = true) : execSpliceConfirm bay grain s =
      .next (performEnts (modSplice s bay grain (fun x => { x with confirmed := true, waiters := [] })) x.waiters) := by
  simp only [execSpliceConfirm, hx, hconfirmed, hrecorded, Bool.not_true, Bool.or_self, Bool.false_eq_true, if_false]

/-- What a bay leaves that answers its home's recall of a grain: a confirmed entry goes home, one of which the home knows nothing, or
none, clears the bay's bit (R335). -/
def spliceAnswered (s : State) (k bay grain : Nat) : State :=
  match spliceEntOf s bay grain with
  | none => clearSpliceBit s k bay grain
  | some x => if x.confirmed then sendPartial s bay x else if x.recorded then s else clearSpliceBit s k bay grain

theorem execSpliceRecall_called (hhome : homeOf s (32 * grain) = some k)
    (hcalled : ∃ d ∈ (sliceOf s k).splice, d.grain = grain ∧ d.called = true ∧ d.bays.getLsbD bay = true)
    (haway : partialAway s bay grain = false) : execSpliceRecall bay grain s = .next (spliceAnswered s k bay grain) := by
  obtain ⟨d, hd, hgrain, hcall, hbit⟩ := hcalled
  have hany : (sliceOf s k).splice.any (fun d => d.grain == grain && d.called && d.bays.getLsbD bay) = true :=
    List.any_eq_true.mpr ⟨d, hd, by simp [hgrain, hcall, hbit]⟩
  simp only [execSpliceRecall, hhome, hany, haway, Bool.not_true, Bool.or_self, Bool.false_eq_true, if_false, spliceAnswered]
  cases spliceEntOf s bay grain <;> rfl

section Combine

variable {x : SpliceEnt}

/-- The home after a partial has been combined into its grain: its REDGs are performed, and it waits no more (R334, R335). -/
def spliceCombined (s1 : State) (k id : Nat) (x : SpliceEnt) : State :=
  leaveAt (performEnts (modNet (applyPartial s1 x) (fun n => { n with partials := terase n.partials id })) x.waiters) k x.grain id

variable (hp : tget s.net.partials id = some (bay, x)) (hhome : homeOf s (32 * x.grain) = some k)
  (hpresent : grainPresent (reelHook s (32 * x.grain)) k false (32 * x.grain) = true)

include hp hhome hpresent

/-- A partial that its home has recorded is combined at once, and the bay's bit goes (R335). -/
theorem execSplicePartialCombine_recorded (hrecorded : x.recorded = true) : execSplicePartialCombine id s =
    .next (clearSpliceBit (spliceCombined (reelHook s (32 * x.grain)) k id x) k bay x.grain) := by
  simp only [execSplicePartialCombine, hp, hhome, hpresent, hrecorded, Bool.not_true, Bool.false_eq_true, false_and, if_false, if_true]
  rfl

/-- One that is not recorded is combined in its turn, where the directory holds nothing of the grain (R334). -/
theorem execSplicePartialCombine_ordinary (hrecorded : x.recorded = false) (hturn : atTurn (reelHook s (32 * x.grain)) k x.grain id = true)
    (hsplice : spliceOf (reelHook s (32 * x.grain)) k x.grain = none) : execSplicePartialCombine id s =
    .next (spliceCombined (reelHook s (32 * x.grain)) k id x) := by
  simp only [execSplicePartialCombine, hp, hhome, hpresent, hrecorded, hturn, hsplice, Bool.not_true, Option.isSome_none,
    Bool.false_eq_true, and_false, if_false]
  rfl

end Combine

end Sys2Proof.Machine
end

section
/-! PROOF. L2, window and splice events happen (O43). -/

namespace Sys2Proof.Machine

open Sys2Proof

/-- Settles O43: each event by what it finds in the requests, the fills, the window and the splice buffers. -/
theorem homeEventsComplete : Obligations.HomeEventsComplete := by
  unfold Obligations.HomeEventsComplete
  refine ⟨fun _ _ _ _ _ _ => execL2Request_load, fun _ _ _ => execL2Request_prefetch, ?fill, fun _ _ _ _ _ => execGapFillArrival_lost,
    fun _ _ _ => execHomeWrite_ready, fun _ _ _ => execHomeWrite_sends, fun _ _ _ => execHomeWrite_flush, fun _ _ => rfl, ?absorb, ?record,
    fun _ _ _ _ => execSpliceConfirm_recorded, ?recalls, ?combine⟩
  case fill =>
    intro id k bad s f hf hhome
    exact ⟨fun t => execGapFillArrival_home hf hhome, fun t at' => execGapFillArrival_proxy hf hhome,
      fun t u hlease hserved ht => ⟨fillServed t k id f, execGapFillArrival_serves hf hhome hlease hserved ht,
        fun hk y => served_of_mem_fillServed hk⟩⟩
  case absorb =>
    intro id bay op s e he hbay hkind hperformed habsorbable habsorbed hbehind
    exact ⟨fun x => execSpliceAbsorb_merges he hbay hkind hperformed habsorbable habsorbed hbehind,
      fun hx => ⟨execSpliceAbsorb_opens he hbay hkind hperformed habsorbable habsorbed hbehind hx,
        fun old rest => execSpliceAbsorb_evicts he hbay hkind hperformed habsorbable habsorbed hbehind hx⟩⟩
  case record =>
    intro bay grain k s0 x s hx hhome hrecorded haway hheld
    exact ⟨fun d => execSpliceRecordRequest_listed rfl hx hhome hrecorded haway hheld,
      execSpliceRecordRequest_new rfl hx hhome hrecorded haway hheld⟩
  case recalls =>
    intro bay grain k s hhome hcalled haway
    have hrun := execSpliceRecall_called hhome hcalled haway
    refine ⟨fun x hx hconfirmed => hrun.trans ?_, fun x hx hconfirmed hrecorded => hrun.trans ?_, fun hx => hrun.trans ?_⟩
    · simp only [spliceAnswered, hx, hconfirmed, if_true]
    · simp only [spliceAnswered, hx, hconfirmed, hrecorded, Bool.false_eq_true, if_false]
    · simp only [spliceAnswered, hx]
  case combine =>
    intro id bay k s x hp hhome s1 hpresent t
    exact ⟨execSplicePartialCombine_recorded hp hhome hpresent, execSplicePartialCombine_ordinary hp hhome hpresent⟩

end Sys2Proof.Machine
end

section
/-! SUPPORT. Where the halves that a distributor has sent stand among what its peer has to place (R371, R374), and two launches whose
blocks meet there. -/

namespace Sys2Proof.Machine

open Sys2Proof

variable {s : State} {die : Nat}

@[simp] theorem dieOf_modDie_same (h : die < s.dies.length) (f : Die → Die) : dieOf (modDie s die f) die = f (dieOf s die) :=
  getD_lmod_same h f resetDie

@[simp] theorem dieOf_modDie_other {k : Nat} (h : die ≠ k) (f : Die → Die) : dieOf (modDie s k f) die = dieOf s die :=
  getD_lmod_other s.dies h f resetDie

/-- What a distributor is left to place once its peer's halves have been put behind everything it had. -/
theorem placing_append_forwarded (hdie : 1 - die < s.dies.length) :
    (dieOf (modDie (modDie s die (fun d => { d with forwarded := [] })) (1 - die)
      (fun d => { d with placing := d.placing ++ (dieOf s die).forwarded })) (1 - die)).placing =
        (dieOf s (1 - die)).placing ++ (dieOf s die).forwarded := by
  have hpeer : 1 - die ≠ die := by omega
  rw [dieOf_modDie_same (by simpa [lmod_length] using hdie), dieOf_modDie_other hpeer]

/-- The halves go before a block of a launch of the peer's own, when no cooperative grid has been begun (R371). -/
theorem placing_takeHalves_of_own {own : Placing} {rest : List Placing} (hdie : 1 - die < s.dies.length)
    (hhere : (dieOf s (1 - die)).placing = own :: rest) (hown : peerHalf s (1 - die) own = false)
    (hcoop : coopGrid s own.grid = false) :
    (dieOf (takeHalves s die) (1 - die)).placing = (dieOf s die).forwarded ++ own :: rest := by
  have hpeer : 1 - die ≠ die := by omega
  rw [takeHalves, dieOf_modDie_same (by simpa [lmod_length] using hdie)]
  simp [hhere, hown, hcoop]

/-- The halves on their way reach the peer (R371). -/
theorem seamHalfForward_happens (h : (dieOf s die).forwarded ≠ []) : Happens (.seamHalfForward die) s (takeHalves s die) := by
  change execSeamHalfForward die s = _
  simp [execSeamHalfForward, h]

/-- A half that meets a block of the peer's own is not put behind it (R371, R374). -/
theorem seamHalfForward_not_behind_own {half own : Placing} (hdie : 1 - die < s.dies.length) (hsent : (dieOf s die).forwarded = [half])
    (hhere : (dieOf s (1 - die)).placing = [own]) (hne : half ≠ own) (hown : peerHalf s (1 - die) own = false)
    (hcoop : coopGrid s own.grid = false) :
    ¬ Happens (.seamHalfForward die) s (modDie (modDie s die (fun d => { d with forwarded := [] })) (1 - die)
      (fun d => { d with placing := d.placing ++ (dieOf s die).forwarded })) := by
  intro hbehind
  have hstate := Host.Outcome.next.inj ((seamHalfForward_happens (by simp [hsent])).symm.trans hbehind)
  have horder : [half] ++ [own] = [own] ++ [half] := by
    rw [← hsent, ← placing_takeHalves_of_own hdie hhere hown hcoop, hstate, placing_append_forwarded hdie, hhere]
  exact hne (List.cons.inj horder).1

/-- The record of a grid of one cluster of `csize` blocks, each of one warp (R95). -/
def clusterRecord (flags csize : Nat) : List Byte :=
  toBytes 4 1 ++ toBytes 4 flags ++ toBytes 2 256 ++ toBytes 1 csize ++ toBytes 1 0 ++ toBytes 1 1 ++ toBytes 1 4 ++ toBytes 2 16
    ++ toBytes 8 loadPc.toNat ++ toBytes 4 1 ++ List.replicate 356 0

/-- A grid of one block enters the list of die 1, then a seam-bonded grid of two blocks that of die 0 (R258, R367). -/
def seamAndOwnListed : State :=
  (enterLaunch (enterLaunch State.reset 1 0 0 (clusterRecord 1 1) none false).2 0 1 0 (clusterRecord 0x11 2) none false).2

/-- Die 1 makes its pass, then die 0, whose second half is on its way to die 1 while die 1's own block is not placed yet. -/
def halfMeetsOwn : State := placementPass (placementPass seamAndOwnListed 1) 0

/-- The block of die 1's own grid, and the half of the seam-bonded one, as the passes place them. -/
def ownBlock : Placing := ⟨0, 2, 0, 96, false⟩
def seamHalf : Placing := ⟨1, 5, 1, 108, false⟩

theorem halfMeetsOwn_placings : (dieOf halfMeetsOwn 0).forwarded = [seamHalf] ∧ (dieOf halfMeetsOwn 1).placing = [ownBlock] := by
  decide +kernel

theorem halfMeetsOwn_own : 1 < halfMeetsOwn.dies.length ∧ peerHalf halfMeetsOwn 1 ownBlock = false ∧
    coopGrid halfMeetsOwn ownBlock.grid = false := by
  decide +kernel

end Sys2Proof.Machine
end

section
/-! PROOF. The placement events do not all happen as stated: a forwarded half is placed first (O45). -/

namespace Sys2Proof.Machine

open Sys2Proof

/-- Refutes O45 in its clause of the forwarded half: it puts the half behind what the peer has to place, where R371 and R374, and the
model with them, place it before any placement of the peer's own. -/
theorem not_placementEventsComplete : ¬ Obligations.PlacementEventsComplete := by
  unfold Obligations.PlacementEventsComplete
  rintro ⟨-, -, -, -, hforward, -⟩
  obtain ⟨hsent, hhere⟩ := halfMeetsOwn_placings
  obtain ⟨hdie, hown, hcoop⟩ := halfMeetsOwn_own
  exact seamHalfForward_not_behind_own hdie hsent hhere (by decide) hown hcoop (hforward 0 halfMeetsOwn (by simp [hsent]))

end Sys2Proof.Machine
end

section
/-! SUPPORT. Every step keeps the canonical form of memory. In the sections that follow `f_mem` says that `f` leaves memory as it
was, `f_memWf` that it keeps its canonical form, in the order of the model. Here: outcomes, moves and folds. -/

namespace Sys2Proof.Machine

open Sys2Proof

/-- Steps over a list leave memory as it was where each of them does. -/
@[simp] theorem foldl_mem {α : Type} {f : State → α → State} (h : ∀ s a, (f s a).mem = s.mem) (l : List α) (s : State) :
    (l.foldl f s).mem = s.mem :=
  List.foldlRecOn (motive := fun t => t.mem = s.mem) l f rfl fun t ht a _ => (h t a).trans ht

theorem foldl_memWf {α : Type} {f : State → α → State} (h : ∀ s a, memWf s.mem → memWf (f s a).mem) (l : List α)
    {s : State} (hs : memWf s.mem) : memWf (l.foldl f s).mem :=
  List.foldlRecOn (motive := fun t => memWf t.mem) l f hs fun t ht a _ => h t a ht

@[simp] theorem foldl_fst_mem {α β : Type} {f : State × β → α → State × β} (h : ∀ r a, (f r a).1.mem = r.1.mem)
    (l : List α) (r : State × β) : (l.foldl f r).1.mem = r.1.mem :=
  List.foldlRecOn (motive := fun t => t.1.mem = r.1.mem) l f rfl fun t ht a _ => (h t a).trans ht

theorem foldl_fst_memWf {α β : Type} {f : State × β → α → State × β} (h : ∀ r a, memWf r.1.mem → memWf (f r a).1.mem)
    (l : List α) {r : State × β} (hr : memWf r.1.mem) : memWf (l.foldl f r).1.mem :=
  List.foldlRecOn (motive := fun t => memWf t.1.mem) l f hr fun t ht a _ => h t a ht

@[simp] theorem foldl_snd_mem {α β : Type} {f : β × State → α → β × State} (h : ∀ r a, (f r a).2.mem = r.2.mem)
    (l : List α) (r : β × State) : (l.foldl f r).2.mem = r.2.mem :=
  List.foldlRecOn (motive := fun t => t.2.mem = r.2.mem) l f rfl fun t ht a _ => (h t a).trans ht

theorem foldl_snd_memWf {α β : Type} {f : β × State → α → β × State} (h : ∀ r a, memWf r.2.mem → memWf (f r a).2.mem)
    (l : List α) {r : β × State} (hr : memWf r.2.mem) : memWf (l.foldl f r).2.mem :=
  List.foldlRecOn (motive := fun t => memWf t.2.mem) l f hr fun t ht a _ => h t a ht

/-- Steps over a list that may fail leave memory as it was where each of them does. -/
theorem foldl_bind_mem {α : Type} {f : State → α → Option State} (h : ∀ s a t, f s a = some t → t.mem = s.mem)
    (l : List α) (s : State) : ∀ t, l.foldl (fun o a => o.bind fun s => f s a) (some s) = some t → t.mem = s.mem := by
  refine List.foldlRecOn (motive := fun (o : Option State) => ∀ t, o = some t → t.mem = s.mem) l _ (by rintro _ ⟨⟩; rfl) ?_
  intro o ho a _ t ht
  obtain ⟨u, hu, hf⟩ := Option.bind_eq_some_iff.mp ht
  exact (h u a t hf).trans (ho u hu)

theorem foldl_bind_memWf {α : Type} {f : State → α → Option State} (h : ∀ s a t, memWf s.mem → f s a = some t → memWf t.mem)
    (l : List α) {s : State} (hs : memWf s.mem) :
    ∀ t, l.foldl (fun o a => o.bind fun s => f s a) (some s) = some t → memWf t.mem := by
  refine List.foldlRecOn (motive := fun (o : Option State) => ∀ t, o = some t → memWf t.mem) l _ (by rintro _ ⟨⟩; exact hs) ?_
  intro o ho a _ t ht
  obtain ⟨u, hu, hf⟩ := Option.bind_eq_some_iff.mp ht
  exact h u a t (ho u hu) hf

@[simp] theorem getD_mem {o : Option State} {s : State} (h : ∀ t, o = some t → t.mem = s.mem) : (o.getD s).mem = s.mem := by
  cases o with
  | none => rfl
  | some t => exact h t rfl

theorem getD_memWf {o : Option State} {s : State} (h : ∀ t, o = some t → memWf t.mem) (hs : memWf s.mem) :
    memWf (o.getD s).mem := by
  cases o with
  | none => exact hs
  | some t => exact h t rfl

/-- An outcome whose state, where it is a next state, has its memory in canonical form. -/
def NextWf : Host.Outcome State Fault Refusal → Prop
  | .next t => memWf t.mem
  | _ => True

@[simp] theorem nextWf_next (t : State) : NextWf (.next t) ↔ memWf t.mem := Iff.rfl

/-- A move that keeps the canonical form of memory. -/
def KeepsWf (a : Act) : Prop := ∀ s, memWf s.mem → NextWf (a s)

theorem nextWf_ite_next {c : Prop} [Decidable c] {s : State} {o} (hs : memWf s.mem) (h : ¬c → NextWf o) :
    NextWf (if c then .next s else o) := by
  split
  · exact hs
  · exact h ‹_›

end Sys2Proof.Machine
end

section
/-! SUPPORT. What records, homes and L2 slices leave of memory: the controller alone writes it, and it stores bytes (R316, R319 to
R329, R337, R436). -/

namespace Sys2Proof.Machine

open Sys2Proof

@[simp] theorem freePick_mem (s) : (freePick s).2.mem = s.mem := rfl

@[simp] theorem dropParked_mem (s k) : (dropParked s k).mem = s.mem := by simp [dropParked]

@[simp] theorem startFence_mem (s c f) : (startFence s c f).mem = s.mem := by
  grind [startFence, modCtx_mem, dropParked_mem, foldl_mem]

@[simp] theorem report_mem (s die e) : (report s die e).mem = s.mem := by grind [report, modDie_mem, startFence_mem]

@[simp] theorem dropDescs_mem (s wid) : (dropDescs s wid).mem = s.mem := by grind [dropDescs, modBay_mem, foldl_mem]

@[simp] theorem dropDescsOf_mem (s wid op) : (dropDescsOf s wid op).mem = s.mem := by
  unfold dropDescsOf
  split <;> simp

@[simp] theorem noteRelease_mem (s wid) : (noteRelease s wid).mem = s.mem := by
  unfold noteRelease
  (repeat' split) <;> simp

@[simp] theorem entPort_mem (s core engine g) : (entPort s core engine g).2.mem = s.mem := by
  unfold entPort
  (repeat' split) <;> simp

@[simp] theorem denyAccess_mem (s die mid ctx a acc) : (denyAccess s die mid ctx a acc).mem = s.mem := by
  unfold denyAccess
  split <;> simp

@[simp] theorem unbackedAccess_mem (s die mid ctx a wr) : (unbackedAccess s die mid ctx a wr).mem = s.mem := by
  simp [unbackedAccess]

@[simp] theorem sendMsg_mem (s m) : (sendMsg s m).mem = s.mem := rfl

@[simp] theorem sendBy_mem (s link pkg head body) : (sendBy s link pkg head body).mem = s.mem := by
  grind [sendBy, sendMsg_mem, foldl_mem]

@[simp] theorem sendLink_mem (s pkg a head body) : (sendLink s pkg a head body).mem = s.mem := by
  unfold sendLink
  split <;> simp

@[simp] theorem sendEth_mem (s port bs) : (sendEth s port bs).mem = s.mem := rfl

@[simp] theorem peerRead_mem (s k mid a n) : (peerRead s k mid a n).mem = s.mem := by grind [peerRead, sendLink_mem, report_mem]

@[simp] theorem markPois_mem (s g p) : (markPois s g p).mem = s.mem := rfl

@[simp] theorem markWritten_mem (s g p) : (markWritten s g p).mem = s.mem := by
  unfold markWritten
  split <;> simp

theorem memPut_memWf (s a bs) (hs : memWf s.mem) : memWf (memPut s a bs).mem := by
  unfold memPut
  split
  · exact hs
  · exact memWf_setBytes hs a bs

theorem writeBack_memWf (s b m) (hs : memWf s.mem) : memWf (writeBack s b m).mem := by
  grind [writeBack, markWritten_mem, memPut_memWf, foldl_memWf]

@[simp] theorem trainPredictor_mem (s slice b) : (trainPredictor s slice b).mem = s.mem := by
  unfold trainPredictor
  split <;> simp

@[simp] theorem dropBlk_mem (s slice b) : (dropBlk s slice b).mem = s.mem := rfl

@[simp] theorem putBlk_mem (s slice b c) : (putBlk s slice b c).mem = s.mem := rfl

@[simp] theorem purgeExpired_mem (s slice) : (purgeExpired s slice).mem = s.mem := rfl

theorem evict_memWf (s slice b) (hs : memWf s.mem) : memWf (evict s slice b).mem := by
  grind [evict, dropBlk_mem, trainPredictor_mem, writeBack_memWf]

theorem ensureRoom_memWf (slice set n keep a b) (hs : memWf b.mem) :
    ∀ t, ensureRoom slice set n keep a b = some t → memWf t.mem := by
  fun_induction ensureRoom <;> grind [evict_memWf]

@[simp] theorem compact_mem (s slice set) : (compact s slice set).mem = s.mem := rfl

@[simp] theorem mergeRegion_mem (slice region lease a b) : (mergeRegion slice region lease a b).mem = b.mem := by
  fun_induction mergeRegion <;> grind [putBlk_mem, dropBlk_mem]

theorem installBlk_memWf (s slice b) (hs : memWf s.mem) : ∀ t, installBlk s slice b = some t → memWf t.mem := by
  grind [installBlk, modSlice_mem, mergeRegion_mem, compact_mem, ensureRoom_memWf, purgeExpired_mem, Option.map_eq_some_iff]

@[simp] theorem touchBlk_mem (s slice lease a) : (touchBlk s slice lease a).mem = s.mem := by
  unfold touchBlk
  split <;> simp

@[simp] theorem portAt_mem (s die own slice) : (portAt s die own slice).2.mem = s.mem := by
  unfold portAt
  split <;> simp

@[simp] theorem startFills_mem (s slice region lease port seam m) :
    (startFills s slice region lease port seam m).mem = s.mem := by
  grind [startFills, nextId_mem, modSlice_mem, foldl_mem]

@[simp] theorem blkWrite_mem (s slice a ps full) : (blkWrite s slice a ps full).mem = s.mem := by
  unfold blkWrite
  split <;> simp

theorem putGrain_memWf (s a bs) (hs : memWf s.mem) : memWf (putGrain s a bs).mem := by
  grind [putGrain, blkWrite_mem, memPut_memWf, markWritten_mem]

@[simp] theorem poisonHome_mem (s a) : (poisonHome s a).mem = s.mem := by
  unfold poisonHome
  (repeat' split) <;> simp

@[simp] theorem setSplc_mem (s k g v) : (setSplc s k g v).mem = s.mem := by
  unfold setSplc
  split <;> simp

theorem applyPartial_memWf (s e) (hs : memWf s.mem) : memWf (applyPartial s e).mem := by
  grind [applyPartial, report_mem, putGrain_memWf]

theorem installAll_memWf (slice a b) (hs : memWf b.mem) : ∀ t, installAll slice a b = some t → memWf t.mem := by
  induction a generalizing b with
  | nil => grind [installAll]
  | cons c cs ih => grind [installAll, installBlk_memWf, Option.bind_eq_some_iff]

theorem fillGrains_memWf (s k f) (hs : memWf s.mem) : ∀ t, fillGrains s k f = some t → memWf t.mem := by
  grind [fillGrains, installAll_memWf]

@[simp] theorem dropFill_mem (s k id) : (dropFill s k id).mem = s.mem := rfl

theorem bringGrains_memWf (s k region port m) (hs : memWf s.mem) : memWf (bringGrains s k region port m).mem := by
  grind [bringGrains, fillGrains_memWf, dropFill_mem, foldl_memWf, getD_memWf, foldl_mem, getD_mem]

@[simp] theorem mapEnts_mem (s f) : (mapEnts s f).mem = s.mem := rfl

@[simp] theorem performEnt_mem (s id) : (performEnt s id).mem = s.mem := rfl

@[simp] theorem performAtBay_mem (s id) : (performAtBay s id).mem = s.mem := rfl

@[simp] theorem performEnts_mem (s ids) : (performEnts s ids).mem = s.mem := by grind [performEnts, performAtBay_mem, foldl_mem]

theorem settleGrain_memWf (s g) (hs : memWf s.mem) : memWf (settleGrain s g).mem := by
  grind [settleGrain, applyPartial_memWf, bringGrains_memWf, modNet_mem, setSplc_mem, modSlice_mem, performEnts_mem, foldl_memWf]

theorem readGrains_memWf (s k region port m) (hs : memWf s.mem) : memWf (readGrains s k region port m).mem := by
  grind [readGrains, settleGrain_memWf, bringGrains_memWf, touchBlk_mem, foldl_memWf, foldl_mem]

theorem engTouch_memWf (s die own pas) (hs : memWf s.mem) : memWf (engTouch s die own pas).mem := by
  grind [engTouch, portAt_mem, readGrains_memWf, foldl_memWf]

theorem engTouchN_memWf (s die own a n) (hs : memWf s.mem) : memWf (engTouchN s die own a n).mem := by
  grind [engTouchN, engTouch_memWf]

@[simp] theorem cutLease_mem (s slice a) : (cutLease s slice a).mem = s.mem := by
  unfold cutLease
  split <;> simp

@[simp] theorem staleFills_mem (s slice a) : (staleFills s slice a).mem = s.mem := rfl

@[simp] theorem dropLeaseGrain_mem (s die a) : (dropLeaseGrain s die a).mem = s.mem := by
  unfold dropLeaseGrain
  (repeat' split) <;> simp

@[simp] theorem retireGrain_mem (s g) : (retireGrain s g).mem = s.mem := by
  grind [retireGrain, mapEnts_mem, dropLeaseGrain_mem, foldl_mem]

@[simp] theorem reelNote_mem (s a wr) : (reelNote s a wr).mem = s.mem := by
  unfold reelNote
  (repeat' split) <;> simp

theorem reelGrain_memWf (s src dst) (hs : memWf s.mem) : memWf (reelGrain s src dst).1.mem := by
  grind [reelGrain, settleGrain_memWf, putGrain_memWf, poisonHome_mem]

/-- Stated apart: where the state comes from a long computation, `rfl` would have the kernel run it. -/
theorem withSec_mem (s : State) (x : Sec) : ({ s with sec := x } : State).mem = s.mem := rfl

theorem reelCopy_memWf (s src dst) (hs : memWf s.mem) : memWf (reelCopy s src dst).mem := by
  have hpages (b : Bool) (l : List Nat) (s : State) : (l.foldl (fun s a => reelNote s a b) s).mem = s.mem :=
    foldl_mem (fun s a => reelNote_mem s a b) l s
  unfold reelCopy
  generalize List.range 2048 = chunk
  rw [withSec_mem]
  refine foldl_fst_memWf (by intro r i hr; exact reelGrain_memWf _ _ _ hr) _ ?_
  rw [hpages, hpages]
  exact hs

theorem reelHook_memWf (s a) (hs : memWf s.mem) : memWf (reelHook s a).mem := by grind [reelHook, reelCopy_memWf]

theorem openGrain_memWf (s a) (hs : memWf s.mem) : memWf (openGrain s a).mem := by
  grind [openGrain, settleGrain_memWf, reelHook_memWf]

theorem homeStoreBy_memWf (s die own a bs) (hs : memWf s.mem) : memWf (homeStoreBy s die own a bs).mem := by
  grind [homeStoreBy, retireGrain_mem, openGrain_memWf, portAt_mem, blkWrite_mem, installBlk_memWf, putGrain_memWf,
    bringGrains_memWf, dropLeaseGrain_mem, getD_memWf]

theorem homeFill_memWf (s die own a) (hs : memWf s.mem) : memWf (homeFill s die own a).mem := by
  grind [homeFill, retireGrain_mem, openGrain_memWf, portAt_mem, bringGrains_memWf]

theorem homeStore_memWf (s a bs) (hs : memWf s.mem) : memWf (homeStore s a bs).mem := by grind [homeStore, homeStoreBy_memWf]

theorem writeBytesBy_memWf (s die own a bs) (hs : memWf s.mem) : memWf (writeBytesBy s die own a bs).mem := by
  grind [writeBytesBy, homeStoreBy_memWf, foldl_memWf]

theorem writeBytes_memWf (s a bs) (hs : memWf s.mem) : memWf (writeBytes s a bs).mem := by
  grind [writeBytes, homeStore_memWf, foldl_memWf]

@[simp] theorem uncorrectedGrain_mem (s a) : (uncorrectedGrain s a).mem = s.mem := by
  grind [uncorrectedGrain, markPois_mem, report_mem]

theorem muddleRecords_memWf (s a n) (hs : memWf s.mem) : memWf (muddleRecords s a n).mem := by
  grind [muddleRecords, writeBytes_memWf, foldl_memWf]

end Sys2Proof.Machine
end

section
/-! SUPPORT. What reads of the MMIO range, walks, traps and fetches leave of memory (R73, R381, R391 to R396, R398), and what an
issue keeps. -/

namespace Sys2Proof.Machine

open Sys2Proof

@[simp] theorem modDebug_mem (s c f) : (modDebug s c f).mem = s.mem := rfl

@[simp] theorem debugRead_mem (s c off) : (debugRead s c off).2.mem = s.mem := by
  unfold debugRead
  split <;> simp

@[simp] theorem evRead_mem (s reg) : (evRead s reg).2.mem = s.mem := by
  unfold evRead
  split <;> simp

@[simp] theorem regRead_mem (s m off) : (regRead s m off).2.mem = s.mem := by grind [regRead, debugRead_mem, evRead_mem]

@[simp] theorem malformedBy_mem (s mid ctx off size reason) : (malformedBy s mid ctx off size reason).mem = s.mem := by
  simp [malformedBy]

@[simp] theorem malformed_mem (s m off size reason) : (malformed s m off size reason).mem = s.mem := by simp [malformed]

@[simp] theorem mmioRead_mem (s m off size) : (mmioRead s m off size).2.mem = s.mem := by
  unfold mmioRead
  (repeat' split) <;> simp

theorem pteRead_memWf (s k core ctx a) (hs : memWf s.mem) : memWf (pteRead s k core ctx a).mem := by
  grind [pteRead, denyAccess_mem, engTouch_memWf, mmioRead_mem, peerRead_mem, unbackedAccess_mem]

@[simp] theorem cacheLeaf_mem (s core e) : (cacheLeaf s core e).mem = s.mem := rfl

theorem walkReads_memWf (s0 core ctx va a b c) (hs : memWf c.mem) : memWf (walkReads s0 core ctx va a b c).mem := by
  fun_induction walkReads <;> grind [pteRead_memWf]

theorem cacheVa_memWf (s core ctx va) (hs : memWf s.mem) : memWf (cacheVa s core ctx va).mem := by
  grind [cacheVa, walkReads_memWf, cacheLeaf_mem]

@[simp] theorem takeTrap_mem (s wid pc grant t) : (takeTrap s wid pc grant t).mem = s.mem := by
  grind [takeTrap, startFence_mem, modWarp_mem]

theorem codeWord_memWf (s core ctx pa) (hs : memWf s.mem) : memWf (codeWord s core ctx pa).2.mem := by
  grind [codeWord, unbackedAccess_mem, denyAccess_mem, engTouch_memWf, mmioRead_mem, peerRead_mem]

theorem fetchWord_memWf (s core ctx pc) (hs : memWf s.mem) : memWf (fetchWord s core ctx pc).2.mem := by
  grind [fetchWord, cacheVa_memWf, codeWord_memWf, modCore_mem]

theorem eretFetch_memWf (s w) (hs : memWf s.mem) : memWf (eretFetch s w).2.mem := by grind [eretFetch, fetchWord_memWf]

@[simp] theorem eretDone_mem (wid w grant r) : (eretDone wid w grant r).mem = r.2.mem := by
  unfold eretDone
  split <;> simp

@[simp] theorem endRun_mem (s w) : (endRun s w).mem = s.mem := rfl

@[simp] theorem countIssue_mem (s x ends) : (countIssue s x ends).mem = s.mem := by grind [countIssue, endRun_mem, modCore_mem]

@[simp] theorem useExemption_mem (s x) : (useExemption s x).mem = s.mem := by
  unfold useExemption
  split <;> simp

@[simp] theorem useCredit_mem (s x) : (useCredit s x).mem = s.mem := by
  unfold useCredit
  split <;> simp

@[simp] theorem finish_mem (x r) : (finish x r).mem = r.2.mem := by
  unfold finish
  split <;> simp

@[simp] theorem parkIssuing_mem (s x m cond) : (parkIssuing s x m cond).mem = s.mem := rfl

@[simp] theorem parkAll_mem (s x cond) : (parkAll s x cond).2.mem = s.mem := rfl

@[simp] theorem unpark_mem (s wid c) : (unpark s wid c).mem = s.mem := rfl

@[simp] theorem reissue_mem (s wid c) : (reissue s wid c).mem = s.mem := rfl

@[simp] theorem modLoad_mem (s id f) : (modLoad s id f).mem = s.mem := rfl

theorem poisUses_mem (x s u) : ∀ t, poisUses x s u = some t → t.2.mem = s.mem := by
  unfold poisUses
  split <;> simp

theorem poisOf_mem (x s) : ∀ t, poisOf x s = some t → t.2.mem = s.mem := poisUses_mem x s _

theorem fetchInstr_memWf (s core ctx pc lanes) (hs : memWf s.mem) : memWf (fetchInstr s core ctx pc lanes).2.mem := by
  have hword {s t : State} {a : Nat} {r : Except (Nat × Nat) Word} (h : fetchWord s core ctx a = (r, t)) (hs : memWf s.mem) :
      memWf t.mem := by
    have hw := fetchWord_memWf s core ctx a hs
    rwa [h] at hw
  unfold fetchInstr
  dsimp only
  split
  next h0 => exact hword h0 hs
  next h0 =>
    split
    · exact hword h0 hs
    · split
      · split
        next h1 => exact hword h1 (hword h0 hs)
        next h1 => split <;> exact hword h1 (hword h0 hs)
      · exact hword h0 hs

@[simp] theorem trapAtIssue_mem (s wid w b t) : (trapAtIssue s wid w b t).mem = s.mem := by simp [trapAtIssue]

theorem issue_nextWf {i : Instr} {s : State} {body : Issue → State → Verdict × State} (hs : memWf s.mem)
    (hbody : ∀ x, memWf (body x s).2.mem) : NextWf (issue i s body) := by
  unfold issue
  split
  · trivial
  next x _ =>
    split
    · simpa using hs
    · simpa using hbody x

theorem issueOp_nextWf {i : Instr} {s : State} {body : Issue → State → Verdict × State} (hs : memWf s.mem)
    (hbody : ∀ x, memWf (body x s).2.mem) : NextWf (issueOp i s body) := by
  refine issue_nextWf hs fun x => ?_
  split
  next r hr =>
    rw [poisOf_mem x s r hr]
    exact hs
  · exact hbody x

theorem issueWarp_nextWf {i : Instr} {s : State} {body : Issue → Warp → Warp} (hs : memWf s.mem) :
    NextWf (issueWarp i s body) := issueOp_nextWf hs fun _ => hs

end Sys2Proof.Machine
end

section
/-! SUPPORT. What barriers, the life of warps and blocks and the resource queue leave of memory (R141, R178, R243 to R251). -/

namespace Sys2Proof.Machine

open Sys2Proof

@[simp] theorem checkArrive_mem (s wid b) : (checkArrive s wid b).mem = s.mem := by grind [checkArrive, modWarp_mem]

theorem arriveLanes_mem (s wid b lanes k) : ∀ t, arriveLanes s wid b lanes k = some t → t.mem = s.mem := by
  unfold arriveLanes
  (repeat' split) <;> simp

@[simp] theorem takeParkedGo_mem (wid b a c) : (takeParkedGo wid b a c).mem = c.mem := by
  fun_induction takeParkedGo <;> grind [arriveLanes_mem, modWarp_mem]

@[simp] theorem takeParked_mem (s wid b) : (takeParked s wid b).mem = s.mem := by
  unfold takeParked
  split <;> simp

@[simp] theorem wakeBar_mem (s ws b) : (wakeBar s ws b).mem = s.mem := by
  grind [wakeBar, modWarp_mem, unpark_mem, takeParked_mem, foldl_mem]

@[simp] theorem flipBar_mem (s blk n) : (flipBar s blk n).mem = s.mem := by
  grind [flipBar, modBlock_mem, modWarp_mem, wakeBar_mem, foldl_mem]

@[simp] theorem flipTest_mem (s blk n) : (flipTest s blk n).mem = s.mem := by
  unfold flipTest
  (repeat' split) <;> simp

@[simp] theorem leaveBar_mem (s wid w n) : (leaveBar s wid w n).mem = s.mem := by simp [leaveBar]

@[simp] theorem detachBars_mem (s wid w) : (detachBars s wid w).mem = s.mem := by
  grind [detachBars, modBlock_mem, leaveBar_mem, foldl_mem]

@[simp] theorem passDue_mem (s) : (passDue s).mem = s.mem := rfl

@[simp] theorem modKnot_mem (s slice krec f) : (modKnot s slice krec f).mem = s.mem := rfl

@[simp] theorem restartWatchdog_mem (s c) : (restartWatchdog s c).mem = s.mem := rfl

@[simp] theorem fenceCore_mem (s core cause) : (fenceCore s core cause).mem = s.mem := by simp [fenceCore]

@[simp] theorem fenceDrained_mem (s core) : (fenceDrained s core).mem = s.mem := by
  unfold fenceDrained
  split <;> simp

@[simp] theorem flipCluster_mem (s cid n) : (flipCluster s cid n).mem = s.mem := by
  grind [flipCluster, modCluster_mem, modBlock_mem, wakeBar_mem, foldl_mem]

@[simp] theorem clusterArrive_mem (s cid n rank) : (clusterArrive s cid n rank).mem = s.mem := by
  grind [clusterArrive, modCluster_mem, flipCluster_mem]

@[simp] theorem flipGrid_mem (s g) : (flipGrid s g).mem = s.mem := by
  grind [flipGrid, modGrid_mem, modBlock_mem, wakeBar_mem, foldl_mem]

@[simp] theorem gridArrive_mem (s g cidx rank) : (gridArrive s g cidx rank).mem = s.mem := by
  grind [gridArrive, modGrid_mem, flipGrid_mem]

@[simp] theorem freeBlockSlots_mem (s bid core) : (freeBlockSlots s bid core).mem = s.mem := rfl

@[simp] theorem queueBlockEnd_mem (s bid core) : (queueBlockEnd s bid core).mem = s.mem := rfl

@[simp] theorem endTaker_mem (s t) : (endTaker s t).mem = s.mem := by grind [endTaker, modKnot_mem, foldl_mem]

@[simp] theorem giveRequests_mem (s t) : (giveRequests s t).mem = s.mem := by
  grind [giveRequests, nextId_mem, modNet_mem, foldl_mem]

@[simp] theorem endBlock_mem (s bid) : (endBlock s bid).mem = s.mem := by
  grind [endBlock, queueBlockEnd_mem, modBlock_mem, modCluster_mem, clusterArrive_mem, modGrid_mem, gridArrive_mem,
    restartWatchdog_mem, giveRequests_mem, endTaker_mem, reissue_mem, modNet_mem, passDue_mem, fenceDrained_mem, foldl_mem]

@[simp] theorem endWarp_mem (s wid) : (endWarp s wid).mem = s.mem := by grind [endWarp, modWarp_mem, detachBars_mem, endBlock_mem]

@[simp] theorem reconCheck_mem (s wid) : (reconCheck s wid).mem = s.mem := by
  unfold reconCheck
  (repeat' split) <;> simp

@[simp] theorem settleWarp_mem (s wid) : (settleWarp s wid).mem = s.mem := by
  grind [settleWarp, modWarp_mem, endWarp_mem, reconCheck_mem]

@[simp] theorem exitOp_mem (s wid m) : (exitOp s wid m).mem = s.mem := by simp [exitOp]

@[simp] theorem addWarp_mem (s w) : (addWarp s w).mem = s.mem := rfl

theorem attachOne_mem (s att label members args fctl) :
    ∀ t, attachOne s att label members args fctl = some t → t.mem = s.mem := by
  grind [attachOne, addWarp_mem, modBlock_mem, Option.bind_eq_some_iff, Option.map_eq_some_iff, List.findSome?_eq_some_iff]

@[simp] theorem attachMany_mem (att label members args fctl a b) :
    (attachMany att label members args fctl a b).2.mem = b.mem := by
  fun_induction attachMany <;> grind [attachOne_mem]

@[simp] theorem joinBar_mem (s blk ids n) : (joinBar s blk ids n).mem = s.mem := by
  grind [joinBar, modWarp_mem, flipTest_mem, modBlock_mem, foldl_mem]

@[simp] theorem joinBars_mem (s att members ids) : (joinBars s att members ids).mem = s.mem := by
  unfold joinBars
  (repeat' split) <;> simp

@[simp] theorem attachAll_mem (att label members args fctl n s) : (attachAll att label members args fctl n s).2.mem = s.mem := by
  simp [attachAll]

@[simp] theorem zeroSlot_mem (s core slot) : (zeroSlot s core slot).mem = s.mem := rfl

@[simp] theorem mapName_mem (s blk n k) : (mapName s blk n k).mem = s.mem := by
  unfold mapName
  split <;> simp

@[simp] theorem unmapName_mem (s blk n) : (unmapName s blk n).mem = s.mem := by
  unfold unmapName
  (repeat' split) <;> simp

theorem grantNow_mem (s wid m r) : ∀ t, grantNow s wid m r = some t → t.mem = s.mem := by
  intro t h
  obtain ⟨w, -, h⟩ := Option.bind_eq_some_iff.mp h
  cases r with
  | attach sd c label members args =>
    dsimp only at h
    split at h
    · cases h
      exact (modWarp_mem ..).trans (attachAll_mem ..)
    · cases h
  | grow sd n => grind [modWarp_mem]
  | acc n _ => grind [mapName_mem, Option.bind_eq_some_iff, Option.map_eq_some_iff]

@[simp] theorem endRequest_mem (s e) : (endRequest s e).mem = s.mem := by
  unfold endRequest
  split <;> simp

@[simp] theorem dropEntry_mem (s core e) : (dropEntry s core e).mem = s.mem := rfl

theorem serveGo_mem (s core a b) : ∀ t, serveGo s core a b = some t → t.mem = s.mem := by
  fun_induction serveGo <;> grind [grantNow_mem, endRequest_mem, dropEntry_mem]

theorem serveOne_mem (s core) : ∀ t, serveOne s core = some t → t.mem = s.mem := by grind [serveOne, serveGo_mem]

@[simp] theorem serveAll_mem (core a b) : (serveAll core a b).mem = b.mem := by fun_induction serveAll <;> grind [serveOne_mem]

@[simp] theorem serveCore_mem (s core) : (serveCore s core).mem = s.mem := by simp [serveCore]

@[simp] theorem servePair_mem (s core) : (servePair s core).mem = s.mem := by simp [servePair]

@[simp] theorem enqueueRequest_mem (s x core r) : (enqueueRequest s x core r).2.mem = s.mem := by
  unfold enqueueRequest
  split <;> simp

theorem requestNow_mem (s x core r) : ∀ t, requestNow s x core r = some t → t.mem = s.mem := by
  grind [requestNow, serveCore_mem, grantNow_mem, Option.bind_eq_some_iff]

@[simp] theorem refuse_mem (s core e) : (refuse s core e).mem = s.mem := by
  unfold refuse
  split <;> simp

end Sys2Proof.Machine
end

section
/-! SUPPORT. What scratch, global accesses and rings leave of memory (R153 to R176, R260 to R270, R281). -/

namespace Sys2Proof.Machine

open Sys2Proof

@[simp] theorem performRank_mem (s cluster rank l) : (performRank s cluster rank l).1.mem = s.mem := by
  unfold performRank
  (repeat' split) <;> simp

@[simp] theorem returnLoad_mem (s l) : (returnLoad s l).mem = s.mem := by simp [returnLoad]

@[simp] theorem sendPort_mem (s src wid cluster rank op queued) : (sendPort s src wid cluster rank op queued).2.mem = s.mem := rfl

@[simp] theorem sendLoad_mem (s m l w) : (sendLoad s m l w).mem = s.mem := by
  unfold sendLoad
  split <;> simp

@[simp] theorem scratchLoad_mem (x s l0) : (scratchLoad x s l0).2.mem = s.mem := by
  unfold scratchLoad
  extract_lets cluster cells ranks own peers ready counts
  split
  · rfl
  next s1 _ =>
    have h1 : s1.mem = s.mem := getD_mem fun t h => by
      obtain ⟨op, -, rfl⟩ := Option.map_eq_some_iff.mp h
      exact dropDescsOf_mem ..
    have h2 : (nextId s1).2.mem = s1.mem := nextId_mem s1
    split
    next id s2 hid =>
    rw [hid] at h2
    extract_lets l s3 s4 r
    have h3 : s3.mem = s2.mem := by grind [modWarp_mem]
    have h4 : s4.mem = s3.mem := by grind [modWarp_mem]
    have hr : r.1.mem = s4.mem := by
      unfold r
      split
      · exact foldl_fst_mem (fun r k => performRank_mem r.1 ..) _ _
      · rfl
    split
    · grind [returnLoad_mem]
    next absent s5 s6 s7 _ =>
      have h5 : s5.mem = r.1.mem := modNet_mem ..
      have h6 : s6.mem = s5.mem := by
        unfold s6
        split
        · rfl
        · exact foldl_mem (fun s k => sendPort_mem s ..) _ _
      have h7 : s7.mem = s6.mem := foldl_mem (by grind [sendPort_mem, modWarp_mem]) _ _
      grind [parkAll_mem]

@[simp] theorem ackGroup_mem (s grp) : (ackGroup s grp).mem = s.mem := by
  grind [ackGroup, modWarp_mem, modNet_mem, noteRelease_mem, unpark_mem]

@[simp] theorem scratchStore_mem (x s cells) : (scratchStore x s cells).2.mem = s.mem := by
  grind [scratchStore, modBlock_mem, nextId_mem, modNet_mem, modWarp_mem, sendPort_mem, parkAll_mem, foldl_mem]

theorem scratchAccess_mem {go : List (Nat × Nat × Nat) → Verdict × State} {s : State}
    (h : ∀ cells, (go cells).2.mem = s.mem) (x uni size addrs rd wr) :
    (scratchAccess x s uni size addrs rd wr go).2.mem = s.mem := by
  unfold scratchAccess
  dsimp only
  split
  · rfl
  · split
    next r hr => exact poisOf_mem x s r hr
    · split
      · rfl
      · split
        · rfl
        · exact h _

@[simp] theorem execLds_keepsWf (f) : KeepsWf (execLds f) := by
  intro s hs
  refine issue_nextWf hs fun x => ?_
  grind [scratchAccess_mem, scratchLoad_mem]

@[simp] theorem execSts_keepsWf (f) : KeepsWf (execSts f) := by
  intro s hs
  refine issue_nextWf hs fun x => ?_
  grind [scratchAccess_mem, scratchStore_mem]

@[simp] theorem execSlds_keepsWf (f) : KeepsWf (execSlds f) := by
  intro s hs
  refine issue_nextWf hs fun x => ?_
  grind [scratchAccess_mem, scratchLoad_mem]

@[simp] theorem execSsts_keepsWf (f) : KeepsWf (execSsts f) := by
  intro s hs
  refine issue_nextWf hs fun x => ?_
  grind [scratchAccess_mem, scratchStore_mem]

@[simp] theorem execAtoms_keepsWf (f) : KeepsWf (execAtoms f) := by
  intro s hs
  refine issue_nextWf hs fun x => ?_
  grind [scratchAccess_mem, scratchLoad_mem]

@[simp] theorem addReq_mem (core load span addrs s region) : (addReq core load span addrs s region).mem = s.mem := by
  simp [addReq]

@[simp] theorem startLoad_mem (x s dst size signed span parts) : (startLoad x s dst size signed span parts).mem = s.mem := by
  simp [startLoad]

theorem globalAccess_memWf {go : State → List (Nat × Nat × Nat) → Verdict × State}
    (h : ∀ t cells, memWf t.mem → memWf (go t cells).2.mem) (x s uni size addrs rd wr) (hs : memWf s.mem) :
    memWf (globalAccess x s uni size addrs rd wr go).2.mem := by
  have hwalk (l : List (Nat × Nat)) : memWf (l.foldl (fun s e => cacheVa s x.w.core x.ctx e.2) s).mem :=
    foldl_memWf (fun s e hs => cacheVa_memWf s _ _ _ hs) l hs
  unfold globalAccess
  dsimp only
  split
  · exact hs
  · split
    · exact hwalk _
    · split
      · exact hwalk _
      · split
        next r hr =>
          rw [poisOf_mem x _ r hr]
          exact hwalk _
        · split
          · exact hwalk _
          · exact h _ _ (hwalk _)

@[simp] theorem execLdg_keepsWf (f) : KeepsWf (execLdg f) := fun _ hs =>
  issue_nextWf hs fun _ => globalAccess_memWf (fun t cells ht => by rwa [startLoad_mem]) _ _ _ _ _ _ _ hs

@[simp] theorem execSldg_keepsWf (f) : KeepsWf (execSldg f) := fun _ hs =>
  issue_nextWf hs fun _ => globalAccess_memWf (fun t cells ht => by rwa [startLoad_mem]) _ _ _ _ _ _ _ hs

@[simp] theorem startStore_mem (x s kind ps) : (startStore x s kind ps).2.mem = s.mem := by
  grind [startStore, nextId_mem, modNet_mem, modWarp_mem]

@[simp] theorem execStg_keepsWf (f) : KeepsWf (execStg f) := fun _ hs =>
  issue_nextWf hs fun _ => globalAccess_memWf (fun t cells ht => by rwa [startStore_mem]) _ _ _ _ _ _ _ hs

@[simp] theorem execSstg_keepsWf (f) : KeepsWf (execSstg f) := fun _ hs =>
  issue_nextWf hs fun _ => globalAccess_memWf (fun t cells ht => by rwa [startStore_mem]) _ _ _ _ _ _ _ hs

@[simp] theorem addNt_mem (x grp s p) : (addNt x grp s p).mem = s.mem := by simp [addNt]

@[simp] theorem execStnt_keepsWf (f) : KeepsWf (execStnt f) := fun _ hs =>
  issue_nextWf hs fun x => globalAccess_memWf (fun t cells ht => by
    have hadd (l : List (Nat × List Piece)) (id : Nat) (u : State) : (l.foldl (addNt x id) u).mem = u.mem :=
      foldl_mem (addNt_mem x id) l u
    rwa [modWarp_mem, hadd]) _ _ _ _ _ _ _ hs

@[simp] theorem startAtomic_mem (x s dst op parts) : (startAtomic x s dst op parts).mem = s.mem := by simp [startAtomic]

@[simp] theorem execAtomg_keepsWf (f) : KeepsWf (execAtomg f) := fun _ hs =>
  issue_nextWf hs fun _ => globalAccess_memWf (fun t cells ht => by rwa [startAtomic_mem]) _ _ _ _ _ _ _ hs

@[simp] theorem execSatomg_keepsWf (f) : KeepsWf (execSatomg f) := fun _ hs =>
  issue_nextWf hs fun _ => globalAccess_memWf (fun t cells ht => by rwa [startAtomic_mem]) _ _ _ _ _ _ _ hs

@[simp] theorem execRedg_keepsWf (f) : KeepsWf (execRedg f) := fun _ hs =>
  issue_nextWf hs fun _ => globalAccess_memWf (fun t cells ht => by dsimp only; split <;> simpa using ht) _ _ _ _ _ _ _ hs

theorem prefetch_memWf (x s span vas) (hs : memWf s.mem) : memWf (prefetch x s span vas).mem := by
  grind [prefetch, cacheVa_memWf, addReq_mem, foldl_memWf, foldl_mem]

@[simp] theorem execPrefg_keepsWf (f) : KeepsWf (execPrefg f) := by
  intro s hs
  refine issueOp_nextWf hs fun x => ?_
  grind [prefetch_memWf]

@[simp] theorem execPref_keepsWf (f) : KeepsWf (execPref f) := by
  intro s hs
  refine issueOp_nextWf hs fun x => ?_
  grind [prefetch_memWf]

@[simp] theorem execFence_keepsWf (f) : KeepsWf (execFence f) := by
  intro s hs
  refine issueOp_nextWf hs fun x => ?_
  grind [dropDescs_mem, modWarp_mem, noteRelease_mem]

@[simp] theorem execDrainnt_keepsWf (f) : KeepsWf (execDrainnt f) := by
  intro s hs
  refine issueOp_nextWf hs fun x => ?_
  simpa using hs

@[simp] theorem execFlush_keepsWf (f) : KeepsWf (execFlush f) := by
  intro s hs
  refine issue_nextWf hs fun x => ?_
  grind [NextWf, poisOf_mem, cacheVa_memWf, nextId_mem, modNet_mem, modWarp_mem, foldl_memWf]

@[simp] theorem scramble_mem (s bid off alloc) : (scramble s bid off alloc).mem = s.mem := by grind [scramble, modBlock_mem]

@[simp] theorem ringDone_mem (s wid m sd i clamped) : (ringDone s wid m sd i clamped).mem = s.mem := rfl

@[simp] theorem parkedTrap_mem (s wid p t) : (parkedTrap s wid p t).mem = s.mem := by simp [parkedTrap]

theorem ringAttempt_mem (s bid a wid p free sd) : ∀ t, ringAttempt s bid a wid p free sd = some t → t.mem = s.mem := by
  grind [ringAttempt, unpark_mem, ringDone_mem, modBlock_mem, parkedTrap_mem, Option.bind_eq_some_iff, Option.map_eq_some_iff]

@[simp] theorem wakeRing_mem (s a) : (wakeRing s a).mem = s.mem := by grind [wakeRing, ringAttempt_mem, foldl_mem, getD_mem]

@[simp] theorem ringArrive_mem (s a slot bytes clamp) : (ringArrive s a slot bytes clamp).mem = s.mem := by
  grind [ringArrive, scramble_mem, modCluster_mem, modBlock_mem, wakeRing_mem]

@[simp] theorem ringFail_mem (s a slot) : (ringFail s a slot).mem = s.mem := by
  grind [ringFail, scramble_mem, modCluster_mem, modBlock_mem, wakeRing_mem]

theorem ringPerform_after_mem (s wid lanes m at' op) : ((ringPerform s wid lanes m at' op).after s).mem = s.mem := by
  unfold ringPerform
  split
  · rfl
  · split
    · rfl
    · cases op with
      | ringInit n e => grind [RingAct.after, wakeRing_mem, modBlock_mem]
      | ringArrive slot bytes clamp e => grind [RingAct.after, ringArrive_mem, scramble_mem]
      | ringRel => grind [RingAct.after, wakeRing_mem, modBlock_mem, scramble_mem]
      | ringWait free sd => grind [RingAct.after, ringDone_mem, modBlock_mem, scramble_mem]
      | load | store | atomic => exact scramble_mem ..

theorem ringPerform_done_mem {s t : State} {wid lanes m at' op} (h : ringPerform s wid lanes m at' op = .done t) :
    t.mem = s.mem := by
  rw [← ringPerform_after_mem s wid lanes m at' op, h, RingAct.after]

theorem ringPerform_trap_mem {s u : State} {wid lanes m at' op t} (h : ringPerform s wid lanes m at' op = .trap t u) :
    u.mem = s.mem := by
  rw [← ringPerform_after_mem s wid lanes m at' op, h, RingAct.after]

@[simp] theorem ringIssue_mem (x s a size op) : (ringIssue x s a size op).2.mem = s.mem := by
  unfold ringIssue
  split
  · rfl
  · split
    next r hr => exact poisOf_mem x s r hr
    · split
      · split
        next h => exact ringPerform_done_mem h
        next h => exact ringPerform_trap_mem h
        · grind [parkAll_mem, nextId_mem]
      · grind [parkAll_mem, nextId_mem, modNet_mem]

@[simp] theorem execRinit_keepsWf (f) : KeepsWf (execRinit f) := by
  intro s hs
  refine issue_nextWf hs fun x => ?_
  grind [ringIssue_mem]

@[simp] theorem execRwaitFull_keepsWf (f) : KeepsWf (execRwaitFull f) := by
  intro s hs
  refine issue_nextWf hs fun x => ?_
  simpa using hs

@[simp] theorem execRwaitFree_keepsWf (f) : KeepsWf (execRwaitFree f) := by
  intro s hs
  refine issue_nextWf hs fun x => ?_
  simpa using hs

@[simp] theorem execRrel_keepsWf (f) : KeepsWf (execRrel f) := by
  intro s hs
  refine issue_nextWf hs fun x => ?_
  simpa using hs

@[simp] theorem execRarr_keepsWf (f) : KeepsWf (execRarr f) := by
  intro s hs
  refine issue_nextWf hs fun x => ?_
  simpa using hs

end Sys2Proof.Machine
end

section
/-! SUPPORT. What barriers, knots and the placement of blocks leave of memory (R177 to R185, R252 to R258, R369). -/

namespace Sys2Proof.Machine

open Sys2Proof

@[simp] theorem barArrive_mem (x s b k) : (barArrive x s b k).2.mem = s.mem := by grind [barArrive, arriveLanes_mem, parkAll_mem]

@[simp] theorem barWait_mem (x s b) : (barWait x s b).2.mem = s.mem := by
  unfold barWait
  split <;> simp

@[simp] theorem execBara_keepsWf (f) : KeepsWf (execBara f) := by
  intro s hs
  refine issueOp_nextWf hs fun x => ?_
  simpa using hs

@[simp] theorem execBarw_keepsWf (f) : KeepsWf (execBarw f) := by
  intro s hs
  refine issueOp_nextWf hs fun x => ?_
  simpa using hs

@[simp] theorem execBars_keepsWf (f) : KeepsWf (execBars f) := by
  intro s hs
  refine issueOp_nextWf hs fun x => ?_
  grind [arriveLanes_mem, barWait_mem, parkAll_mem]

@[simp] theorem execCbara_keepsWf (f) : KeepsWf (execCbara f) := by
  intro s hs
  refine issueOp_nextWf hs fun x => ?_
  simpa using hs

@[simp] theorem execCbarw_keepsWf (f) : KeepsWf (execCbarw f) := by
  intro s hs
  refine issueOp_nextWf hs fun x => ?_
  simpa using hs

@[simp] theorem execGridbar_keepsWf (f) : KeepsWf (execGridbar f) := by
  intro s hs
  refine issueOp_nextWf hs fun x => ?_
  grind [arriveLanes_mem, parkAll_mem]

@[simp] theorem knotSend_mem (x s krec sd op drains) : (knotSend x s krec sd op drains).2.mem = s.mem := rfl

theorem knotWalks_memWf (x s bs) (hs : memWf s.mem) : memWf (knotWalks x s bs).mem := by
  grind [knotWalks, cacheVa_memWf, foldl_memWf]

theorem knotIssue_memWf {go : State → Nat → Verdict × State} (h : ∀ t k, memWf t.mem → memWf (go t k).2.mem) (x s sa)
    (hs : memWf s.mem) : memWf (knotIssue x s sa go).2.mem := by
  have hwalk (a : Nat) : memWf (cacheVa s x.w.core x.ctx a).mem := cacheVa_memWf _ _ _ _ hs
  unfold knotIssue
  dsimp only
  split
  · split
    · exact hs
    · exact hwalk _
  · split
    next r hr =>
      rw [poisOf_mem x _ r hr]
      exact hwalk _
    · exact h _ _ (hwalk _)

@[simp] theorem execKinitReg_keepsWf (f) : KeepsWf (execKinitReg f) := fun s hs => by
  refine issue_nextWf hs fun x => ?_
  dsimp only
  split
  · split
    · exact hs
    · exact cacheVa_memWf _ _ _ _ hs
  · split
    · exact hs
    · split
      · exact knotWalks_memWf _ _ _ hs
      · exact knotIssue_memWf (fun t k ht => by rw [knotSend_mem]; exact knotWalks_memWf _ _ _ ht) _ _ _ hs

@[simp] theorem execKinitFree_keepsWf (f) : KeepsWf (execKinitFree f) := fun _ hs =>
  issue_nextWf hs fun _ => knotIssue_memWf (fun t k ht => by rwa [knotSend_mem]) _ _ _ hs

@[simp] theorem execKtake_keepsWf (f) : KeepsWf (execKtake f) := fun _ hs =>
  issue_nextWf hs fun _ => knotIssue_memWf (fun t k ht => by rwa [knotSend_mem]) _ _ _ hs

@[simp] theorem startGive_mem (s t krec) : (startGive s t krec).mem = s.mem := rfl

@[simp] theorem execKgive_keepsWf (f) : KeepsWf (execKgive f) := fun _ hs =>
  issue_nextWf hs fun _ => knotIssue_memWf (fun t k ht => by dsimp only; split <;> simpa using ht) _ _ _ hs

theorem startWarps_mem (s bid r core a) : ∀ t, startWarps s bid r core a = some t → t.mem = s.mem := by
  fun_induction startWarps <;> grind [addWarp_mem, Option.bind_eq_some_iff]

@[simp] theorem reserveAccs_mem (s core bid ks) : (reserveAccs s core bid ks).mem = s.mem := rfl

@[simp] theorem noteResident_mem (s c halted) : (noteResident s c halted).mem = s.mem := rfl

theorem putBlock_mem (s gid cid rank core) : ∀ t, putBlock s gid cid rank core = some t → t.mem = s.mem := by
  grind [putBlock, nextId_mem, modCluster_mem, startWarps_mem, noteResident_mem, reserveAccs_mem, Option.bind_eq_some_iff]

theorem fitRanks_mem {put : State → Nat → Nat → Option State} (h : ∀ s r c t, put s r c = some t → t.mem = s.mem)
    (cs rs s) : ∀ t, fitRanks put cs rs s = some t → t.mem = s.mem := by
  fun_induction fitRanks put cs rs s with
  | case1 => grind
  | case2 => grind
  | case3 c cs r rs s t hput ih => grind
  | case4 c cs r rs s hput ih => exact ih

theorem putCluster_mem (s gid idx bay) : ∀ t, putCluster s gid idx bay = some t → t.mem = s.mem := by
  intro t h
  obtain ⟨g, -, h⟩ := Option.bind_eq_some_iff.mp h
  exact (foldl_bind_mem (fun u k => fitRanks_mem (fun s r c => putBlock_mem s gid _ r c) _ _ u) _ _ t h).trans (nextId_mem s)

@[simp] theorem setLast_mem (s die bay seam) : (setLast s die bay seam).mem = s.mem := rfl

theorem putAnywhere_mem (s die gid idx) : ∀ t, putAnywhere s die gid idx = some t → t.1.mem = s.mem := by
  grind [putAnywhere, setLast_mem, putCluster_mem, Option.bind_eq_some_iff, Option.map_eq_some_iff, List.findSome?_eq_some_iff]

theorem putWhole_mem (die gid a b c) : ∀ t, putWhole die gid a b c = some t → t.mem = c.mem := by
  fun_induction putWhole with
  | case1 => grind
  | case2 n i s ih =>
    intro t h
    obtain ⟨r, hr, ht⟩ := Option.bind_eq_some_iff.mp h
    exact (ih r t ht).trans (putAnywhere_mem _ _ _ _ r hr)

@[simp] theorem dropCode_mem (s ctx) : (dropCode s ctx).mem = s.mem := rfl

@[simp] theorem enterLaunch_mem (s die ctx prio r rep noWait) : (enterLaunch s die ctx prio r rep noWait).2.mem = s.mem := rfl

@[simp] theorem admitGo_mem (die a b) : (admitGo die a b).mem = b.mem := by fun_induction admitGo <;> grind [modDie_mem]

@[simp] theorem roomMade_mem (s die) : (roomMade s die).mem = s.mem := by grind [roomMade, admitGo_mem, reissue_mem, foldl_mem]

@[simp] theorem handOut_mem (s die cid restore) : (handOut s die cid restore).mem = s.mem := rfl

@[simp] theorem takeHalves_mem (s die) : (takeHalves s die).mem = s.mem := rfl

@[simp] theorem modLaunch_mem (s die gid f) : (modLaunch s die gid f).mem = s.mem := rfl

@[simp] theorem notePlaced_mem (s die gid cid) : (notePlaced s die gid cid).mem = s.mem := rfl

@[simp] theorem placeGo_mem (die gid a b c) : (placeGo die gid a b c).mem = c.mem := by
  fun_induction placeGo with
  | case1 => rfl
  | case2 => rfl
  | case3 n i s t b ht ih => exact ih.trans ((notePlaced_mem ..).trans (putAnywhere_mem _ _ _ _ _ ht))

theorem restoreWarps_mem (core r a b) : ∀ t, restoreWarps core r a b = some t → t.mem = b.mem := by
  fun_induction restoreWarps <;> grind [Option.bind_eq_some_iff]

theorem putSaved_mem (v s gid rank core) : ∀ t, putSaved v s gid rank core = some t → t.mem = s.mem := by
  grind [putSaved, modCluster_mem, noteResident_mem, reserveAccs_mem, modCore_mem, restoreWarps_mem, foldl_mem,
    Option.bind_eq_some_iff]

theorem putSavedCluster_mem (s gid v bay) : ∀ t, putSavedCluster s gid v bay = some t → t.mem = s.mem := by
  intro t h
  obtain ⟨g, -, h⟩ := Option.bind_eq_some_iff.mp h
  exact (foldl_bind_mem (fun u k => fitRanks_mem (fun s r c => putSaved_mem v s gid r c) _ _ u) _ _ t h).trans (modCluster_mem ..)

theorem restoreAll_mem (die gid a b) : ∀ t, restoreAll die gid a b = some t → t.mem = b.mem := by
  fun_induction restoreAll with
  | case1 => rintro _ ⟨⟩; rfl
  | case2 c cs s ih =>
    intro t h
    obtain ⟨v, -, h⟩ := Option.bind_eq_some_iff.mp h
    obtain ⟨g, -, h⟩ := Option.bind_eq_some_iff.mp h
    obtain ⟨u, hu, h⟩ := Option.bind_eq_some_iff.mp h
    obtain ⟨b, -, hput⟩ := List.exists_of_findSome?_eq_some hu
    obtain ⟨w, hw, rfl⟩ := Option.map_eq_some_iff.mp hput
    rw [ih _ _ h, modLaunch_mem, handOut_mem, setLast_mem]
    exact putSavedCluster_mem s gid v b w hw

@[simp] theorem restoreSome_mem (die gid a b) : (restoreSome die gid a b).mem = b.mem := by
  fun_induction restoreSome <;> grind [restoreAll_mem]

@[simp] theorem withoutBlocks_mem (s gone) : (withoutBlocks s gone).mem = s.mem := rfl

@[simp] theorem preemptFor_mem (s die l g) : (preemptFor s die l g).mem = s.mem := by grind [preemptFor, modDie_mem]

@[simp] theorem dropPlaced_mem (s die) : (dropPlaced s die).mem = s.mem := by grind [dropPlaced, roomMade_mem, modDie_mem]

@[simp] theorem setStatus_mem (s rep status) : (setStatus s rep status).mem = s.mem := by
  unfold setStatus
  split <;> simp

@[simp] theorem notAdmitted_mem (s die l g) : (notAdmitted s die l g).mem = s.mem := by simp [notAdmitted]

@[simp] theorem passWhole_mem (s die l g) : (passWhole s die l g).mem = s.mem := by
  grind [passWhole, putWhole_mem, notePlaced_mem, notAdmitted_mem, preemptFor_mem, restoreAll_mem, foldl_mem, getD_mem]

@[simp] theorem passGo_mem (die a b) : (passGo die a b).mem = b.mem := by
  fun_induction passGo <;> grind [passWhole_mem, restoreSome_mem, placeGo_mem, preemptFor_mem]

@[simp] theorem placementPass_mem (s die) : (placementPass s die).mem = s.mem := by simp [placementPass]

@[simp] theorem countArrival_mem (s wid n) : (countArrival s wid n).mem = s.mem := by
  unfold countArrival
  (repeat' split) <;> simp

@[simp] theorem detachOne_mem (s wid n) : (detachOne s wid n).mem = s.mem := by
  unfold detachOne
  split <;> simp

@[simp] theorem receiveArrival_mem (s wid w b) : (receiveArrival s wid w b).mem = s.mem := by
  unfold receiveArrival
  (repeat' split) <;> simp

@[simp] theorem execWarpArrival_keepsWf (warp bar) : KeepsWf (execWarpArrival warp bar) := by
  intro s hs
  grind [execWarpArrival, NextWf, noteRelease_mem, dropDescs_mem, modWarp_mem, receiveArrival_mem]

@[simp] theorem execPairedBarrierEvent_keepsWf (block) : KeepsWf (execPairedBarrierEvent block) := by
  intro s hs
  unfold execPairedBarrierEvent
  (repeat' split) <;> simpa using hs

@[simp] theorem execBlockArrival_keepsWf (block bar) : KeepsWf (execBlockArrival block bar) := by
  intro s hs
  unfold execBlockArrival
  (repeat' split) <;> simpa using hs

@[simp] theorem execResourceQueueService_keepsWf (core) : KeepsWf (execResourceQueueService core) := by
  intro s hs
  unfold execResourceQueueService
  simpa using hs

@[simp] theorem execResourceQueueAgeLimit_keepsWf (core) : KeepsWf (execResourceQueueAgeLimit core) := by
  intro s hs
  unfold execResourceQueueAgeLimit
  split <;> simpa using hs

@[simp] theorem execResourceRefusal_keepsWf (core) : KeepsWf (execResourceRefusal core) := by
  intro s hs
  unfold execResourceRefusal
  (repeat' split) <;> simpa using hs

@[simp] theorem dropDone_mem (s wid) : (dropDone s wid).mem = s.mem := by
  unfold dropDone
  (repeat' split) <;> simp

@[simp] theorem execWarpResourceReturn_keepsWf (warp) : KeepsWf (execWarpResourceReturn warp) := by
  intro s hs
  unfold execWarpResourceReturn
  (repeat' split) <;> simpa using hs

@[simp] theorem execPlacementPass_keepsWf (die) : KeepsWf (execPlacementPass die) := by
  intro s hs
  unfold execPlacementPass
  split <;> simpa using hs

@[simp] theorem execPlacementAgeLimit_keepsWf (die) : KeepsWf (execPlacementAgeLimit die) := by
  intro s hs
  unfold execPlacementAgeLimit
  split <;> simpa using hs

@[simp] theorem execBlockPlace_keepsWf (die) : KeepsWf (execBlockPlace die) := by
  intro s hs
  unfold execBlockPlace
  split <;> simpa using hs

@[simp] theorem execBlockStart_keepsWf (block) : KeepsWf (execBlockStart block) := by
  intro s hs
  grind [execBlockStart, NextWf, modBlock_mem, modWarp_mem, foldl_mem]

@[simp] theorem execSeamHalfForward_keepsWf (die) : KeepsWf (execSeamHalfForward die) := by
  intro s hs
  unfold execSeamHalfForward
  split <;> simpa using hs

end Sys2Proof.Machine
end

section
/-! SUPPORT. What copies, the copy engines and channels leave of memory (R217 to R229, R265 to R280). -/

namespace Sys2Proof.Machine

open Sys2Proof

@[simp] theorem clearAt_mem (s r keys) : (clearAt s r keys).1.mem = s.mem := by
  unfold clearAt
  (repeat' split) <;> simp

@[simp] theorem noteSources_mem (s) : (noteSources s).mem = s.mem := rfl

@[simp] theorem startCopy_mem (x s c) : (startCopy x s c).2.mem = s.mem := by
  unfold startCopy
  extract_lets wr all
  split
  · rfl
  · have h1 : (nextId s).2.mem = s.mem := nextId_mem s
    split
    next id s1 hid =>
    rw [hid] at h1
    have h2 : (nextId s1).2.mem = s1.mem := nextId_mem s1
    split
    next g s2 hg =>
    rw [hg] at h2
    extract_lets s3 s4 own t
    have h3 : s3.mem = s2.mem := by grind [modWarp_mem, modNet_mem]
    have h4 : s4.mem = s3.mem := modWarp_mem ..
    have ht : t.1.mem = s4.mem := foldl_fst_mem (fun t r => clearAt_mem t.1 ..) _ _
    calc t.1.mem = s4.mem := ht
      _ = s.mem := by rw [h4, h3, ← h1, ← h2]

theorem readDesc_got_mem {x} {s t : State} {a p fresh bs} (h : readDesc x s a p fresh = .got bs t) : t.mem = s.mem := by
  grind [readDesc, cacheDesc, modBay_mem]

@[simp] theorem copyDesc_mem (x s kind f mask index) : (copyDesc x s kind f mask index).2.mem = s.mem := by
  unfold copyDesc
  dsimp only
  split
  · rfl
  · split
    · rfl
    · split
      · split
        next r hr => exact poisOf_mem x s r hr
        · exact parkAll_mem ..
      · split
        next r hr => exact poisOf_mem x s r hr
        · rfl
      next bs u hbs =>
        have hu := readDesc_got_mem hbs
        split
        · exact hu
        · split
          next r hr => exact (poisOf_mem x u r hr).trans hu
          · exact (startCopy_mem ..).trans hu

@[simp] theorem execCpyG2s_keepsWf (f) : KeepsWf (execCpyG2s f) := by
  intro s hs
  refine issue_nextWf hs fun x => ?_
  simpa using hs

@[simp] theorem execCpyS2g_keepsWf (f) : KeepsWf (execCpyS2g f) := by
  intro s hs
  refine issue_nextWf hs fun x => ?_
  simpa using hs

@[simp] theorem execCpgth_keepsWf (f) : KeepsWf (execCpgth f) := by
  intro s hs
  refine issue_nextWf hs fun x => ?_
  simpa using hs

@[simp] theorem execCpsct_keepsWf (f) : KeepsWf (execCpsct f) := by
  intro s hs
  refine issue_nextWf hs fun x => ?_
  simpa using hs

@[simp] theorem execCpxf_keepsWf (f) : KeepsWf (execCpxf f) := by
  intro s hs
  refine issue_nextWf hs fun x => ?_
  simpa using hs

@[simp] theorem execCpyS2s_keepsWf (f) : KeepsWf (execCpyS2s f) := by
  intro s hs
  refine issue_nextWf hs fun x => ?_
  grind [poisOf_mem, startCopy_mem]

@[simp] theorem execTdchk_keepsWf (f) : KeepsWf (execTdchk f) := by
  intro s hs
  refine issue_nextWf hs fun x => ?_
  grind [poisOf_mem, parkAll_mem, modWarp_mem, readDesc_got_mem]

@[simp] theorem engNote_mem (s die mid ctx wr pa) : (engNote s die mid ctx wr pa).mem = s.mem := by
  unfold engNote
  (repeat' split) <;> simp

theorem engNotes_memWf (s die own mid ctx pas) (hs : memWf s.mem) : memWf (engNotes s die own mid ctx pas).mem := by
  grind [engNotes, engNote_mem, peerRead_mem, engTouch_memWf, foldl_memWf, foldl_mem]

theorem walkPages_memWf (s core ctx vas) (hs : memWf s.mem) : memWf (walkPages s core ctx vas).mem := by
  grind [walkPages, cacheVa_memWf, foldl_memWf]

@[simp] theorem modCopy_mem (s id f) : (modCopy s id f).mem = s.mem := rfl

@[simp] theorem sendRing_mem (s copy r bytes clamp after) : (sendRing s copy r bytes clamp after).mem = s.mem := by
  unfold sendRing
  split <;> simp

@[simp] theorem sendLines_mem (s c r bs) : (sendLines s c r bs).1.mem = s.mem := by
  unfold sendLines
  exact foldl_fst_mem (by intro r e; exact nextId_mem r.1) _ _

@[simp] theorem settleCopy_mem (s id) : (settleCopy s id).mem = s.mem := by
  grind [settleCopy, modCopy_mem, ackGroup_mem, modNet_mem]

@[simp] theorem failCopy_mem (s id e) : (failCopy s id e).mem = s.mem := rfl

@[simp] theorem deliverPiece_mem (s c) : (deliverPiece s c).mem = s.mem := by
  unfold deliverPiece
  split <;> simp

theorem readPiece_memWf (s c) (hs : memWf s.mem) : memWf (readPiece s c).mem := by
  grind [readPiece, deliverPiece_mem, failCopy_mem, walkPages_memWf, engNotes_memWf, foldl_memWf]

@[simp] theorem sendGrains_mem (s c ws) : (sendGrains s c ws).mem = s.mem := by simp [sendGrains]

theorem writePiece_memWf (s c) (hs : memWf s.mem) : memWf (writePiece s c).mem := by
  grind [writePiece, failCopy_mem, modCopy_mem, sendGrains_mem, walkPages_memWf, sendRing_mem, settleCopy_mem, foldl_memWf]

theorem clearNext_mem (s c) : ∀ t, clearNext s c = some t → t.mem = s.mem := by
  grind [clearNext, clearAt_mem, modCopy_mem, List.findSome?_eq_some_iff]

@[simp] theorem execCopyPiece_keepsWf (id) : KeepsWf (execCopyPiece id) := by
  intro s hs
  grind [execCopyPiece, NextWf, clearNext_mem, modBay_mem, writePiece_memWf, readPiece_memWf]

@[simp] theorem execCopySourceRead_keepsWf (id) : KeepsWf (execCopySourceRead id) := by
  intro s hs
  unfold execCopySourceRead
  (repeat' split) <;> simpa using hs

@[simp] theorem wakeLines_mem (s) : (wakeLines s).mem = s.mem := by grind [wakeLines, reissue_mem, foldl_mem]

@[simp] theorem wakeTakes_mem (s bid n) : (wakeTakes s bid n).mem = s.mem := by
  grind [wakeTakes, modBlock_mem, modWarp_mem, unpark_mem]

@[simp] theorem fillSlot_mem (s c) : (fillSlot s c).mem = s.mem := by grind [fillSlot, wakeTakes_mem, modBlock_mem]

@[simp] theorem writeLine_mem (s m n final) : (writeLine s m n final).mem = s.mem := by
  grind [writeLine, modCopy_mem, modBlock_mem]

@[simp] theorem execCopyLineWrite_keepsWf (id) : KeepsWf (execCopyLineWrite id) := by
  intro s hs
  grind [execCopyLineWrite, NextWf, modNet_mem, writeLine_mem, wakeLines_mem, fillSlot_mem, settleCopy_mem]

@[simp] theorem execStreamRelease_keepsWf (id) : KeepsWf (execStreamRelease id) := by
  intro s hs
  grind [execStreamRelease, NextWf, nextId_mem, modNet_mem]

@[simp] theorem execRingArrival_keepsWf (id) : KeepsWf (execRingArrival id) := by
  intro s hs
  grind [execRingArrival, NextWf, modNet_mem, settleCopy_mem, ringArrive_mem]

@[simp] theorem uncountCopy_mem (s c) : (uncountCopy s c).mem = s.mem := by
  unfold uncountCopy
  (repeat' split) <;> simp

@[simp] theorem dropLines_mem (s c) : (dropLines s c).mem = s.mem := by grind [dropLines, modBlock_mem, foldl_mem]

@[simp] theorem failSlots_mem (s rs id e) : (failSlots s rs id e).mem = s.mem := by simp [failSlots]

@[simp] theorem execCopyFailure_keepsWf (id) : KeepsWf (execCopyFailure id) := by
  intro s hs
  grind [execCopyFailure, NextWf, modCopy_mem, dropLines_mem, uncountCopy_mem, wakeLines_mem, failSlots_mem]

@[simp] theorem sweepCopies_mem (s) : (sweepCopies s).mem = s.mem := rfl

@[simp] theorem execCopyReplay_keepsWf (block entry) : KeepsWf (execCopyReplay block entry) := by
  intro s hs
  grind [execCopyReplay, NextWf, nextId_mem, modBlock_mem, sweepCopies_mem, modNet_mem]

@[simp] theorem execChsend_keepsWf (f) : KeepsWf (execChsend f) := by
  intro s hs
  refine issue_nextWf hs fun x => ?_
  grind [poisUses_mem, dropDescs_mem, nextId_mem, parkAll_mem, modNet_mem]

@[simp] theorem execChannelClaim_keepsWf (id) : KeepsWf (execChannelClaim id) := fun s hs => by
  unfold execChannelClaim
  split
  · exact hs
  · split
    · extract_lets e
      split
      · exact hs
      · split
        · exact hs
        · split
          · simpa using hs
          · split
            · exact hs
            · extract_lets first
              split
              · exact hs
              · extract_lets dst recvs s1 t s2 old s3 s4
                have ht : t.1.mem = s.mem := foldl_fst_mem (fun t r => clearAt_mem t.1 ..) _ _
                have h4 : s4.mem = t.1.mem := by rw [modWarp_mem, modCopy_mem]
                rw [nextWf_next, unpark_mem, h4, ht]
                exact hs
    · exact hs

@[simp] theorem execChrecvTake_keepsWf (f) : KeepsWf (execChrecvTake f) := by
  intro s hs
  refine issueOp_nextWf hs fun x => ?_
  grind [modBlock_mem, modWarp_mem, parkAll_mem]

@[simp] theorem execChrecvDone_keepsWf (f) : KeepsWf (execChrecvDone f) := by
  intro s hs
  refine issueOp_nextWf hs fun x => ?_
  grind [modBlock_mem, dropDescs_mem]

end Sys2Proof.Machine
end

section
/-! SUPPORT. What the hardware queues leave of memory (R147 to R149, R359 to R366). -/

namespace Sys2Proof.Machine

open Sys2Proof

theorem masterPart_memWf (s die own mid ctx a n) (hs : memWf s.mem) : memWf (masterPart s die own mid ctx a n).2.2.mem := by
  grind [masterPart, denyAccess_mem, engTouchN_memWf, unbackedAccess_mem, malformedBy_mem, peerRead_mem]

theorem masterBytes_memWf (s die own mid ctx a n) (hs : memWf s.mem) : memWf (masterBytes s die own mid ctx a n).2.2.mem := by
  unfold masterBytes
  exact List.foldlRecOn (motive := fun r : List Byte × Bool × State => memWf r.2.2.mem) _ _ hs
    fun r hr p _ => masterPart_memWf r.2.2 die own mid ctx p.1 p.2 hr

theorem readPacket_memWf (s q i) (hs : memWf s.mem) : memWf (readPacket s q i).2.2.mem := by grind [readPacket, masterBytes_memWf]

@[simp] theorem sendStore_mem (s die who grp a bs) : (sendStore s die who grp a bs).mem = s.mem := rfl

theorem engineWrite_memWf (s q ctx a bs) (hs : memWf s.mem) : memWf (engineWrite s q ctx a bs).2.mem := by
  grind [engineWrite, writeBytesBy_memWf, denyAccess_mem, unbackedAccess_mem, nextId_mem, sendStore_mem]

theorem enqueue_memWf (s q packet) (hs : memWf s.mem) : memWf (enqueue s q packet).mem := by
  grind [enqueue, engineWrite_memWf, modQueue_mem]

theorem dequeue_memWf (s q wid m sd) (hs : memWf s.mem) : memWf (dequeue s q wid m sd).mem := by
  grind [dequeue, readPacket_memWf, modQueue_mem, modWarp_mem]

theorem serveDeq_memWf (q a b) (hs : memWf b.mem) : memWf (serveDeq q a b).mem := by
  fun_induction serveDeq <;> grind [modQueue_mem, unpark_mem, dequeue_memWf]

theorem serveEnq_memWf (q a b) (hs : memWf b.mem) : memWf (serveEnq q a b).mem := by
  fun_induction serveEnq <;> grind [modQueue_mem, modWarp_mem, enqueue_memWf, unpark_mem]

theorem serveQueue_memWf (s q) (hs : memWf s.mem) : memWf (serveQueue s q).mem := by
  grind [serveQueue, serveEnq_memWf, serveDeq_memWf, foldl_memWf]

@[simp] theorem execDeq_keepsWf (f) : KeepsWf (execDeq f) := by
  intro s hs
  refine issueOp_nextWf hs fun x => ?_
  grind [serveQueue_memWf, dequeue_memWf, parkAll_mem, modQueue_mem, modWarp_mem]

@[simp] theorem execEnq_keepsWf (f) : KeepsWf (execEnq f) := by
  intro s hs
  refine issueOp_nextWf hs fun x => ?_
  grind [dropDescs_mem, serveQueue_memWf, modWarp_mem, enqueue_memWf, parkAll_mem, modQueue_mem]

theorem recordParts_memWf (core ctx cls a b) (hs : memWf b.mem) : memWf (recordParts core ctx cls a b).2.mem := by
  fun_induction recordParts <;> grind [masterBytes_memWf]

theorem readRecord_memWf (s core ctx cls va) (hs : memWf s.mem) : memWf (readRecord s core ctx cls va).2.mem := by
  grind [readRecord, cacheVa_memWf, recordParts_memWf, foldl_memWf]

@[simp] theorem tryWhole_mem (s die gid) : (tryWhole s die gid).2.mem = s.mem := by
  grind [tryWhole, placementPass_mem, takeHalves_mem, notAdmitted_mem]

@[simp] theorem execLaunch_keepsWf (f) : KeepsWf (execLaunch f) := by
  intro s hs
  refine issue_nextWf hs fun x => ?_
  grind [modWarp_mem, readRecord_memWf, poisOf_mem, dropDescs_mem, parkAll_mem, enterLaunch_mem, tryWhole_mem]

@[simp] theorem completePacket_mem (s q idx) : (completePacket s q idx).mem = s.mem := rfl

@[simp] theorem badPacket_mem (s q idx) : (badPacket s q idx).mem = s.mem := by simp [badPacket]

theorem startPacket_memWf (s q) (hs : memWf s.mem) : memWf (startPacket s q).2.mem := by
  grind [startPacket, readPacket_memWf, modQueue_mem, serveQueue_memWf, modDie_mem]

@[simp] theorem modPacket_mem (s q idx f) : (modPacket s q idx f).mem = s.mem := rfl

@[simp] theorem execKlaunch_keepsWf (q) : KeepsWf (execKlaunch q) := by
  intro s hs
  grind [execKlaunch, NextWf, startPacket_memWf, badPacket_mem, restartWatchdog_mem, completePacket_mem, modPacket_mem,
    readRecord_memWf, enterLaunch_mem]

@[simp] theorem execWaiton_keepsWf (q) : KeepsWf (execWaiton q) := by
  intro s hs
  grind [execWaiton, NextWf, startPacket_memWf, badPacket_mem, completePacket_mem]

@[simp] theorem execWaitonSatisfied_keepsWf (q idx) : KeepsWf (execWaitonSatisfied q idx) := by
  intro s hs
  grind [execWaitonSatisfied, NextWf, completePacket_mem]

@[simp] theorem execWork_keepsWf (q) : KeepsWf (execWork q) := by
  intro s hs
  grind [execWork, NextWf, startPacket_memWf, badPacket_mem, completePacket_mem]

theorem writeStatus_memWf (s q idx ctx va status) (hs : memWf s.mem) : memWf (writeStatus s q idx ctx va status).mem := by
  grind [writeStatus, badPacket_mem, cacheVa_memWf, engineWrite_memWf, modPacket_mem]

theorem endKlaunch_memWf (s q p st) (hs : memWf s.mem) : memWf (endKlaunch s q p st).mem := by
  grind [endKlaunch, writeStatus_memWf, restartWatchdog_mem, completePacket_mem]

@[simp] theorem execKlaunchComplete_keepsWf (q idx) : KeepsWf (execKlaunchComplete q idx) := by
  intro s hs
  grind [execKlaunchComplete, NextWf, endKlaunch_memWf]

end Sys2Proof.Machine
end

section
/-! SUPPORT. What the memory system leaves of memory, from a warp to a home and back (R281 to R309, R317 to R337). -/

namespace Sys2Proof.Machine

open Sys2Proof

@[simp] theorem dropEnt_mem (s id) : (dropEnt s id).mem = s.mem := rfl

@[simp] theorem enterWindow_mem (s core wid grp kind ps) : (enterWindow s core wid grp kind ps).mem = s.mem := by
  simp [enterWindow]

@[simp] theorem enterGroup_mem (s grp) : (enterGroup s grp).mem = s.mem := by
  unfold enterGroup
  (repeat' split) <;> simp

@[simp] theorem popStore_mem (s wid) : (popStore s wid).mem = s.mem := rfl

@[simp] theorem execCoreStoreOrderSend_keepsWf (core warp) : KeepsWf (execCoreStoreOrderSend core warp) := by
  intro s hs
  grind [execCoreStoreOrderSend, NextWf, popStore_mem, nextId_mem, modNet_mem, enterGroup_mem, enterWindow_mem]

@[simp] theorem waitAt_mem (s k g id) : (waitAt s k g id).mem = s.mem := by
  unfold waitAt
  split <;> simp

@[simp] theorem leaveAt_mem (s k g id) : (leaveAt s k g id).mem = s.mem := rfl

@[simp] theorem callSplice_mem (s k g) : (callSplice s k g).mem = s.mem := rfl

@[simp] theorem modReq_mem (s id f) : (modReq s id f).mem = s.mem := rfl

theorem refreshLease_memWf (s r m) (hs : memWf s.mem) : memWf (refreshLease s r m).mem := by
  grind [refreshLease, cutLease_mem, installAll_memWf, getD_memWf, foldl_mem]

@[simp] theorem askFills_mem (s r slice lease port) : (askFills s r slice lease port).mem = s.mem := by simp [askFills]

@[simp] theorem fromHome_mem (s r k a n) : (fromHome s r k a n).2.mem = s.mem := by
  grind [fromHome, waitAt_mem, callSplice_mem, modReq_mem, touchBlk_mem, askFills_mem]

@[simp] theorem fromSlices_mem (s r acq k a n) : (fromSlices s r acq k a n).2.mem = s.mem := by
  grind [fromSlices, fromHome_mem, touchBlk_mem, askFills_mem]

@[simp] theorem prefetchAt_mem (s r) : (prefetchAt s r).mem = s.mem := by grind [prefetchAt, askFills_mem]

theorem endVisit_memWf (s r left) (hs : memWf s.mem) : memWf (endVisit s r left).mem := by
  grind [endVisit, refreshLease_memWf, modReq_mem, leaveAt_mem, foldl_memWf]

@[simp] theorem dropReq_mem (s id) : (dropReq s id).mem = s.mem := rfl

@[simp] theorem setPart_mem (s load lane bs p) : (setPart s load lane bs p).mem = s.mem := rfl

theorem fillHome_memWf (s k f bad) (hs : memWf s.mem) : ∀ t, fillHome s k f bad = some t → memWf t.mem := by
  grind [fillHome, dropFill_mem, fillGrains_memWf, uncorrectedGrain_mem, foldl_memWf]

theorem serveLease_mem (s f) : (∀ t, (serveLease s f).1 = some t → t.mem = s.mem) ∧ (serveLease s f).2.mem = s.mem := by
  unfold serveLease
  refine List.foldlRecOn (motive := fun r : Option State × State => (∀ t, r.1 = some t → t.mem = s.mem) ∧
    r.2.mem = s.mem) _ _ ⟨by rintro _ ⟨⟩; rfl, rfl⟩ ?_
  rintro r ⟨hdone, hnow⟩ g -
  dsimp only
  split
  · exact ⟨hdone, hnow⟩
  · split
    · exact ⟨by rintro _ ⟨⟩, (waitAt_mem ..).trans hnow⟩
    · split
      · exact ⟨by rintro _ ⟨⟩, (callSplice_mem ..).trans ((waitAt_mem ..).trans hnow)⟩
      · split
        · refine ⟨fun t h => ?_, (touchBlk_mem ..).trans hnow⟩
          obtain ⟨_, -, rfl⟩ := Option.map_eq_some_iff.mp h
          exact (touchBlk_mem ..).trans hnow
        · exact ⟨by rintro _ ⟨⟩, (startFills_mem ..).trans ((waitAt_mem ..).trans hnow)⟩

@[simp] theorem leaveLease_mem (s f) : (leaveLease s f).mem = s.mem := by grind [leaveLease, leaveAt_mem, foldl_mem]

theorem fillLease_memWf (s k f a) (hs : memWf s.mem) : ∀ t, fillLease s k f a = some t → memWf t.mem := by
  grind [fillLease, cutLease_mem, dropFill_mem, installAll_memWf, foldl_memWf]

@[simp] theorem execGapFillArrival_keepsWf (id bad) : KeepsWf (execGapFillArrival id bad) := by
  intro s hs
  grind [execGapFillArrival, NextWf, dropFill_mem, fillHome_memWf, fillLease_memWf, serveLease_mem, modSlice_mem, leaveLease_mem,
    getD_memWf]

@[simp] theorem execLoadReturn_keepsWf (id) : KeepsWf (execLoadReturn id) := by
  intro s hs
  grind [execLoadReturn, NextWf, returnLoad_mem]

@[simp] theorem execLeaseExpiry_keepsWf (slice) : KeepsWf (execLeaseExpiry slice) := by
  intro s hs
  unfold execLeaseExpiry
  simpa using hs

@[simp] theorem atomAtHome_mem (s k op p) : (atomAtHome s k op p).1.mem = s.mem := by grind [atomAtHome, blkWrite_mem]

@[simp] theorem atomsAtHome_mem (k op a b) : (atomsAtHome k op a b).1.mem = b.mem := by
  fun_induction atomsAtHome <;> grind [atomAtHome_mem]

@[simp] theorem redgAtHome_mem (s k op mid e) : (redgAtHome s k op mid e).mem = s.mem := by
  unfold redgAtHome
  (repeat' split) <;> simp

theorem applyEnt_memWf (s k mid e) (hs : memWf s.mem) :
    (∀ t, (applyEnt s k mid e).1 = some t → memWf t.mem) ∧ memWf (applyEnt s k mid e).2.mem := by
  grind [applyEnt, poisonHome_mem, startFills_mem, putGrain_memWf, putBlk_mem, markWritten_mem, blkWrite_mem, installBlk_memWf,
    atomsAtHome_mem, modLoad_mem, redgAtHome_mem, foldl_memWf, Option.map_eq_some_iff]

@[simp] theorem respondEnt_mem (s k e) : (respondEnt s k e).mem = s.mem := by
  unfold respondEnt
  (repeat' split) <;> simp

theorem homeWriteAt_memWf (s k mid e) (hs : memWf s.mem) : memWf (homeWriteAt s k mid e).mem := by
  grind [homeWriteAt, reelHook_memWf, waitAt_mem, callSplice_mem, applyEnt_memWf, respondEnt_mem, performEnt_mem,
    muddleRecords_memWf, leaveAt_mem, foldl_memWf]

@[simp] theorem modSplice_mem (s bay g f) : (modSplice s bay g f).mem = s.mem := by simp [modSplice]

@[simp] theorem sendPartial_mem (s bay x) : (sendPartial s bay x).mem = s.mem := rfl

@[simp] theorem execSpliceAbsorb_keepsWf (id) : KeepsWf (execSpliceAbsorb id) := fun s hs => by
  unfold execSpliceAbsorb
  split
  · split
    · split
      · exact hs
      · split
        · extract_lets x'
          split <;> simpa using hs
        · extract_lets old full s1 x
          have h1 : s1.mem = s.mem := by
            unfold s1
            split
            · exact sendPartial_mem ..
            · rfl
          simpa [h1] using hs
    · exact hs
  · exact hs

@[simp] theorem recordSplice_mem (s k bay x) : (recordSplice s k bay x).mem = s.mem := by simp [recordSplice]

@[simp] theorem execSpliceRecordRequest_keepsWf (bay grain) : KeepsWf (execSpliceRecordRequest bay grain) := by
  intro s hs
  grind [execSpliceRecordRequest, NextWf, reelHook_memWf, sendPartial_mem, recordSplice_mem]

@[simp] theorem execSpliceConfirm_keepsWf (bay grain) : KeepsWf (execSpliceConfirm bay grain) := by
  intro s hs
  unfold execSpliceConfirm
  (repeat' split) <;> simpa using hs

@[simp] theorem clearSpliceBit_mem (s k bay g) : (clearSpliceBit s k bay g).mem = s.mem := by
  grind [clearSpliceBit, modSlice_mem, setSplc_mem]

@[simp] theorem execSpliceRecall_keepsWf (bay grain) : KeepsWf (execSpliceRecall bay grain) := by
  intro s hs
  unfold execSpliceRecall
  (repeat' split) <;> simpa using hs

@[simp] theorem execSplicePartialCombine_keepsWf (id) : KeepsWf (execSplicePartialCombine id) := by
  intro s hs
  grind [execSplicePartialCombine, NextWf, performEnts_mem, modNet_mem, reelHook_memWf, waitAt_mem, callSplice_mem, portAt_mem,
    startFills_mem, leaveAt_mem, applyPartial_memWf, clearSpliceBit_mem]

@[simp] theorem execTranslationWalk_keepsWf (core ctx va) : KeepsWf (execTranslationWalk core ctx va) := by
  intro s hs
  grind [execTranslationWalk, NextWf, cacheVa_memWf]

theorem splitBlk_memWf (s slice keep b g) (hs : memWf s.mem) : ∀ t, splitBlk s slice keep b g = some t → memWf t.mem := by
  grind [splitBlk, modSlice_mem, ensureRoom_memWf, purgeExpired_mem, Option.map_eq_some_iff]

theorem splitEnds_memWf (s slice lo hi) (hs : memWf s.mem) : ∀ t, splitEnds s slice lo hi = some t → memWf t.mem := by
  have hcut (keep : List L2Blk) (g : Nat) (u : State) (hu : memWf u.mem) (t : State) (h : (straddlers u slice g).foldl (fun o b =>
      o.bind (fun s => splitBlk s slice (partsIn s slice keep) b (g % 16))) (some u) = some t) : memWf t.mem :=
    foldl_bind_memWf (fun s b t hs => splitBlk_memWf s slice _ b _ hs t) _ hu t h
  intro t h
  obtain ⟨v, hv, ht⟩ := Option.bind_eq_some_iff.mp h
  obtain ⟨u, hu, hv⟩ := Option.bind_eq_some_iff.mp hv
  cases hu
  exact hcut _ _ _ (hcut _ _ _ hs _ hv) _ ht

theorem flushBlk_memWf (op slice s b) (hs : memWf s.mem) : memWf (flushBlk op slice s b).mem := by
  grind [flushBlk, dropBlk_mem, writeBack_memWf, putBlk_mem, trainPredictor_mem]

@[simp] theorem dropPartials_mem (s g) : (dropPartials s g).mem = s.mem := by
  grind [dropPartials, modNet_mem, performEnts_mem, setSplc_mem, modSlice_mem]

theorem flushSlice_memWf (s op r k) (hs : memWf s.mem) : ∀ t, flushSlice s op r k = some t → memWf t.mem := by
  grind [flushSlice, flushBlk_memWf, modSlice_mem, splitEnds_memWf, foldl_memWf, Option.map_eq_some_iff]

theorem flushRange_memWf (s op r) (hs : memWf s.mem) : ∀ t, flushRange s op r = some t → memWf t.mem := by
  have hsplice : memWf ((spliceGrains s r).foldl (fun s g => if op = 2 then dropPartials s g else settleGrain s g) s).mem := by
    refine foldl_memWf (fun s g hs => ?_) _ hs
    split
    · rw [dropPartials_mem]
      exact hs
    · exact settleGrain_memWf s g hs
  exact foldl_bind_memWf (fun s k t hs => flushSlice_memWf s op r k hs t) _ hsplice

theorem flushPart_memWf (s f a n) (hs : memWf s.mem) : ∀ t, flushPart s f a n = some t → memWf t.mem := by
  grind [flushPart, denyAccess_mem, unbackedAccess_mem, flushRange_memWf, reelHook_memWf]

theorem flushStep_memWf (s f) (hs : memWf s.mem) : memWf (flushStep s f).mem := by
  unfold flushStep
  split
  · exact hs
  · extract_lets n parts
    split
    · exact hs
    · refine getD_memWf (fun t h => ?_) hs
      obtain ⟨u, hu, rfl⟩ := Option.map_eq_some_iff.mp h
      exact foldl_bind_memWf (fun s p t hs => flushPart_memWf s f p.1 p.2 hs t) _ hs u hu

@[simp] theorem ackEnt_mem (s e) : (ackEnt s e).mem = s.mem := by
  unfold ackEnt
  (repeat' split) <;> simp

@[simp] theorem execHomeAck_keepsWf (id) : KeepsWf (execHomeAck id) := by
  intro s hs
  unfold execHomeAck
  (repeat' split) <;> simpa using hs

@[simp] theorem ringAtPort_mem (s m) : (ringAtPort s m).mem = s.mem := by
  unfold ringAtPort
  extract_lets s1
  have h1 : s1.mem = s.mem := modNet_mem ..
  split
  · exact h1
  · split
    next u hu => exact (unpark_mem ..).trans ((ringPerform_done_mem hu).trans h1)
    next u hu => exact (parkedTrap_mem ..).trans ((ringPerform_trap_mem hu).trans h1)
    · split <;> simpa using h1

@[simp] theorem portRing_mem (s m) : (portRing s m).mem = s.mem := by grind [portRing, noteRelease_mem, ringAtPort_mem, foldl_mem]

@[simp] theorem execScratchPortAccess_keepsWf (id) : KeepsWf (execScratchPortAccess id) := by
  intro s hs
  unfold execScratchPortAccess
  (repeat' split) <;> simpa using hs

end Sys2Proof.Machine
end

section
/-! SUPPORT. What knots at their homes and the plane array leave of memory (R181 to R185, R194 to R216). -/

namespace Sys2Proof.Machine

open Sys2Proof

theorem writeKnot_memWf (s krec kstate holder) (hs : memWf s.mem) : memWf (writeKnot s krec kstate holder).mem := by
  grind [writeKnot, writeBytes_memWf]

@[simp] theorem replyKnot_mem (s r v) : (replyKnot s r v).mem = s.mem := by
  unfold replyKnot
  split <;> simp

@[simp] theorem dropGuarded_mem (s t krec) : (dropGuarded s t krec).mem = s.mem := by
  grind [dropGuarded, dropLeaseGrain_mem, foldl_mem]

@[simp] theorem sendSignal_mem (s q idx kind a data) : (sendSignal s q idx kind a data).mem = s.mem := by
  unfold sendSignal
  extract_lets pa
  split
  next g s1 hg =>
  have h1 : s1.mem = s.mem := by rw [← nextId_mem s, hg]
  split
  next id s2 hid =>
  have h2 : s2.mem = s1.mem := by rw [← nextId_mem s1, hid]
  extract_lets p ctx s3 e
  have h3 : s3.mem = s2.mem := by
    unfold s3 p
    cases homeOf s2 pa with
    | none => rfl
    | some k => exact portAt_mem ..
  exact (modPacket_mem ..).trans ((modNet_mem ..).trans (h3.trans (h2.trans h1)))

theorem signalWalk_memWf (s q ctx va size) (hs : memWf s.mem) : memWf (signalWalk s q ctx va size).mem := by
  grind [signalWalk, cacheVa_memWf]

@[simp] theorem failSignal_mem (s q idx) : (failSignal s q idx).mem = s.mem := by simp [failSignal]

theorem grantToken_memWf (s krec t) (hs : memWf s.mem) : memWf (grantToken s krec t).mem := by
  grind [grantToken, dropGuarded_mem, writeKnot_memWf]

@[simp] theorem signalStore_mem (s q idx) : (signalStore s q idx).mem = s.mem := by
  unfold signalStore
  (repeat' split) <;> simp

@[simp] theorem knotAnswered_mem (s r v) : (knotAnswered s r v).mem = s.mem := by
  grind [knotAnswered, modNet_mem, signalStore_mem, failSignal_mem, modWarp_mem, unpark_mem]

theorem giveToken_memWf (s k krec) (hs : memWf s.mem) : memWf (giveToken s k krec).mem := by
  grind [giveToken, modKnot_mem, writeBytes_memWf, writeKnot_memWf, grantToken_memWf, replyKnot_mem]

theorem regKnot_memWf (s krec rs bad) (hs : memWf s.mem) : memWf (regKnot s krec rs bad).2.mem := by
  grind [regKnot, modSlice_mem, writeBytes_memWf, foldl_memWf]

theorem freeKnot_memWf (s krec) (hs : memWf s.mem) : memWf (freeKnot s krec).2.mem := by
  grind [freeKnot, modSlice_mem, writeBytes_memWf]

theorem takeKnot_memWf (s r wait_) (hs : memWf s.mem) : memWf (takeKnot s r wait_).mem := by
  grind [takeKnot, replyKnot_mem, modKnot_mem, grantToken_memWf, dropGuarded_mem, modNet_mem]

@[simp] theorem drainFirst_mem (s r) : (drainFirst s r).mem = s.mem := by
  unfold drainFirst
  split <;> simp

theorem giveKnot_memWf (s r) (hs : memWf s.mem) : memWf (giveKnot s r).mem := by
  grind [giveKnot, replyKnot_mem, giveToken_memWf, drainFirst_mem]

theorem applyKnot_memWf (s r) (hs : memWf s.mem) : memWf (applyKnot s r).mem := by
  grind [applyKnot, regKnot_memWf, replyKnot_mem, freeKnot_memWf, takeKnot_memWf, giveKnot_memWf]

theorem arriveKnot_memWf (s r) (hs : memWf s.mem) : memWf (arriveKnot s r).mem := by
  grind [arriveKnot, applyKnot_memWf, denyAccess_mem, modNet_mem, unbackedAccess_mem, malformedBy_mem, engTouchN_memWf]

@[simp] theorem execKnotRequest_keepsWf (id) : KeepsWf (execKnotRequest id) := by
  intro s hs
  grind [execKnotRequest, NextWf, knotAnswered_mem, nextId_mem, modNet_mem, noteRelease_mem, arriveKnot_memWf]

@[simp] theorem execKtakeResend_keepsWf (id) : KeepsWf (execKtakeResend id) := by
  intro s hs
  grind [execKtakeResend, NextWf, nextId_mem, modNet_mem]

theorem startSignal_memWf (s q p) (hs : memWf s.mem) : memWf (startSignal s q p).mem := by
  grind [startSignal, failSignal_mem, ringArrive_mem, modPacket_mem, signalWalk_memWf, nextId_mem, modNet_mem, sendSignal_mem]

@[simp] theorem execSignal_keepsWf (q) : KeepsWf (execSignal q) := by
  intro s hs
  grind [execSignal, NextWf, startPacket_memWf, startSignal_memWf]

theorem signalGive_memWf (s q k krec ctx) (hs : memWf s.mem) : memWf (signalGive s q k krec ctx).mem := by
  grind [signalGive, giveToken_memWf, denyAccess_mem]

@[simp] theorem execSignalComplete_keepsWf (q idx) : KeepsWf (execSignalComplete q idx) := by
  intro s hs
  grind [execSignalComplete, NextWf, signalGive_memWf, failSignal_mem, completePacket_mem]

@[simp] theorem modHitch_mem (s bid k f) : (modHitch s bid k f).mem = s.mem := rfl

@[simp] theorem hitchTrap_mem (x s k) : (hitchTrap x s k).2.mem = s.mem := rfl

@[simp] theorem resetHitch_mem (s bid k h) : (resetHitch s bid k h).mem = s.mem := by
  grind [resetHitch, modWarp_mem, modHitch_mem, foldl_mem]

@[simp] theorem execHset_keepsWf (f) : KeepsWf (execHset f) := by
  intro s hs
  refine issueOp_nextWf hs fun x => ?_
  grind [modHitch_mem, hitchTrap_mem]

@[simp] theorem enqueueWork_mem (s core bid slot work counts a) : (enqueueWork s core bid slot work counts a).mem = s.mem := by
  simp [enqueueWork]

@[simp] theorem issueMma_mem (x s b k sigs desc) : (issueMma x s b k sigs desc).2.mem = s.mem := by
  unfold issueMma
  split <;> simp

theorem mapFor_mem (x s b n hitch) : ∀ t, mapFor x s b n hitch = some t → t.mem = s.mem := by grind [mapFor, requestNow_mem]

@[simp] theorem signMma_mem (x s f b k h desc) : (signMma x s f b k h desc).2.mem = s.mem := by
  grind [signMma, hitchTrap_mem, resetHitch_mem, modHitch_mem, modWarp_mem, mapFor_mem, enqueueRequest_mem, issueMma_mem]

theorem checkMma_memWf (x s f b k h desc bad) (hs : memWf s.mem) : memWf (checkMma x s f b k h desc bad).2.mem := by
  grind [checkMma, walkPages_memWf, modWarp_mem, signMma_mem]

@[simp] theorem execMma_keepsWf (f) : KeepsWf (execMma f) := fun s hs => by
  have hcheck {x b k h desc bad} {t : State} (ht : memWf t.mem) : memWf (checkMma x t f b k h desc bad).2.mem :=
    checkMma_memWf _ _ _ _ _ _ _ _ ht
  refine issue_nextWf hs fun x => ?_
  extract_lets k
  split
  · exact hs
  · extract_lets n last
    split
    · exact hs
    · split
      · split
        · exact hcheck hs
        · split
          · simpa using hs
          · exact hcheck hs
          next hread =>
            have ht := readDesc_got_mem hread ▸ hs
            split
            · exact hcheck ht
            · exact ht
      · exact hcheck hs

@[simp] theorem queueAcc_mem (x s b n rel) : (queueAcc x s b n rel).2.mem = s.mem := by
  unfold queueAcc
  split <;> simp

@[simp] theorem execAccz_keepsWf (f) : KeepsWf (execAccz f) := by
  intro s hs
  refine issueOp_nextWf hs fun x => ?_
  grind [mapFor_mem, enqueueRequest_mem, queueAcc_mem]

@[simp] theorem execAccrel_keepsWf (f) : KeepsWf (execAccrel f) := by
  intro s hs
  refine issueOp_nextWf hs fun x => ?_
  split <;> simpa using hs

@[simp] theorem execPairedAccCommandArrival_keepsWf (block) : KeepsWf (execPairedAccCommandArrival block) := by
  intro s hs
  unfold execPairedAccCommandArrival
  (repeat' split) <;> simpa using hs

@[simp] theorem execPlaneStepsStart_keepsWf (core) : KeepsWf (execPlaneStepsStart core) := fun s hs => by
  unfold execPlaneStepsStart
  split
  · exact hs
  · extract_lets go
    have hgo {u : State} {work : PlaneWork} (hu : memWf u.mem) : memWf (go u work).mem := hu
    split
    · exact hgo hs
    · exact hgo hs
    · exact hgo hs
    · split
      · exact hgo (engNotes_memWf _ _ _ _ _ _ (walkPages_memWf _ _ _ _ hs))
      · split
        · exact hgo hs
        · split
          · exact hgo hs
          · exact hs

@[simp] theorem poisonName_mem (s bid n slot) : (poisonName s bid n slot).mem = s.mem := rfl

@[simp] theorem drainCore_mem (s core) : (drainCore s core).mem = s.mem := by simp [drainCore]

@[simp] theorem noteMismatch_mem (s core bid k sigs slot m) : (noteMismatch s core bid k sigs slot m).mem = s.mem := by
  grind [noteMismatch, poisonName_mem, modBlock_mem, modWarp_mem, report_mem, modCore_mem, drainCore_mem, foldl_mem]

@[simp] theorem settleRows_mem (s core e) : (settleRows s core e).mem = s.mem := by
  unfold settleRows
  split <;> simp

@[simp] theorem completeWarps_mem (s ws flags) : (completeWarps s ws flags).mem = s.mem := by
  grind [completeWarps, modWarp_mem, foldl_mem]

@[simp] theorem execMatrixCompletion_keepsWf (core bad) : KeepsWf (execMatrixCompletion core bad) := by
  intro s hs
  grind [execMatrixCompletion, NextWf, modCore_mem, settleRows_mem, completeWarps_mem, passDue_mem, serveCore_mem, unmapName_mem,
    freeBlockSlots_mem, noteMismatch_mem, poisonName_mem]

@[simp] theorem accShow_mem (s core bid slot rs cs) : (accShow s core bid slot rs cs).2.mem = s.mem := by
  grind [accShow, modCore_mem]

@[simp] theorem execAccrd_keepsWf (f) : KeepsWf (execAccrd f) := by
  intro s hs
  refine issueOp_nextWf hs fun x => ?_
  grind [modWarp_mem, accShow_mem]

@[simp] theorem execAccwr_keepsWf (f) : KeepsWf (execAccwr f) := by
  intro s hs
  refine issueOp_nextWf hs fun x => ?_
  grind [mapFor_mem, enqueueRequest_mem, modCore_mem]

@[simp] theorem execMchkrd_keepsWf (f) : KeepsWf (execMchkrd f) := by
  intro s hs
  refine issueOp_nextWf hs fun x => ?_
  split <;> simpa using hs

@[simp] theorem execMismatchWindow_keepsWf (core) : KeepsWf (execMismatchWindow core) := by
  intro s hs
  unfold execMismatchWindow
  simpa using hs

@[simp] theorem execGoldenTest_keepsWf (core test) : KeepsWf (execGoldenTest core test) := fun s hs => by
  unfold execGoldenTest
  dsimp only
  split <;> exact hs

@[simp] theorem execGoldenTestResult_keepsWf (core pass) : KeepsWf (execGoldenTestResult core pass) := by
  intro s hs
  unfold execGoldenTestResult
  (repeat' split) <;> simpa using hs

end Sys2Proof.Machine
end

section
/-! SUPPORT. What contexts, save and restore, and the warps' own instructions leave of memory (R125 to R146, R389 to R404). -/

namespace Sys2Proof.Machine

open Sys2Proof

@[simp] theorem dropHeld_mem (s c) : (dropHeld s c).mem = s.mem := by simp [dropHeld]

theorem endPackets_memWf (s ctx q) (hs : memWf s.mem) : memWf (endPackets s ctx q).mem := by
  grind [endPackets, endKlaunch_memWf, modNet_mem, giveToken_memWf, failSignal_mem, foldl_memWf, foldl_mem,
    Option.bind_eq_some_iff]

@[simp] theorem endTokens_mem (s cid) : (endTokens s cid).mem = s.mem := by simp [endTokens]

@[simp] theorem sweepNet_mem (s ws cps) : (sweepNet s ws cps).mem = s.mem := rfl

@[simp] theorem clearBlocks_mem (s bs) : (clearBlocks s bs).mem = s.mem := rfl

@[simp] theorem servedAll_mem (s) : (servedAll s).mem = s.mem := by simp [servedAll]

@[simp] theorem endCtx_mem (s c) : (endCtx s c).mem = s.mem := by
  unfold endCtx
  split <;> simp

@[simp] theorem execFenceComplete_keepsWf (ctx) : KeepsWf (execFenceComplete ctx) := by
  intro s hs
  grind [execFenceComplete, NextWf, dropHeld_mem, endPackets_memWf, endCtx_mem, modCtx_mem, report_mem, foldl_memWf]

@[simp] theorem watchCtx_mem (a s c) : (watchCtx a s c).mem = s.mem := by grind [watchCtx, modCtx_mem, startFence_mem]

@[simp] theorem periodStep_mem (s) : (periodStep s).mem = s.mem := by simp [periodStep]

@[simp] theorem execWatchdogPeriod_keepsWf : KeepsWf execWatchdogPeriod := by
  intro s hs
  unfold execWatchdogPeriod
  split <;> simpa using hs

@[simp] theorem startInval_mem (s c) : (startInval s c).mem = s.mem := rfl

@[simp] theorem execInvalidationComplete_keepsWf (ctx) : KeepsWf (execInvalidationComplete ctx) := by
  intro s hs
  grind [execInvalidationComplete, NextWf, modCtx_mem]

theorem writeImage_memWf (s ctx a bs) (hs : memWf s.mem) : memWf (writeImage s ctx a bs).mem := by
  grind [writeImage, denyAccess_mem, homeStore_memWf, unbackedAccess_mem, nextId_mem, sendStore_mem, foldl_memWf, foldl_mem]

theorem writeDirectory_memWf (s ctx) (hs : memWf s.mem) : memWf (writeDirectory s ctx).mem := by
  grind [writeDirectory, writeImage_memWf]

theorem saveImages_memWf (ctx cid r a b) (hs : memWf b.mem) : ∀ t, saveImages ctx cid r a b = some t → memWf t.mem := by
  fun_induction saveImages <;> grind [writeDirectory_memWf, modCtx_mem, writeImage_memWf, Option.bind_eq_some_iff]

@[simp] theorem withdraw_mem (s ids) : (withdraw s ids).mem = s.mem := rfl

@[simp] theorem execPreemptSave_keepsWf (cluster) : KeepsWf (execPreemptSave cluster) := by
  intro s hs
  grind [execPreemptSave, NextWf, saveImages_memWf, startFence_mem, withdraw_mem]

@[simp] theorem relaunch_mem (s gid cid g) : (relaunch s gid cid g).mem = s.mem := by grind [relaunch, modLaunch_mem, modDie_mem]

@[simp] theorem execSaveComplete_keepsWf (cluster) : KeepsWf (execSaveComplete cluster) := by
  intro s hs
  unfold execSaveComplete
  (repeat' split) <;> simpa using hs

@[simp] theorem resumeWarp_mem (s wid) : (resumeWarp s wid).mem = s.mem := by
  unfold resumeWarp
  split <;> simp

theorem readImage_memWf (s ctx a n) (hs : memWf s.mem) : memWf (readImage s ctx a n).2.mem := by
  unfold readImage
  exact foldl_snd_memWf (by intro r i hr; exact masterBytes_memWf _ _ _ _ _ _ _ hr) _ hs

@[simp] theorem fillAcc_mem (s bid core n slot bs) : (fillAcc s bid core n slot bs).mem = s.mem := by
  unfold fillAcc
  split <;> simp

@[simp] theorem loadImage_mem (s r bid a bs) : (loadImage s r bid a bs).mem = s.mem := by
  unfold loadImage
  extract_lets t n s1
  have ht : t.2.mem = s.mem := foldl_snd_mem (by intro r e; exact modWarp_mem ..) _ _
  have h1 : s1.mem = t.2.mem := modBlock_mem ..
  split
  · exact h1.trans ht
  · exact (foldl_mem (fun s e => fillAcc_mem s _ _ _ _ _) _ _).trans (h1.trans ht)

theorem loadImages_memWf (s ctx cid r bs) (hs : memWf s.mem) : memWf (loadImages s ctx cid r bs).mem := by
  grind [loadImages, readImage_memWf, loadImage_mem, foldl_memWf]

/-- The same of a state whose saved clusters are changed. -/
theorem withSaved_mem (s : State) (x : List Saved) : ({ s with saved := x } : State).mem = s.mem := rfl

@[simp] theorem execRestore_keepsWf (cluster) : KeepsWf (execRestore cluster) := fun s hs => by
  have hstart (u : State) (k : Nat) : (modBlock u k fun b => { b with started := true }).mem = u.mem := modBlock_mem ..
  have hknot (u : State) (k : Knot) (hu : memWf u.mem) :
      memWf (if k.holder == some (.cluster cluster) then writeKnot u k.krec 3 k.holder else u).mem := by
    split
    · exact writeKnot_memWf _ _ _ _ hu
    · exact hu
  unfold execRestore
  split
  next v g _ _ =>
    refine nextWf_ite_next hs fun _ => ?_
    have hload := loadImages_memWf s g.ctx cluster g.record (v.blocks.map Prod.fst) hs
    generalize loadImages s g.ctx cluster g.record (v.blocks.map Prod.fst) = s1 at hload ⊢
    rw [nextWf_next, passDue_mem]
    refine foldl_memWf (fun u q hu => serveQueue_memWf u q hu) _ ?_
    rw [foldl_mem resumeWarp_mem]
    refine foldl_memWf hknot _ ?_
    rw [foldl_mem hstart, withSaved_mem]
    exact writeDirectory_memWf _ _ hload
  · exact hs

@[simp] theorem execBra_keepsWf (f) : KeepsWf (execBra f) := by
  intro s hs
  refine issueOp_nextWf hs fun x => ?_
  simpa using hs

@[simp] theorem execBrc_keepsWf (f) : KeepsWf (execBrc f) := by
  intro s hs
  refine issueOp_nextWf hs fun x => ?_
  split <;> simpa using hs

@[simp] theorem execCall_keepsWf (f) : KeepsWf (execCall f) := by
  intro s hs
  refine issueOp_nextWf hs fun x => ?_
  simpa using hs

@[simp] theorem jumpPair_mem (x sa s) : (jumpPair x sa s).2.mem = s.mem := by grind [jumpPair]

@[simp] theorem execBrp_keepsWf (f) : KeepsWf (execBrp f) := by
  intro s hs
  refine issueOp_nextWf hs fun x => ?_
  grind [modWarp_mem]

@[simp] theorem execExit_keepsWf (f) : KeepsWf (execExit f) := by
  intro s hs
  refine issueOp_nextWf hs fun x => ?_
  simpa using hs

@[simp] theorem execJoin_keepsWf (f) : KeepsWf (execJoin f) := by
  intro s hs
  refine issueOp_nextWf hs fun x => ?_
  grind [modWarp_mem]

@[simp] theorem execLeave_keepsWf (f) : KeepsWf (execLeave f) := by
  intro s hs
  refine issueOp_nextWf hs fun x => ?_
  grind [settleWarp_mem, modWarp_mem]

@[simp] theorem execWait_keepsWf (f) : KeepsWf (execWait f) := by
  intro s hs
  refine issueOp_nextWf hs fun x => ?_
  grind [settleWarp_mem, parkIssuing_mem]

@[simp] theorem execMops_keepsWf (f) : KeepsWf (execMops f) := by
  intro s hs
  refine issueOp_nextWf hs fun x => ?_
  simpa using hs

@[simp] theorem execBrk_keepsWf (f) : KeepsWf (execBrk f) := by
  intro s hs
  refine issueOp_nextWf hs fun x => ?_
  simpa using hs

@[simp] theorem execTrap_keepsWf (f) : KeepsWf (execTrap f) := by
  intro s hs
  refine issueOp_nextWf hs fun x => ?_
  simpa using hs

@[simp] theorem execEret_keepsWf (f) : KeepsWf (execEret f) := by
  intro s hs
  refine issueOp_nextWf hs fun x => ?_
  grind [eretDone_mem, eretFetch_memWf]

@[simp] theorem execYield_keepsWf (f) : KeepsWf (execYield f) := by
  intro s hs
  refine issueOp_nextWf hs fun x => ?_
  simpa using hs

@[simp] theorem execSleepc_keepsWf (f) : KeepsWf (execSleepc f) := by
  intro s hs
  refine issueOp_nextWf hs fun x => ?_
  simpa using hs

@[simp] theorem execWaitc_keepsWf (f) : KeepsWf (execWaitc f) := by
  intro s hs
  refine issueOp_nextWf hs fun x => ?_
  split <;> simpa using hs

@[simp] theorem execAttach_keepsWf (f) : KeepsWf (execAttach f) := by
  intro s hs
  refine issueOp_nextWf hs fun x => ?_
  grind [attachAll_mem, modWarp_mem, requestNow_mem, enqueueRequest_mem]

@[simp] theorem execDetach_keepsWf (f) : KeepsWf (execDetach f) := by
  intro s hs
  refine issueOp_nextWf hs fun x => ?_
  simpa using hs

@[simp] theorem execReggrow_keepsWf (f) : KeepsWf (execReggrow f) := by
  intro s hs
  refine issueOp_nextWf hs fun x => ?_
  grind [modWarp_mem, requestNow_mem, enqueueRequest_mem]

@[simp] theorem trimLoads_mem (s wid win) : (trimLoads s wid win).mem = s.mem := by simp [trimLoads]

@[simp] theorem execRegshrink_keepsWf (f) : KeepsWf (execRegshrink f) := by
  intro s hs
  refine issueOp_nextWf hs fun x => ?_
  split <;> simpa using hs

@[simp] theorem execSrd_keepsWf (f) : KeepsWf (execSrd f) := by
  intro s hs
  refine issueOp_nextWf hs fun x => ?_
  simpa using hs

@[simp] theorem execSwr_keepsWf (f) : KeepsWf (execSwr f) := by
  intro s hs
  refine issueOp_nextWf hs fun x => ?_
  split <;> simpa using hs

@[simp] theorem execTdef_keepsWf (f) : KeepsWf (execTdef f) := by
  intro s hs
  refine issueOp_nextWf hs fun x => ?_
  grind [modWarp_mem]

@[simp] theorem execTrd_keepsWf (f) : KeepsWf (execTrd f) := by
  intro s hs
  refine issue_nextWf hs fun x => ?_
  grind [poisOf_mem, modWarp_mem]

@[simp] theorem execTwr_keepsWf (f) : KeepsWf (execTwr f) := by
  intro s hs
  refine issue_nextWf hs fun x => ?_
  grind [poisOf_mem, modWarp_mem]

end Sys2Proof.Machine
end

section
/-! SUPPORT. What migration, errors, the debug mailbox and the security processor leave of memory (R405 to R410, R431 to R466). -/

namespace Sys2Proof.Machine

open Sys2Proof

@[simp] theorem modMig_mem (s ch f) : (modMig s ch f).mem = s.mem := rfl

@[simp] theorem migGo_mem (s ch) : (migGo s ch).mem = s.mem := by
  unfold migGo
  split <;> simp

@[simp] theorem migClr_mem (s ch) : (migClr s ch).mem = s.mem := rfl

theorem cutHome_memWf (s slice a) (hs : memWf s.mem) : memWf (cutHome s slice a).mem := by
  grind [cutHome, writeBack_memWf, modSlice_mem]

@[simp] theorem execMigrationGrain_keepsWf (ch) : KeepsWf (execMigrationGrain ch) := by
  intro s hs
  grind [execMigrationGrain, NextWf, settleGrain_memWf, engNote_mem, homeStore_memWf, poisonHome_mem, cutHome_memWf, modMig_mem]

@[simp] theorem execMigrationDone_keepsWf (ch) : KeepsWf (execMigrationDone ch) := by
  intro s hs
  unfold execMigrationDone
  (repeat' split) <;> simpa using hs

@[simp] theorem execCorrectedError_keepsWf (u code n) : KeepsWf (execCorrectedError u code n) := by
  intro s hs
  unfold execCorrectedError
  simpa using hs

@[simp] theorem execCorrectedErrorReport_keepsWf (u code) : KeepsWf (execCorrectedErrorReport u code) := by
  intro s hs
  grind [execCorrectedErrorReport, NextWf, modDie_mem, report_mem]

@[simp] theorem fatal_mem (s e) : (fatal s e).mem = s.mem := by
  unfold fatal
  split <;> simp

@[simp] theorem fatalType_mem (s typ) : (fatalType s typ).mem = s.mem := by simp [fatalType]

@[simp] theorem execFatalError_keepsWf (cause) : KeepsWf (execFatalError cause) := by
  intro s hs
  unfold execFatalError
  simpa using hs

@[simp] theorem queueError_mem (s a u code) : (queueError s a u code).mem = s.mem := by
  unfold queueError
  split <;> simp

@[simp] theorem fenceSlice_mem (s k) : (fenceSlice s k).mem = s.mem := by
  unfold fenceSlice
  split <;> simp

@[simp] theorem fenceWarpCtx_mem (s wid code) : (fenceWarpCtx s wid code).mem = s.mem := by
  unfold fenceWarpCtx
  split <;> simp

@[simp] theorem execUncorrectedError_keepsWf (site) : KeepsWf (execUncorrectedError site) := by
  intro s hs
  unfold execUncorrectedError
  (repeat' split) <;> simpa using hs

@[simp] theorem execExpanderFence_keepsWf (x) : KeepsWf (execExpanderFence x) := by
  intro s hs
  unfold execExpanderFence
  split <;> simpa using hs

@[simp] theorem execHbmStackLoss_keepsWf (stack) : KeepsWf (execHbmStackLoss stack) := by
  intro s hs
  unfold execHbmStackLoss
  split <;> simpa using hs

theorem pushEvent_memWf (s bs) (hs : memWf s.mem) : memWf (pushEvent s bs).mem := by grind [pushEvent, writeBytes_memWf]

@[simp] theorem execEventStoreRetry_keepsWf (die) : KeepsWf (execEventStoreRetry die) := by
  intro s hs
  grind [execEventStoreRetry, NextWf, pushEvent_memWf, modDie_mem]

@[simp] theorem execMsixMessage_keepsWf (fn) : KeepsWf (execMsixMessage fn) := by
  intro s hs
  unfold execMsixMessage
  (repeat' split) <;> simpa using hs

theorem writeDump_memWf (s cause status) (hs : memWf s.mem) : memWf (writeDump s cause status).mem := by
  grind [writeDump, writeBytes_memWf, report_mem]

@[simp] theorem execDumpComplete_keepsWf (status) : KeepsWf (execDumpComplete status) := by
  intro s hs
  grind [execDumpComplete, NextWf, writeDump_memWf]

@[simp] theorem overheated_mem (s) : (overheated s).mem = s.mem := by
  unfold overheated
  split <;> simp

@[simp] theorem execOverTemperature_keepsWf (temp) : KeepsWf (execOverTemperature temp) := by
  intro s hs
  unfold execOverTemperature
  simpa using hs

@[simp] theorem execPowerStepSelect_keepsWf (pwr temp) : KeepsWf (execPowerStepSelect pwr temp) := by
  intro s hs
  unfold execPowerStepSelect
  split <;> simpa using hs

@[simp] theorem execClockStepChange_keepsWf : KeepsWf execClockStepChange := by
  intro s hs
  unfold execClockStepChange
  split <;> simpa using hs

@[simp] theorem execReelChunk_keepsWf (hub) : KeepsWf (execReelChunk hub) := by
  intro s hs
  grind [execReelChunk, NextWf, reelCopy_memWf]

theorem reelPost_memWf (s) (hs : memWf s.mem) : memWf (reelPost s).mem := by
  grind [reelPost, serveQueue_memWf, enqueue_memWf, foldl_memWf]

@[simp] theorem execReelComplete_keepsWf : KeepsWf execReelComplete := by
  intro s hs
  grind [execReelComplete, NextWf, reelPost_memWf]

@[simp] theorem execReelEnqueueRetry_keepsWf : KeepsWf execReelEnqueueRetry := by
  intro s hs
  grind [execReelEnqueueRetry, NextWf, reelPost_memWf]

@[simp] theorem debugErr_mem (s c code) : (debugErr s c code).mem = s.mem := rfl

@[simp] theorem debugDone_mem (s c n) : (debugDone s c n).mem = s.mem := rfl

theorem onLocated_mem (s c argsOk) {go : List (Nat × Block) → State} (h : ∀ bs, (go bs).mem = s.mem) :
    (onLocated s c argsOk go).mem = s.mem := by
  unfold onLocated
  split
  · exact debugErr_mem ..
  · split
    · exact debugErr_mem ..
    · exact h _

@[simp] theorem wakeBlock_mem (s bid) : (wakeBlock s bid).mem = s.mem := by grind [wakeBlock, modWarp_mem, foldl_mem]

@[simp] theorem debugHalt_mem (s c) : (debugHalt s c).mem = s.mem :=
  onLocated_mem s c true fun bs => by simp

@[simp] theorem debugResume_mem (s c) : (debugResume s c).mem = s.mem := by
  refine onLocated_mem s c true fun bs => ?_
  exact (debugDone_mem ..).trans ((foldl_mem (fun s e => modBlock_mem s _ _) bs _).trans (modCtx_mem ..))

@[simp] theorem debugStep_mem (s c) : (debugStep s c).mem = s.mem := by
  refine onLocated_mem s c _ fun bs => ?_
  dsimp only
  split
  · exact debugErr_mem ..
  · exact (debugDone_mem ..).trans (foldl_mem (fun s e => modWarp_mem s _ _) _ s)

@[simp] theorem debugWatch_mem (s c) : (debugWatch s c).mem = s.mem := by
  refine onLocated_mem s c _ fun bs => ?_
  dsimp only
  split
  · exact debugErr_mem ..
  · exact (debugDone_mem ..).trans (foldl_mem (fun s p => modBlock_mem s _ _) _ s)

@[simp] theorem debugIcinv_mem (s c) : (debugIcinv s c).mem = s.mem := rfl

@[simp] theorem debugCmd_mem (s c op) : (debugCmd s c op).mem = s.mem := by
  unfold debugCmd
  (repeat' split) <;> simp

@[simp] theorem debugWrite_mem (s c off v) : (debugWrite s c off v).mem = s.mem := by
  unfold debugWrite
  split <;> simp

@[simp] theorem execHaltComplete_keepsWf (ctx) : KeepsWf (execHaltComplete ctx) := by
  intro s hs
  grind [execHaltComplete, NextWf, modDebug_mem]

@[simp] theorem execIcinvComplete_keepsWf (ctx) : KeepsWf (execIcinvComplete ctx) := by
  intro s hs
  grind [execIcinvComplete, NextWf, dropCode_mem, modDebug_mem]

@[simp] theorem modBox_mem (s fn f) : (modBox s fn f).mem = s.mem := rfl

@[simp] theorem endCmd_mem (s fn status) : (endCmd s fn status).mem = s.mem := rfl

@[simp] theorem setRsp_mem (s fn i v) : (setRsp s fn i v).mem = s.mem := rfl

@[simp] theorem skipUnknown_mem (a b) : (skipUnknown a b).mem = b.mem := by fun_induction skipUnknown <;> grind [endCmd_mem]

@[simp] theorem secCmd_mem (s fn op) : (secCmd s fn op).mem = s.mem := by
  unfold secCmd
  split <;> simp

theorem secPut_memWf (s a bs) (hs : memWf s.mem) : memWf (secPut s a bs).mem := by grind [secPut, homeStore_memWf, foldl_memWf]

theorem secRun_nextWf {s : State} {fn op : Nat} {go : State → Nat × State} (hs : memWf s.mem) (h : memWf (go s).2.mem) :
    NextWf (secRun s fn op go) := by
  unfold secRun
  split
  · exact hs
  · split
    · simpa using hs
    · simpa using h

@[simp] theorem execAtab_keepsWf (fn) : KeepsWf (execAtab fn) := by
  intro s hs
  refine secRun_nextWf hs ?_
  dsimp only
  grind [modSec_mem]

@[simp] theorem execCtxasn_keepsWf (fn) : KeepsWf (execCtxasn fn) := by
  intro s hs
  refine secRun_nextWf hs ?_
  dsimp only
  (repeat' split) <;> simpa using hs

theorem startJob_memWf (s j) (hs : memWf s.mem) : memWf (startJob s j).mem := by
  grind [startJob, modSec_mem, settleGrain_memWf, foldl_memWf]

@[simp] theorem execReel_keepsWf (fn) : KeepsWf (execReel fn) := by
  intro s hs
  refine secRun_nextWf hs ?_
  dsimp only
  grind [setRsp_mem, startJob_memWf, reelPost_memWf, modSec_mem]

@[simp] theorem execAttest_keepsWf (fn) : KeepsWf (execAttest fn) := fun s hs => by
  refine secRun_nextWf hs ?_
  dsimp only
  split
  · exact secPut_memWf s _ _ hs
  · exact hs

@[simp] theorem execGvcnt_keepsWf (fn) : KeepsWf (execGvcnt fn) := by
  intro s hs
  refine secRun_nextWf hs ?_
  dsimp only
  grind [setRsp_mem]

@[simp] theorem execFwupd_keepsWf (fn) : KeepsWf (execFwupd fn) := by
  intro s hs
  refine secRun_nextWf hs ?_
  dsimp only
  (repeat' split) <;> simpa using hs

@[simp] theorem execLcset_keepsWf (fn) : KeepsWf (execLcset fn) := fun s hs => by
  refine secRun_nextWf hs ?_
  dsimp only
  split
  · exact hs
  · split
    · split
      · exact hs
      · split
        · rw [foldl_mem fun _ _ => startFence_mem ..]
          exact hs
        · exact hs
    · exact hs

@[simp] theorem execCap_keepsWf (fn) : KeepsWf (execCap fn) := by
  intro s hs
  refine secRun_nextWf hs ?_
  dsimp only
  split <;> simpa using hs

@[simp] theorem secWrite_mem (s fn off v) : (secWrite s fn off v).mem = s.mem := by grind [secWrite, secCmd_mem, modBox_mem]

@[simp] theorem bootState_mem (s up) : (bootState s up).mem = [] := rfl

@[simp] theorem execDeviceReset_keepsWf (source) : KeepsWf (execDeviceReset source) := fun s hs => by
  unfold execDeviceReset
  split
  · exact hs
  · exact memWf_nil

@[simp] theorem execMainPowerLoss_keepsWf : KeepsWf execMainPowerLoss := fun _ _ => memWf_nil

end Sys2Proof.Machine
end

section
/-! SUPPORT. What the fabric, the MMIO range, packets at their homes and the grants leave of memory (R13, R230, R239 to R242,
R414). -/

namespace Sys2Proof.Machine

open Sys2Proof

@[simp] theorem settleGroups_mem (s) : (settleGroups s).mem = s.mem := by grind [settleGroups, modFab_mem, foldl_mem]

@[simp] theorem execCgreg_keepsWf (fn) : KeepsWf (execCgreg fn) := by
  intro s hs
  refine secRun_nextWf hs ?_
  dsimp only
  grind [settleGroups_mem, modFab_mem]

@[simp] theorem execCgdel_keepsWf (fn) : KeepsWf (execCgdel fn) := by
  intro s hs
  refine secRun_nextWf hs ?_
  dsimp only
  (repeat' split) <;> simpa using hs

@[simp] theorem execDomain_keepsWf (fn) : KeepsWf (execDomain fn) := by
  intro s hs
  refine secRun_nextWf hs ?_
  dsimp only
  grind [modFab_mem]

@[simp] theorem execColl_keepsWf (f) : KeepsWf (execColl f) := by
  intro s hs
  refine issue_nextWf hs fun x => ?_
  grind [settleGroups_mem, poisOf_mem, startCopy_mem]

@[simp] theorem addPart_mem (s p) : (addPart s p).mem = s.mem := by
  unfold addPart
  split <;> simp

@[simp] theorem loseColl_mem (s x dst p) : (loseColl s x dst p).mem = s.mem := by grind [loseColl, report_mem, addPart_mem]

@[simp] theorem sendColl_mem (s x hub dst p seq) : (sendColl s x hub dst p seq).mem = s.mem := by
  unfold sendColl
  split <;> simp

@[simp] theorem sendPart_mem (s x hub dsts p) : (sendPart s x hub dsts p).mem = s.mem := by simp [sendPart]

@[simp] theorem collStep_mem (s x ctx stp) : (collStep s x ctx stp).mem = s.mem := by
  grind [collStep, modFab_mem, addPart_mem, sendPart_mem]

@[simp] theorem enterOwn_mem (s x k) : (enterOwn s x k).mem = s.mem := by
  unfold enterOwn
  split <;> simp

@[simp] theorem execCollContribution_keepsWf (c) : KeepsWf (execCollContribution c) := by
  intro s hs
  grind [execCollContribution, NextWf, settleGroups_mem, collStep_mem, enterOwn_mem, addPart_mem]

@[simp] theorem execCollResult_keepsWf (id) : KeepsWf (execCollResult id) := by
  intro s hs
  grind [execCollResult, NextWf, modFab_mem, failCopy_mem, modCopy_mem]

@[simp] theorem sendLanyard_mem (s load grp a head body) : (sendLanyard s load grp a head body).mem = s.mem := by
  simp [sendLanyard]

@[simp] theorem lanyardDone_mem (s id r bs poison) : (lanyardDone s id r bs poison).mem = s.mem := by
  unfold lanyardDone
  extract_lets s1
  have h1 : s1.mem = s.mem := modFab_mem ..
  split
  · exact (modLoad_mem ..).trans h1
  · split
    · exact h1
    · extract_lets s2
      have h2 : s2.mem = s1.mem := by
        unfold s2
        split
        · split
          · rfl
          · exact foldl_mem (fun s v => setPart_mem s ..) _ s1
        · rfl
      exact (performEnt_mem ..).trans (h2.trans h1)
  · exact h1

@[simp] theorem execLanyardResponse_keepsWf (id data poison) : KeepsWf (execLanyardResponse id data poison) := fun s hs => by
  unfold execLanyardResponse
  split
  · exact hs
  · refine nextWf_ite_next hs fun _ => ?_
    rwa [nextWf_next, lanyardDone_mem]

@[simp] theorem execLanyardTimeout_keepsWf (id) : KeepsWf (execLanyardTimeout id) := fun s hs => by
  unfold execLanyardTimeout
  split
  · exact hs
  · refine nextWf_ite_next hs fun _ => ?_
    rwa [nextWf_next, report_mem, lanyardDone_mem]

@[simp] theorem replayReq_mem (s id r) : (replayReq s id r).mem = s.mem := by
  grind [replayReq, freePick_mem, sendBy_mem, modFab_mem]

@[simp] theorem replayColl_mem (s c) : (replayColl s c).mem = s.mem := by
  grind [replayColl, freePick_mem, sendColl_mem, loseColl_mem]

@[simp] theorem execLanyardLinkFail_keepsWf (link) : KeepsWf (execLanyardLinkFail link) := by
  intro s hs
  unfold execLanyardLinkFail
  simpa using hs

@[simp] theorem execEthernetLinkChange_keepsWf (port up) : KeepsWf (execEthernetLinkChange port up) := by
  intro s hs
  unfold execEthernetLinkChange
  simpa using hs

theorem outRead_memWf (s hub mid ctx a n) (hs : memWf s.mem) : memWf (outRead s hub mid ctx a n).2.2.2.mem := by
  grind [outRead, engTouch_memWf, engNote_mem, foldl_memWf]

theorem outWrite_memWf (s hub mid ctx a bs) (hs : memWf s.mem) : memWf (outWrite s hub mid ctx a bs).2.mem := by
  grind [outWrite, engNote_mem, homeStoreBy_memWf, foldl_memWf]

@[simp] theorem answerPeer_mem (s r poison bs) : (answerPeer s r poison bs).mem = s.mem := by simp [answerPeer]

@[simp] theorem execPeerRequest_keepsWf (r) : KeepsWf (execPeerRequest r) := by
  intro s hs
  grind [execPeerRequest, NextWf, outRead_memWf, answerPeer_mem, outWrite_memWf, denyAccess_mem, unbackedAccess_mem,
    homeFill_memWf, dropLeaseGrain_mem, putGrain_memWf]

@[simp] theorem modQp_mem (s qp f) : (modQp s qp f).mem = s.mem := rfl

theorem completeReq_memWf (s qp recv idx req status bytes) (hs : memWf s.mem) :
    memWf (completeReq s qp recv idx req status bytes).mem := by
  grind [completeReq, outWrite_memWf, modQp_mem]

theorem sendWork_memWf (s qp p idx r) (hs : memWf s.mem) : memWf (sendWork s qp p idx r).mem := by
  grind [sendWork, modQp_mem, sendEth_mem, outRead_memWf, completeReq_memWf]

@[simp] theorem execRdmaRingPoll_keepsWf (qp ring) : KeepsWf (execRdmaRingPoll qp ring) := by
  intro s hs
  grind [execRdmaRingPoll, NextWf, outRead_memWf, modQp_mem, completeReq_memWf, sendWork_memWf]

@[simp] theorem execRdmaResponse_keepsWf (qp idx status data) : KeepsWf (execRdmaResponse qp idx status data) := by
  intro s hs
  grind [execRdmaResponse, NextWf, modQp_mem, completeReq_memWf, outWrite_memWf]

@[simp] theorem execRdmaInboundSend_keepsWf (qp data) : KeepsWf (execRdmaInboundSend qp data) := by
  intro s hs
  grind [execRdmaInboundSend, NextWf, modQp_mem, completeReq_memWf, outWrite_memWf]

@[simp] theorem execRdmaInbound_keepsWf (r) : KeepsWf (execRdmaInbound r) := by
  intro s hs
  grind [execRdmaInbound, NextWf, outWrite_memWf, outRead_memWf, sendEth_mem]

@[simp] theorem execRdmaRetryTimeout_keepsWf (qp idx) : KeepsWf (execRdmaRetryTimeout qp idx) := by
  intro s hs
  grind [execRdmaRetryTimeout, NextWf, modQp_mem, completeReq_memWf]

@[simp] theorem execQpnew_keepsWf (fn) : KeepsWf (execQpnew fn) := by
  intro s hs
  refine secRun_nextWf hs ?_
  dsimp only
  grind [modFab_mem, setRsp_mem]

@[simp] theorem execQpdel_keepsWf (fn) : KeepsWf (execQpdel fn) := by
  intro s hs
  refine secRun_nextWf hs ?_
  dsimp only
  grind [completeReq_memWf, modFab_mem, foldl_memWf]

@[simp] theorem writeCctl_mem (s c v) : (writeCctl s c v).mem = s.mem := by grind [writeCctl, modCtx_mem, modFab_mem]

@[simp] theorem writeCstat_mem (s c v) : (writeCstat s c v).mem = s.mem := by
  grind [writeCstat, modCtx_mem, startFence_mem, restartWatchdog_mem]

@[simp] theorem ctxWrite_mem (s c reg v) : (ctxWrite s c reg v).mem = s.mem := by
  have hput (ok : Bool) (f : Ctx → Ctx) : (if ok then modCtx s c f else s).mem = s.mem := by
    split <;> rfl
  unfold ctxWrite
  dsimp only
  split
  case h_5 => exact writeCctl_mem ..
  case h_13 => split <;> [exact startInval_mem ..; rfl]
  case h_14 => exact writeCstat_mem ..
  case h_15 => rfl
  all_goals exact hput _ _

@[simp] theorem writeQctl_mem (s q v) : (writeQctl s q v).mem = s.mem := by simp [writeQctl]

@[simp] theorem queueWrite_mem (s q reg v) : (queueWrite s q reg v).mem = s.mem := by
  unfold queueWrite
  (repeat' split) <;> simp

@[simp] theorem fmtWrite_mem (s h w reg v) : (fmtWrite s h w reg v).mem = s.mem := by simp [fmtWrite]

@[simp] theorem migWrite_mem (s ch reg v) : (migWrite s ch reg v).mem = s.mem := by
  unfold migWrite
  (repeat' split) <;> simp

@[simp] theorem evWrite_mem (s reg v) : (evWrite s reg v).mem = s.mem := by
  unfold evWrite
  dsimp only
  split
  · split <;> rfl
  all_goals rfl

@[simp] theorem regWrite_mem (s m off v) : (regWrite s m off v).mem = s.mem := by
  grind [regWrite, ctxWrite_mem, debugWrite_mem, queueWrite_mem, fmtWrite_mem, migWrite_mem, evWrite_mem, secWrite_mem]

@[simp] theorem mmioWrite_mem (s m off size v) : (mmioWrite s m off size v).mem = s.mem := by
  unfold mmioWrite
  (repeat' split) <;> simp

@[simp] theorem masterWrite_mem (s m off size v) : (masterWrite s m off size v).mem = s.mem := by
  unfold masterWrite
  (repeat' split) <;> simp

@[simp] theorem hostReply_mem (s fn bs poison) : (hostReply s fn bs poison).mem = s.mem := rfl

@[simp] theorem masterRead_mem (s m off size) : (masterRead s m off size).mem = s.mem := by
  unfold masterRead
  (repeat' split) <;> simp

@[simp] theorem execCctlWrite_keepsWf (m ctx v) : KeepsWf (execCctlWrite m ctx v) := by
  intro s hs
  unfold execCctlWrite
  split <;> simpa using hs

@[simp] theorem execKill_keepsWf (m ctx) : KeepsWf (execKill m ctx) := by
  intro s hs
  grind [execKill, NextWf, masterWrite_mem]

@[simp] theorem execWkick_keepsWf (m ctx) : KeepsWf (execWkick m ctx) := by
  intro s hs
  unfold execWkick
  split <;> simpa using hs

@[simp] theorem execCinvGo_keepsWf (m ctx) : KeepsWf (execCinvGo m ctx) := by
  intro s hs
  unfold execCinvGo
  split <;> simpa using hs

@[simp] theorem execQctlWrite_keepsWf (m q v) : KeepsWf (execQctlWrite m q v) := by
  intro s hs
  unfold execQctlWrite
  split <;> simpa using hs

@[simp] theorem execMigrationGo_keepsWf (m ch) : KeepsWf (execMigrationGo m ch) := by
  intro s hs
  unfold execMigrationGo
  split <;> simpa using hs

@[simp] theorem execMigrationClr_keepsWf (m ch) : KeepsWf (execMigrationClr m ch) := by
  intro s hs
  unfold execMigrationClr
  split <;> simpa using hs

@[simp] theorem execEvheadWrite_keepsWf (m v) : KeepsWf (execEvheadWrite m v) := by
  intro s hs
  unfold execEvheadWrite
  simpa using hs

@[simp] theorem execEvstatLostRead_keepsWf (m) : KeepsWf (execEvstatLostRead m) := by
  intro s hs
  grind [execEvstatLostRead, NextWf, masterRead_mem]

@[simp] theorem execHalt_keepsWf (m ctx) : KeepsWf (execHalt m ctx) := by
  intro s hs
  unfold execHalt
  split <;> simpa using hs

@[simp] theorem execResume_keepsWf (m ctx) : KeepsWf (execResume m ctx) := by
  intro s hs
  unfold execResume
  split <;> simpa using hs

@[simp] theorem execStep_keepsWf (m ctx) : KeepsWf (execStep m ctx) := by
  intro s hs
  unfold execStep
  split <;> simpa using hs

@[simp] theorem execWatch_keepsWf (m ctx) : KeepsWf (execWatch m ctx) := by
  intro s hs
  unfold execWatch
  split <;> simpa using hs

@[simp] theorem execIcinv_keepsWf (m ctx) : KeepsWf (execIcinv m ctx) := by
  intro s hs
  unfold execIcinv
  split <;> simpa using hs

@[simp] theorem execDpost3Write_keepsWf (m ctx v) : KeepsWf (execDpost3Write m ctx v) := by
  intro s hs
  unfold execDpost3Write
  split <;> simpa using hs

@[simp] theorem execDstatPostClear_keepsWf (m ctx) : KeepsWf (execDstatPostClear m ctx) := by
  intro s hs
  unfold execDstatPostClear
  split <;> simpa using hs

@[simp] theorem execDclaimRead_keepsWf (m ctx) : KeepsWf (execDclaimRead m ctx) := by
  intro s hs
  grind [execDclaimRead, NextWf, masterRead_mem]

@[simp] theorem execRegisterWrite_keepsWf (m off size v) : KeepsWf (execRegisterWrite m off size v) := by
  intro s hs
  unfold execRegisterWrite
  simpa using hs

theorem windowWrite_memWf (s fn q size words) (hs : memWf s.mem) : memWf (windowWrite s fn q size words).mem := by
  unfold windowWrite
  extract_lets m off bad
  have hbad (reason : Nat) : memWf (bad reason).mem := by simpa [bad] using hs
  split
  · rwa [denyAccess_mem]
  · split
    · exact hs
    · split
      · exact hbad 0
      · split
        · exact hbad 1
        · split
          · exact hbad 2
          · split
            · simpa using hs
            · exact serveQueue_memWf _ _ (enqueue_memWf _ _ _ hs)

@[simp] theorem execEnqueueWindowWrite_keepsWf (fn q size words) : KeepsWf (execEnqueueWindowWrite fn q size words) := by
  intro s hs
  grind [execEnqueueWindowWrite, NextWf, windowWrite_memWf]

theorem bar0Access_memWf (s r) (hs : memWf s.mem) : memWf (bar0Access s r).mem := by
  grind [bar0Access, windowWrite_memWf, masterWrite_mem, masterRead_mem]

@[simp] theorem configAccess_mem (s r) : (configAccess s r).mem = s.mem := by
  unfold configAccess
  split <;> simp

@[simp] theorem execHostAccess_keepsWf (r) : KeepsWf (execHostAccess r) := by
  intro s hs
  grind [execHostAccess, NextWf, configAccess_mem, bar0Access_memWf, hostReply_mem, outWrite_memWf, outRead_memWf]

@[simp] theorem execFlrVirtual_keepsWf (fn) : KeepsWf (execFlrVirtual fn) := by
  intro s hs
  grind [execFlrVirtual, NextWf, startFence_mem, foldl_memWf]

@[simp] theorem execFlrFunction0_keepsWf : KeepsWf execFlrFunction0 := by
  intro s hs
  unfold execFlrFunction0
  simpa using hs

@[simp] theorem execVirtualFunctionEnable_keepsWf (n) : KeepsWf (execVirtualFunctionEnable n) := by
  intro s hs
  unfold execVirtualFunctionEnable
  split <;> simpa using hs

@[simp] theorem servePart_mem (s r l ctx first a) : (servePart s r l ctx first a).2.mem = s.mem := by
  grind [servePart, denyAccess_mem, unbackedAccess_mem, mmioRead_mem, sendLanyard_mem, fromSlices_mem]

@[simp] theorem noteServed_mem (s r l p a v) : (noteServed s r l p a v).mem = s.mem := by
  unfold noteServed
  extract_lets die waits
  split
  · split
    next t s1 hs1 =>
    have h1 : s1.mem = s.mem := by rw [← nextId_mem s, hs1]
    extract_lets lease s2
    have h2 : s2.mem = s1.mem := setPart_mem ..
    split
    · exact (modLoad_mem ..).trans (h2.trans h1)
    · exact h2.trans h1
  · exact setPart_mem ..
  · split
    · exact modReq_mem ..
    · rfl

@[simp] theorem serveLane_mem (s r l w p) : (serveLane s r l w p).mem = s.mem := by
  grind [serveLane, servePart_mem, noteServed_mem, setPart_mem]

@[simp] theorem execL2Request_keepsWf (id) : KeepsWf (execL2Request id) := fun s hs => by
  unfold execL2Request
  split
  · exact hs
  · split
    · simpa using hs
    · split
      · simpa using hs
      · split
        · simpa using hs
        next w _ =>
          split
          · exact hs
          · extract_lets t left t2
            have ht : t.mem = s.mem := foldl_mem (fun s p => serveLane_mem s ..) _ _
            have h2 : memWf t2.mem := endVisit_memWf _ _ _ (ht ▸ hs)
            split
            · simpa using h2
            · exact h2

@[simp] theorem discardEnt_mem (s e) : (discardEnt s e).mem = s.mem := by
  grind [discardEnt, setPart_mem, performEnt_mem, foldl_mem]

@[simp] theorem mmioAtomic_mem (s m op x) : (mmioAtomic s m op x).mem = s.mem := by simp [mmioAtomic]

@[simp] theorem mmioPacket_mem (s m e) : (mmioPacket s m e).mem = s.mem := by
  unfold mmioPacket
  (repeat' split) <;> simp

@[simp] theorem steerEnt_mem (s e) : (steerEnt s e).2.mem = s.mem := by grind [steerEnt, modLoad_mem]

@[simp] theorem sendNt_mem (s e) : (sendNt s e).mem = s.mem := by
  unfold sendNt
  split <;> simp

theorem placeEnt_memWf (s e) (hs : memWf s.mem) : memWf (placeEnt s e).mem := by
  grind [placeEnt, steerEnt_mem, discardEnt_mem, denyAccess_mem, unbackedAccess_mem, mmioPacket_mem, sendLanyard_mem,
    homeWriteAt_memWf]

@[simp] theorem execHomeWrite_keepsWf (id) : KeepsWf (execHomeWrite id) := by
  intro s hs
  grind [execHomeWrite, NextWf, flushStep_memWf, sendNt_mem, placeEnt_memWf]

@[simp] theorem mergeTest_mem (s wid w) : (mergeTest s wid w).mem = s.mem := by grind [mergeTest, freePick_mem, modWarp_mem]

@[simp] theorem mergeQuad_mem (s core quad) : (mergeQuad s core quad).mem = s.mem := by simp [mergeQuad]

@[simp] theorem resign_mem (s bid) : (resign s bid).mem = s.mem := by grind [resign, modBlock_mem, modWarp_mem, foldl_mem]

@[simp] theorem grantRun_mem (s core quad wid w b) : (grantRun s core quad wid w b).mem = s.mem := by
  unfold grantRun
  split <;> simp

@[simp] theorem grantBest_mem (s core quad kind) : (grantBest s core quad kind).mem = s.mem := by
  grind [grantBest, mergeQuad_mem, grantRun_mem]

@[simp] theorem execRunGrant_keepsWf (core quad) : KeepsWf (execRunGrant core quad) := by
  intro s hs
  unfold execRunGrant
  simpa using hs

@[simp] theorem execReadyWaitGuard_keepsWf (core quad) : KeepsWf (execReadyWaitGuard core quad) := by
  intro s hs
  unfold execReadyWaitGuard
  simpa using hs

@[simp] theorem execSleepEnd_keepsWf (warp sub) : KeepsWf (execSleepEnd warp sub) := by
  intro s hs
  unfold execSleepEnd
  (repeat' split) <;> simpa using hs

@[simp] theorem countPeriods_mem (s) : (countPeriods s).mem = s.mem := by simp [countPeriods]

end Sys2Proof.Machine
end

section
/-! SUPPORT. Every instruction and every event keeps the canonical form of memory, and so does the instruction that a run issues
next, and the time that passes. -/

namespace Sys2Proof.Machine

open Sys2Proof

theorem jumpOp_nextWf {i : Instr} {sa : Nat} {s : State} (hs : memWf s.mem) : NextWf (jumpOp i sa s) := by
  refine issue_nextWf hs fun x => ?_
  have hjump : memWf (jumpPair x sa s).2.mem := by simpa using hs
  split
  · split
    next r hr =>
      rw [poisOf_mem x s r hr]
      exact hs
    · exact hjump
  · exact hjump

/-- Every instruction and every event keeps the canonical form of memory. -/
theorem exec_keepsWf (i : Instr) : KeepsWf (exec i) := by
  cases i
  case runGrant core quad => exact execRunGrant_keepsWf core quad
  case readyWaitGuard core quad => exact execReadyWaitGuard_keepsWf core quad
  case sleepEnd warp sub => exact execSleepEnd_keepsWf warp sub
  case loadReturn id => exact execLoadReturn_keepsWf id
  case coreStoreOrderSend core warp => exact execCoreStoreOrderSend_keepsWf core warp
  case homeAck id => exact execHomeAck_keepsWf id
  case scratchPortAccess id => exact execScratchPortAccess_keepsWf id
  case planeStepsStart core => exact execPlaneStepsStart_keepsWf core
  case matrixCompletion core bad => exact execMatrixCompletion_keepsWf core bad
  case mismatchWindow core => exact execMismatchWindow_keepsWf core
  case goldenTest core test => exact execGoldenTest_keepsWf core test
  case goldenTestResult core pass => exact execGoldenTestResult_keepsWf core pass
  case resourceQueueService core => exact execResourceQueueService_keepsWf core
  case resourceQueueAgeLimit core => exact execResourceQueueAgeLimit_keepsWf core
  case resourceRefusal core => exact execResourceRefusal_keepsWf core
  case warpResourceReturn warp => exact execWarpResourceReturn_keepsWf warp
  case warpArrival warp bar => exact execWarpArrival_keepsWf warp bar
  case pairedBarrierEvent block => exact execPairedBarrierEvent_keepsWf block
  case blockArrival block bar => exact execBlockArrival_keepsWf block bar
  case copyPiece id => exact execCopyPiece_keepsWf id
  case copySourceRead id => exact execCopySourceRead_keepsWf id
  case copyLineWrite id => exact execCopyLineWrite_keepsWf id
  case ringArrival id => exact execRingArrival_keepsWf id
  case copyFailure id => exact execCopyFailure_keepsWf id
  case copyReplay block entry => exact execCopyReplay_keepsWf block entry
  case channelClaim id => exact execChannelClaim_keepsWf id
  case l2Request id => exact execL2Request_keepsWf id
  case gapFillArrival id bad => exact execGapFillArrival_keepsWf id bad
  case homeWrite id => exact execHomeWrite_keepsWf id
  case leaseExpiry slice => exact execLeaseExpiry_keepsWf slice
  case spliceAbsorb id => exact execSpliceAbsorb_keepsWf id
  case spliceRecordRequest bay grain => exact execSpliceRecordRequest_keepsWf bay grain
  case spliceConfirm bay grain => exact execSpliceConfirm_keepsWf bay grain
  case spliceRecall bay grain => exact execSpliceRecall_keepsWf bay grain
  case splicePartialCombine id => exact execSplicePartialCombine_keepsWf id
  case knotRequest id => exact execKnotRequest_keepsWf id
  case ktakeResend id => exact execKtakeResend_keepsWf id
  case streamRelease id => exact execStreamRelease_keepsWf id
  case translationWalk core ctx va => exact execTranslationWalk_keepsWf core ctx va
  case enqueueWindowWrite fn q size words => exact execEnqueueWindowWrite_keepsWf fn q size words
  case qctlWrite m q v => exact execQctlWrite_keepsWf m q v
  case klaunch q => exact execKlaunch_keepsWf q
  case waiton q => exact execWaiton_keepsWf q
  case signal q => exact execSignal_keepsWf q
  case work q => exact execWork_keepsWf q
  case waitonSatisfied q idx => exact execWaitonSatisfied_keepsWf q idx
  case klaunchComplete q idx => exact execKlaunchComplete_keepsWf q idx
  case signalComplete q idx => exact execSignalComplete_keepsWf q idx
  case placementPass die => exact execPlacementPass_keepsWf die
  case placementAgeLimit die => exact execPlacementAgeLimit_keepsWf die
  case blockPlace die => exact execBlockPlace_keepsWf die
  case blockStart block => exact execBlockStart_keepsWf block
  case seamHalfForward die => exact execSeamHalfForward_keepsWf die
  case preemptSave cluster => exact execPreemptSave_keepsWf cluster
  case saveComplete cluster => exact execSaveComplete_keepsWf cluster
  case restore cluster => exact execRestore_keepsWf cluster
  case cctlWrite m ctx v => exact execCctlWrite_keepsWf m ctx v
  case kill m ctx => exact execKill_keepsWf m ctx
  case wkick m ctx => exact execWkick_keepsWf m ctx
  case watchdogPeriod => exact execWatchdogPeriod_keepsWf
  case fenceComplete ctx => exact execFenceComplete_keepsWf ctx
  case cinvGo m ctx => exact execCinvGo_keepsWf m ctx
  case invalidationComplete ctx => exact execInvalidationComplete_keepsWf ctx
  case migrationGo m ch => exact execMigrationGo_keepsWf m ch
  case migrationClr m ch => exact execMigrationClr_keepsWf m ch
  case migrationGrain ch => exact execMigrationGrain_keepsWf ch
  case migrationDone ch => exact execMigrationDone_keepsWf ch
  case hostAccess r => exact execHostAccess_keepsWf r
  case flrVirtual fn => exact execFlrVirtual_keepsWf fn
  case flrFunction0 => exact execFlrFunction0_keepsWf
  case msixMessage fn => exact execMsixMessage_keepsWf fn
  case peerRequest r => exact execPeerRequest_keepsWf r
  case lanyardTimeout id => exact execLanyardTimeout_keepsWf id
  case lanyardResponse id data poison => exact execLanyardResponse_keepsWf id data poison
  case lanyardLinkFail link => exact execLanyardLinkFail_keepsWf link
  case expanderFence x => exact execExpanderFence_keepsWf x
  case hbmStackLoss stack => exact execHbmStackLoss_keepsWf stack
  case collContribution c => exact execCollContribution_keepsWf c
  case collResult id => exact execCollResult_keepsWf id
  case rdmaRingPoll qp ring => exact execRdmaRingPoll_keepsWf qp ring
  case rdmaInbound r => exact execRdmaInbound_keepsWf r
  case correctedError u code n => exact execCorrectedError_keepsWf u code n
  case correctedErrorReport u code => exact execCorrectedErrorReport_keepsWf u code
  case uncorrectedError site => exact execUncorrectedError_keepsWf site
  case eventStoreRetry die => exact execEventStoreRetry_keepsWf die
  case evheadWrite m v => exact execEvheadWrite_keepsWf m v
  case evstatLostRead m => exact execEvstatLostRead_keepsWf m
  case fatalError cause => exact execFatalError_keepsWf cause
  case dumpComplete status => exact execDumpComplete_keepsWf status
  case overTemperature temp => exact execOverTemperature_keepsWf temp
  case reelChunk hub => exact execReelChunk_keepsWf hub
  case reelComplete => exact execReelComplete_keepsWf
  case reelEnqueueRetry => exact execReelEnqueueRetry_keepsWf
  case halt m ctx => exact execHalt_keepsWf m ctx
  case haltComplete ctx => exact execHaltComplete_keepsWf ctx
  case resume m ctx => exact execResume_keepsWf m ctx
  case step m ctx => exact execStep_keepsWf m ctx
  case watch m ctx => exact execWatch_keepsWf m ctx
  case icinv m ctx => exact execIcinv_keepsWf m ctx
  case icinvComplete ctx => exact execIcinvComplete_keepsWf ctx
  case dpost3Write m ctx v => exact execDpost3Write_keepsWf m ctx v
  case dstatPostClear m ctx => exact execDstatPostClear_keepsWf m ctx
  case dclaimRead m ctx => exact execDclaimRead_keepsWf m ctx
  case atab fn => exact execAtab_keepsWf fn
  case ctxasn fn => exact execCtxasn_keepsWf fn
  case cgreg fn => exact execCgreg_keepsWf fn
  case cgdel fn => exact execCgdel_keepsWf fn
  case reel fn => exact execReel_keepsWf fn
  case qpnew fn => exact execQpnew_keepsWf fn
  case qpdel fn => exact execQpdel_keepsWf fn
  case domain fn => exact execDomain_keepsWf fn
  case attest fn => exact execAttest_keepsWf fn
  case gvcnt fn => exact execGvcnt_keepsWf fn
  case fwupd fn => exact execFwupd_keepsWf fn
  case lcset fn => exact execLcset_keepsWf fn
  case cap fn => exact execCap_keepsWf fn
  case deviceReset source => exact execDeviceReset_keepsWf source
  case powerStepSelect pwr temp => exact execPowerStepSelect_keepsWf pwr temp
  case clockStepChange => exact execClockStepChange_keepsWf
  case registerWrite m off size v => exact execRegisterWrite_keepsWf m off size v
  case mainPowerLoss => exact execMainPowerLoss_keepsWf
  case ethernetLinkChange port up => exact execEthernetLinkChange_keepsWf port up
  case virtualFunctionEnable n => exact execVirtualFunctionEnable_keepsWf n
  case rdmaResponse qp idx status data => exact execRdmaResponse_keepsWf qp idx status data
  case rdmaInboundSend qp data => exact execRdmaInboundSend_keepsWf qp data
  case rdmaRetryTimeout qp idx => exact execRdmaRetryTimeout_keepsWf qp idx
  case pairedAccCommandArrival block => exact execPairedAccCommandArrival_keepsWf block
  case lds => exact execLds_keepsWf _
  case sts => exact execSts_keepsWf _
  case slds => exact execSlds_keepsWf _
  case ssts => exact execSsts_keepsWf _
  case atoms => exact execAtoms_keepsWf _
  case ldg => exact execLdg_keepsWf _
  case sldg => exact execSldg_keepsWf _
  case stg => exact execStg_keepsWf _
  case sstg => exact execSstg_keepsWf _
  case stnt => exact execStnt_keepsWf _
  case atomg => exact execAtomg_keepsWf _
  case satomg => exact execSatomg_keepsWf _
  case redg => exact execRedg_keepsWf _
  case prefg => exact execPrefg_keepsWf _
  case pref => exact execPref_keepsWf _
  case fence => exact execFence_keepsWf _
  case drainnt => exact execDrainnt_keepsWf _
  case flush => exact execFlush_keepsWf _
  case rinit => exact execRinit_keepsWf _
  case rwaitFull => exact execRwaitFull_keepsWf _
  case rwaitFree => exact execRwaitFree_keepsWf _
  case rrel => exact execRrel_keepsWf _
  case rarr => exact execRarr_keepsWf _
  case bara => exact execBara_keepsWf _
  case barw => exact execBarw_keepsWf _
  case bars => exact execBars_keepsWf _
  case cbara => exact execCbara_keepsWf _
  case cbarw => exact execCbarw_keepsWf _
  case gridbar => exact execGridbar_keepsWf _
  case kinitReg => exact execKinitReg_keepsWf _
  case kinitFree => exact execKinitFree_keepsWf _
  case ktake => exact execKtake_keepsWf _
  case kgive => exact execKgive_keepsWf _
  case cpyG2s => exact execCpyG2s_keepsWf _
  case cpyS2g => exact execCpyS2g_keepsWf _
  case cpgth => exact execCpgth_keepsWf _
  case cpsct => exact execCpsct_keepsWf _
  case cpxf => exact execCpxf_keepsWf _
  case cpyS2s => exact execCpyS2s_keepsWf _
  case tdchk => exact execTdchk_keepsWf _
  case chsend => exact execChsend_keepsWf _
  case chrecvTake => exact execChrecvTake_keepsWf _
  case chrecvDone => exact execChrecvDone_keepsWf _
  case deq => exact execDeq_keepsWf _
  case enq => exact execEnq_keepsWf _
  case launch => exact execLaunch_keepsWf _
  case hset => exact execHset_keepsWf _
  case mma => exact execMma_keepsWf _
  case accz => exact execAccz_keepsWf _
  case accrel => exact execAccrel_keepsWf _
  case accrd => exact execAccrd_keepsWf _
  case accwr => exact execAccwr_keepsWf _
  case mchkrd => exact execMchkrd_keepsWf _
  case bra => exact execBra_keepsWf _
  case brc => exact execBrc_keepsWf _
  case call => exact execCall_keepsWf _
  case brp => exact execBrp_keepsWf _
  case exit => exact execExit_keepsWf _
  case join => exact execJoin_keepsWf _
  case leave => exact execLeave_keepsWf _
  case wait => exact execWait_keepsWf _
  case mops => exact execMops_keepsWf _
  case brk => exact execBrk_keepsWf _
  case trap => exact execTrap_keepsWf _
  case eret => exact execEret_keepsWf _
  case yield => exact execYield_keepsWf _
  case sleepc => exact execSleepc_keepsWf _
  case waitc => exact execWaitc_keepsWf _
  case attach => exact execAttach_keepsWf _
  case detach => exact execDetach_keepsWf _
  case reggrow => exact execReggrow_keepsWf _
  case regshrink => exact execRegshrink_keepsWf _
  case srd => exact execSrd_keepsWf _
  case swr => exact execSwr_keepsWf _
  case tdef => exact execTdef_keepsWf _
  case trd => exact execTrd_keepsWf _
  case twr => exact execTwr_keepsWf _
  case coll => exact execColl_keepsWf _
  case ret | jmpi => exact fun _ hs => jumpOp_nextWf hs
  all_goals exact fun _ hs => issueWarp_nextWf hs

theorem issueNext_keepsWf (core quad : Nat) : KeepsWf fun s => issueNext s core quad := fun s hs => by
  dsimp only
  unfold issueNext
  split
  · exact hs
  · split
    · exact hs
    next r _ w b hr =>
      have hfetch := fetchInstr_memWf s core (ctxOfWarp s w) b.pc b.lanes hs
      split
      next t u hu =>
        rw [hu] at hfetch
        rwa [nextWf_next, trapAtIssue_mem]
      next i u hu =>
        rw [hu] at hfetch
        exact exec_keepsWf i _ hfetch

theorem executeDue_memWf (s wid w p) (hs : memWf s.mem) : memWf (executeDue s wid w p).mem := by
  unfold executeDue
  extract_lets alone back
  have hfetch := fetchInstr_memWf (modWarp s wid fun _ => alone) w.core (ctxOfWarp s w) p.pc p.lanes hs
  split
  next t s1 h1 =>
    rw [h1] at hfetch
    simpa [back] using hfetch
  next i s1 h1 =>
    rw [h1] at hfetch
    have hexec := exec_keepsWf i { s1 with focus := some ⟨wid, w.nextId⟩ } hfetch
    split
    next t ht =>
      rw [ht] at hexec
      exact hexec
    · exact hs

theorem settleParked_memWf (wid s p) (hs : memWf s.mem) : memWf (settleParked wid s p).mem := by
  unfold settleParked
  split
  · exact hs
  · split
    · exact hs
    · split
      · exact executeDue_memWf _ _ _ _ hs
      · exact hs

theorem settleDue_memWf (s) (hs : memWf s.mem) : memWf (settleDue s).mem :=
  foldl_memWf (fun _ e hu => foldl_memWf (fun u p hu => settleParked_memWf e.1 u p hu) _ hu) _ hs

theorem passTime_memWf (n s) (hs : memWf s.mem) : memWf (passTime n s).mem := by
  rw [passTime, countPeriods_mem, advanceClock_mem]
  exact settleDue_memWf s hs

end Sys2Proof.Machine
end

section
/-! SUPPORT. The moves that can come of themselves keep the canonical form of memory. -/

namespace Sys2Proof.Machine

open Sys2Proof

/-- A list of moves each of which keeps the canonical form of memory. -/
def AllKeepWf (l : List Act) : Prop := ∀ a ∈ l, KeepsWf a

@[simp] theorem allKeepWf_nil : AllKeepWf [] := fun _ h => absurd h List.not_mem_nil

@[simp] theorem allKeepWf_cons {a : Act} {l : List Act} : AllKeepWf (a :: l) ↔ KeepsWf a ∧ AllKeepWf l := List.forall_mem_cons

@[simp] theorem allKeepWf_append {l m : List Act} : AllKeepWf (l ++ m) ↔ AllKeepWf l ∧ AllKeepWf m := List.forall_mem_append

@[simp] theorem allKeepWf_map {α : Type} {f : α → Act} {l : List α} : AllKeepWf (l.map f) ↔ ∀ e ∈ l, KeepsWf (f e) :=
  List.forall_mem_map

@[simp] theorem allKeepWf_flatMap {α : Type} {f : α → List Act} {l : List α} :
    AllKeepWf (l.flatMap f) ↔ ∀ e ∈ l, AllKeepWf (f e) := List.forall_mem_flatMap

@[simp] theorem allKeepWf_ite {c : Prop} [Decidable c] {l m : List Act} (hl : AllKeepWf l) (hm : AllKeepWf m) :
    AllKeepWf (if c then l else m) := by
  split
  · exact hl
  · exact hm

@[simp] theorem allKeepWf_perId {α : Type} {t : Tbl α} {f : Nat → Act} :
    AllKeepWf (perId t f) ↔ ∀ e ∈ t, KeepsWf (f e.1) := allKeepWf_map

theorem warpEvents_keepWf (e : Nat × Warp) : AllKeepWf (warpEvents e) := by simp [warpEvents]

theorem blockEvents_keepWf (e : Nat × Block) : AllKeepWf (blockEvents e) := by simp [blockEvents]

theorem coreEvents_keepWf (c : Core) (k : Nat) : AllKeepWf (coreEvents c k) := by simp [coreEvents]

theorem bayEvents_keepWf (b : Bay) (k : Nat) : AllKeepWf (bayEvents b k) := by simp [bayEvents]

theorem sliceEvents_keepWf (clock : Nat) (y : Slice) (k : Nat) : AllKeepWf (sliceEvents clock y k) := by simp [sliceEvents]

theorem netEvents_keepWf (n : Net) : AllKeepWf (netEvents n) := by simp [netEvents]

theorem queueEvents_keepWf (q : Queue) (k : Nat) : AllKeepWf (queueEvents q k) := by simp [queueEvents]

theorem dieEvents_keepWf (d : Die) (k : Nat) : AllKeepWf (dieEvents d k) := by simp [dieEvents]

theorem ctxEvents_keepWf (x : Ctx) (k : Nat) : AllKeepWf (ctxEvents x k) := by simp [ctxEvents]

theorem secEvents_keepWf (q : List (Nat × Nat)) : AllKeepWf (secEvents q) := by
  unfold secEvents
  split
  · exact allKeepWf_nil
  · split <;> simp

theorem ownContribution_keepWf (s : State) (c : CopyCmd) : AllKeepWf (ownContribution s c) := by
  unfold ownContribution
  split
  · split <;> simp
  · exact allKeepWf_nil

theorem packageEvents_keepWf (s : State) : AllKeepWf (packageEvents s) := by
  simp [packageEvents, ownContribution_keepWf, secEvents_keepWf]

theorem pending_keepWf (s : State) : AllKeepWf (pending s) := by
  simp [pending, warpEvents_keepWf, blockEvents_keepWf, netEvents_keepWf, bayEvents_keepWf, sliceEvents_keepWf,
    coreEvents_keepWf, queueEvents_keepWf, dieEvents_keepWf, ctxEvents_keepWf, packageEvents_keepWf]

theorem moves_keepWf (s : State) : AllKeepWf (moves s) := by
  intro a ha
  rw [moves, List.mem_rotate] at ha
  exact allKeepWf_append.mpr ⟨allKeepWf_map.mpr fun q _ => issueNext_keepsWf q.1 q.2, pending_keepWf s⟩ a ha

theorem firstMove_nextWf {s : State} (hs : memWf s.mem) {l : List Act} (h : AllKeepWf l) : NextWf (firstMove s l) := by
  induction l with
  | nil => exact hs
  | cons a l ih =>
    obtain ⟨ha, hl⟩ := allKeepWf_cons.mp h
    have hnext := ha s hs
    unfold firstMove
    split
    next t ht =>
      rw [ht] at hnext
      split
      · exact ih hl
      · exact hnext
    · exact hnext

theorem doMove_keepsWf (m : Move) : KeepsWf fun s => doMove s m := by
  cases m with
  | event i => exact exec_keepsWf i
  | issue core quad => exact issueNext_keepsWf core quad

theorem step_keepsWf : KeepsWf step := fun s hs => by
  unfold step
  split
  · exact doMove_keepsWf _ _ (passTime_memWf _ _ hs)
  · have hpass := passTime_memWf 1 { s with focus := none } hs
    exact firstMove_nextWf hpass (moves_keepWf _)

end Sys2Proof.Machine
end

section
/-! PROOF. Every step keeps the canonical form of memory (O9). -/

namespace Sys2Proof.Machine

open Sys2Proof

/-- Settles O9: memory is written by the controller alone, which stores bytes, and a reset clears it; every move keeps its
canonical form, and so does the time that passes before it. -/
theorem memoryCanonicalKept : Obligations.MemoryCanonicalKept := by
  intro s t hs ht
  have hnext := step_keepsWf s hs
  rw [ht] at hnext
  exact hnext

end Sys2Proof.Machine
end

section
/-! SUPPORT. The clock and the count of watchdog periods (R389): a fence, and a period that ends, leave the clock. -/

namespace Sys2Proof.Machine

open Sys2Proof

@[simp] theorem startFence_clock (s c f) : (startFence s c f).clock = s.clock := by
  have hdrop (l : List Nat) : (l.foldl dropParked s).clock = s.clock :=
    List.foldlRecOn (motive := fun t : State => t.clock = s.clock) l _ rfl fun t ht k _ => ht
  unfold startFence
  dsimp only
  split
  · rfl
  · exact hdrop _

@[simp] theorem watchCtx_clock (at' s c) : (watchCtx at' s c).clock = s.clock := by
  unfold watchCtx
  extract_lets x n hit s1
  split
  · exact startFence_clock s1 c (setBit 1)
  · rfl

theorem periodStep_clock (s : State) : (periodStep s).clock = s.clock := by
  unfold periodStep
  generalize List.range 64 = l
  exact List.foldlRecOn (motive := fun t : State => t.clock = s.clock) l _ rfl fun t ht c _ => (watchCtx_clock _ t c).trans ht

theorem periodStep_watched (s : State) : (periodStep s).watched = s.watched + 1 := by rw [periodStep]

/-- Ended periods leave the clock, and each is counted once. -/
theorem foldl_periodStep (l : List Nat) (s : State) :
    (l.foldl (fun s _ => periodStep s) s).clock = s.clock ∧ (l.foldl (fun s _ => periodStep s) s).watched = s.watched + l.length := by
  induction l generalizing s with
  | nil => exact ⟨rfl, rfl⟩
  | cons a l ih =>
    obtain ⟨hclock, hwatched⟩ := ih (periodStep s)
    rw [List.foldl_cons, hclock, hwatched, periodStep_clock, periodStep_watched, List.length_cons]
    exact ⟨rfl, by omega⟩

/-- The periods that are over are all counted, none twice, where none has been counted before its end. -/
theorem countPeriods_clock_watched {s : State} (h : s.watched ≤ s.clock / 65536) :
    (countPeriods s).clock = s.clock ∧ (countPeriods s).watched = s.clock / 65536 := by
  obtain ⟨hclock, hwatched⟩ := foldl_periodStep (List.range (s.clock / 65536 - s.watched)) s
  refine ⟨hclock, hwatched.trans ?_⟩
  rw [List.length_range]
  omega

/-- The first move of a list that changes the state is one of the list, and without one nothing changes. -/
theorem firstMove_next_or_exists (s : State) (l : List Act) : firstMove s l = .next s ∨ ∃ m ∈ l, firstMove s l = m s := by
  induction l with
  | nil => exact .inl rfl
  | cons m l ih =>
    have hrest : firstMove s l = .next s ∨ ∃ k ∈ m :: l, firstMove s l = k s :=
      ih.imp_right fun ⟨k, hk, h⟩ => ⟨k, List.mem_cons_of_mem _ hk, h⟩
    have hfirst : ∃ k ∈ m :: l, m s = k s := ⟨m, List.mem_cons_self, rfl⟩
    unfold firstMove
    split
    next t ht =>
      split
      · exact hrest
      · exact .inr (ht ▸ hfirst)
    · exact .inr hfirst

end Sys2Proof.Machine
end

section
/-! PROOF. A step runs the event that heads the agenda, or one of the moves, or only a clock passes (O7). -/

namespace Sys2Proof.Machine

open Sys2Proof

/-- Settles O7, by the branches of `step` and the first move that changes the state; every period that ends adds one to those
that have been counted. -/
theorem stepRunsEvents : Obligations.StepRunsEvents := by
  refine ⟨fun s n i ts h => ?_, fun s h => ?_, fun s n h => ?_⟩
  · rw [step, h]
    rfl
  · rw [step, h]
    exact firstMove_next_or_exists _ _
  · exact countPeriods_clock_watched (s := advanceClock n (settleDue s)) h

end Sys2Proof.Machine
end

section
/-! SUPPORT. What a fence leaves in the CSTAT of its context (R387, R390). -/

namespace Sys2Proof.Machine

open Sys2Proof

variable {s : State} {c code n : Nat}

/-- A fence sets the cause in CSTAT, and a context that was not fenced is being fenced (R390). -/
theorem ctxOf_startFence_same (hc : c < s.ctxs.length) (f : Word → Word) :
    (ctxOf (startFence s c f) c).cstat = f (ctxOf s c).cstat ∧
      ((ctxOf s c).cstat.getLsbD 0 = false → (ctxOf (startFence s c f) c).fencing = true) := by
  have hdrop (l : List Nat) : (l.foldl dropParked s).ctxs = s.ctxs :=
    List.foldlRecOn (motive := fun t : State => t.ctxs = s.ctxs) l _ rfl fun t ht k _ => ht
  unfold startFence
  dsimp only
  split
  next h =>
    have hsame := getD_lmod_same hc (fun x => { x with cstat := f x.cstat }) resetCtx
    refine ⟨congrArg Ctx.cstat hsame, fun hopen => (congrArg Ctx.fencing hsame).trans ?_⟩
    rw [bit, show (ctxOf s c).cstat.toNat.testBit 0 = false from hopen, Bool.false_or] at h
    exact h
  next =>
    have hsame := getD_lmod_same (l := ((warpIdsOfCtx s c).foldl dropParked s).ctxs) (by rwa [hdrop])
      (fun x => { x with cstat := f x.cstat, fencing := true }) resetCtx
    refine ⟨(congrArg Ctx.cstat hsame).trans ?_, fun _ => congrArg Ctx.fencing hsame⟩
    rw [hdrop]
    rfl

/-- The cause's own bit of CSTAT (R387). -/
theorem setDcause_cause (hn : n < 32) (w : Word) : (setDcause code n w).getLsbD n = true := by
  simp only [setDcause, BitVec.getLsbD_or, BitVec.getLsbD_ofNat, hn, Nat.testBit_two_pow_self, decide_true, Bool.and_self,
    Bool.or_true]

/-- DCAUSE holds the code (R387). -/
theorem setDcause_dcause (hn : n < 8) (w : Word) : (setDcause code n w).extractLsb' 8 8 = BitVec.ofNat 8 code := by
  refine BitVec.eq_of_getLsbD_eq fun i hi => ?_
  have hmask : (0xFFFF00FF : Word).getLsbD (8 + i) = false := by decide +revert
  have hcode : (256 * (code % 256)).testBit (8 + i) = code.testBit i := by
    rw [show 256 = 2 ^ 8 from rfl, Nat.testBit_two_pow_mul, Nat.testBit_mod_two_pow]
    simp [hi]
  have hcause : (2 ^ n).testBit (8 + i) = false := Nat.testBit_two_pow_of_ne (by omega)
  simp only [setDcause, BitVec.getLsbD_extractLsb', BitVec.getLsbD_or, BitVec.getLsbD_and, BitVec.getLsbD_ofNat, hmask, hcode, hcause,
    hi, show 8 + i < 32 by omega, decide_true, Bool.and_false, Bool.false_or, Bool.or_false, Bool.true_and]

end Sys2Proof.Machine
end

section
/-! PROOF. Traps that fence the context (O53). -/

namespace Sys2Proof.Machine

open Sys2Proof

variable {s : State} {wid grant : Nat} {w : Warp} {pc : VAddr} {t : Trap}

/-- A cause in trap mode (R399). -/
theorem takeTrap_double (hw : tget s.warps wid = some w) (htrap : w.trapMode = true) :
    takeTrap s wid pc grant t = startFence s (ctxOfWarp s w) (setDcause t.code 2) := by
  simp [takeTrap, hw, htrap]

/-- A cause in a context without a handler (R398). -/
theorem takeTrap_noHandler (hw : tget s.warps wid = some w) (htrap : w.trapMode = false)
    (hhandler : bit (ctxOf s (ctxOfWarp s w)).tveclo.toNat 0 = false) :
    takeTrap s wid pc grant t =
      startFence (modWarp s wid (fun w => writeTrapRegs w pc t)) (ctxOfWarp s w) (setDcause t.code 5) := by
  have hsame : ctxOf (modWarp s wid (fun w => writeTrapRegs w pc t)) (ctxOfWarp s w) = ctxOf s (ctxOfWarp s w) := rfl
  simp [takeTrap, hw, htrap, hsame, hhandler]

/-- A fence with a cause (R390): the cause's bit, and its code in DCAUSE. -/
theorem startFence_setDcause {c code n : Nat} (hc : c < s.ctxs.length) (hopen : (ctxOf s c).cstat.getLsbD 0 = false) (hn : n < 8) :
    let u := startFence s c (setDcause code n)
    (ctxOf u c).fencing = true ∧ (ctxOf u c).cstat.getLsbD n = true ∧
      (ctxOf u c).cstat.extractLsb' 8 8 = BitVec.ofNat 8 code := by
  obtain ⟨hcstat, hfencing⟩ := ctxOf_startFence_same hc (setDcause code n)
  refine ⟨hfencing hopen, ?_, ?_⟩
  · rw [hcstat, setDcause_cause (by omega)]
  · rw [hcstat, setDcause_dcause hn]

/-- What a trap leaves of its warp is read in the warp as the trap leaves it (R398, R399). -/
theorem map_takeTrap {α : Type} (hw : tget s.warps wid = some w) (g : Warp → α) :
    (tget (takeTrap s wid pc grant t).warps wid).map (fun v => g (placeless v)) =
      some (g (placeless (if w.trapMode then w else writeTrapRegs w pc t))) := by
  obtain ⟨v, hv, hplaceless⟩ := hasPlaceless_takeTrap (pc := pc) (grant := grant) (t := t) hw
  rw [hv, Option.map_some, hplaceless]

/-- Settles O53: a fence sets the cause's bit and DCAUSE, and a double trap writes no trap register. -/
theorem trapsThatFence : Obligations.TrapsThatFence := by
  intro s wid w pc grant t hw _ c hc hopen
  refine ⟨fun htrap => ?double, fun htrap hhandler => ?noHandler⟩
  case double =>
    have hregs := map_takeTrap (pc := pc) (grant := grant) (t := t) hw fun v => (v.epc, v.ecause, v.emask, v.eaddr, v.etval)
    rw [if_pos htrap] at hregs
    rw [takeTrap_double hw htrap] at hregs ⊢
    obtain ⟨hfencing, hcause, hdcause⟩ := startFence_setDcause (code := t.code) hc hopen (n := 2) (by decide)
    exact ⟨hfencing, hcause, hdcause, hregs⟩
  case noHandler =>
    have hregs := map_takeTrap (pc := pc) (grant := grant) (t := t) hw fun v => (v.epc, v.emask)
    rw [if_neg (by simp [htrap])] at hregs
    rw [takeTrap_noHandler hw htrap hhandler] at hregs ⊢
    obtain ⟨hfencing, hcause, hdcause⟩ := startFence_setDcause (s := modWarp s wid fun w => writeTrapRegs w pc t) (code := t.code)
      hc hopen (n := 5) (by decide)
    exact ⟨hfencing, hcause, hdcause, hregs⟩

end Sys2Proof.Machine
end

section
/-! PROOF. Obligation O49: the security commands that are permitted end with STATUS 0 and their effect. -/

namespace Sys2Proof.Machine
open Sys2Proof

/-- A permitted command that heads the queue runs, and ends with the STATUS that it gives (R460). -/
theorem secRun_of_mayRun {s : State} {fn op : Nat} (h : MayRun s fn op) {go : State → Nat × State} {st : Nat} {t : State}
    (hgo : go s = (st, t)) : secRun s fn op go = .next (ended t fn st) := by
  obtain ⟨hhead, hok⟩ := h
  simp [secRun, hhead, hok, hgo, ended]

theorem execAtab_permitted {fn : Nat} {e : List Byte} {s : State} (h : MayRun s fn 0x01)
    (hbits : onlyBits (sarg s fn 0) 0xFFF = true) (hal : sargAddr s fn 1 % 256 = 0)
    (hread : secBytes s (sargAddr s fn 1) 256 = some e) (hok : atabOk (sarg s fn 0) e = true) :
    execAtab fn s = .next (ended (modSec s (fun x => { x with atab := tputD x.atab (sarg s fn 0) e (List.replicate 256 0) })) fn 0) :=
  secRun_of_mayRun h (by
    simp only [hbits, hal, hread, hok, Bool.not_true, bne_self_eq_false, Bool.or_self, Bool.false_eq_true, if_false, if_true])

theorem execCtxasn_permitted {fn : Nat} {s : State} (h : MayRun s fn 0x02) (hbits : onlyBits (sarg s fn 0) 0x1F3F = true)
    (hfree : (ctxOf s (sarg s fn 0 % 64)).fn = (if fn = 0 then bits (sarg s fn 0) 8 5 else fn) ∨
      bit (ctxOf s (sarg s fn 0 % 64)).cctl.toNat 0 = false) :
    execCtxasn fn s = .next (ended (modCtx s (sarg s fn 0 % 64)
      (fun x => { x with fn := if fn = 0 then bits (sarg s fn 0) 8 5 else fn })) fn 0) := by
  have hno : ¬ ((ctxOf s (sarg s fn 0 % 64)).fn ≠ (if fn = 0 then bits (sarg s fn 0) 8 5 else fn) ∧
      bit (ctxOf s (sarg s fn 0 % 64)).cctl.toNat 0 = true) := by
    rintro ⟨hne, hrun⟩
    rcases hfree with hsame | hidle
    · exact hne hsame
    · rw [hidle] at hrun
      exact Bool.noConfusion hrun
  exact secRun_of_mayRun h (by simp only [hbits, Bool.not_true, Bool.false_eq_true, if_false, if_neg hno])

theorem execCgreg_permitted {fn : Nat} {hd bs : List Byte} {s : State} (h : MayRun s fn 0x03)
    (hbits : onlyBits (sarg s fn 0) 0xFF3F = true) (hfn : (ctxOf s (sarg s fn 0 % 64)).fn = fn) (hal : sargAddr s fn 1 % 16 = 0)
    (hhead : secBytes s (sargAddr s fn 1) 16 = some hd)
    (hread : secBytes s (sargAddr s fn 1) (16 + 2 * recField hd 0 2) = some bs)
    (hok : groupOk s bs (parseGroup (sarg s fn 0 % 64) (bits (sarg s fn 0) 8 8) bs) = true) :
    execCgreg fn s = .next (ended (settleGroups (modFab s (fun f => { f with
      groupWait := f.groupWait ++ [(parseGroup (sarg s fn 0 % 64) (bits (sarg s fn 0) 8 8) bs, true)] }))) fn 0) :=
  secRun_of_mayRun h (by simp [hbits, hfn, hal, hhead, hread, hok])

theorem execCgdel_permitted {fn : Nat} {x : CollGroup} {s : State} (h : MayRun s fn 0x04)
    (hbits : onlyBits (sarg s fn 0) 0xFF3F = true) (hfn : (ctxOf (settleGroups s) (sarg s fn 0 % 64)).fn = fn)
    (hfind : findGroup (settleGroups s) (sarg s fn 0 % 64) (bits (sarg s fn 0) 8 8) = some x) :
    execCgdel fn s = .next (ended (settleGroups (modFab (settleGroups s) (fun f => { f with
      groupWait := f.groupWait ++ [(x, false)] }))) fn 0) :=
  secRun_of_mayRun h (by simp [hbits, hfn, hfind])

theorem execReel_permitted {fn : Nat} {hd bs : List Byte} {s : State} (h : MayRun s fn 0x05)
    (hhead : secBytes s (sargAddr s fn 0) 16 = some hd) (hn : recField hd 6 2 ≤ 256)
    (hread : secBytes s (sargAddr s fn 0) (16 + 24 * recField hd 6 2) = some bs) (hal : sargAddr s fn 0 % 64 = 0)
    (hok : jobOk s hd (jobRanges bs (recField hd 6 2)) = true) :
    execReel fn s = .next (ended (setRsp (startJob s (newJob hd (jobRanges bs (recField hd 6 2)))) fn 0 0) fn 0) :=
  secRun_of_mayRun h (by simp [hhead, hn, hread, hal, hok])

theorem execQpdel_permitted {fn : Nat} {p : QPair} {s : State} (h : MayRun s fn 0x07)
    (hqp : tget s.fabric.qps (sarg s fn 0) = some p) (hfn : p.fn = fn) :
    execQpdel fn s = .next (ended (modFab (p.recvs.foldl (fun t e => completeReq t (sarg s fn 0) true e.1 e.2 4 0)
      (p.pending.foldl (fun t e => completeReq t (sarg s fn 0) false e.1 e.2 4 0) s))
      (fun f => { f with qps := terase f.qps (sarg s fn 0) })) fn 0) :=
  secRun_of_mayRun h (by simp [hqp, hfn])

theorem execDomain_permitted {fn : Nat} {bs : List Byte} {s : State} (h : MayRun s fn 0x08)
    (hbits : onlyBits (sarg s fn 0) 0x3FF = true) (hn : sarg s fn 0 < 576) (hopen : s.fabric.domainClosed = false)
    (hread : secBytes s (sargAddr s fn 1) 72 = some bs) :
    execDomain fn s = .next (ended (modFab s (fun f => { f with
      pkgn := sarg s fn 0, pkgv := true, domainClosed := true, present := bs })) fn 0) :=
  secRun_of_mayRun h (by simp [hbits, hn, hopen, hread])

theorem execAttest_permitted {fn : Nat} {nonce : List Byte} {s : State} (h : MayRun s fn 0x09)
    (hread : secBytes s (sargAddr s fn 0) 32 = some nonce) (hback : secBacked s (sargAddr s fn 2) 192 = true) :
    execAttest fn s = .next (ended { secPut s (sargAddr s fn 2)
      (attestBytes s.sec nonce ++ toBytes 64 (Config.freeNat s.free)) with free := s.free + 1 } fn 0) :=
  secRun_of_mayRun h (by simp only [hread, hback])

theorem execGvcnt_permitted {fn : Nat} {s : State} (h : MayRun s fn 0x0A) (hcore : sarg s fn 0 < 192) :
    execGvcnt fn s = .next (ended (setRsp (setRsp s fn 0 (coreOf s (sarg s fn 0)).goldenPass) fn 1
      (coreOf s (sarg s fn 0)).goldenFail) fn 0) :=
  secRun_of_mayRun h (if_neg (by omega))

theorem execCap_permitted {fn : Nat} {s : State} (h : MayRun s fn 0x0D) (hlow : 1800 ≤ sarg s fn 0) (hhigh : sarg s fn 0 ≤ 3600) :
    execCap fn s = .next (ended { s with power := { s.power with capw := sarg s fn 0 } } fn 0) :=
  secRun_of_mayRun h (if_neg (by omega))

theorem execLcset_permitted {fn : Nat} {sig key owner : List Byte} {s : State} (h : MayRun s fn 0x0C)
    (hbits : onlyBits (sarg s fn 0) 3 = true) (hzero : sarg s fn 5 = 0) (hsig : secBytes s (sargAddr s fn 1) 64 = some sig)
    (hkey : secBytes s (sargAddr s fn 3) 64 = some key) (htrans : lcTransition s.sec (sarg s fn 0) (sha256 key) = some owner)
    (hok : ecdsaOk (ofBytesBe (key.take 32)) (ofBytesBe ((key.drop 32).take 32)) (ofBytesBe (sig.take 32))
      (ofBytesBe ((sig.drop 32).take 32)) (ofBytesBe (sha256 (lcMessage s.sec (sarg s fn 0)))) = true) :
    execLcset fn s = .next (ended ((List.range 64).foldl (fun s c => startFence s c id)
      (modSec s (fun x => { x with lc := sarg s fn 0, ownerHash := owner, resetDue := true }))) fn 0) :=
  secRun_of_mayRun h (by
    simp only [hbits, hzero, hsig, hkey, htrans, Nat.mul_zero, Nat.mul_one, List.drop_zero, hok, Bool.not_true, bne_self_eq_false,
      Bool.or_self, Bool.false_eq_true, if_false, if_true])

theorem execFwupd_verified {fn : Nat} {bs : List Byte} {s : State} (h : MayRun s fn 0x0B)
    (hbits : onlyBits (sarg s fn 3) 1 = true) (hread : secBytes s (sargAddr s fn 0) (sarg s fn 2) = some bs)
    (hok : Config.freeBit s.free = true ∧ Config.freeNat (s.free + 1) % 2 ^ 32 ≤ Config.freeNat s.free % 2 ^ 32 ∧
      s.sec.rollback ≤ Config.freeNat s.free % 2 ^ 32) :
    execFwupd fn s = .next (ended (modSec { s with free := s.free + 2 } (fun x => { x with
      images := (lset x.images (1 - x.active) ⟨Config.freeNat s.free % 2 ^ 32, Config.freeNat (s.free + 1) % 2 ^ 32, sha256 bs, true,
        Config.freeBit (s.free + 1)⟩).map (stillValid (max s.sec.rollback (Config.freeNat (s.free + 1) % 2 ^ 32)))
      rollback := max s.sec.rollback (Config.freeNat (s.free + 1) % 2 ^ 32)
      resetDue := x.resetDue || bit (sarg s fn 3) 0 })) fn 0) := by
  obtain ⟨hsign, hfloor, hcount⟩ := hok
  exact secRun_of_mayRun h (by
    simp only [hbits, hread, hsign, decide_eq_true hfloor, decide_eq_true hcount, Bool.and_self, Bool.not_true, Bool.false_eq_true,
      if_false]
    rfl)

theorem execFwupd_refused {fn : Nat} {bs : List Byte} {s : State} (h : MayRun s fn 0x0B)
    (hbits : onlyBits (sarg s fn 3) 1 = true) (hread : secBytes s (sargAddr s fn 0) (sarg s fn 2) = some bs)
    (hno : ¬ (Config.freeBit s.free = true ∧ Config.freeNat (s.free + 1) % 2 ^ 32 ≤ Config.freeNat s.free % 2 ^ 32 ∧
      s.sec.rollback ≤ Config.freeNat s.free % 2 ^ 32)) :
    execFwupd fn s = .next (ended { s with free := s.free + 2 } fn 5) := by
  have hbad : (Config.freeBit s.free && decide (Config.freeNat (s.free + 1) % 2 ^ 32 ≤ Config.freeNat s.free % 2 ^ 32) &&
      decide (s.sec.rollback ≤ Config.freeNat s.free % 2 ^ 32)) = false := by
    rw [Bool.eq_false_iff]
    intro htrue
    simp only [Bool.and_eq_true, decide_eq_true_eq] at htrue
    exact hno ⟨htrue.1.1, htrue.1.2, htrue.2⟩
  exact secRun_of_mayRun h (by simp only [hbits, hread, hbad, Bool.not_true, Bool.not_false, Bool.false_eq_true, if_false, if_true])

/-- A table with an entry at a key holds the key. -/
theorem mem_keys_of_tget {α : Type} {t : Tbl α} {k : Nat} (h : tget t k ≠ none) : k ∈ t.map Prod.fst := by
  induction t with
  | nil => exact absurd rfl h
  | cons e t ih =>
    obtain ⟨k', v⟩ := e
    by_cases heq : k = k'
    · simp [heq]
    · refine List.mem_cons_of_mem _ (ih fun hnone => h ?_)
      simp [tget, heq, hnone]

/-- Of one key more than a table has entries, one is free. -/
theorem exists_free_key {α : Type} {t : Tbl α} {keys : List Nat} (hnodup : keys.Nodup) (hlen : t.length < keys.length) :
    ∃ k ∈ keys, tget t k = none := by
  by_contra hall
  have hsub : keys ⊆ t.map Prod.fst := fun k hk => mem_keys_of_tget fun hnone => hall ⟨k, hk, hnone⟩
  have hle := (List.subperm_of_subset hnodup hsub).length_le
  rw [List.length_map] at hle
  omega

/-- Consecutive numbers modulo 2^24, at most 2^24 of them, differ. -/
theorem nodup_consecutive (start : Nat) {n : Nat} (h : n ≤ 2 ^ 24) :
    ((List.range n).map (fun i => (start + i) % 2 ^ 24)).Nodup := by
  refine List.Nodup.map_on (fun i hi j hj heq => ?_) List.nodup_range
  rw [List.mem_range] at hi hj
  omega

/-- The search of QPNEW finds a number that no queue pair has, while fewer than 2^24 have one. -/
theorem find_free_qp {α : Type} {t : Tbl α} (start : Nat) (h : t.length < 2 ^ 24) :
    ∃ k, ((List.range (t.length + 1)).map (fun i => (start + i) % 2 ^ 24)).find? (fun k => (tget t k).isNone) = some k ∧
      tget t k = none := by
  obtain ⟨k, hk, hnone⟩ := exists_free_key (t := t) (nodup_consecutive start (n := t.length + 1) h) (by simp)
  have hsome : (((List.range (t.length + 1)).map (fun i => (start + i) % 2 ^ 24)).find? (fun k => (tget t k).isNone)).isSome :=
    List.find?_isSome.mpr ⟨k, hk, Option.isNone_iff_eq_none.mpr hnone⟩
  obtain ⟨k', hfind⟩ := Option.isSome_iff_exists.mp hsome
  have hnone' : (tget t k').isNone = true := List.find?_some (p := fun k => (tget t k).isNone) hfind
  exact ⟨k', hfind, Option.isNone_iff_eq_none.mp hnone'⟩

/-- The queue pair that QPNEW makes from its descriptor (R460). -/
def describedQp (s : State) (fn : Nat) (bs : List Byte) : QPair :=
  { ctx := sarg s fn 0 % 64, port := bits (sarg s fn 0) 8 3, fn := fn, sendBase := recField bs 0 8, recvBase := recField bs 8 8,
    compBase := recField bs 0x10 8, sendLog := recField bs 0x18 1, recvLog := recField bs 0x19 1, compLog := recField bs 0x1A 1,
    datagram := bit (recField bs 0x1B 1) 0, remoteQp := recField bs 0x1C 4, remoteIp := (bs.drop 0x20).take 16,
    rkey := Config.freeNat (s.free + 1) % 2 ^ 32, sendIdx := 0, recvIdx := 0, compIdx := 0, pending := [], recvs := [] }

/-- The state in which QPNEW has made queue pair `k` and answers with its number and key. -/
def withNewQp (s : State) (fn k : Nat) (p : QPair) : State :=
  setRsp (setRsp (modFab { s with free := s.free + 2 } (fun x => { x with qps := tput x.qps k p })) fn 0 k) fn 1 p.rkey

theorem tget_withNewQp (s : State) (fn k : Nat) (p : QPair) : tget (withNewQp s fn k p).fabric.qps k = some p :=
  tget_tput_same s.fabric.qps k p

theorem execQpnew_permitted {fn : Nat} {bs : List Byte} {s : State} (h : MayRun s fn 0x06)
    (hbits : onlyBits (sarg s fn 0) 0x73F = true) (hfn : (ctxOf s (sarg s fn 0 % 64)).fn = fn) (hal : sargAddr s fn 1 % 64 = 0)
    (hread : secBytes s (sargAddr s fn 1) 64 = some bs) (hok : qpOk bs = true) (hroom : s.fabric.qps.length < 2 ^ 24) :
    ∃ t, execQpnew fn s = .next (ended t fn 0) ∧ ∃ k p, tget s.fabric.qps k = none ∧ tget t.fabric.qps k = some p ∧
      p.ctx = sarg s fn 0 % 64 ∧ p.fn = fn ∧ p.sendBase = recField bs 0 8 ∧ p.recvBase = recField bs 8 8 ∧
      p.compBase = recField bs 0x10 8 := by
  obtain ⟨k, hfind, hfree⟩ := find_free_qp (t := s.fabric.qps) (Config.freeNat s.free) hroom
  refine ⟨withNewQp s fn k (describedQp s fn bs), secRun_of_mayRun h ?_, k, describedQp s fn bs, hfree,
    tget_withNewQp s fn k _, rfl, rfl, rfl, rfl, rfl⟩
  simp only [hbits, hfn, hal, hread, hok, hfind, Option.getD_some, Bool.not_true, bne_self_eq_false, Bool.or_self, Bool.false_eq_true,
    if_false]
  rfl

/-- Settles O49: every command runs at the head of the queue, and its own conditions choose its accepting branch; FWUPD's verdict
splits on its free values. -/
theorem securityCommandsComplete : Obligations.SecurityCommandsComplete := by
  unfold Obligations.SecurityCommandsComplete
  refine ⟨fun fn e s h hbits hal hread hok =>
      show execAtab fn s = _ from execAtab_permitted h hbits hal hread hok,
    fun fn s h hbits hfree =>
      show execCtxasn fn s = _ from execCtxasn_permitted h hbits hfree,
    fun fn hd bs s h hbits hfn hal hhead hread hok =>
      show execCgreg fn s = _ from execCgreg_permitted h hbits hfn hal hhead hread hok,
    fun fn x s h hbits hfn hfind =>
      show execCgdel fn s = _ from execCgdel_permitted h hbits hfn hfind,
    fun fn hd bs s h hhead hn hread hal hok =>
      show execReel fn s = _ from execReel_permitted h hhead hn hread hal hok,
    fun fn bs s h hbits hfn hal hread hok hroom => execQpnew_permitted h hbits hfn hal hread hok hroom,
    fun fn p s h hqp hfn =>
      show execQpdel fn s = _ from execQpdel_permitted h hqp hfn,
    fun fn bs s h hbits hn hopen hread =>
      show execDomain fn s = _ from execDomain_permitted h hbits hn hopen hread,
    fun fn nonce s h hread hback =>
      show execAttest fn s = _ from execAttest_permitted h hread hback,
    fun fn s h hcore =>
      show execGvcnt fn s = _ from execGvcnt_permitted h hcore,
    fun fn bs s h hbits hread => ?fwupd,
    fun fn sig key owner s h hbits hzero hsig hkey htrans hok =>
      show execLcset fn s = _ from execLcset_permitted h hbits hzero hsig hkey htrans hok,
    fun fn s h hlow hhigh =>
      show execCap fn s = _ from execCap_permitted h hlow hhigh⟩
  case fwupd =>
    intro version floor count t image
    split
    next hok => exact execFwupd_verified h hbits hread hok
    next hno => exact execFwupd_refused h hbits hread hno

end Sys2Proof.Machine
end

section
/-! SUPPORT. The number of contexts and the migration channels are fixed but for what writes them: `f_tables` says that `f` leaves
both as they were, in the order of the model. Here: folds, changes of one unit, records, and homes with their L2 slices (R316 to
R329, R337, R436). -/

namespace Sys2Proof.Machine

open Sys2Proof

/-- How many contexts there are, and the migration channels. -/
def tables (s : State) : Nat × List Migration := (s.ctxs.length, s.memsys.migs)

/-- Steps over a list leave the tables as they were where each of them does. -/
theorem foldl_tables {α : Type} {f : State → α → State} (h : ∀ s a, tables (f s a) = tables s) (l : List α) (s : State) :
    tables (l.foldl f s) = tables s :=
  List.foldlRecOn (motive := fun t => tables t = tables s) l f rfl fun t ht a _ => (h t a).trans ht

theorem foldl_fst_tables {α β : Type} {f : State × β → α → State × β} (h : ∀ r a, tables (f r a).1 = tables r.1)
    (l : List α) (r : State × β) : tables (l.foldl f r).1 = tables r.1 :=
  List.foldlRecOn (motive := fun t => tables t.1 = tables r.1) l f rfl fun t ht a _ => (h t a).trans ht

theorem getD_tables {o : Option State} {s : State} (h : ∀ t, o = some t → tables t = tables s) :
    tables (o.getD s) = tables s := by
  cases o with
  | none => rfl
  | some t => exact h t rfl

@[simp] theorem modCtx_tables (s k f) : tables (modCtx s k f) = tables s := congrArg (Prod.mk · _) (lmod_length _ _ _)

@[simp] theorem modNet_tables (s f) : tables (modNet s f) = tables s := rfl

@[simp] theorem modDie_tables (s k f) : tables (modDie s k f) = tables s := rfl

@[simp] theorem modQueue_tables (s k f) : tables (modQueue s k f) = tables s := rfl

@[simp] theorem nextId_tables (s) : tables (nextId s).2 = tables s := rfl

@[simp] theorem modCore_tables (s k f) : tables (modCore s k f) = tables s := rfl

@[simp] theorem modBlock_tables (s k f) : tables (modBlock s k f) = tables s := rfl

@[simp] theorem modWarp_tables (s k f) : tables (modWarp s k f) = tables s := rfl

@[simp] theorem modSlice_tables (s k f) : tables (modSlice s k f) = tables s := rfl

@[simp] theorem dropParked_tables (s k) : tables (dropParked s k) = tables s := rfl

@[simp] theorem startFence_tables (s c f) : tables (startFence s c f) = tables s := by
  unfold startFence
  dsimp only
  split
  · exact modCtx_tables ..
  · exact (modCtx_tables ..).trans (foldl_tables dropParked_tables _ s)

@[simp] theorem report_tables (s die e) : tables (report s die e) = tables s := by
  unfold report
  dsimp only
  split
  · rfl
  · split
    · split
      · exact startFence_tables ..
      · rfl
    · rfl

@[simp] theorem denyAccess_tables (s die mid ctx a acc) : tables (denyAccess s die mid ctx a acc) = tables s := by
  unfold denyAccess
  cases ctx with
  | none => exact report_tables ..
  | some c => exact (startFence_tables ..).trans (report_tables ..)

@[simp] theorem unbackedAccess_tables (s die mid ctx a wr) : tables (unbackedAccess s die mid ctx a wr) = tables s := by
  grind [unbackedAccess, report_tables]

@[simp] theorem sendMsg_tables (s m) : tables (sendMsg s m) = tables s := rfl

@[simp] theorem sendBy_tables (s link pkg head body) : tables (sendBy s link pkg head body) = tables s := by
  grind [sendBy, sendMsg_tables, foldl_tables]

@[simp] theorem sendLink_tables (s pkg a head body) : tables (sendLink s pkg a head body) = tables s := by
  grind [sendLink, sendBy_tables]

@[simp] theorem peerRead_tables (s k mid a n) : tables (peerRead s k mid a n) = tables s := by
  grind [peerRead, sendLink_tables, report_tables]

@[simp] theorem markPois_tables (s g p) : tables (markPois s g p) = tables s := rfl

@[simp] theorem markWritten_tables (s g p) : tables (markWritten s g p) = tables s := by grind [markWritten, markPois_tables]

@[simp] theorem memPut_tables (s a bs) : tables (memPut s a bs) = tables s := by
  unfold memPut
  split <;> rfl

@[simp] theorem writeBack_tables (s b m) : tables (writeBack s b m) = tables s := by
  grind [writeBack, markWritten_tables, memPut_tables, foldl_tables]

@[simp] theorem trainPredictor_tables (s slice b) : tables (trainPredictor s slice b) = tables s := by
  grind [trainPredictor, modSlice_tables]

@[simp] theorem dropBlk_tables (s slice b) : tables (dropBlk s slice b) = tables s := rfl

@[simp] theorem putBlk_tables (s slice b c) : tables (putBlk s slice b c) = tables s := rfl

@[simp] theorem purgeExpired_tables (s slice) : tables (purgeExpired s slice) = tables s := rfl

@[simp] theorem evict_tables (s slice b) : tables (evict s slice b) = tables s := by
  grind [evict, dropBlk_tables, trainPredictor_tables, writeBack_tables]

theorem ensureRoom_tables (slice set n keep a b) : ∀ t, ensureRoom slice set n keep a b = some t → tables t = tables b := by
  fun_induction ensureRoom <;> grind [evict_tables]

@[simp] theorem compact_tables (s slice set) : tables (compact s slice set) = tables s := rfl

@[simp] theorem mergeRegion_tables (slice region lease a b) : tables (mergeRegion slice region lease a b) = tables b := by
  fun_induction mergeRegion <;> grind [putBlk_tables, dropBlk_tables]

theorem installBlk_tables (s slice b) : ∀ t, installBlk s slice b = some t → tables t = tables s := by
  grind [installBlk, modSlice_tables, mergeRegion_tables, compact_tables, ensureRoom_tables, purgeExpired_tables,
    Option.map_eq_some_iff]

@[simp] theorem touchBlk_tables (s slice lease a) : tables (touchBlk s slice lease a) = tables s := by
  grind [touchBlk, putBlk_tables]

@[simp] theorem portAt_tables (s die own slice) : tables (portAt s die own slice).2 = tables s := by
  unfold portAt
  split <;> rfl

@[simp] theorem blkWrite_tables (s slice a ps full) : tables (blkWrite s slice a ps full) = tables s := by
  grind [blkWrite, putBlk_tables]

@[simp] theorem putGrain_tables (s a bs) : tables (putGrain s a bs) = tables s := by
  grind [putGrain, blkWrite_tables, memPut_tables, markWritten_tables]

@[simp] theorem poisonHome_tables (s a) : tables (poisonHome s a) = tables s := by
  grind [poisonHome, putBlk_tables, markPois_tables]

@[simp] theorem setSplc_tables (s k g v) : tables (setSplc s k g v) = tables s := by grind [setSplc, putBlk_tables]

@[simp] theorem applyPartial_tables (s e) : tables (applyPartial s e) = tables s := by
  grind [applyPartial, report_tables, putGrain_tables]

theorem installAll_tables (slice a b) : ∀ t, installAll slice a b = some t → tables t = tables b := by
  induction a generalizing b with
  | nil => grind [installAll]
  | cons c cs ih => grind [installAll, installBlk_tables, Option.bind_eq_some_iff]

theorem fillGrains_tables (s k f) : ∀ t, fillGrains s k f = some t → tables t = tables s := by
  grind [fillGrains, installAll_tables]

@[simp] theorem dropFill_tables (s k id) : tables (dropFill s k id) = tables s := rfl

@[simp] theorem bringGrains_tables (s k region port m) : tables (bringGrains s k region port m) = tables s := by
  grind [bringGrains, fillGrains_tables, dropFill_tables, foldl_tables, getD_tables]

@[simp] theorem mapEnts_tables (s f) : tables (mapEnts s f) = tables s := rfl

@[simp] theorem performEnt_tables (s id) : tables (performEnt s id) = tables s := rfl

@[simp] theorem performAtBay_tables (s id) : tables (performAtBay s id) = tables s := rfl

@[simp] theorem performEnts_tables (s ids) : tables (performEnts s ids) = tables s := by
  grind [performEnts, performAtBay_tables, foldl_tables]

@[simp] theorem settleGrain_tables (s g) : tables (settleGrain s g) = tables s := by
  unfold settleGrain
  split
  · rfl
  · split
    · rfl
    · rw [performEnts_tables, setSplc_tables]
      exact (foldl_tables applyPartial_tables _ _).trans (bringGrains_tables ..)

@[simp] theorem readGrains_tables (s k region port m) : tables (readGrains s k region port m) = tables s := by
  grind [readGrains, settleGrain_tables, bringGrains_tables, touchBlk_tables, foldl_tables]

@[simp] theorem engTouch_tables (s die own pas) : tables (engTouch s die own pas) = tables s := by
  grind [engTouch, portAt_tables, readGrains_tables, foldl_tables]

@[simp] theorem cutLease_tables (s slice a) : tables (cutLease s slice a) = tables s := by grind [cutLease, modSlice_tables]

@[simp] theorem staleFills_tables (s slice a) : tables (staleFills s slice a) = tables s := rfl

@[simp] theorem dropLeaseGrain_tables (s die a) : tables (dropLeaseGrain s die a) = tables s := by
  grind [dropLeaseGrain, staleFills_tables, cutLease_tables]

@[simp] theorem retireGrain_tables (s g) : tables (retireGrain s g) = tables s := by
  grind [retireGrain, mapEnts_tables, dropLeaseGrain_tables, foldl_tables]

@[simp] theorem reelNote_tables (s a wr) : tables (reelNote s a wr) = tables s := by
  grind [reelNote, denyAccess_tables, unbackedAccess_tables]

@[simp] theorem reelGrain_tables (s src dst) : tables (reelGrain s src dst).1 = tables s := by
  grind [reelGrain, settleGrain_tables, putGrain_tables, poisonHome_tables]

/-- Stated apart: where the state comes from a long computation, `rfl` would have the kernel run it. -/
theorem withSec_tables (s : State) (x : Sec) : tables { s with sec := x } = tables s := rfl

@[simp] theorem reelCopy_tables (s src dst) : tables (reelCopy s src dst) = tables s := by
  have hpages (b : Bool) (l : List Nat) (s : State) : tables (l.foldl (fun s a => reelNote s a b) s) = tables s :=
    foldl_tables (fun s a => reelNote_tables s a b) l s
  unfold reelCopy
  generalize List.range 2048 = chunk
  dsimp only
  rw [withSec_tables]
  exact (foldl_fst_tables (by intro r i; exact reelGrain_tables ..) _ _).trans ((hpages true _ _).trans (hpages false _ _))

@[simp] theorem reelHook_tables (s a) : tables (reelHook s a) = tables s := by grind [reelHook, reelCopy_tables]

@[simp] theorem openGrain_tables (s a) : tables (openGrain s a) = tables s := by
  grind [openGrain, settleGrain_tables, reelHook_tables]

@[simp] theorem homeStoreBy_tables (s die own a bs) : tables (homeStoreBy s die own a bs) = tables s := by
  grind [homeStoreBy, retireGrain_tables, openGrain_tables, portAt_tables, blkWrite_tables, installBlk_tables, putGrain_tables,
    bringGrains_tables, dropLeaseGrain_tables, getD_tables]

@[simp] theorem homeStore_tables (s a bs) : tables (homeStore s a bs) = tables s := by grind [homeStore, homeStoreBy_tables]

@[simp] theorem writeBytesBy_tables (s die own a bs) : tables (writeBytesBy s die own a bs) = tables s := by
  grind [writeBytesBy, homeStoreBy_tables, foldl_tables]

@[simp] theorem writeBytes_tables (s a bs) : tables (writeBytes s a bs) = tables s := by
  grind [writeBytes, homeStore_tables, foldl_tables]

end Sys2Proof.Machine
end

section
/-! SUPPORT. What reads of registers, walks, barriers and the life of warps leave of the contexts and the migration channels
(R141, R178, R381, R391 to R396). -/

namespace Sys2Proof.Machine

open Sys2Proof

@[simp] theorem modDebug_tables (s c f) : tables (modDebug s c f) = tables s := by grind [modDebug, modCtx_tables]

@[simp] theorem debugRead_tables (s c off) : tables (debugRead s c off).2 = tables s := by
  unfold debugRead
  split <;> simp only [modDebug_tables]

@[simp] theorem evRead_tables (s reg) : tables (evRead s reg).2 = tables s := by
  unfold evRead
  dsimp only
  split <;> rfl

@[simp] theorem regRead_tables (s m off) : tables (regRead s m off).2 = tables s := by
  grind [regRead, debugRead_tables, evRead_tables]

@[simp] theorem malformedBy_tables (s mid ctx off size reason) : tables (malformedBy s mid ctx off size reason) = tables s := by
  grind [malformedBy, report_tables]

@[simp] theorem malformed_tables (s m off size reason) : tables (malformed s m off size reason) = tables s := by
  grind [malformed, malformedBy_tables]

@[simp] theorem mmioRead_tables (s m off size) : tables (mmioRead s m off size).2 = tables s := by
  grind [mmioRead, malformed_tables, regRead_tables]

@[simp] theorem pteRead_tables (s k core ctx a) : tables (pteRead s k core ctx a) = tables s := by
  unfold pteRead
  dsimp only
  split
  · exact denyAccess_tables ..
  · split
    · exact engTouch_tables ..
    · exact engTouch_tables ..
    · exact mmioRead_tables ..
    · exact peerRead_tables ..
    · exact unbackedAccess_tables ..

@[simp] theorem cacheLeaf_tables (s core e) : tables (cacheLeaf s core e) = tables s := rfl

@[simp] theorem walkReads_tables (s0 core ctx va a b c) : tables (walkReads s0 core ctx va a b c) = tables c := by
  fun_induction walkReads <;> grind [pteRead_tables]

@[simp] theorem cacheVa_tables (s core ctx va) : tables (cacheVa s core ctx va) = tables s := by
  grind [cacheVa, walkReads_tables, cacheLeaf_tables]

@[simp] theorem unpark_tables (s wid c) : tables (unpark s wid c) = tables s := rfl

@[simp] theorem reissue_tables (s wid c) : tables (reissue s wid c) = tables s := rfl

@[simp] theorem checkArrive_tables (s wid b) : tables (checkArrive s wid b) = tables s := by grind [checkArrive, modWarp_tables]

theorem arriveLanes_tables (s wid b lanes k) : ∀ t, arriveLanes s wid b lanes k = some t → tables t = tables s := by
  grind [arriveLanes, checkArrive_tables, modWarp_tables]

@[simp] theorem takeParkedGo_tables (wid b a c) : tables (takeParkedGo wid b a c) = tables c := by
  fun_induction takeParkedGo <;> grind [arriveLanes_tables, modWarp_tables]

@[simp] theorem takeParked_tables (s wid b) : tables (takeParked s wid b) = tables s := by grind [takeParked, takeParkedGo_tables]

@[simp] theorem wakeBar_tables (s ws b) : tables (wakeBar s ws b) = tables s := by
  grind [wakeBar, modWarp_tables, unpark_tables, takeParked_tables, foldl_tables]

@[simp] theorem flipBar_tables (s blk n) : tables (flipBar s blk n) = tables s := by
  grind [flipBar, modBlock_tables, modWarp_tables, wakeBar_tables, foldl_tables]

@[simp] theorem flipTest_tables (s blk n) : tables (flipTest s blk n) = tables s := by grind [flipTest, flipBar_tables]

@[simp] theorem passDue_tables (s) : tables (passDue s) = tables s := rfl

@[simp] theorem modKnot_tables (s slice krec f) : tables (modKnot s slice krec f) = tables s := rfl

@[simp] theorem restartWatchdog_tables (s c) : tables (restartWatchdog s c) = tables s := by
  grind [restartWatchdog, modCtx_tables]

@[simp] theorem fenceCore_tables (s core cause) : tables (fenceCore s core cause) = tables s := by
  grind [fenceCore, modCore_tables, report_tables, startFence_tables, foldl_tables]

@[simp] theorem fenceDrained_tables (s core) : tables (fenceDrained s core) = tables s := by
  grind [fenceDrained, fenceCore_tables]

@[simp] theorem endTaker_tables (s t) : tables (endTaker s t) = tables s := by
  grind [endTaker, modKnot_tables, foldl_tables]

@[simp] theorem giveRequests_tables (s t) : tables (giveRequests s t) = tables s := by
  grind [giveRequests, nextId_tables, modNet_tables, foldl_tables]

end Sys2Proof.Machine
end

section
/-! SUPPORT. What the resource queue, the queue engines and knots leave of the contexts and the migration channels (R182 to R185,
R243 to R251, R359 to R366). -/

namespace Sys2Proof.Machine

open Sys2Proof

@[simp] theorem addWarp_tables (s w) : tables (addWarp s w) = tables s := rfl

theorem attachOne_tables (s att label members args fctl) :
    ∀ t, attachOne s att label members args fctl = some t → tables t = tables s := by
  grind [attachOne, addWarp_tables, modBlock_tables, Option.bind_eq_some_iff, Option.map_eq_some_iff, List.findSome?_eq_some_iff]

@[simp] theorem attachMany_tables (att label members args fctl a b) :
    tables (attachMany att label members args fctl a b).2 = tables b := by
  fun_induction attachMany <;> grind [attachOne_tables]

@[simp] theorem joinBar_tables (s blk ids n) : tables (joinBar s blk ids n) = tables s := by
  grind [joinBar, modWarp_tables, flipTest_tables, modBlock_tables, foldl_tables]

@[simp] theorem joinBars_tables (s att members ids) : tables (joinBars s att members ids) = tables s := by
  grind [joinBars, modBlock_tables, joinBar_tables, foldl_tables]

@[simp] theorem attachAll_tables (att label members args fctl n s) :
    tables (attachAll att label members args fctl n s).2 = tables s := by
  grind [attachAll, attachMany_tables, joinBars_tables]

@[simp] theorem zeroSlot_tables (s core slot) : tables (zeroSlot s core slot) = tables s := rfl

@[simp] theorem mapName_tables (s blk n k) : tables (mapName s blk n k) = tables s := by
  grind [mapName, zeroSlot_tables, modCore_tables, modBlock_tables]

theorem grantNow_tables (s wid m r) : ∀ t, grantNow s wid m r = some t → tables t = tables s := by
  intro t h
  obtain ⟨w, -, h⟩ := Option.bind_eq_some_iff.mp h
  cases r with
  | attach sd c label members args =>
    dsimp only at h
    split at h
    · cases h
      exact (modWarp_tables ..).trans (attachAll_tables ..)
    · cases h
  | grow sd n => grind [modWarp_tables]
  | acc n _ => grind [mapName_tables, Option.bind_eq_some_iff, Option.map_eq_some_iff]

@[simp] theorem endRequest_tables (s e) : tables (endRequest s e) = tables s := by
  grind [endRequest, reissue_tables, unpark_tables]

@[simp] theorem dropEntry_tables (s core e) : tables (dropEntry s core e) = tables s := rfl

theorem serveGo_tables (s core a b) : ∀ t, serveGo s core a b = some t → tables t = tables s := by
  fun_induction serveGo <;> grind [grantNow_tables, endRequest_tables, dropEntry_tables]

theorem serveOne_tables (s core) : ∀ t, serveOne s core = some t → tables t = tables s := by grind [serveOne, serveGo_tables]

@[simp] theorem serveAll_tables (core a b) : tables (serveAll core a b) = tables b := by
  fun_induction serveAll <;> grind [serveOne_tables]

@[simp] theorem serveCore_tables (s core) : tables (serveCore s core) = tables s := by grind [serveCore, serveAll_tables]

@[simp] theorem admitGo_tables (die a b) : tables (admitGo die a b) = tables b := by
  fun_induction admitGo <;> grind [modDie_tables]

@[simp] theorem roomMade_tables (s die) : tables (roomMade s die) = tables s := by
  grind [roomMade, admitGo_tables, reissue_tables, foldl_tables]

@[simp] theorem withoutBlocks_tables (s gone) : tables (withoutBlocks s gone) = tables s := rfl

@[simp] theorem engNote_tables (s die mid ctx wr pa) : tables (engNote s die mid ctx wr pa) = tables s := by
  grind [engNote, denyAccess_tables, unbackedAccess_tables, malformedBy_tables]

@[simp] theorem sendStore_tables (s die who grp a bs) : tables (sendStore s die who grp a bs) = tables s := rfl

@[simp] theorem engineWrite_tables (s q ctx a bs) : tables (engineWrite s q ctx a bs).2 = tables s := by
  grind [engineWrite, writeBytesBy_tables, denyAccess_tables, unbackedAccess_tables, nextId_tables, sendStore_tables]

@[simp] theorem completePacket_tables (s q idx) : tables (completePacket s q idx) = tables s := rfl

@[simp] theorem badPacket_tables (s q idx) : tables (badPacket s q idx) = tables s := by
  grind [badPacket, modQueue_tables, report_tables]

@[simp] theorem modPacket_tables (s q idx f) : tables (modPacket s q idx f) = tables s := rfl

@[simp] theorem writeStatus_tables (s q idx ctx va status) : tables (writeStatus s q idx ctx va status) = tables s := by
  grind [writeStatus, badPacket_tables, cacheVa_tables, engineWrite_tables, modPacket_tables]

@[simp] theorem endKlaunch_tables (s q p st) : tables (endKlaunch s q p st) = tables s := by
  grind [endKlaunch, writeStatus_tables, restartWatchdog_tables, completePacket_tables]

@[simp] theorem writeKnot_tables (s krec kstate holder) : tables (writeKnot s krec kstate holder) = tables s := by
  grind [writeKnot, writeBytes_tables]

@[simp] theorem replyKnot_tables (s r v) : tables (replyKnot s r v) = tables s := by
  grind [replyKnot, modNet_tables, nextId_tables]

@[simp] theorem dropGuarded_tables (s t krec) : tables (dropGuarded s t krec) = tables s := by
  grind [dropGuarded, dropLeaseGrain_tables, foldl_tables]

@[simp] theorem failSignal_tables (s q idx) : tables (failSignal s q idx) = tables s := by
  grind [failSignal, badPacket_tables, completePacket_tables]

@[simp] theorem grantToken_tables (s krec t) : tables (grantToken s krec t) = tables s := by
  grind [grantToken, dropGuarded_tables, writeKnot_tables]

@[simp] theorem giveToken_tables (s k krec) : tables (giveToken s k krec) = tables s := by
  grind [giveToken, modKnot_tables, writeBytes_tables, writeKnot_tables, grantToken_tables, replyKnot_tables]

end Sys2Proof.Machine
end

section
/-! SUPPORT. What the end of a context and a migrated grain leave of the contexts and the migration channels (R390, R406). -/

namespace Sys2Proof.Machine

open Sys2Proof

@[simp] theorem endPackets_tables (s ctx q) : tables (endPackets s ctx q) = tables s := by
  refine foldl_tables (fun s p => ?_) _ s
  split
  · exact endKlaunch_tables ..
  · split
    · extract_lets s1 s2 s3
      have h3 : tables s3 = tables s2 := by
        simp only [s3]
        split
        · split
          · exact giveToken_tables ..
          · rfl
        · rfl
      exact (failSignal_tables ..).trans h3
    · rfl

@[simp] theorem endTokens_tables (s cid) : tables (endTokens s cid) = tables s :=
  (giveRequests_tables ..).trans (endTaker_tables ..)

@[simp] theorem sweepNet_tables (s ws cps) : tables (sweepNet s ws cps) = tables s := rfl

@[simp] theorem clearBlocks_tables (s bs) : tables (clearBlocks s bs) = tables s := rfl

@[simp] theorem servedAll_tables (s) : tables (servedAll s) = tables s := foldl_tables serveCore_tables _ s

@[simp] theorem endCtx_tables (s c) : tables (endCtx s c) = tables s := by
  unfold endCtx
  extract_lets _ cs ws cps s1 s2 _ s3 _ s4
  have h1 : tables s1 = tables s := by
    simp only [s1]
    split
    · exact restartWatchdog_tables ..
    · rfl
  have h2 : tables s2 = tables s1 := foldl_tables endTokens_tables _ s1
  have h3 : tables s3 = tables s2 := (clearBlocks_tables ..).trans (sweepNet_tables ..)
  have h4 : tables s4 = tables s3 := rfl
  rw [passDue_tables, foldl_tables fenceDrained_tables, servedAll_tables, roomMade_tables, roomMade_tables, h4, h3, h2, h1]

@[simp] theorem cutHome_tables (s slice a) : tables (cutHome s slice a) = tables s := by
  grind [cutHome, writeBack_tables, modSlice_tables]

end Sys2Proof.Machine
end

section
/-! SUPPORT. Registers of contexts and of migration channels as a master that may writes them (R381, R387, R405). -/

namespace Sys2Proof.Machine

open Sys2Proof

variable {s : State} {m : Master} {ctx ch reg : Nat}

/-- A permitted write to a register of a context (R382, R387). -/
theorem masterWrite_ctx (hctx : ctx < 64) (hreg : reg < 0x100) (hal : reg % 4 = 0)
    (h : MayWrite s m (0x100 * ctx + reg)) (v : Nat) :
    masterWrite s m (0x100 * ctx + reg) 4 v = ctxWrite s ctx reg (BitVec.ofNat 32 v) := by
  rw [masterWrite_register (by omega) h (by omega) (by omega)]
  have hblock : (0x100 * ctx + reg) / 65536 = 0 := by omega
  have hin : (0x100 * ctx + reg) % 65536 < 0x4000 := by omega
  have hc : (0x100 * ctx + reg) % 65536 / 256 = ctx := by omega
  have hr : (0x100 * ctx + reg) % 65536 % 256 = reg := by omega
  simp only [regWrite, hblock, hc, hr]
  exact if_pos hin

/-- A permitted write to a register of a migration channel (R382, R405). -/
theorem masterWrite_mig (hch : ch < 8) (hreg : reg < 0x20) (hal : reg % 4 = 0)
    (h : MayWrite s m (0x50000 + 0x20 * ch + reg)) (v : Nat) :
    masterWrite s m (0x50000 + 0x20 * ch + reg) 4 v = migWrite s ch reg (BitVec.ofNat 32 v) := by
  rw [masterWrite_register (by omega) h (by omega) (by omega)]
  have hblock : (0x50000 + 0x20 * ch + reg) / 65536 = 5 := by omega
  have hin : (0x50000 + 0x20 * ch + reg) % 65536 < 0x100 := by omega
  have hc : (0x50000 + 0x20 * ch + reg) % 65536 / 32 = ch := by omega
  have hr : (0x50000 + 0x20 * ch + reg) % 65536 % 32 = reg := by omega
  simp only [regWrite, hblock, hc, hr]
  exact if_pos hin

/-- GO of CINVCTL, written where no invalidation is under way (R396). -/
theorem ctxWrite_go (h : (ctxOf s ctx).go = false) : ctxWrite s ctx 0x34 (BitVec.ofNat 32 1) = startInval s ctx := by
  simp [ctxWrite, h]

/-- A changed entry of a list that has it. -/
theorem getElem?_lmod_same {α : Type} {l : List α} {k : Nat} {a : α} (h : l[k]? = some a) (f : α → α) :
    (lmod l k f)[k]? = some (f a) := by
  induction l generalizing k with
  | nil => simp at h
  | cons b l ih =>
    cases k with
    | zero =>
      obtain rfl : b = a := Option.some.inj h
      rfl
    | succ k => exact ih (by simpa using h)

/-- MCTL written with LG as it stands keeps the channel as it is, and GO and CLR then act (R405). -/
theorem migWrite_mctl {g : Migration} (h : s.memsys.migs[ch]? = some g) {v : Word} (hlg : v.getLsbD 1 = g.lg) :
    migWrite s ch 0x10 v =
      if v.getLsbD 2 then migClr (if v.getLsbD 0 then migGo s ch else s) ch else if v.getLsbD 0 then migGo s ch else s := by
  have hsame : modMig s ch (fun m => if m.busy then m else { m with lg := v.getLsbD 1 }) = s := by
    have hmigs : lmod s.memsys.migs ch (fun m => if m.busy then m else { m with lg := v.getLsbD 1 }) = s.memsys.migs := by
      refine lmod_eq_self fun a ha => ?_
      obtain rfl : g = a := Option.some.inj (h.symm.trans ha)
      rw [hlg]
      exact ite_self g
    rw [modMig, hmigs]
  simp only [migWrite, hsame]

end Sys2Proof.Machine
end

section
/-! SUPPORT. A fence that completes, and a migrated grain (R390, R406). -/

namespace Sys2Proof.Machine

open Sys2Proof

variable {s : State} {ctx ch : Nat}

theorem length_ctxs_of_tables {t : State} (h : tables t = tables s) : t.ctxs.length = s.ctxs.length := congrArg Prod.fst h

theorem migs_of_tables {t : State} (h : tables t = tables s) : t.memsys.migs = s.memsys.migs := congrArg Prod.snd h

/-- The context as the end of its fence leaves it (R390 step 5). -/
def fencedCtx (x : Ctx) : Ctx := { x with cstat := (x.cstat ||| 1#32) &&& ~~~(0x40#32), fencing := false, pool := [] }

theorem fencedCtx_cstat (x : Ctx) : (fencedCtx x).cstat.getLsbD 0 = true := by
  simp [fencedCtx]

/-- A record that names a fenced context leaves the context as it is (R439). -/
theorem ctxOf_report_fenced {c : Nat} {e : EventRec} (hnamed : e.ctx = some c) (h : (ctxOf s c).cstat.getLsbD 0 = true)
    (die : Nat) : ctxOf (report s die e) c = ctxOf s c := by
  have hbit : bit (ctxOf s c).cstat.toNat 0 = true := h
  simp only [report, hnamed, Option.any_some, hbit, Bool.not_true, Bool.false_and, Bool.and_false, Bool.false_eq_true, if_false]
  split <;> rfl

/-- The queues that hold a started packet of a context. -/
def startedQueues (s : State) (ctx : Nat) : List Nat :=
  (List.range 512).filter (fun q => (queueOf s q).started.any (fun p => p.ctx == ctx))

/-- The state in which the started packets of a context have been ended (R390 step 4). -/
def packetsEnded (s : State) (ctx : Nat) : State := (startedQueues s ctx).foldl (fun s q => endPackets s ctx q) s

theorem packetsEnded_tables (s : State) (ctx : Nat) : tables (packetsEnded s ctx) = tables s :=
  foldl_tables (fun s q => endPackets_tables s ctx q) _ s

/-- Whether a KLAUNCH of a context still waits for its status word. -/
def launchesOpen (s : State) (ctx : Nat) : Bool :=
  (startedQueues s ctx).any (fun q => (queueOf (packetsEnded s ctx) q).started.any
    (fun p => p.ctx == ctx && decide (recField p.bytes 0 1 = 1)))

theorem execFenceComplete_open (hfencing : (ctxOf s ctx).fencing = true) (hidle : ctxBusy s ctx = false)
    (hopen : launchesOpen s ctx = true) : execFenceComplete ctx s = .next (packetsEnded s ctx) := by
  simp only [launchesOpen, packetsEnded, startedQueues] at hopen
  simp only [execFenceComplete, hfencing, hidle, hopen, Bool.not_true, Bool.false_eq_true, if_false, if_true, packetsEnded,
    startedQueues]

theorem execFenceComplete_ended (hfencing : (ctxOf s ctx).fencing = true) (hidle : ctxBusy s ctx = false)
    (hopen : launchesOpen s ctx = false) : ∃ u, execFenceComplete ctx s = .next
      (report (modCtx (endCtx (packetsEnded s ctx) ctx) ctx fencedCtx) 0 ⟨0x0B, 1, some ctx, none, noUnit, u, 0⟩) := by
  simp only [launchesOpen, packetsEnded, startedQueues] at hopen
  simp only [execFenceComplete, hfencing, hidle, hopen, Bool.not_true, Bool.false_eq_true, if_false, packetsEnded, startedQueues]
  exact ⟨_, rfl⟩

/-- A context whose fence completes is fenced, and fences no longer. -/
theorem ctxOf_fenceComplete (hctx : ctx < s.ctxs.length) (info : Nat) :
    ctxOf (report (modCtx (endCtx (packetsEnded s ctx) ctx) ctx fencedCtx) 0 ⟨0x0B, 1, some ctx, none, noUnit, info, 0⟩) ctx =
      fencedCtx (ctxOf (endCtx (packetsEnded s ctx) ctx) ctx) := by
  have hlen : (endCtx (packetsEnded s ctx) ctx).ctxs.length = s.ctxs.length :=
    length_ctxs_of_tables ((endCtx_tables ..).trans (packetsEnded_tables ..))
  generalize endCtx (packetsEnded s ctx) ctx = t at hlen ⊢
  have hsame : ctxOf (modCtx t ctx fencedCtx) ctx = fencedCtx (ctxOf t ctx) :=
    getD_lmod_same (by rw [hlen]; exact hctx) fencedCtx resetCtx
  have hfenced : (ctxOf (modCtx t ctx fencedCtx) ctx).cstat.getLsbD 0 = true := by
    rw [hsame]
    exact fencedCtx_cstat _
  exact (ctxOf_report_fenced rfl hfenced 0).trans hsame

/-- A grain that is migrated is counted: what moves it leaves the channels as they were (R406). -/
theorem migrationGrain_bound {g : Migration} (hg : s.memsys.migs[ch]? = some g) (hbusy : g.busy = true)
    (hmore : g.bnd < migSize g / 32) :
    ∃ t, execMigrationGrain ch s = .next t ∧ (t.memsys.migs[ch]?).map (·.bnd) = some (g.bnd + 1) := by
  have hgo : ¬ (!g.busy || decide (migSize g / 32 ≤ g.bnd)) = true := by simp [hbusy, hmore]
  generalize hstep : execMigrationGrain ch s = o
  unfold execMigrationGrain at hstep
  rw [hg] at hstep
  dsimp -zeta only at hstep
  rw [if_neg hgo] at hstep
  extract_lets a d s1 rd bytes bad s2 s3 stored s4 s5 last at hstep
  have hstored : tables stored = tables s3 := homeStore_tables ..
  have h4 : tables s4 = tables s3 := by
    simp only [s4]
    split
    · split
      · exact (poisonHome_tables ..).trans hstored
      · exact hstored
    · rfl
  have h5 : tables s5 = tables s4 := by
    simp only [s5]
    split
    · exact cutHome_tables ..
    · rfl
  have hmigs : s5.memsys.migs = s.memsys.migs :=
    migs_of_tables (h5.trans (h4.trans ((engNote_tables ..).trans ((engNote_tables ..).trans (settleGrain_tables ..)))))
  refine ⟨_, hstep.symm, ?_⟩
  rw [modMig, getElem?_lmod_same (hmigs ▸ hg)]
  rfl

end Sys2Proof.Machine
end

section
/-! PROOF. Context and migration events happen. -/

namespace Sys2Proof.Machine

open Sys2Proof

variable {s : State} {m : Master} {ctx ch reg : Nat}

theorem happens_cctlWrite (hctx : ctx < 64) (h : MayWrite s m (0x100 * ctx + 0x10)) (v : Word) :
    Happens (.cctlWrite m ctx v) s (writeCctl s ctx v.toNat) := by
  change execCctlWrite m ctx v s = _
  rw [execCctlWrite, if_neg (Nat.not_le.mpr hctx), masterWrite_ctx hctx (by decide) (by decide) h, BitVec.ofNat_toNat,
    BitVec.setWidth_eq]
  rfl

theorem happens_kill (hctx : ctx < 64) (h : MayWrite s m (0x100 * ctx + 0x38)) :
    Happens (.kill m ctx) s (writeCstat s ctx 0x40) := by
  change execKill m ctx s = _
  rw [execKill, if_neg (Nat.not_le.mpr hctx), masterWrite_ctx hctx (by decide) (by decide) h]
  rfl

theorem happens_wkick (hctx : ctx < 64) (h : MayWrite s m (0x100 * ctx + 0x38)) :
    Happens (.wkick m ctx) s (writeCstat s ctx 0x80) := by
  change execWkick m ctx s = _
  rw [execWkick, if_neg (Nat.not_le.mpr hctx), masterWrite_ctx hctx (by decide) (by decide) h]
  rfl

theorem happens_cinvGo (hctx : ctx < 64) (h : MayWrite s m (0x100 * ctx + 0x34)) (hgo : (ctxOf s ctx).go = false) :
    Happens (.cinvGo m ctx) s (startInval s ctx) := by
  change execCinvGo m ctx s = _
  rw [execCinvGo, if_neg (Nat.not_le.mpr hctx), masterWrite_ctx hctx (by decide) (by decide) h, ctxWrite_go hgo]

theorem happens_watchdogPeriod (h : s.watched < s.clock / 65536) : Happens .watchdogPeriod s (periodStep s) := by
  change execWatchdogPeriod s = _
  rw [execWatchdogPeriod, if_pos h]

theorem happens_invalidationComplete (hgo : (ctxOf s ctx).go = true)
    (hdone : ∀ a ∈ (ctxOf s ctx).invWait, accessOpen s a = false) :
    Happens (.invalidationComplete ctx) s (modCtx s ctx (fun x => { x with go := false, invWait := [] })) := by
  change execInvalidationComplete ctx s = _
  have hover : (ctxOf s ctx).invWait.any (accessOpen s) = false := List.any_eq_false.mpr fun a ha => by simp [hdone a ha]
  simp only [execInvalidationComplete, hgo, hover, Bool.not_true, Bool.or_self, Bool.false_eq_true, if_false]

theorem getD_migs {g : Migration} (hg : s.memsys.migs[ch]? = some g) : s.memsys.migs.getD ch resetMigration = g := by
  rw [List.getD_eq_getElem?_getD, hg]
  rfl

theorem happens_migrationGo {g : Migration} (hch : ch < 8) (h : MayWrite s m (0x50000 + 0x20 * ch + 0x10))
    (hg : s.memsys.migs[ch]? = some g) : Happens (.migrationGo m ch) s (migGo s ch) := by
  change execMigrationGo m ch s = _
  rw [execMigrationGo, if_neg (Nat.not_le.mpr hch), masterWrite_mig hch (by decide) (by decide) h, getD_migs hg,
    migWrite_mctl hg (by cases g.lg <;> rfl)]
  cases g.lg <;> rfl

theorem happens_migrationClr {g : Migration} (hch : ch < 8) (h : MayWrite s m (0x50000 + 0x20 * ch + 0x10))
    (hg : s.memsys.migs[ch]? = some g) : Happens (.migrationClr m ch) s (migClr s ch) := by
  change execMigrationClr m ch s = _
  rw [execMigrationClr, if_neg (Nat.not_le.mpr hch), masterWrite_mig hch (by decide) (by decide) h, getD_migs hg,
    migWrite_mctl hg (by cases g.lg <;> rfl)]
  cases g.lg <;> rfl

theorem happens_migrationDone {g : Migration} {t : Nat} (hg : s.memsys.migs[ch]? = some g) (hended : g.ended = some t)
    (hover : t + 4096 ≤ s.clock) :
    Happens (.migrationDone ch) s
      (report (modMig s ch (fun m => { m with done := true, ended := none })) 0 ⟨0x0D, 0, none, none, noUnit, ch, 0⟩) := by
  change execMigrationDone ch s = _
  simp only [execMigrationDone, hg, Option.bind_some, hended, if_pos hover]

/-- Settles O46: a write reaches its register; what ends packets and contexts leaves the number of contexts, and what moves a grain
the channels, so the fenced context and the counted grain are there to be changed. -/
theorem contextEventsComplete : Obligations.ContextEventsComplete := by
  unfold Obligations.ContextEventsComplete
  refine ⟨fun m ctx v s hctx h => happens_cctlWrite hctx h v, fun m ctx s hctx h => happens_kill hctx h,
    fun m ctx s hctx h => happens_wkick hctx h, fun s h => ?period, ?fence, fun m ctx s hctx h hgo => happens_cinvGo hctx h hgo,
    fun ctx s hgo hdone => happens_invalidationComplete hgo hdone, fun m ch s g hch h hg => happens_migrationGo hch h hg,
    fun m ch s g hch h hg => happens_migrationClr hch h hg, fun ch s g hg hbusy hmore => migrationGrain_bound hg hbusy hmore,
    fun ch t s g hg hended hover => happens_migrationDone hg hended hover⟩
  case period =>
    have hstep := happens_watchdogPeriod h
    rwa [periodStep] at hstep
  case fence =>
    intro ctx s hctx hfencing hidle
    refine ⟨fun hopen => execFenceComplete_open hfencing hidle hopen, fun hopen => ?_⟩
    obtain ⟨info, hstep⟩ := execFenceComplete_ended hfencing hidle hopen
    refine ⟨_, hstep, ?_⟩
    rw [ctxOf_fenceComplete hctx info]
    exact ⟨rfl, fencedCtx_cstat _⟩

end Sys2Proof.Machine
end

section
/-! PROOF. Reset: memory, and the state after it (R457). -/

namespace Sys2Proof.Machine

open Sys2Proof

/-- Settles O10: the memory of the reset state has no cell. -/
theorem memoryCanonicalAtReset : Obligations.MemoryCanonicalAtReset := by
  unfold Obligations.MemoryCanonicalAtReset
  exact rfl

/-- The units of each kind in the reset state are copies of one. -/
theorem reset_units :
    State.reset.cores = List.replicate 192 resetCore ∧ State.reset.slices = List.replicate 128 resetSlice ∧
      State.reset.ctxs = List.replicate 64 resetCtx ∧ State.reset.queues = List.replicate 512 resetQueue := ⟨rfl, rfl, rfl, rfl⟩

/-- Settles O58: every unit of the reset state is the reset unit of its kind, and a device reset boots
the package from them. -/
theorem resetState : Obligations.ResetState := by
  unfold Obligations.ResetState
  obtain ⟨hcores, hslices, hctxs, hqueues⟩ := reset_units
  rw [hcores, hslices, hctxs, hqueues]
  refine ⟨rfl, rfl, rfl, rfl, rfl, List.length_replicate, List.length_replicate, List.length_replicate, List.length_replicate,
    ?contexts, ?queues, ?cores, ?slices, fun _ => rfl, rfl, rfl, ?boot⟩
  case contexts =>
    intro c hc
    obtain rfl := List.eq_of_mem_replicate hc
    exact ⟨rfl, rfl, rfl, rfl, rfl, rfl⟩
  case queues =>
    intro q hq
    obtain rfl := List.eq_of_mem_replicate hq
    exact ⟨rfl, rfl, rfl⟩
  case cores =>
    intro c hc
    obtain rfl := List.eq_of_mem_replicate hc
    exact ⟨rfl, rfl, rfl, rfl⟩
  case slices =>
    intro y hy
    obtain rfl := List.eq_of_mem_replicate hy
    exact ⟨rfl, rfl⟩
  case boot =>
    exact fun s => ⟨bootState s true, deviceReset_happens (by decide) fun h => absurd h (by decide), rfl, rfl, rfl, rfl⟩

end Sys2Proof.Machine
end

section
/-! SUPPORT. What fences and records leave (R390, R439), and the contexts that a fatal error leaves (R443). -/

namespace Sys2Proof.Machine

open Sys2Proof

variable {s t : State} {c : Nat}

/-- What neither a fence nor a record moves: the security processor, power, the event queue's base and the cores' runs. -/
def steady (s : State) : Sec × Power × Nat × List (List (Option Run)) :=
  (s.sec, s.power, s.port.evbase, s.cores.map (·.runs))

theorem sec_of_steady (h : steady t = steady s) : t.sec = s.sec := congrArg Prod.fst h

theorem power_of_steady (h : steady t = steady s) : t.power = s.power := congrArg (·.2.1) h

theorem evbase_of_steady (h : steady t = steady s) : t.port.evbase = s.port.evbase := congrArg (·.2.2.1) h

theorem runs_of_steady (h : steady t = steady s) : t.cores.map (·.runs) = s.cores.map (·.runs) := congrArg (·.2.2.2) h

/-- Steps over a list leave what each of them leaves. -/
theorem foldl_steady {α : Type} {f : State → α → State} (h : ∀ s a, steady (f s a) = steady s) (l : List α) (s : State) :
    steady (l.foldl f s) = steady s :=
  List.foldlRecOn (motive := fun t => steady t = steady s) l f rfl fun t ht a _ => (h t a).trans ht

theorem startFence_steady (s c f) : steady (startFence s c f) = steady s := by
  unfold startFence
  dsimp only
  split
  · rfl
  · refine Eq.trans ?_ (foldl_steady (f := dropParked) (fun _ _ => rfl) (warpIdsOfCtx s c) s)
    simp only [steady, modCtx, List.map_map, Function.comp_def]

theorem report_steady (s die e) : steady (report s die e) = steady s := by
  unfold report
  dsimp only
  split
  · rfl
  · split
    · split
      · exact startFence_steady ..
      · rfl
    · rfl

/-- A grain that is poisoned leaves the event queue where it is (R431). -/
theorem uncorrectedGrain_evbase (s : State) (a : Nat) : (uncorrectedGrain s a).port.evbase = s.port.evbase := by
  have hrecord (s : State) (die : Nat) (e : EventRec) := evbase_of_steady (report_steady s die e)
  unfold uncorrectedGrain
  extract_lets die frame s1 s2 again s3 x
  have hreported : s2.port.evbase = s.port.evbase := hrecord ..
  split
  · exact hreported
  · split
    · exact (hrecord ..).trans hreported
    · exact hreported

/-- A context that is fenced or being fenced. -/
def FenceBegun (s : State) (c : Nat) : Prop := (ctxOf s c).fencing = true ∨ (ctxOf s c).cstat.getLsbD 0 = true

theorem fenceBegun_startFence (hc : c < s.ctxs.length) : FenceBegun (startFence s c id) c := by
  obtain ⟨hcstat, hfencing⟩ := ctxOf_startFence_same hc id
  cases hopen : (ctxOf s c).cstat.getLsbD 0 with
  | false => exact .inl (hfencing hopen)
  | true => exact .inr (hcstat ▸ hopen)

theorem foldl_dropParked_ctxs (s : State) (l : List Nat) : (l.foldl dropParked s).ctxs = s.ctxs :=
  List.foldlRecOn (motive := fun t : State => t.ctxs = s.ctxs) l _ rfl fun _ ht _ _ => ht

/-- A fence changes no other context. -/
theorem ctxOf_startFence_other {d : Nat} (h : c ≠ d) (f : Word → Word) : ctxOf (startFence s d f) c = ctxOf s c := by
  unfold startFence
  dsimp only
  split
  · exact getD_lmod_other _ h _ _
  · refine (getD_lmod_other _ h _ _).trans ?_
    rw [foldl_dropParked_ctxs]
    rfl

theorem FenceBegun.startFence (h : FenceBegun s c) (hc : c < s.ctxs.length) (d : Nat) : FenceBegun (startFence s d id) c := by
  by_cases hd : c = d
  · subst hd
    exact fenceBegun_startFence hc
  · rwa [FenceBegun, ctxOf_startFence_other hd]

/-- Fences of a list of contexts leave each of them fenced or being fenced (R390). -/
theorem fenceBegun_foldl {l : List Nat} (hl : c ∈ l) (hc : c < s.ctxs.length) :
    FenceBegun (l.foldl (fun s c => startFence s c id) s) c := by
  have hlen (s : State) (d : Nat) : (startFence s d id).ctxs.length = s.ctxs.length := length_ctxs_of_tables (startFence_tables ..)
  obtain ⟨before, after, rfl⟩ := List.append_of_mem hl
  rw [List.foldl_append, List.foldl_cons]
  have hthere : c < (before.foldl (fun s c => startFence s c id) s).ctxs.length :=
    List.foldlRecOn (motive := fun t : State => c < t.ctxs.length) before _ hc fun t ht d _ => (hlen t d).symm ▸ ht
  refine (List.foldlRecOn (motive := fun t : State => c < t.ctxs.length ∧ FenceBegun t c) after _
    ⟨(hlen ..).symm ▸ hthere, fenceBegun_startFence hthere⟩ fun t ht d _ => ?_).2
  exact ⟨(hlen t d).symm ▸ ht.1, ht.2.startFence ht.1 d⟩

/-- The first fatal error, before it fences the contexts (R443). -/
def stoppedBy (s : State) (e : EventRec) : State :=
  { s with
    cores := s.cores.map (fun c => { c with runs := [none, none, none, none] })
    sec := { s.sec with fatal := some e.typ, fatalRecord := eventBytes e s.clock, dump := some 0 } }

theorem fatal_first {e : EventRec} (h : s.sec.fatal = none) :
    fatal s e = (List.range 64).foldl (fun s c => startFence s c id) (stoppedBy s e) := by
  simp only [fatal, h, Option.isSome_none, Bool.false_eq_true, if_false, stoppedBy]

theorem fatal_again {e : EventRec} (h : s.sec.fatal.isSome = true) : fatal s e = s := if_pos h

theorem fatal_first_steady {e : EventRec} (h : s.sec.fatal = none) : steady (fatal s e) = steady (stoppedBy s e) := by
  rw [fatal_first h]
  exact foldl_steady (fun s c => startFence_steady s c id) _ _

/-- The first fatal error keeps its record and begins the dump (R443). -/
theorem fatal_first_sec {e : EventRec} (h : s.sec.fatal = none) :
    (fatal s e).sec = { s.sec with fatal := some e.typ, fatalRecord := eventBytes e s.clock, dump := some 0 } :=
  sec_of_steady (fatal_first_steady h)

/-- It stops every run. -/
theorem fatal_first_runs {e : EventRec} (h : s.sec.fatal = none) {k : Core} (hk : k ∈ (fatal s e).cores) :
    k.runs = [none, none, none, none] := by
  have hruns : k.runs ∈ (stoppedBy s e).cores.map (·.runs) :=
    runs_of_steady (fatal_first_steady h) ▸ List.mem_map_of_mem hk
  simp only [stoppedBy, List.map_map, List.mem_map, Function.comp_apply] at hruns
  obtain ⟨-, -, hruns⟩ := hruns
  exact hruns.symm

/-- It leaves every context fenced or being fenced. -/
theorem fatal_first_fences {e : EventRec} (h : s.sec.fatal = none) (hc : c < 64) (hthere : c < s.ctxs.length) :
    FenceBegun (fatal s e) c := by
  rw [fatal_first h]
  exact fenceBegun_foldl (List.mem_range.mpr hc) hthere

/-- After a fatal error the package has one (R443). -/
theorem fatal_isSome (s : State) (e : EventRec) : (fatal s e).sec.fatal.isSome = true := by
  cases h : s.sec.fatal with
  | none => rw [fatal_first_sec h]; rfl
  | some old => rw [fatal_again (by rw [h]; rfl), h]; rfl

theorem fatal_power (s : State) (e : EventRec) : (fatal s e).power = s.power := by
  cases h : s.sec.fatal with
  | none => exact (power_of_steady (fatal_first_steady h)).trans rfl
  | some old => rw [fatal_again (by rw [h]; rfl)]

end Sys2Proof.Machine
end

section
/-! PROOF. Errors, the event queue, the dump and the reel happen (O48). -/

namespace Sys2Proof.Machine

open Sys2Proof

variable {s : State} {m : Master}

/-- A corrected error adds to the count of its unit and structure, where its die is there (R431). -/
theorem correctedError_counts (u : ErrUnit) (code n : Nat) (s : State) :
    ∃ t, Happens (.correctedError u code n) s t ∧ (unitDie u < s.dies.length →
      (tget (dieOf t (unitDie u)).corrected (errKey u code)).map Prod.snd =
        some (((tget (dieOf s (unitDie u)).corrected (errKey u code)).getD (0, 0)).2 + n)) := by
  refine ⟨_, rfl, fun hdie => ?_⟩
  rw [dieOf_modDie_same hdie, tget_tput_same]
  rfl

/-- The errors counted since the last report are reported once its 2^24 clocks have passed (R431). -/
theorem correctedErrorReport_happens {u : ErrUnit} {code last n : Nat}
    (hcount : tget (dieOf s (unitDie u)).corrected (errKey u code) = some (last, n)) (hn : n ≠ 0)
    (hdue : last = 0 ∨ last - 1 + 2 ^ 24 ≤ s.clock) :
    Happens (.correctedErrorReport u code) s
      (report (modDie s (unitDie u) (fun d => { d with corrected := tput d.corrected (errKey u code) (s.clock + 1, 0) })) (unitDie u)
        ⟨0x01, 0, none, none, u, code, n⟩) := by
  have hgo : ¬ (n = 0 ∨ (last ≠ 0 ∧ s.clock < last - 1 + 2 ^ 24)) := by omega
  change execCorrectedErrorReport u code s = _
  simp only [execCorrectedErrorReport, hcount, if_neg hgo]

/-- An uncorrected error of HBM poisons its grain, and is fatal besides in the event queue's region (R431, R443). -/
theorem uncorrectedError_hbm {a k : Nat} (h : placeOf s a = .hbm k) :
    Happens (.uncorrectedError (.hbm a)) s (if inEventQueue s a then
      fatal (uncorrectedGrain s (a / 32 * 32)) ⟨0x02, 2, none, some (a / 32 * 32, false), memUnit a, 1, 0⟩
    else uncorrectedGrain s (a / 32 * 32)) := by
  have hqueue : inEventQueue (uncorrectedGrain s (a / 32 * 32)) a = inEventQueue s a := by
    simp only [inEventQueue, uncorrectedGrain_evbase]
  change execUncorrectedError (.hbm a) s = _
  simp only [execUncorrectedError, h, queueError, hqueue]

/-- The oldest record of a die's store enters the event queue (R439). -/
theorem eventStoreRetry_happens {die : Nat} {r : List Byte} {rs : List (List Byte)} (hroom : evCount s < 8192)
    (hstore : (dieOf s die).store = r :: rs) (hdrops : s.port.drops = 0) :
    Happens (.eventStoreRetry die) s (pushEvent (modDie s die (fun d => { d with store := rs })) r) := by
  change execEventStoreRetry die s = _
  rw [execEventStoreRetry, if_neg (Nat.not_le.mpr hroom), hstore]
  exact if_pos hdrops

/-- A permitted write of EVHEAD (R438). -/
theorem evheadWrite_happens (v : Word) (h : MayWrite s m 0x60008) : Happens (.evheadWrite m v) s (evWrite s 0x08 v) := by
  change execEvheadWrite m v s = _
  rw [execEvheadWrite, masterWrite_register (by decide) h (by decide) (by decide), BitVec.ofNat_toNat, BitVec.setWidth_eq]
  rfl

/-- A permitted read of EVSTAT clears LOST, whether or not a host function sees the value (R438). -/
theorem evstatLostRead_clears (hperm : permits s (midOf s m) (mmioBase + 0x60010) true false = true) (hready : s.sec.ready = true) :
    ∃ t, Happens (.evstatLostRead m) s t ∧ t.port.lost = 0 := by
  refine ⟨masterRead s m 0x60010 4, rfl, ?_⟩
  rw [masterRead_register hperm hready (by decide)]
  split <;> rfl

/-- The first fatal error's record, runs, dump and fences (R443). -/
theorem fatalError_first (cause : Nat) (h : s.sec.fatal = none) :
    ∃ t, Happens (.fatalError cause) s t ∧ t.sec.fatal = some cause ∧ t.sec.dump = some 0 ∧
      (∃ i0 i1, t.sec.fatalRecord = eventBytes ⟨cause, 2, none, none, noUnit, i0, i1⟩ s.clock) ∧
      (∀ c ∈ t.cores, c.runs = [none, none, none, none]) ∧
      (∀ c, c < 64 → c < s.ctxs.length → FenceBegun t c) := by
  refine ⟨fatalType s cause, rfl, ?_⟩
  rw [fatalType]
  generalize Config.freeNat s.free % 2 ^ 32 = i0
  generalize Config.freeNat (s.free + 1) % 2 ^ 32 = i1
  have hfirst : ({ s with free := s.free + 2 } : State).sec.fatal = none := h
  have hsec := fatal_first_sec (e := ⟨cause, 2, none, none, noUnit, i0, i1⟩) hfirst
  refine ⟨?_, ?_, ⟨i0, i1, ?_⟩, fun c hc => fatal_first_runs hfirst hc, fun c hc hthere => fatal_first_fences hfirst hc hthere⟩ <;>
    rw [hsec]

/-- A second one changes only the count of free values (R443). -/
theorem fatalError_again {old : Nat} (cause : Nat) (h : s.sec.fatal = some old) :
    Happens (.fatalError cause) s { s with free := s.free + 2 } :=
  congrArg Host.Outcome.next (fatal_again (by rw [h]; rfl))

theorem report_dump {status : Nat} (h : s.sec.dump = some status) (die : Nat) (e : EventRec) :
    (report s die e).sec.dump = some status :=
  (congrArg Sec.dump (sec_of_steady (report_steady s die e))).trans h

/-- The dump ends with its status, which its record leaves (R443). -/
theorem writeDump_dump (s : State) (cause status : Nat) : (writeDump s cause status).sec.dump = some status := by
  unfold writeDump
  extract_lets
  refine report_dump ?_ _ _
  with_reducible rfl

/-- A dump under way is complete (R443). -/
theorem dumpComplete_happens {cause : Nat} (hfatal : s.sec.fatal = some cause) (hdump : s.sec.dump = some 0) :
    ∃ t, Happens (.dumpComplete 1) s t ∧ t.sec.dump = some 1 := by
  refine ⟨writeDump s cause 1, ?_, writeDump_dump ..⟩
  change execDumpComplete 1 s = _
  simp only [execDumpComplete, hfatal, hdump]
  rfl

/-- At 115 degrees the removal of power is asked for, and the error is fatal (R468). -/
theorem overheated_fatal (h : 115 ≤ s.power.temp) :
    (overheated s).sec.fatal.isSome = true ∧ (overheated s).power.removal = true := by
  rw [overheated, if_neg (Nat.not_lt.mpr h), fatalType]
  exact ⟨fatal_isSome .., congrArg Power.removal (fatal_power ..)⟩

/-- The hub die's next chunk is copied (R445). -/
theorem reelChunk_happens {hub : Nat} {j : ReelJob} {c : Nat × Nat} (hjob : s.sec.reel = some j)
    (hnext : j.left.find? (fun c => hubChunk j hub c.1) = some c) : Happens (.reelChunk hub) s (reelCopy s c.1 c.2) := by
  change execReelChunk hub s = _
  simp only [execReelChunk, hjob, Option.bind_some, hnext]

/-- A job without a chunk left posts its packet (R446). -/
theorem reelComplete_happens {j : ReelJob} (hjob : s.sec.reel = some j) (hleft : j.left = []) :
    Happens .reelComplete s (reelPost { s with sec := { s.sec with
      reel := none, reelDone := s.sec.reelDone ++ [(j.queue, reelPacket j.jobid (if j.fenced then 2 else 0) j.copied j.poisoned)] } }) := by
  change execReelComplete s = _
  simp only [execReelComplete, hjob, hleft, List.isEmpty_nil, Bool.not_true, Bool.false_eq_true, if_false]

/-- Settles O48: each event passes the guards of its meaning; fences and records leave the security processor, power and the event
queue's base, so the fatal error's record, the dump and the request to remove power stand behind them. -/
theorem rasEventsComplete : Obligations.RasEventsComplete := by
  unfold Obligations.RasEventsComplete
  refine ⟨correctedError_counts, ?report, ?grain, ?queueGrain, fun _ _ _ => rfl, fun _ _ _ => rfl, fun _ _ _ => rfl, ?retry, ?evhead,
    ?lost, ?fatal, ?again, ?dump, ?cool, ?hot, ?chunk, ?complete, fun _ => rfl⟩
  case report => exact fun _ _ _ _ _ => correctedErrorReport_happens
  case grain =>
    intro a k s hout hplace
    have hstep := uncorrectedError_hbm hplace
    rwa [hout] at hstep
  case queueGrain =>
    intro a k s hin hplace
    have hstep := uncorrectedError_hbm hplace
    rwa [hin] at hstep
  case retry => exact fun _ _ _ _ => eventStoreRetry_happens
  case evhead => exact fun _ v _ => evheadWrite_happens v
  case lost => exact fun _ _ => evstatLostRead_clears
  case fatal => exact fun cause _ => fatalError_first cause
  case again => exact fun cause _ _ h => ⟨2, fatalError_again cause h⟩
  case dump => exact fun _ _ => dumpComplete_happens
  case cool => exact fun _ s h => congrArg Host.Outcome.next (overheated_below h)
  case hot => exact fun _ _ h => ⟨_, rfl, overheated_fatal h⟩
  case chunk => exact fun _ _ _ _ => reelChunk_happens
  case complete => exact fun _ _ => reelComplete_happens

end Sys2Proof.Machine
end

section
/-! PROOF. The host port, the fabric and the Ethernet ports happen (O47). -/

namespace Sys2Proof.Machine

open Sys2Proof

section Host

variable {r : HostReq} {s : State}

/-- What a host access to memory does that is not function 0's read of the dump (R411 to R413). -/
theorem hostAccess_memory {a : Nat} (hfn : fnPresent s r.fn = true) (hbar0 : r.bar ≠ 0) (hbar7 : r.bar ≠ 7)
    (ha : barAddr r.bar r.off = some a) (hrecov : s.sec.recov = false) (hdump : dumpOpen s r = false) :
    execHostAccess r s =
      if r.write then if s.sec.fatal.isSome then .next s else .next (outWrite s 0 (hostMaster r.fn) none a (r.data.take r.size)).2
      else
        let t := outRead s 0 (hostMaster r.fn) none a r.size
        .next (hostReply t.2.2.2 r.fn t.1 t.2.1) := by
  simp only [execHostAccess, hfn, hbar0, hbar7, ha, hrecov, hdump, Bool.not_true, Bool.false_eq_true, if_false]

theorem hostAccess_bar0 (hfn : fnPresent s r.fn = true) (hbar : r.bar = 0) : Happens (.hostAccess r) s (bar0Access s r) := by
  change execHostAccess r s = _
  simp [execHostAccess, hfn, hbar]

theorem hostAccess_config (hfn : fnPresent s r.fn = true) (hbar : r.bar = 7) : Happens (.hostAccess r) s (configAccess s r) := by
  change execHostAccess r s = _
  simp [execHostAccess, hfn, hbar]

/-- A message that its function is owed is sent once the function's gap has passed (R440). -/
theorem msixMessage_happens {fn : Nat} (howed : fn ∈ s.port.owed)
    (hgap : ∀ t, tget s.port.lastMsg fn = some t → t + 256 * s.port.gap ≤ s.clock) (hfn : fn ≤ s.port.vfs) :
    Happens (.msixMessage fn) s { s with port := { s.port with
      owed := paidMessage s.port.gap fn s.port.owed, messages := fn :: s.port.messages, lastMsg := tput s.port.lastMsg fn s.clock } } := by
  have hpassed : gapPassed s fn = true := by
    unfold gapPassed
    cases hlast : tget s.port.lastMsg fn with
    | none => rfl
    | some t => exact decide_eq_true (hgap t hlast)
  change execMsixMessage fn s = _
  simp only [execMsixMessage, List.contains_iff_mem.mpr howed, hpassed, Nat.not_lt.mpr hfn, Bool.not_true, Bool.or_self,
    Bool.false_eq_true, if_false]

end Host

section Peers

variable {s : State}

/-- What a package that is in its domain, ready and without a fatal error does with a peer's read or write (R417). -/
theorem peerRequest_served {r : PeerReq} (hfatal : s.sec.fatal = none) (hpkgv : s.fabric.pkgv = true) (hready : s.sec.ready = true) :
    let mid := 16 * (r.mid % 256) + 9
    let a := apertureAddr (r.addr % 2 ^ 43)
    let hub := r.link / 8 % 4
    (r.op = .read → let t := outRead s hub mid none a r.size
      Happens (.peerRequest r) s (answerPeer t.2.2.2 r t.2.1 t.1)) ∧
    (r.op = .write → Happens (.peerRequest r) s (answerPeer (outWrite s hub mid none a (r.data.take r.size)).2 r false [])) := by
  have hserved : (s.sec.fatal.isSome || !s.fabric.pkgv || !s.sec.ready) = false := by simp [hfatal, hpkgv, hready]
  intro mid a hub
  refine ⟨fun hop => ?_, fun hop => ?_⟩ <;>
  · change execPeerRequest r s = _
    simp only [execPeerRequest, hserved, hop, Bool.false_eq_true, if_false]
    rfl

/-- A request that has waited 4 194 304 clocks, or has no link, completes with poison (R418). -/
theorem lanyardTimeout_happens {id : Nat} {r : LyReq} (hreq : tget s.fabric.lanyard id = some r)
    (hover : r.sent + 4194304 ≤ s.clock ∨ s.fabric.lyup = 0) :
    Happens (.lanyardTimeout id) s (report (lanyardDone s id r (List.replicate 512 0) true) 0 ⟨0x0C, 1, none, none, noUnit, r.pkg, 0⟩) := by
  have hgo : ¬ (s.clock < r.sent + 4194304 ∧ s.fabric.lyup ≠ 0) := fun ⟨hearly, hup⟩ =>
    hover.elim (Nat.not_le.mpr hearly) hup
  change execLanyardTimeout id s = _
  simp only [execLanyardTimeout, hreq, if_neg hgo]

/-- What the answer to a request does, in time or too late (R418). -/
theorem lanyardResponse_eq {id : Nat} {r : LyReq} (hreq : tget s.fabric.lanyard id = some r) (data : List Byte) (poison : Bool) :
    execLanyardResponse id data poison s =
      if r.sent + 4194304 ≤ s.clock then .next s else .next (lanyardDone s id r (data ++ List.replicate 512 0) poison) := by
  simp only [execLanyardResponse, hreq]

/-- An expander that is there is fenced (R410). -/
theorem expanderFence_happens {x : Nat} (h : s.memsys.expFenced[x]? = some false) : Happens (.expanderFence x) s
    (report { s with memsys := { s.memsys with expFenced := lset s.memsys.expFenced x true } } (x / 4)
      ⟨0x06, 1, none, none, ⟨4, x⟩, 0, 0⟩) := by
  have hthere : s.memsys.expFenced.getD x true = false := by rw [List.getD_eq_getElem?_getD, h]; rfl
  change execExpanderFence x s = _
  simp only [execExpanderFence, hthere, Bool.false_eq_true, if_false]

/-- A stack of HBM that is there is lost (R433). -/
theorem hbmStackLoss_happens {k : Nat} (hk : k < 32) (hthere : k ∉ s.memsys.lostStacks) : Happens (.hbmStackLoss k) s
    (report { s with memsys := { s.memsys with lostStacks := k :: s.memsys.lostStacks } } (k / 16) ⟨0x06, 1, none, none, ⟨3, k⟩, 0, 0⟩) := by
  have hgo : ¬ (decide (32 ≤ k) || s.memsys.lostStacks.contains k) = true := by simp [hk, hthere]
  change execHbmStackLoss k s = _
  exact if_neg hgo

end Peers

section Collectives

variable {s : State} {x : CollGroup}

/-- A packet of another member, or the result, enters its step (R421, R424). -/
theorem collContribution_other {c : CollPart} (hgroup : findGroup (settleGroups s) c.ctx c.group = some x)
    (hrank : c.rank ≤ x.members.length) (hother : c.rank ≠ x.myRank) :
    Happens (.collContribution c) s (collStep (addPart (settleGroups s) c) x c.ctx c.step) := by
  change execCollContribution c s = _
  simp only [execCollContribution, hgroup, if_neg (Nat.not_lt.mpr hrank), if_neg hother]

/-- This package's own contribution enters its step once (R421, R424). -/
theorem collContribution_own {c : CollPart} {k : CopyCmd} (hgroup : findGroup (settleGroups s) c.ctx c.group = some x)
    (hrank : c.rank ≤ x.members.length) (hown : c.rank = x.myRank)
    (hcopy : ownColl (settleGroups s) c.ctx c.group c.step = some k)
    (hnew : ∀ e ∈ (settleGroups s).fabric.colls, e.2.copy ≠ some k.id) :
    Happens (.collContribution c) s (collStep (enterOwn (settleGroups s) x k) x c.ctx c.step) := by
  have hfirst : (settleGroups s).fabric.colls.any (fun e => e.2.copy == some k.id) = false :=
    List.any_eq_false.mpr fun e he => by simpa using hnew e he
  change execCollContribution c s = _
  simp only [execCollContribution, hgroup, if_neg (Nat.not_lt.mpr hrank), if_pos hown, hcopy, hfirst, Bool.false_eq_true, if_false]

section Result

variable {id k : Nat} {r : CollRun} {c : CopyCmd} {own : CollPart} (hrun : tget s.fabric.colls id = some r) (hcopy : r.copy = some k)
  (hcmd : tget s.net.copies k = some c) (hgroup : findGroup s r.ctx r.group = some x)
  (hown : r.parts.find? (fun p => p.rank == x.myRank) = some own)

include hrun hcopy hcmd hgroup hown

/-- A result of another operation than this package's fails the slot (R421). -/
theorem collResult_fails (hbad : ∃ p ∈ r.parts, p.rank = x.members.length ∧ differs own p = true) :
    Happens (.collResult id) s (failCopy (modFab s (fun f => { f with colls := terase f.colls id })) c.id (cILL, 0, c.w0)) := by
  have hany : r.parts.any (fun p => p.rank == x.members.length && differs own p) = true := by
    obtain ⟨p, hp, hrank, hdiffers⟩ := hbad
    exact List.any_eq_true.mpr ⟨p, hp, by rw [hdiffers, beq_iff_eq.mpr hrank]; rfl⟩
  change execCollResult id s = _
  simp only [execCollResult, hrun, hcopy, hcmd, hgroup, hown, hany, Option.bind_some, Option.map_some, if_true]

/-- A result that has come whole is this package's to write (R421 to R424). -/
theorem collResult_writes {w : List (Option Nat)} (hgood : ∀ p ∈ r.parts, p.rank = x.members.length → differs own p = false)
    (hwhole : rankElems r.parts x.members.length (resultLen own.kind x.members.length own.count) = some w) :
    Happens (.collResult id) s (modCopy (modFab s (fun f => { f with colls := terase f.colls id })) c.id (fun c => { c with
      buf := (ownResult x own w).flatMap (fun e => (toBytes (collSize own.ty) (e.getD 0)).map (fun b => (b, e.isNone))) })) := by
  have hany : r.parts.any (fun p => p.rank == x.members.length && differs own p) = false :=
    List.any_eq_false.mpr fun p hp => by simpa using hgood p hp
  change execCollResult id s = _
  simp only [execCollResult, hrun, hcopy, hcmd, hgroup, hown, hany, hwhole, Option.bind_some, Option.map_some, Bool.false_eq_true,
    if_false]

end Result

end Collectives

section Rdma

variable {s : State} {qp idx : Nat} {p : QPair} (hqp : tget s.fabric.qps qp = some p)

/-- The oldest pending request, picked by its index. -/
theorem filter_pending_head {e : Nat × List Byte} (hhead : p.pending.head? = some e) (hidx : e.1 = idx) :
    p.pending.head?.filter (fun e => e.1 == idx) = some e := by
  rw [hhead]
  exact Option.filter_some_pos (beq_iff_eq.mpr hidx)

include hqp

/-- The next entry of the send ring, valid, is taken and sent (R427). -/
theorem rdmaRingPoll_sends (hfatal : s.sec.fatal = none) (hup : s.fabric.enup.getLsbD p.port = true) :
    let t := outRead s (qpHub p) (qpMaster s p) (some p.ctx) (p.sendBase + 64 * (p.sendIdx % 2 ^ p.sendLog)) 64
    t.2.1 = false → recField t.1 1 1 % 2 = passParity p.sendIdx p.sendLog → workWaits s p t.1 = false → workOk p false t.1 = true →
    Happens (.rdmaRingPoll qp 0) s (sendWork (modQp t.2.2.2 qp (fun p' => { p' with sendIdx := p.sendIdx + 1 })) qp p p.sendIdx t.1) := by
  intro t hclean hparity hturn hwork
  change execRdmaRingPoll qp 0 s = _
  simp only [execRdmaRingPoll, hqp, show ((0 : Nat) == 1) = false from rfl, Bool.false_eq_true, if_false]
  rw [if_neg (by simp [hfatal, hup]), if_neg (by simp [t, hclean, hparity, hturn])]
  exact if_neg (by simpa [t] using hwork)

/-- A peer's WRITE that carries the RKEY acts on the queue pair's context (R466). -/
theorem rdmaInbound_writes {r : RdmaReq} (hr : r.qp = qp) (hkey : p.rkey = r.rkey) (hconn : p.datagram = false)
    (hup : s.fabric.enup.getLsbD p.port = true) (hfatal : s.sec.fatal = none) (hwrite : r.write = true) :
    Happens (.rdmaInbound r) s (outWrite s (qpHub p) (qpMaster s p) (some p.ctx) r.addr (r.data.take r.size)).2 := by
  subst hr
  change execRdmaInbound r s = _
  simp [execRdmaInbound, hqp, hkey, hconn, hup, hfatal, hwrite]

/-- The answer to the oldest pending request that is no READ completes it (R427). -/
theorem rdmaResponse_completes {r : List Byte} (hhead : p.pending.head? = some (idx, r)) (hread : recField r 0 1 ≠ 2) (data : List Byte) :
    Happens (.rdmaResponse qp idx 0 data) s
      (completeReq (modQp s qp (fun p => { p with pending := p.pending.filter (fun e => e.1 != idx) })) qp false idx r 0
        (recField r 4 4)) := by
  change execRdmaResponse qp idx 0 data s = _
  simp only [execRdmaResponse, hqp, filter_pending_head hhead rfl, Option.bind_some, Option.map_some, ne_eq, not_true_eq_false, if_false,
    hread]

/-- Data that fits the oldest receive entry is written there, and completes it (R426, R427). -/
theorem rdmaInboundSend_completes {data r : List Byte} (hhead : p.recvs.head? = some (idx, r))
    (hup : s.fabric.enup.getLsbD p.port = true) (hfatal : s.sec.fatal = none) (hfits : data.length ≤ recField r 4 4) :
    let t := outWrite (modQp s qp (fun p => { p with recvs := p.recvs.drop 1 })) (qpHub p) (qpMaster
      (modQp s qp (fun p => { p with recvs := p.recvs.drop 1 })) p) (some p.ctx) (recField r 8 8) data
    Happens (.rdmaInboundSend qp data) s (completeReq t.2 qp true idx r (if t.1 then 0 else 3) data.length) := by
  intro t
  change execRdmaInboundSend qp data s = _
  simp only [execRdmaInboundSend, hqp, hhead, Option.bind_some, Option.map_some, hup, hfatal, Option.isSome_none, Bool.true_eq_false,
    Bool.false_eq_true, or_self, if_false, if_neg (Nat.not_lt.mpr hfits), t]

/-- The oldest pending request, its retries exhausted, completes with status 4 (R427). -/
theorem rdmaRetryTimeout_completes {e : Nat × List Byte} (hhead : p.pending.head? = some e) (hidx : e.1 = idx) :
    Happens (.rdmaRetryTimeout qp idx) s
      (completeReq (modQp s qp (fun p => { p with pending := p.pending.filter (fun x => x.1 != idx) })) qp false idx e.2 4 0) := by
  change execRdmaRetryTimeout qp idx s = _
  simp only [execRdmaRetryTimeout, hqp, filter_pending_head hhead hidx, Option.bind_some]

end Rdma

/-- Settles O47: each event passes the guards of its meaning; the loss of a link, a reset of function 0 and the Ethernet links have
none. -/
theorem fabricEventsComplete : Obligations.FabricEventsComplete := by
  unfold Obligations.FabricEventsComplete
  refine ⟨?memory, fun _ _ => hostAccess_bar0, fun _ _ => hostAccess_config, ?flr, fun _ => rfl, fun _ _ => msixMessage_happens, ?peer,
    fun _ _ _ => lanyardTimeout_happens, ?answer, fun _ _ => rfl, fun _ _ => expanderFence_happens, fun _ _ => hbmStackLoss_happens,
    ?contribution, ?result, ?poll, ?inbound, ?response, ?inboundSend, ?retry, fun _ _ _ => rfl⟩
  case memory =>
    intro r a s hfn hbar0 hbar7 ha hrecov hdump
    have hexec := hostAccess_memory hfn hbar0 hbar7 ha hrecov hdump
    refine ⟨fun hwrite hfatal => hexec.trans ?_, fun hread => hexec.trans ?_⟩
    · rw [if_pos hwrite, hfatal]
      rfl
    · rw [hread]
      rfl
  case flr => exact fun _ _ hfn hvf => if_neg (not_or.mpr ⟨hfn, Nat.not_lt.mpr hvf⟩)
  case peer => exact fun _ _ => peerRequest_served
  case answer =>
    intro id data poison s r hreq
    have hexec := lanyardResponse_eq hreq data poison
    exact ⟨fun hearly => hexec.trans (if_neg (Nat.not_le.mpr hearly)), fun hlate => hexec.trans (if_pos hlate)⟩
  case contribution =>
    intro c s x
    exact fun hgroup hrank => ⟨collContribution_other hgroup hrank, fun _ => collContribution_own hgroup hrank⟩
  case result =>
    intro id k s r c x own hrun hcopy hcmd hgroup hown
    exact ⟨collResult_fails hrun hcopy hcmd hgroup hown, fun _ => collResult_writes hrun hcopy hcmd hgroup hown⟩
  case poll => exact fun _ _ _ hqp hfatal hup => rdmaRingPoll_sends hqp hfatal hup
  case inbound => exact fun _ _ _ hqp hkey hconn hup hfatal hwrite => rdmaInbound_writes hqp rfl hkey hconn hup hfatal hwrite
  case response => exact fun _ _ data _ _ _ hqp hhead hread => rdmaResponse_completes hqp hhead hread data
  case inboundSend => exact fun _ _ _ _ _ _ hqp hhead hup hfatal hfits => rdmaInboundSend_completes hqp hhead hup hfatal hfits
  case retry => exact fun _ _ _ _ _ hqp hhead hidx => rdmaRetryTimeout_completes hqp hhead hidx

end Sys2Proof.Machine
end
